-- ==== Sys2Proof/Word.lean ====
section
/-! DEFINITION. The plain types of the model: bytes, 32-bit words, grains, and sparse tables. -/

namespace Sys2Proof

/-- One byte of the Window Memory, of a packet or of a line field (00_scope R10, R11). -/
abbrev Byte := BitVec 8

/-- One 32-bit parameter, reply or register word. -/
abbrev Word := BitVec 32

/-- One grain: 16 bits in one cycle (01 "The path of a grain"). -/
abbrev Grain := BitVec 16

/-- A sparse table: key and value pairs, keys rising, no entry equal to the value an unlisted key reads as. -/
abbrev Tbl (α : Type) := List (Nat × α)

end Sys2Proof
end

