-- ==== Sys2Proof/Syntax.lean ====
section
/-! DEFINITION. The commands of the block: one constructor per row of spec/opcode_table.json, with its operands. -/

namespace Sys2Proof

/-- One decoded command packet (12 Table 12.6) less its opcode, which the constructor names. -/
structure Packet where
  ring      : Nat
  tag       : Word
  abortable : Bool
  /-- bytes 40 to 55 when `AUTH` is 1 -/
  auth      : Option (List Byte)
  /-- byte 2 bits [4:0], reserved -/
  rsv       : Nat
  /-- parameter words 0 to `WORDS` − 1 -/
  params    : List Word
  /-- parameter words from `WORDS` on: ignored, but covered by the authenticator (12 R326, R339) -/
  extra     : List Word
deriving DecidableEq, Repr

/-- One LWP access (13 R354): an aligned 32-bit half word, with byte enables. -/
structure PortEAccess where
  write : Bool
  addr  : Nat
  be    : BitVec 4
  data  : Word
deriving DecidableEq, Repr

/-- One port I access (13 R354): 1 to 256 bytes by Bus Matrix master `master`. -/
structure PortIAccess where
  master : Nat
  write  : Bool
  addr   : Nat
  len    : Nat
  data   : List Byte
deriving DecidableEq, Repr

/-- A check-bit error that an access finds (13 R356). -/
structure EccHit where
  addr          : Nat
  uncorrectable : Bool
deriving DecidableEq, Repr

/-- One Bus Matrix burst (13 R365): 1 to 8 beats of 8 bytes. -/
structure Burst where
  master : Nat
  addr   : Nat
  beats  : Nat
  write  : Bool
  lock   : Bool
  data   : List (BitVec 64)
deriving DecidableEq, Repr

/-- A marker block as received (03 R66 to R71): 1,150 bits before inversion and de-whitening. -/
structure Marker where
  lane    : Nat
  /-- bit position of the block in the lane's stream, modulo 218,750 -/
  pos     : Nat
  bits    : List Bool
  /-- time from the core tick to the lane cycle's first capture write, ps (02 R47) -/
  arrival : Nat
deriving DecidableEq, Repr

/-- Phase of one lane cycle at a core tick (05 R128): `elapsed` of `length` ps of the lane cycle have passed. -/
structure LanePhase where
  lane    : Nat
  elapsed : Nat
  length  : Nat
deriving DecidableEq, Repr

/-- What the device measures at a tick. -/
structure TickMeas where
  phases : List LanePhase
  /-- own frame tick less `FTICK_IN` rising edge, ps; none when the edge is missing or invalid (02 R60) -/
  ftick  : Option Int
  /-- phase error of the selected candidate at the tick, ps (10 R274) -/
  phase  : Int
deriving DecidableEq, Repr

/-- The object of a lane or tributary defect (07 Tables 7.2 and 7.3). -/
inductive DefectObj where
  | lane (l : Nat)
  | ingress (ta : Nat)
  | egress (ta : Nat)
deriving DecidableEq, Repr

/-- A pulse synchroniser: one per event code and object (14 R378). -/
structure EventKey where
  cls   : Nat
  code  : Nat
  index : Nat
deriving DecidableEq, Repr

/-- One candidate's values at a frequency-monitor update (10 R260). -/
structure RefMeas where
  ref   : Nat
  /-- mean offset over the last complete 1 s gate, ppt; none while no gate is complete -/
  gate  : Option Int
  /-- edges present (10 Table 10.3) -/
  edges : Bool
  /-- phase against the DPLL's copy of the event, ps, before R266's reduction -/
  phase : Int
deriving DecidableEq, Repr

/-- What a reference pair shows of its polarity at the pins (15 R409). -/
inductive PairLook where
  /-- nothing is judged -/
  | none
  /-- a single-ended source: whether each leg toggles, the other level being steady -/
  | single (pToggles nToggles : Bool)
  /-- the fraction of each period, over a 1 s gate, during which `_P` lies above `_N`, in 0.01 % -/
  | duty (h : Nat)
deriving DecidableEq, Repr

/-- One pin's measurement by the Field I/O Guard (15 R408, R409). -/
structure GuardMeas where
  pin  : Nat
  /-- 0 none, 1 open, 2 short to ground or legs, 3 short to supply, 5 overvoltage (15 Table 15.18) -/
  kind : Nat
  /-- the voltage read at the pin, mV -/
  mv   : Nat
  /-- what a reference pair shows of its polarity -/
  pol  : PairLook
deriving DecidableEq, Repr

/-- One unit's hourly wear measures (15 Table 15.5). -/
structure WearMeas where
  die   : Nat
  pool  : Nat
  unit  : Nat
  /-- the unit's ring oscillator, 0 to 31 of its die, and its frequency compensated for die temperature -/
  osc   : Option (Nat × Nat)
  /-- corrected errors in the last hour -/
  ecc   : Nat
  /-- bit errors and bits of an edge-link wire in the last hour -/
  wire  : Option (Nat × Nat)
deriving DecidableEq, Repr

/-- Sampled levels of input pins, and the pins whose voltage is outside the recommended range (15 R407, R411). -/
structure PinSense (n : Nat) where
  level : BitVec n
  out   : BitVec n
deriving DecidableEq, Repr

/-- What BOOT or a wake finds at its inputs (16 R427 to R436). -/
structure BootInputs where
  bootMode  : BitVec 3
  fuseOk    : Bool
  xoOk      : Bool
  coreOk    : Bool
  /-- edge dies that the start-up march leaves unrepaired -/
  badDies   : BitVec 4
  cpAOk     : Bool
  cpBOk     : Bool
  cpSOk     : Bool
  spiOk     : Bool
  imageA    : List Byte
  imageB    : List Byte
  storeOk   : Bool
  storeKb   : Nat
  storeId   : Word
  /-- the retention record passes its `FCRC` check in step 7 of a wake (16 R442) -/
  recOk     : Bool
  /-- the flacon passes its `FCRC` check again in step 7 (16 R435) -/
  flaconOk  : Bool
  /-- physical Connection Table blocks that the start-up march finds faulty (06 R159, R186) -/
  connBad   : List Nat
deriving DecidableEq, Repr

/-- A data-plane store word read with an uncorrectable error (13 R357): its store number (13 Table 13.6), bank and address, and the grains
of the word as they are carried on, by destination GA. -/
structure BadWord where
  store  : Nat
  bank   : Nat
  addr   : Nat
  /-- time of the read from the start of the pass, ps -/
  after  : Nat
  grains : List (Nat × Grain)
deriving DecidableEq, Repr

/-- The check-bit results of a pass in the data-plane stores (13 R357): the words beyond correction, and the store of each error that
was corrected. -/
structure WordErrors where
  bad       : List BadWord
  corrected : List Nat
deriving DecidableEq, Repr

/-- What a receiver's adaptation has reached at the end of a 1 ms interval (09 R236); `clean`: the checker met no bit error in it. -/
structure GoodSet where
  coefs : List Int
  clean : Bool
deriving DecidableEq, Repr

/-- By how many symbols the fill of a lane's far-end loop buffer has moved (09 R243). -/
structure LoopWander where
  lane    : Nat
  symbols : Int
deriving DecidableEq, Repr

/-- Mismatches of a PRBS checker (09 R247): since its counts were last brought up to date, and among the last 8,192 bits compared. -/
structure PrbsErrors where
  count  : Nat
  window : Nat
deriving DecidableEq, Repr

/-- Supply rails (16 Table 16.3). -/
inductive Rail where
  | vin12 | vdd3v3 | vddIo18 | vddRet | vddCore | vddEdge | vddaLn | vddhLn
deriving DecidableEq, Repr

/-- JTAG instructions (17 R466). -/
inductive JtagInstr where
  | bypass | idcode | samplePreload | extest | extestPulse | extestTrain
deriving DecidableEq, Repr

/-- The commands of the block, in the order of spec/opcode_table.json. -/
inductive Instr where
  /-- SYS_NOP (R345): Command that does nothing and replies with the FC, cycle and nanosecond offset at decode. -/
  | sysNop (p : Packet)
  /-- SYS_ABORT (R337): Command that aborts the earliest outstanding command with a given tag on a given command ring. -/
  | sysAbort (p : Packet)
  /-- SYS_MODE_SET (R446): Command that requests a change to SERVICE, MAINTENANCE, RETENTION or HALT. -/
  | sysModeSet (p : Packet)
  /-- SYS_MODE_GET (R447): Command that reports the device mode, fences, boot error and the last mode change. -/
  | sysModeGet (p : Packet)
  /-- SYS_FENCE_SET (R448): Command that fences or releases edge dies at an effective cycle. -/
  | sysFenceSet (p : Packet)
  /-- SYS_AUTH_SET (R346): Command that sets whether command authenticators are required and which key slot checks them. -/
  | sysAuthSet (p : Packet)
  /-- SYS_IO_SET (R410): Command that sets GPIO directions and levels, ALM_OUT_N and the input event enables. -/
  | sysIoSet (p : Packet)
  /-- SYS_IO_GET (R411): Command that reports the GPIO and ALM pin levels and their sticky history. -/
  | sysIoGet (p : Packet)
  /-- LANE_FRAME_SET (R93): Command that sets a lane's transmitted ID, RDI and its ID and TMAP_GEN checks. -/
  | laneFrameSet (p : Packet)
  /-- LANE_FRAME_GET (R93): Command that reports a lane's received header values, its seed slots and its alignment. -/
  | laneFrameGet (p : Packet)
  /-- LANE_SEED_SET (R94): Command that writes one transmit or receive seed slot of a lane and can activate it. -/
  | laneSeedSet (p : Packet)
  /-- LANE_MSG_SEND (R95): Command that copies a message into a lane's transmit message queue. -/
  | laneMsgSend (p : Packet)
  /-- LANE_MSG_READ (R96): Command that moves received lane messages from a lane's receive queue into Window Memory. -/
  | laneMsgRead (p : Packet)
  /-- LANE_ALIGN_SET (R115): Command that sets a lane's alignment mode, polarity, thresholds and recovery, and can restart alignment. -/
  | laneAlignSet (p : Packet)
  /-- LANE_ALIGN_GET (R116): Command that reports a lane's alignment state, sillage offset and cycle difference. -/
  | laneAlignGet (p : Packet)
  /-- LANE_DEFECT_SET (R206): Command that sets a lane's defect event enables, FEC_FAIL threshold and integration times. -/
  | laneDefectSet (p : Packet)
  /-- LANE_DEFECT_GET (R206): Command that reports a lane's conditions, declared defects and defect history. -/
  | laneDefectGet (p : Packet)
  /-- LANE_TX_SET (R239): Command that enables or squelches lane transmitters and sets polarity, swing and FFE taps. -/
  | laneTxSet (p : Packet)
  /-- LANE_RX_SET (R250): Command that enables or disables lane receivers and sets the electrical class and adaptation. -/
  | laneRxSet (p : Packet)
  /-- LANE_SERDES_GET (R250): Command that reports a lane's SerDes state and can write its equaliser coefficients to Window Memory. -/
  | laneSerdesGet (p : Packet)
  /-- LANE_LOOP_SET (R241): Command that selects a lane's loop and whether the line is still driven. -/
  | laneLoopSet (p : Packet)
  /-- TRIB_MAP_LOAD (R122): Command that loads a lane's inactive ingress or egress Tributary Map buffer from a bulk buffer. -/
  | tribMapLoad (p : Packet)
  /-- TRIB_SET (R150): Command that sets the tag check or the egress source, justification, status and accord modes of a tributary. -/
  | tribSet (p : Packet)
  /-- TRIB_GET (R150): Command that reports a tributary's size, D, Rate Absorber state, label, history and accord membership. -/
  | tribGet (p : Packet)
  /-- TRIB_TIMING_SET (R126): Command that sets an ingress lane to LOCKED or PLESIO timing. -/
  | tribTimingSet (p : Packet)
  /-- TRIB_DEFECT_PROFILE_SET (R206): Command that sets the DEG exponent, window and integration times of a tributary defect profile. -/
  | tribDefectProfileSet (p : Packet)
  /-- TRIB_DEFECT_SET (R206): Command that binds a tributary to a defect profile and sets its DEG enable, SF sources and event enables. -/
  | tribDefectSet (p : Packet)
  /-- TRIB_DEFECT_GET (R206): Command that reports a tributary's conditions, declared defects and DEG window figures. -/
  | tribDefectGet (p : Packet)
  /-- ACCORD_SET (R152): Command that enables, changes or disables an accord. -/
  | accordSet (p : Packet)
  /-- ACCORD_MEMBER_SET (R153): Command that binds a tributary to an accord place or removes the member in that place. -/
  | accordMemberSet (p : Packet)
  /-- ACCORD_GET (R150): Command that reports an accord's state and writes its member records to Window Memory. -/
  | accordGet (p : Packet)
  /-- ACCORD_STORE_GET (R154): Command that reports the use of the Aligner store units. -/
  | accordStoreGet (p : Packet)
  /-- CONN_SET (R181): Command that writes up to five Connection Table entries, committing them one by one. -/
  | connSet (p : Packet)
  /-- CONN_GET (R180): Command that reports a Connection Table entry as committed and as in force. -/
  | connGet (p : Packet)
  /-- CONN_LOAD (R182): Command that checks a bulk Connection Table image and commits its records in order. -/
  | connLoad (p : Packet)
  /-- CONN_DELAY (R183): Command that reports the transit delay of a connection for one served cycle. -/
  | connDelay (p : Packet)
  /-- CONN_EQ_SET (R184): Command that enables, changes or disables a Path Equaliser binding. -/
  | connEqSet (p : Packet)
  /-- CONN_EQ_GET (R180): Command that reports the state, delay and lock of a Path Equaliser binding. -/
  | connEqGet (p : Packet)
  /-- CONN_OCCUPANCY_GET (R185): Command that writes the K and E loads of every lane to Window Memory. -/
  | connOccupancyGet (p : Packet)
  /-- PROT_GROUP_SET (R228): Command that enables, changes or disables a protection group. -/
  | protGroupSet (p : Packet)
  /-- PROT_CMD (R229): Command that issues a CLEAR, lockout, forced or manual request to a protection group. -/
  | protCmd (p : Packet)
  /-- PROT_GET (R230): Command that reports a protection group's side, requests, timer and history. -/
  | protGet (p : Packet)
  /-- TIME_REF_SET (R279): Command that configures one reference candidate. -/
  | timeRefSet (p : Packet)
  /-- TIME_REF_GET (R279): Command that reports a reference candidate's state, level, offset, slope and phase. -/
  | timeRefGet (p : Packet)
  /-- TIME_SEL_SET (R279): Command that sets the selection mode, maceration, thresholds, pull limit and loop bandwidths. -/
  | timeSelSet (p : Packet)
  /-- TIME_DPLL_GET (R279): Command that reports the DPLL state, selection, frequency word, phase error and model state. -/
  | timeDpllGet (p : Packet)
  /-- TIME_DPLL_STEER (R273): Command that opens, steers or closes the DPLL loop, writes the temperature or sets the phase ring. -/
  | timeDpllSteer (p : Packet)
  /-- TIME_OUT_SET (R280): Command that configures a REFOUT, PPS_OUT or TOD_OUT output. -/
  | timeOutSet (p : Packet)
  /-- TIME_TOD_SET (R281): Command that sets FOLLOW_TIN and can load the TAI seconds and UTC offset. -/
  | timeTodSet (p : Packet)
  /-- TIME_TICK_SET (R62): Command that sets the tick generator mode, FTICK settings and phase, and can step to FTICK_IN. -/
  | timeTickSet (p : Packet)
  /-- TIME_TICK_GET (R63): Command that reports the tick generator state, FTICK offset and history. -/
  | timeTickGet (p : Packet)
  /-- SEAL_TX_SET (R313): Command that binds an egress tributary for sealing, or unbinds it, at a frame tick. -/
  | sealTxSet (p : Packet)
  /-- SEAL_RX_SET (R313): Command that binds an ingress tributary for opening, or unbinds it, at a frame tick. -/
  | sealRxSet (p : Packet)
  /-- SEAL_FLIP (R298): Command that schedules a sealing pair's phase flip at a named frame tick. -/
  | sealFlip (p : Packet)
  /-- SEAL_GET (R313): Command that reports a seal binding's state, frame count and failures. -/
  | sealGet (p : Packet)
  /-- CIPH_KEY_LOAD (R301): Command that unwraps a key and loads it into a seal or command key slot. -/
  | ciphKeyLoad (p : Packet)
  /-- CIPH_KEY_ERASE (R304): Command that erases one slot, one seal pair or every slot. -/
  | ciphKeyErase (p : Packet)
  /-- CIPH_KEY_GET (R313): Command that reports a key slot record. -/
  | ciphKeyGet (p : Packet)
  /-- CIPH_CHAN_SET (R313): Command that sets a cipher channel's mode, IV generation, context form and limits. -/
  | ciphChanSet (p : Packet)
  /-- CIPH_OP (R306): Command that places a cipher operation in its channel's queue. -/
  | ciphOp (p : Packet)
  /-- MEM_TEST_START (R369): Command that starts an on-request memory test or sets the background test rate. -/
  | memTestStart (p : Packet)
  /-- MEM_TEST_GET (R369): Command that reports the memory test state and history. -/
  | memTestGet (p : Packet)
  /-- MEM_FENCE_SET (R362): Command that enables or disables one of the user memory-test fences. -/
  | memFenceSet (p : Packet)
  /-- CNT_SELECT (R386): Command that binds a counter to a tap or unbinds it at the next grain-cycle tick. -/
  | cntSelect (p : Packet)
  /-- CNT_READ (R387): Command that reads, and can clear, up to 64 consecutive counters into Window Memory. -/
  | cntRead (p : Packet)
  /-- CNT_DUMP (R388): Command that writes whole blocks of counters into an output descriptor chain. -/
  | cntDump (p : Packet)
  /-- EVT_MARK (R346): Command that queues a marker event record and replies after it has been queued. -/
  | evtMark (p : Packet)
  /-- EVT_LOG_READ (R420): Command that writes the fault history to Window Memory and can empty it. -/
  | evtLogRead (p : Packet)
  /-- SAVE_CONFIG_SET (R419): Command that sets the save enable, the trigger enables and the event tail length. -/
  | saveConfigSet (p : Packet)
  /-- SAVE_GET (R419): Command that reports the save arming, hold-up measurements and the newest flacon. -/
  | saveGet (p : Packet)
  /-- SAVE_TEST (R419): Command that measures the hold-up capacitor, writes a checkpoint flacon or checks the save store. -/
  | saveTest (p : Packet)
  /-- TEST_PRBS_SET (R245): Command that sets a lane's PRBS generator and checker. -/
  | testPrbsSet (p : Packet)
  /-- TEST_PRBS_GET (R247): Command that reports a lane's PRBS checker lock and its bit and error counts. -/
  | testPrbsGet (p : Packet)
  /-- TEST_EYE_SCAN (R248): Command that starts an eye scan of a lane over the 64 by 64 grid. -/
  | testEyeScan (p : Packet)
  /-- HEALTH_GET (R419): Command that reports ageing, ECC trends and margins for one die. -/
  | healthGet (p : Packet)
  /-- HEALTH_SPARE_SWAP (R419): Command that swaps a unit for a spare, retests a unit or sets the CP revert hold-off. -/
  | healthSpareSwap (p : Packet)
  /-- HEALTH_SPARE_GET (R419): Command that reports a spare pool's spares and its last cutover. -/
  | healthSpareGet (p : Packet)
  /-- HEALTH_CP_GET (R419): Command that reports the processor roles, standby fitness and the last failover. -/
  | healthCpGet (p : Packet)
  /-- COMMAND_DOORBELL (R327): Write of a producer index to RING_DB of a command ring. -/
  | commandDoorbell (ring : Nat) (value : Word)
  /-- REPLY_RING_DOORBELL (R332): Write to RING_DB of the reply ring that prompts a re-check of offered slots. -/
  | replyRingDoorbell (value : Word)
  /-- EVENT_CONSUMER_INDEX_WRITE (R342): Write of the consumer index to RING_DB of the event ring. -/
  | eventConsumerIndexWrite (value : Word)
  /-- RING_ENABLE (R323): Write that changes a ring's EN from 0 to 1 and checks its size and area. -/
  | ringEnable (ring : Nat) (value : Word)
  /-- RING_DISABLE (R330): Write of EN = 0 to a ring, which stops it and clears FAULT. -/
  | ringDisable (ring : Nat) (value : Word)
  /-- IRQ_STATUS_CLEAR (R324): Write of ones to IRQ_STATUS that clears those bits unless their cause still holds. -/
  | irqStatusClear (value : Word)
  /-- EVT_LOST_READ (R324): Read of EVT_LOST that returns the discarded record count and clears it. -/
  | evtLostRead
  /-- REGISTER_WRITE (R13): Write to a host register that has no behaviour of its own, such as RING_BASE or IRQ_MASK. -/
  | registerWrite (offset size : Nat) (value : Word)
  /-- WINDOW_MEMORY_ACCESS (R354): Host or internal access to the Window Memory through port E or port I. -/
  | windowMemoryAccess (e : Option PortEAccess) (i : Option PortIAccess) (ecc : Option EccHit)
  /-- BUS_MATRIX_BURST (R365): An internal master's burst is granted and served by a Bus Matrix target. -/
  | busMatrixBurst (reqs : List Burst) (target : Nat)
  /-- MATRIX_LOCK_TIMEOUT (R365): A target lock held beyond 16 clocks is released and its held write refused. -/
  | matrixLockTimeout (target : Nat)
  /-- APERTURE_WRITE (R160): An internal master writes a Connection Table entry through the T2 aperture. -/
  | apertureWrite (master addr : Nat) (data : Word)
  /-- COMMAND_DECODE (R328): The device decodes the next slot of a command ring once a reply slot is free for it. -/
  | commandDecode (ring : Nat)
  /-- DESCRIPTOR_RECHECK (R341): A command waiting for a descriptor checks it again on a doorbell or every 1 ms. -/
  | descriptorRecheck (ring chan : Nat)
  /-- CIPH_OP_START (R310): The CCE starts a queued cipher operation when it is next to be served. -/
  | ciphOpStart
  /-- CIPH_OP_RESUME (R310): A suspended cipher operation resumes once no higher privileged request remains. -/
  | ciphOpResume
  /-- CIPH_OP_COMPLETE (R308): A cipher operation ends, hands back its output buffers and replies. -/
  | ciphOpComplete
  /-- EYE_SCAN_COMPLETE (R248): An eye scan finishes its last point and replies with the eye summary. -/
  | eyeScanComplete (lane : Nat) (counts centres : List Nat) (uv : Nat)
  /-- MEM_TEST_COMPLETE (R369): An on-request memory test finishes and replies with its tested, repaired and skipped counts. -/
  | memTestComplete (rows columns : List Nat)
  /-- GRAIN_CYCLE_TICK (R40): The tick generator issues a grain-cycle tick and the cycle number advances. -/
  | grainCycleTick (meas : TickMeas)
  /-- FRAME_TICK (R40): Every eighth grain-cycle tick FC increments and the cycle number returns to 0. -/
  | frameTick (meas : TickMeas)
  /-- CROSSOVER_PASS (R43): The crossover pass of an ingress cycle reads the Capture Stage, crosses and writes the Release Stage. -/
  | crossoverPass (badEntries : List Nat) (words : WordErrors)
  /-- SECTION_TRANSMIT (R66): A lane transmits one section with its marker block, overhead and codewords. -/
  | sectionTransmit (lane : Nat)
  /-- MARKER_BLOCK_RECEIVED (R102): A receiver examines a marker block at a tracked, aligned or untracked position. -/
  | markerBlockReceived (m : Marker)
  /-- ALIGNMENT_LOSS (R102): E reaches M or A reaches alpha and the lane loses alignment and free-wheels. -/
  | alignmentLoss (lane : Nat)
  /-- DECISION_WINDOW_END (R106): A decision window ends and a sole qualified candidate is adopted, or none wins. -/
  | decisionWindowEnd (lane : Nat)
  /-- LANE_ALIGN_RECOVERY (R109): A lane hunting for RECOVERY_TIME switches to pattern mode. -/
  | laneAlignRecovery (lane : Nat)
  /-- SECTION_DECODED (R80): A section's codewords are decoded and its information bytes processed. -/
  | sectionDecoded (lane : Nat) (codewords : List (List (BitVec 10)))
  /-- LOS_WINDOW_END (R234): The signal detector ends a 512 ns window and updates the LOS condition. -/
  | losWindowEnd (lane amplitude : Nat)
  /-- CDR_LOCK (R235): The CDR declares lock and the LOL condition ends. -/
  | cdrLock (lane : Nat) (offset : Int)
  /-- CDR_LOSS_OF_LOCK (R235): The CDR's phase detector loses lock and the LOL condition arises. -/
  | cdrLossOfLock (lane : Nat)
  /-- GOOD_SET_REFRESH (R236): The good coefficient set is refreshed at the end of a qualifying 1 ms interval. -/
  | goodSetRefresh (lane : Nat) (good : GoodSet)
  /-- LANE_LOOP_SLIP (R243): The far-end loop buffer empties or fills and re-centres. -/
  | laneLoopSlip (m : LoopWander)
  /-- PRBS_CHECKER_LOCK (R247): The PRBS checker locks after predicting 1,024 consecutive bits. -/
  | prbsCheckerLock (lane : Nat) (bits : List Bool)
  /-- PRBS_CHECKER_LOSS (R247): The PRBS checker loses lock on too many errors and seeds afresh. -/
  | prbsCheckerLoss (lane bits : Nat) (errors : PrbsErrors)
  /-- DEFECT_DECLARE (R191): A lane or tributary defect is declared when its condition has lasted T_SET. -/
  | defectDeclare (obj : DefectObj) (bit : Nat)
  /-- DEFECT_CLEAR (R191): A lane or tributary defect is cleared when its condition has been absent for T_CLEAR. -/
  | defectClear (obj : DefectObj) (bit : Nat)
  /-- DEG_WINDOW_END (R198): A DEG window ends and DEG is declared, cleared or left unchanged. -/
  | degWindowEnd (ta : Nat)
  /-- ACCORD_REALIGN (R146): After REALIGN_FRAMES consistent new offsets the Aligner changes member delays. -/
  | accordRealign (accord : Nat)
  /-- ALIGNER_UNITS_RETURN (R152): Aligner-store units of a disabled accord or binding return to the pool 64 cycles later. -/
  | alignerUnitsReturn
  /-- CONN_EQ_LOCKED (R175): A PAIR binding locks and its measured delay applies. -/
  | connEqLocked (bind : Nat)
  /-- CONN_EQ_LOST (R176): A locked binding fails MATCH_CYCLES compared cycles and holds its delay. -/
  | connEqLost (bind : Nat)
  /-- UPDATE_PORT_COMMIT (R52): The Route Allocator commits the next write through the update port in a commit slot. -/
  | updatePortCommit
  /-- PROT_SWITCH_START (R218): A group whose side changed starts rewriting its egress entries within 100 µs. -/
  | protSwitchStart (group : Nat)
  /-- PROT_HOLD_OFF_EXPIRY (R213): A defect that stayed declared for HOLD_OFF becomes a request. -/
  | protHoldOffExpiry (group : Nat)
  /-- PROT_WTR_EXPIRY (R215): A group's wait-to-restore timer expires and it reverts to NRM. -/
  | protWtrExpiry (group : Nat)
  /-- FTICK_WORD_RECEIVED (R59): A FOLLOWER accepts or discards an FTICK word received on FTICK_IN. -/
  | ftickWordReceived (widths : List Nat)
  /-- PPS_IN_EDGE (R277): A PPS_IN rising edge arrives and the TIN checks are updated. -/
  | ppsInEdge (phase : Int)
  /-- TOD_IN_MESSAGE (R276): A TOD_IN message is received and judged valid or not. -/
  | todInMessage (bytes : List Byte)
  /-- TOD_OUT_MESSAGE (R275): TOD_OUT begins its message 10 ms after each PPS_OUT edge. -/
  | todOutMessage
  /-- REF_ACTIVITY_LOSS (R259): A REFIN candidate has no edge for 2.5 periods and gains the ACTIVITY cause. -/
  | refActivityLoss (ref : Nat)
  /-- FREQ_MONITOR_UPDATE (R260): The frequency monitor updates each candidate's offset and slope. -/
  | freqMonitorUpdate (meas : List RefMeas)
  /-- MACERATION_EXPIRY (R262): A candidate's maceration timer runs out and it becomes AVAILABLE. -/
  | macerationExpiry (ref : Nat)
  /-- SELECTOR_EVALUATION (R264): The selector chooses a candidate on a state change or every 1 ms. -/
  | selectorEvaluation
  /-- DPLL_SWITCH_TIMEOUT (R265): A switch ends after 60 s without lock. -/
  | dpllSwitchTimeout
  /-- DPLL_UPDATE (R269): The DPLL updates every 1 ms and leaves LOCKED on a large phase error. -/
  | dpllUpdate (phase freqErr : Int) (dpll : Nat)
  /-- DPLL_LOCK (R270): The lock rule holds for LOCK_TIME and the DPLL enters LOCKED. -/
  | dpllLock
  /-- DRYDOWN_UPDATE (R271): In DRYDOWN the predicted frequency word is recomputed every 1 s. -/
  | drydownUpdate (dieTemp : Int)
  /-- MODEL_LEARN_UPDATE (R272): While LOCKED the drydown model is updated each second. -/
  | modelLearnUpdate (dieTemp : Int)
  /-- XO_FAIL (R284): XO_IN is missing or far off and every lane is fenced. -/
  | xoFail
  /-- DPLL_FAILURE (R284): The active DPLL fails and the SVA selects the standby, or both fail. -/
  | dpllFailure
  /-- TICK_GENERATOR_FAILURE (R65): The active tick generator fails and the SVA selects the standby, or both fail. -/
  | tickGeneratorFailure
  /-- EDGE_LINK_CLOCK_LOSS (R443): The forwarded clock of an edge link is lost and its edge die is fenced. -/
  | edgeLinkClockLoss (die : Nat)
  /-- EDGE_DIE_FAILURE (R443): A whole edge die fails and is fenced. -/
  | edgeDieFailure (die : Nat)
  /-- KEY_STORE_ALARM (R305): Tamper, a glitch detector or a Key Store integrity error erases every key slot. -/
  | keyStoreAlarm (causes : BitVec 5)
  /-- GUARD_MEASUREMENT (R408): The Field I/O Guard measures each guarded pin every 1 ms. -/
  | guardMeasurement (meas : List GuardMeas)
  /-- IO_INPUT_SAMPLE (R411): GPIO and ALM_IN inputs are sampled every 10 µs and changes accepted. -/
  | ioInputSample (gpio : PinSense 16) (alm : PinSense 4)
  /-- EVENT_ACK_PHASE_END (R379): A pulse synchroniser's acknowledge phase ends and its pending record is launched. -/
  | eventAckPhaseEnd (key : EventKey)
  /-- EVENT_RING_WRITE (R342): The next queued record is written into the event ring when there is room. -/
  | eventRingWrite
  /-- EVENT_HOLDOFF_EXPIRY (R324): The oldest unread record has waited HOLDOFF and EVENT_READY is set. -/
  | eventHoldoffExpiry
  /-- COUNTER_TAP_SAMPLE (R376): The counter bank samples the Gray tap accumulators and adds their differences. -/
  | counterTapSample (eccBad : List Nat)
  /-- BACKGROUND_TEST_STRIPE (R363): The march engine borrows and tests the next stripe at the background rate. -/
  | backgroundTestStripe
  /-- MEM_REPAIR (R358): A row or column repair mirrors in and completes, or fails for lack of spares. -/
  | memRepair (store kind location : Nat)
  /-- CP_HEARTBEAT_TIMEOUT (R394): The SVA sees no heartbeat from the active CP and starts a failover. -/
  | cpHeartbeatTimeout
  /-- CP_MEMORY_ERROR (R394): An uncorrectable error or too many corrected errors in the active CP's memories fail it. -/
  | cpMemoryError (uncorrectable : Bool)
  /-- FAILOVER_GAP_END (R395): The new active CP finishes replay and reissue and resumes the rings. -/
  | failoverGapEnd
  /-- JOURNAL_APPLY (R393): The standby applies a journal record to its state copy. -/
  | journalApply
  /-- STANDBY_SELFTEST_PASS (R397): The standby completes or fails a self-test pass and reports it. -/
  | standbySelftestPass (passed : Bool)
  /-- CP_DIGEST_EXCHANGE (R397): The processors exchange and compare state digests every 1 s. -/
  | cpDigestExchange (matched : Bool)
  /-- CP_RESTART_COMPLETE (R398): A restarting processor meets the fitness rule and becomes standby. -/
  | cpRestartComplete (cp : Nat)
  /-- CP_REVERT_HOLDOFF_EXPIRY (R400): The M0 processor has been fit for the hold-off and control is handed back. -/
  | cpRevertHoldoffExpiry
  /-- SVA_HEARTBEAT_TIMEOUT (R401): The active CP sees no SVA heartbeat and freezes the roles. -/
  | svaHeartbeatTimeout
  /-- UNIT_HARD_FAILURE (R403): A unit is judged hard-failed and a spare is brought in or the failure reported. -/
  | unitHardFailure (pool unit : Nat) (ofSpare : Bool)
  /-- SPARE_CUTOVER (R402): A swap's mirror or copy completes and the spare takes over at a cycle boundary. -/
  | spareCutover (pool : Nat)
  /-- HEALTH_WEAR_SAMPLE (R405): The Health and Wear Monitor samples its hourly measures and may recommend a swap. -/
  | healthWearSample (meas : List WearMeas)
  /-- SERDES_MARGIN_SCAN (R405): The monitor scans each lane's eye every 6 h and compares it with its baseline. -/
  | serdesMarginScan (lane height width : Nat)
  /-- CAPACITOR_MEASUREMENT (R414): The hold-up capacitance and ESR are measured and the save arming re-judged. -/
  | capacitorMeasurement (dropMv esrDropMv vholdMv : Nat)
  /-- SAVE_STAGE_REFRESH (R415): The active CP refreshes the staged flacon copy every 1 s. -/
  | saveStageRefresh
  /-- SAVE_TRIGGER (R415): PWR_FAIL_N or a low VIN12 starts the save sequence and squelches every transmitter. -/
  | saveTrigger (pwrFail vinLow : Bool)
  /-- SAVE_COMPLETE (R415): The flacon write ends and the device enters HALT. -/
  | saveComplete
  /-- BOOT_START (R427): RESET_N is released with every rail up and BOOT begins. -/
  | bootStart (inp : BootInputs)
  /-- BOOT_IMAGE_POLL (R434): The ROM polls the PCIe image descriptor every 10 µs and takes an offered image. -/
  | bootImagePoll
  /-- BOOT_COMPLETE (R437): BOOT ends with the flacon restored, READY set and the first records queued. -/
  | bootComplete
  /-- WAKE_START (R441): RESET_N is released with the retention flag set and the device wakes. -/
  | wakeStart (inp : BootInputs)
  /-- RESET_ASSERT (R430): RESET_N is asserted, transmitters are squelched and every plane reset. -/
  | resetAssert
  /-- PERST_ASSERT (R430): PERST_N resets the PCIe endpoint and its Bus Matrix port. -/
  | perstAssert
  /-- RAIL_LOSS (R425): A supply rail is lost and the device goes OFF or loses its retention flag. -/
  | railLoss (rail : Rail)
  /-- PPS_IN_EDGE_MISSING (R277): No PPS_IN edge arrives within ±20 µs of 1 s after the previous edge and TIN gains the TIN cause. -/
  | ppsInEdgeMissing
  /-- PCIE_LINK_DOWN (R368): The PCIe link goes down and the PCIe master is reset, abandoning its burst. -/
  | pcieLinkDown
  /-- JOURNAL_LAG (R394): The standby's journal lag exceeds 20 µs, it becomes unfit and HEALTH_CP_FAULT cause 5 is raised. -/
  | journalLag (cp : Nat)
  /-- CCE_FAULT (R316): A fault in the Command Cipher Engine ends its operation with ST_HW_FAULT, zeroes its output and resets its Bus Matrix master. -/
  | cceFault
  /-- STRIPE_RETURNED (R361): A borrowed stripe's copy-in or copy-back completes, so the stripe moves to the shadow or is returned and the test takes its next stripe. -/
  | stripeReturned (rows columns : List Nat)
  /-- CNT_DUMP_BLOCK (R388): A counter dump reads and writes its next block record, hands back full buffers and replies after the last block. -/
  | cntDumpBlock (ring : Nat)
  /-- CHECKPOINT_COMPLETE (R419): A SAVE_TEST CHECKPOINT finishes writing its flacon to the other slot and replies. -/
  | checkpointComplete
  /-- UNIT_RETEST_COMPLETE (R419): The march and logic self-test of a RETEST ends and the unit joins the pool or stays out, and the command replies. -/
  | unitRetestComplete (passed : Bool)
  /-- ADAPTATION_CONVERGED (R236): A receiver's continuous adaptation converges and ADAPT_STATE passes from acquiring to converged. -/
  | adaptationConverged (lane : Nat)
  /-- ALARM_CAUSE_ENDED (R305): The last persisting alarm cause, such as an asserted TAMPER_N, ends and CIPH_KEY_LOAD is accepted again. -/
  | alarmCauseEnded (causes : BitVec 5)
  /-- JTAG_INSTRUCTION (R466): An instruction is loaded into the JTAG TAP and takes effect, with EXTEST instructions acting only while RESET_N is low. -/
  | jtagInstruction (i : JtagInstr)
deriving DecidableEq, Repr

end Sys2Proof
end

