-- ==== Sys2Proof/Decode.lean ====
section
/-! DEFINITION. The word that spells a command by the opcode table's bits. -/

namespace Sys2Proof

/-- No row of spec/opcode_table.json gives bits, so no word spells a command. A command packet is decoded by `slotDecode`. -/
def decodeTableWord (_nbits _w : Nat) : Option Instr := none

end Sys2Proof
end

