-- ==== Sys2Proof/Config.lean ====
section
/-! DEFINITION. What an individual part fixes, and the free values: constants without a body. -/

namespace Sys2Proof.Config

/-- The free value: the `c`-th draw, taken for the purpose or object `k`. No statement can know it. -/
opaque freeAt (c k : Nat) : Nat

/-- The device install key, fused by Marfel (11 R300): 32 bytes as one number. -/
opaque dik : Nat

/-- Firmware public keys (16 R433): the affine coordinates of key `i`, 0 to 3. -/
opaque fwKey (i : Nat) : Nat × Nat

/-- Fused revocation of firmware key `i` (16 R433). -/
opaque fwKeyRevoked (i : Nat) : Bool

/-- Fused minimum security version (16 R433). -/
opaque minSvn : Nat

/-- The class initial coefficient set of a receiver: class `c`, tap `i` (09 R236). -/
opaque initCoef (c i : Nat) : Int

/-- The block map before any swap or repair, one-to-one over the 4,096 physical blocks (06 R159 leaves the map to the device). -/
opaque initialMap : Equiv.Perm (Fin 4096)

/-- Physical block of a logical block, or of a place of the spare pool from 3,456 on, under that map. -/
def initialBlock (b : Nat) : Nat := (initialMap ⟨b % 4096, Nat.mod_lt b (by decide)⟩).val

/-- The place that a physical block has under that map. -/
def initialPlace (x : Nat) : Nat := (initialMap.symm ⟨x % 4096, Nat.mod_lt x (by decide)⟩).val

/-- Which check-bit column each bit of a word has, of the 120 columns of 8 bits with three ones, five or seven: any such choice
corrects single errors and detects double ones (06 R159; 13 R350: the code itself is not given; log 74). -/
opaque eccOrder : Equiv.Perm (Fin 120)

/-- Number of ones of an 8-bit column. -/
def columnOnes (c : Nat) : Nat := (List.range 8).countP (fun i => c.testBit i)

/-- The columns of three, five or seven ones. -/
def eccColumns : List Nat := (List.range 256).filter (fun c => decide (3 ≤ columnOnes c) && columnOnes c % 2 == 1)

/-- The 8 check bits of an `n`-bit word. -/
def checkBits (n v : Nat) : Nat :=
  (List.range n).foldl (fun c i =>
    if v.testBit i then c ^^^ eccColumns.getD (eccOrder ⟨i % 120, Nat.mod_lt i (by decide)⟩).val 0 else c) 0

/-- Word `w` of the Window Memory lies in this row (13 R358 does not give the array's layout). -/
opaque wmRow (w : Nat) : Nat

/-- Word `w` of the Window Memory has a cell in column `c`. -/
opaque wmInColumn (w c : Nat) : Bool

/-- Spare rows (kind 0) and columns (kind 1) of a store, whose number is not given (13 R358). -/
opaque spareCells (store kind : Nat) : Nat

/-- The bytes of a flacon section whose inner layout is not given, a function of what the section holds (15 R417). -/
opaque sectionBytes {α : Type} (n : Nat) (x : α) : List Byte

end Sys2Proof.Config
end

