-- ==== Sys2Proof/Machine/State.lean ====
section
/-! DEFINITION. The state of the block: every register, buffer, counter, mode and pin the spec gives it, as plain data. Each field's comment says: what it is | width | file and rule | reset. -/

namespace Sys2Proof.Machine

/-- Why the machine stops. -/
inductive Fault where
  /-- The host broke an obligation whose consequence no statement defines (00 R6): raised by WINDOW_MEMORY_ACCESS on a slot or descriptor the device owns (12 R327, R341). Safe: the model stops where the device's behaviour is undefined. -/
  | obligationBroken (rule : String)
deriving DecidableEq, Repr

/-- Why the machine refuses a command. -/
inductive Refusal where
  /-- Raised by an arm of exec that has no meaning yet. Safe. -/
  | notModelled (mnemonic : String)
  /-- Raised by exec for operands that no step of the device has (WellFormed). Safe: no behaviour of the device is lost. -/
  | illFormed (mnemonic : String)
deriving DecidableEq, Repr

/-! ## Time, ticks and the free values -/

/-- The model's clock. -/
structure Clk where
  /-- grain-cycle ticks since BOOT; the cycle in progress is number `ticks` − 1 | count | 02 R39 | 0 (no tick comes before the first, R52) -/
  ticks  : Nat
  /-- frame counter FC | 32 | 02 R40 | 0 (R52: cycle 0 of FC 0) -/
  fc     : Word
  /-- cycle number | 3 | 02 R40 | 0 -/
  cyc    : Nat
  /-- elapsed nanoseconds: the model's own time base for every timer | count | MODEL (log 3) | DESIGN CHOICE 0 (log 3) -/
  now    : Nat
  /-- elapsed nanoseconds at the last tick, from which NS counts | count | 02 R42 | 0 -/
  tickAt : Nat
  /-- draws made of the free value: the model's own field | count | MODEL (log 2) | DESIGN CHOICE 0 (log 2) -/
  free   : Nat
deriving DecidableEq, Repr

/-! ## Device state -/

/-- Source of the 1.8 V of `VSAVE_OUT`, which also powers the `SSPI_*` pins (17 R458). -/
inductive SaveSupply where
  | io18 | holdUp | off
deriving DecidableEq, Repr

/-- Device modes (12 Table 12.2; 16 Table 16.5). -/
inductive Mode where
  | boot | retention | commissioning | service | maintenance | contained | save | halt
deriving DecidableEq, Repr

/-- One event record (07 Table 7.9). -/
structure Rec where
  cls  : Nat
  code : Nat
  idx  : Nat
  data : Word
  set  : Bool
  fc   : Word
  cyc  : Nat
  ns   : Nat
deriving DecidableEq, Repr

/-- Health and Wear Monitor, one die (15 Table 15.14). -/
structure HealthDie where
  slow   : Nat
  ecc    : Nat
  eccUnit : Nat
  /-- elapsed times of the recommendations of the last 24 h -/
  recs   : List Nat
  /-- sticky `HIST_RECOMMEND`, `HIST_UNIT_FAIL` -/
  hist   : BitVec 2
deriving DecidableEq, Repr

/-- Health and Wear Monitor (15 R405). -/
structure Health where
  /-- measures of each die, 0 core, 1 to 4 edge dies | 5 records | 15 Table 15.14 | DESIGN CHOICE 0 (log 4: nothing sampled yet) -/
  die     : Tbl HealthDie
  /-- eye margin of each lane at its last scan, % of baseline | 144 × 8 | 15 Table 15.14 | DESIGN CHOICE 0xFF (log 4: not scanned yet) -/
  pct     : Tbl Nat
  /-- powered hours since the ageing baseline | 32 | 15 Table 15.14 | DESIGN CHOICE 0 (log 4: baseline taken at the first BOOT) -/
  hours   : Nat
  /-- elapsed time of the last hourly sample | ns | 15 R405 | 0 -/
  hourAt  : Nat
  /-- consecutive hours with 10 corrected errors or more, by pool × 2^16 + unit | count | 15 Table 15.5 | 0 -/
  trend   : Tbl Nat
  /-- worst corrected errors of the last 24 hours, newest first, by pool × 2^16 + unit | list | 15 Table 15.14 | none -/
  eccHist : Tbl (List Nat)
  /-- elapsed time of the last recommendation for each unit, by pool × 2^16 + unit | ns | 15 R405 | none -/
  recAt   : Tbl (Option Nat)
  /-- baselines `EYE_H1` and `EYE_W1` of each lane | 144 × 32 | 15 Table 15.5 | none -/
  base    : Tbl (Option (Nat × Nat))
  /-- lanes that converged in SERVICE, whose next scan is their baseline | list | 15 Table 15.5 | none -/
  baseDue : List Nat
  /-- baseline of each ring oscillator, by die × 32 + oscillator | 160 numbers | 15 Table 15.5 | none -/
  oscBase : Tbl (Option Nat)
  /-- bit errors and bits of each edge-link wire in the last 24 hours, newest first, by pool × 2^16 + unit | list | 15 Table 15.5 | none -/
  wires   : Tbl (List (Nat × Nat))
  /-- elapsed time of each lane's last margin scan | ns | 15 R405 | none -/
  scanAt  : Tbl (Option Nat)
  /-- the monitor itself has failed | 1 | 15 R406 | 0 -/
  failed  : Bool
deriving DecidableEq, Repr

/-- What a flacon carries of the drydown model (10 R272): A in 10^-15 per day, B1 in 10^-15 per °C, B2 in 10^-15 per °C²,
the learning span in ns, and the lowest and highest temperature seen, 0.01 °C. -/
structure Model where
  a     : Int
  b1    : Int
  b2    : Int
  span  : Nat
  temps : Option (Int × Int)
deriving DecidableEq, Repr

/-- No model. -/
def Model.reset : Model := { a := 0, b1 := 0, b2 := 0, span := 0, temps := none }

/-- A flacon (15 Table 15.9), or a retention record of the same layout (16 R439). The inner layout of sections 0, 1 and 3
is not given, so they are held as what they contain (log 15); the bytes are those of `flaconBody`, with `FCRC` after them. -/
structure Flacon where
  magic   : Word
  gen     : Nat
  /-- `LEN` -/
  len     : Nat
  fc      : Word
  cyc     : Nat
  cause   : Nat
  hid1    : Word
  /-- section 0: roles and failed marks of the processors, revert hold-off, hard-failed units, dead spares -/
  roles   : List Nat
  failed  : List Nat
  holdoff : Nat
  out     : List (Nat × Nat)
  dead    : List (Nat × Nat)
  /-- section 1: drydown model A, B1, B2 with their learning spans -/
  model   : Model
  /-- section 2: fault history -/
  log     : List Rec
  /-- section 3: baselines and trends -/
  health  : Health
  /-- section 3: repair map of every store -/
  repairs : List (Nat × Nat × Nat)
  /-- section 4: event tail -/
  tail    : List Rec
  /-- `FCRC` -/
  fcrc    : Word
deriving DecidableEq, Repr

/-- Modes, fences, boot and power (chapter 16; `DEV_STATE` of 12 Table 12.2). -/
structure Dev where
  /-- fused ordering code: this part is the EZY-16144-NE, without sealing and cipher engine | 1 | 00 R4, 12 R322 | DESIGN CHOICE 0 (log 4: `State.reset` is the EZY-16144; no command changes it) -/
  ne         : Bool
  /-- device mode, `DEV_STATE.MODE` | 4 | 12 R322, 16 R424 | 1 BOOT (Table 12.2) -/
  mode       : Mode
  /-- `DEV_STATE.READY` | 1 | 12 R322 | 0 -/
  ready      : Bool
  /-- `DEV_STATE.ACTIVE_CP`: 0 CP-A, 1 CP-B, 2 CP-S | 2 | 12 R322 | 0 -/
  activeCp   : Nat
  /-- `DEV_STATE.FAILOVER` | 1 | 12 R322, 15 R395 | 0 -/
  failover   : Bool
  /-- `DEV_STATE.BOOT_ERR` | 8 | 12 R322, 16 R436 | 0 -/
  bootErr    : Nat
  /-- `FW_VERSION` of the loaded image | 32 | 12 R322 | DESIGN CHOICE 0 (log 4: no image is loaded yet) -/
  fwVersion  : Word
  /-- mode code before the last change, `PREV_MODE` | 4 | 16 R447 | 0 (R425: OFF or reset) -/
  prevMode   : Nat
  /-- FC of the last mode change | 32 | 16 R447 | 0 (R437) -/
  fcMode     : Word
  /-- cycle number of the last mode change | 3 | 16 R447 | 0 (R437) -/
  cycMode    : Nat
  /-- fence cause of each edge die (Table 16.8), 0 unfenced | 4 dies of 3 | 16 R443, R447 | 0 -/
  fence      : Tbl Nat
  /-- mode CONTAINED was entered from | 4 | 16 R445 | DESIGN CHOICE COMMISSIONING (log 4: read only in CONTAINED) -/
  cameFrom   : Mode
  /-- the last start was a wake | 1 | 16 R447 | 0 -/
  woke       : Bool
  /-- the last start restored a flacon or a retention record | 1 | 16 R447 | 0 -/
  restored   : Bool
  /-- `BOOT_SRC`: 0 image A, 1 image B, 2 PCIe | 2 | 16 R447 | DESIGN CHOICE 0 (log 4) -/
  bootSrc    : Nat
  /-- the `RESET_N` pin is low | 1 | 16 R427, R430 | 1 (the pulse that this reset is) -/
  resetLow   : Bool
  /-- `RESET_N` was asserted during SAVE and waits for HALT | 1 | 16 R430 | 0 -/
  resetDue   : Bool
  /-- every rail of each group is up; OFF while false | 1 | 16 R425, R427 | 1 -/
  powered    : Bool
  /-- the data rails have been removed in RETENTION | 1 | 16 R440 | 0 -/
  railsOff   : Bool
  /-- the retention flag | 1 | 16 R439, R440 | 0 -/
  retFlag    : Bool
  /-- the retention record, as written below fence 0 | record | 16 R439 | none -/
  retRecord  : Option Flacon
  /-- failure fences that take hold at the next cycle boundary, as (die, cause) | list | 16 R443 | none -/
  fenceDue   : List (Nat × Nat)
  /-- progress of BOOT: 0 none, 1 waiting for an image over PCIe, 2 steps done and ready to end, 3 wake ready to end, 4 ended | 3 | 16 R432, R434, R441 | 0 -/
  bootPhase  : Nat
  /-- what BOOT found at its inputs | record | 16 R427 to R436 | none -/
  bootInp    : Option BootInputs
  /-- elapsed time at which BOOT began, for the duration in `SYS_BOOT_DONE` | ns | 16 R449 | 0 -/
  bootAt     : Nat
  /-- elapsed time at which BOOT or the wake ended, from which the lane timers count | ns | 07 R207, 09 R252 | 0 -/
  upAt       : Nat
  /-- elapsed time of the last image poll | ns | 16 R434 | 0 -/
  pollAt     : Nat
  /-- the JTAG instruction in force, by its number in 17 R466 | 3 | 17 R466 | DESIGN CHOICE IDCODE (log 4; IEEE 1149.1's rule after reset) -/
  jtag       : JtagInstr
deriving DecidableEq, Repr

/-- An FTICK word in progress on `FTICK_IN` (02 R58, R59). -/
structure Ftick where
  /-- own FC of the marker frame of the last accepted word | 32 | 02 R60 | 0 -/
  markFc   : Word
  /-- FC of the previous accepted or candidate word | 32 | 02 R59 | none -/
  prev     : Option Word
  /-- consistent words in a row | count | 02 R59 | 0 -/
  good     : Nat
  /-- `FTICK_VALID` | 1 | 02 R59, R63 | 0 -/
  valid    : Bool
  /-- `FTICK_FC`: FC of the last accepted word | 32 | 02 R63 | DESIGN CHOICE 0 (log 4: no word accepted yet) -/
  lastFc   : Word
  /-- `FC_MATCH` | 1 | 02 R63 | DESIGN CHOICE 0 (log 4) -/
  fcMatch  : Bool
deriving DecidableEq, Repr

/-- Sample of the tick generator taken at a frame tick (02 Table 2.9). -/
structure TickSample where
  fc     : Word
  status : Word
  offset : Word
  lastFc : Word
  hist   : BitVec 3
deriving DecidableEq, Repr

/-- Tick generator pair (02 R57 to R65). -/
structure Tick where
  /-- `MODE`: false MASTER, true FOLLOWER | 2 | 02 R57, R64 | MASTER -/
  follower : Bool
  /-- `FTICK_OUT_EN` | 1 | 02 R62, R64 | 0 -/
  outEn    : Bool
  /-- `FTICK_DELAY`, ps | 20 | 02 R62, R64 | 0 -/
  delay    : Nat
  /-- `TICK_PHASE`, ps | 24 | 02 R62, R64 | 0 -/
  phase    : Nat
  /-- `FTICK_OFFSET_LIMIT`, ns | 14 | 02 R62, R64 | 100 -/
  limit    : Nat
  /-- `ACTIVE_GEN` | 1 | 02 R63, R65 | DESIGN CHOICE 0 (log 4) -/
  gen      : Nat
  /-- tick generators that have failed | 2 | 02 R65 | 0 -/
  failed   : Nat
  /-- the FTICK link | record | 02 R58, R59 | no word -/
  link     : Ftick
  /-- e of R60 at the last frame tick, ps | 32 signed | 02 R60, R63 | 0 -/
  offset   : Int
  /-- consecutive frame edges missing or invalid | count | 02 R60 | 0 -/
  missing  : Nat
  /-- consecutive frames with the offset beyond the limit | count | 02 R60 | 0 -/
  beyond   : Nat
  /-- condition TICK_FTICK_LOSS in force, and frames since it was last met | 1, count | 02 R60 | 0 -/
  loss     : Option Nat
  /-- condition TICK_FTICK_OFFSET in force, and frames since it was last met | 1, count | 02 R60 | 0 -/
  off      : Option Nat
  /-- condition TICK_FC_MISMATCH in force, and frames since it was last met | 1, count | 02 R60 | 0 -/
  mism     : Option Nat
  /-- sticky `HIST_LOSS`, `HIST_OFFSET`, `HIST_FC` in bits 0 to 2 | 3 | 02 R63, R64 | 0 -/
  hist     : BitVec 3
  /-- number of the first cycle after the last ALIGN step; the three cycles across it hold undefined content | count | 02 R61 | none -/
  stepAt   : Option Nat
  /-- standby generator that the SVA has chosen and that takes over at the next tick | 1 | 02 R65 | none -/
  genNext  : Option Nat
  /-- what `TIME_TICK_GET` reports, as sampled at the last frame tick: FC, status, offset, `FTICK_FC` | 4 × 32 | 02 R63 | 0 -/
  samp     : TickSample
deriving DecidableEq, Repr

/-! ## Events, interrupts and rings -/

/-- A pulse synchroniser with an acknowledge phase in progress (14 R378, R379). -/
structure Sync where
  key  : EventKey
  /-- elapsed time at which the phase began, ps -/
  at_  : Nat
  pend : Option Rec
deriving DecidableEq, Repr

/-- Event queue and its neighbours (12 R342, R343; 14 R378; 15 R417). -/
structure Evt where
  /-- internal event queue, oldest first, at most 4,096 | records of 128 | 12 R342 | empty -/
  queue   : List Rec
  /-- records discarded since the queue was full: timestamp of the first and their number | record | 12 R343 | none -/
  ovf     : Option (Rec × Nat)
  /-- synchronisers in an acknowledge phase, with their pending records | list | 14 R378, R379 | none (14 R390) -/
  syncs   : List Sync
  /-- the last records that entered the queue, oldest first, at most 4,096 | records | 15 R417 | empty -/
  tail    : List Rec
  /-- fault history, oldest first, at most 256 | records | 15 R417 | empty -/
  log     : List Rec
  /-- elapsed time at which each unread record was written into ring 5, oldest first | ns | 12 R324 | empty -/
  unread  : List Nat
deriving DecidableEq, Repr

/-- Status codes (12 Table 12.7). -/
inductive Status where
  | ok | badOpcode | badParam | badCrc | busy | notInMode | routeBlocked | slotInUse | keyExhausted
  | keyErased | authFail | lenLimit | aborted | alreadyDone | noSuchTag | hwFault | spareExhausted
deriving DecidableEq, Repr

/-- One write handed to the update port (01 R23; 06 R169). -/
inductive PortWrite where
  /-- Connection Table entry: destination, bits [27:0], `FOLLOW_TA` -/
  | conn (ga data : Nat) (follow : Bool)
  /-- the settings of one command of the staged path, by class and action, with the image it copied -/
  | cmd (cls act : Nat) (params : List Word) (image : List Byte)
  /-- `T_RDI` of an egress tributary, by a protection rule (08 R210) -/
  | rdi (ta : Nat) (on : Bool)
deriving DecidableEq, Repr

/-- A committed write that waits for its effective point (02 R52, R53): ingress part at tick `at`, or egress part. -/
structure Staged where
  tick   : Nat
  egress : Bool
  w      : PortWrite
deriving DecidableEq, Repr

/-- What a command in progress still has to do. -/
inductive Work where
  /-- one write through the update port -/
  | port
  /-- `CONN_SET` or `CONN_LOAD`: entries committed, first and last effective cycle, generations written -/
  | conn (doneN : Nat) (first last : Word × Nat) (gens : List Nat)
  /-- waits for the descriptor at an address (12 R341) -/
  | desc (addr : Nat)
  /-- `CNT_SELECT`: takes hold at the next tick, replies for the one after (14 R386) -/
  | bind
  /-- `CNT_DUMP`: blocks written; the output buffer in hand: descriptor, capacity, bytes filled (14 R388) -/
  | dump (blocks : Nat) (desc : Nat) (cap : Nat) (fill : Nat)
  /-- `CNT_DUMP` waits for the next output descriptor -/
  | dumpWait (blocks : Nat) (desc : Nat)
  /-- `CONN_DELAY`: waits for the crossover pass of a cycle (06 R183) -/
  | delay (cycle : Nat)
  /-- `TIME_TICK_SET` waits for the frame tick; with ALIGN, until its deadline for two consistent words (02 R61) -/
  | tick (deadline : Nat)
  /-- `LANE_TX_SET` waits for the next grain-cycle tick (09 R239) -/
  | txOn
  /-- `TEST_EYE_SCAN` runs on a lane -/
  | eye (lane : Nat)
  /-- `MEM_TEST_START` on request: next stripe, left, done, repaired, unrepaired, skipped (13 R369) -/
  | memTest (next left doneN repaired unrepaired skipped : Nat)
  /-- `MEM_FENCE_SET` waits until an overlapping stripe has been returned (13 R362) -/
  | fenceWait
  /-- `SAVE_TEST` MEASURE or CHECKPOINT runs (15 R419) -/
  | saveTest (op : Nat)
  /-- `HEALTH_SPARE_SWAP` waits for its cutover or its retest (15 R419) -/
  | swap (pool unit : Nat)
  | retest (pool unit : Nat)
  /-- planned handover waits for the end of the gap (15 R419) -/
  | handover
  /-- `SYS_ABORT` waits until its target has replied: a command ring, or a cipher operation by its number (12 R337) -/
  | abort (isOp : Bool) (n : Nat)
  /-- done in a failover gap: its status and reply words, written when the gap ends (15 R395) -/
  | due (st : Status) (ws : List Word)
deriving DecidableEq, Repr

/-- A command decoded and not yet answered (12 R331, R337). -/
structure Job where
  ring      : Nat
  cls       : Nat
  act       : Nat
  tag       : Word
  abortable : Bool
  authed    : Bool
  params    : List Word
  /-- the data it has copied (06 R182; 05 R122) -/
  image     : List Byte
  /-- descriptors taken with `OWN` = 1 and not handed back (12 R341) -/
  taken     : List Nat
  /-- writes of this command that the update port has accepted (15 R393) -/
  accepted  : Nat
  work      : Work
deriving DecidableEq, Repr

/-- One ring's registers (12 Table 12.3). -/
structure Ring where
  base   : Nat
  size   : Nat
  en     : Bool
  cfgErr : Bool
  index  : Nat
  fault  : Bool
  db     : Nat
deriving DecidableEq, Repr

/-- One MSI-X vector: address, data, mask bit, pending bit, messages sent (12 R318, R324). -/
structure Msix where
  addr   : Nat
  data   : Word
  masked : Bool
  pend   : Bool
  sent   : Nat
deriving DecidableEq, Repr

/-- PCIe endpoint (12 R318). No row of the table writes its configuration space, trains its link or reports a link error: the
host's configuration is taken as done (log 5). -/
structure Pcie where
  /-- trained width: 4, 2 or 1 | 3 | 12 R318 | DESIGN CHOICE 4 (log 5) -/
  width : Nat
  /-- trained rate, 0.1 GT/s: 25, 50, 80 or 160 | 8 | 12 R318 | DESIGN CHOICE 160 (log 5) -/
  rate  : Nat
  /-- MSI-X Enable | 1 | 12 R318 | DESIGN CHOICE 1 (log 5) -/
  msixOn : Bool
  /-- MSI-X Function Mask | 1 | 12 R318 | PRESUMED 0 (PCIe; log 5) -/
  msixMask : Bool
  /-- Advanced Error Reporting: uncorrectable and correctable error status | 32 each | 12 R318 | PRESUMED 0 (PCIe; log 5) -/
  aerUncorr : Word
  aerCorr : Word
deriving DecidableEq, Repr

/-- What a reply echoes of its command. -/
structure Echo where
  ring      : Nat
  cls       : Nat
  act       : Nat
  tag       : Word
  abortable : Bool
  authed    : Bool
deriving DecidableEq, Repr

/-- A reply whose command has ended but which no slot can take yet: in a failover gap (15 R395), or with the slot at `DEV_INDEX` not
offered (12 R332, R333). -/
structure LateReply where
  echo  : Echo
  st    : Status
  words : List Word
deriving DecidableEq, Repr

/-- Host interface and command plane (chapter 12). -/
structure Io where
  pcie      : Pcie
  /-- ring registers of rings 0 to 5 | 6 rings | 12 R323, Table 12.5 | Table 12.5, `EN` 1, indices 0 -/
  rings     : Tbl Ring
  /-- `IRQ_STATUS` | 5 | 12 R324 | 0 -/
  irq       : BitVec 5
  /-- `IRQ_MASK` | 5 | 12 R324 | 0b1_1110 -/
  mask      : BitVec 5
  /-- `EVT_IRQ_CFG.THRESH` | 16 | 12 R324 | 1 -/
  thresh    : Nat
  /-- `EVT_IRQ_CFG.HOLDOFF`, µs | 16 | 12 R324 | 0 -/
  holdoff   : Nat
  /-- `EVT_LOST` | 32 | 12 R324 | 0 -/
  lost      : Nat
  /-- MSI-X vectors 0 to 3 | 4 × 128 bits and PBA | 12 R318, R321 | PRESUMED masked, zero (PCIe; log 5) -/
  msix      : Tbl Msix
  /-- `IRQ_N` as held through a failover gap or SAVE | 1 | 15 R396, 12 R324 | none held -/
  irqHeld   : Option Bool
  /-- `IRQ_STATUS` bits that became set in a failover gap, whose effect waits for its end | 5 | 15 R396 | 0 -/
  irqLate   : BitVec 5
  /-- offered reply slots from `DEV_INDEX` onward, as found at the last check | count | 12 R332 | 0 -/
  offered   : Nat
  /-- the command in progress on each of rings 0 to 3 | 4 | 12 R329, R335 | none -/
  jobs      : Tbl (Option Job)
  /-- replies due that no slot can take yet, oldest first | list | 12 R332, R333, 15 R395 | none -/
  late      : List LateReply
  /-- tags of the last 16 commands completed on each ring, newest first | 4 × 16 × 32 | 12 R337 | none -/
  done      : Tbl (List Word)
  /-- `REQUIRE` | 1 | 12 R338, R348 | 0 -/
  require   : Bool
  /-- `AUTH_SLOT` | 6 | 12 R345, R348 | none set -/
  authSlot  : Option Nat
deriving DecidableEq, Repr

/-- The update port (01 R24; 02 R52; 06 R169). -/
structure Port where
  /-- committed writes whose effective point lies ahead, in commit order | list | 02 R52, 01 R24 | empty -/
  staged   : List Staged
  /-- aperture writes that wait for a commit slot, in order, as (master, address, data) | list | 06 R160; 02 R52, R56 | empty -/
  waiting  : List (Nat × Nat × Word)
  /-- number of the next free commit slot, 500 to a cycle, counted with the tick number | count | 02 R56; 06 R169 | 0 -/
  slot     : Nat
deriving DecidableEq, Repr

/-! ## Connection Table (chapter 06) -/

/-- One entry as committed (06 R159, R160; Table 6.2). -/
structure ConnRec where
  /-- the 32 data bits | 32 | 06 Table 6.2 -/
  data   : Word
  /-- tick number of the effective cycle of the data | count | 02 R52 -/
  eff    : Nat
  effFc  : Word
  effCyc : Nat
  /-- tick number from which this record (data and slot) governs | count | 06 R167 -/
  since  : Nat
  /-- internal slot, 0x3_FFFF for none | 18 | 06 R158 -/
  slot   : Nat
deriving DecidableEq, Repr

/-- An earlier record that still governs cycles below `til`. -/
structure ConnOld where
  ga  : Nat
  til : Nat
  r   : ConnRec
deriving DecidableEq, Repr

/-- A Path Equaliser binding (06 R172 to R177). -/
structure EqBind where
  /-- 0 disabled, 1 FIXED, 2 measuring, 3 locked, 4 held | 3 | 06 Table 6.14 | 0 (R186) -/
  st      : Nat
  ta      : Nat
  depth   : Nat
  /-- FIXED `DELAY`, or the s measured | 7 | 06 R174 -/
  s       : Nat
  taRef   : Nat
  refDelay : Nat
  matchN  : Nat
  /-- tick number of the first data cycle whose tags are stored (c0) | count | 06 R175 -/
  c0      : Nat
  /-- ω at lock | 8 signed | 06 Table 6.14 -/
  omega   : Int
  /-- excluded candidates, as ω | list | 06 R175 -/
  excl    : List Int
  /-- matches in a row of each candidate, as (ω, count) | list | 06 R175 -/
  run     : List (Int × Nat)
  /-- compared cycles that failed in a row after lock | count | 06 R176 -/
  fails   : Nat
  /-- `CONN_EQ_AMBIG` has been raised since the last lock, restart or enable | 1 | 06 R176 -/
  ambigRaised : Bool
  rangeRaised : Bool
  /-- lock found and to apply from this tick | count | 06 R175 -/
  lockAt  : Option Nat
  fcLock  : Word
  cycLock : Nat
  /-- sticky `HIST_AMBIG`, `HIST_RANGE`, `HIST_LOST` | 3 | 06 Table 6.14 -/
  hist    : BitVec 3
  /-- FIXED, entered from lock with its s (08 R221) -/
  fromLock : Bool
  /-- units reserved in the Aligner store | count | 06 R173 -/
  units   : Nat
  /-- first cycle of the settings | count | 02 R53 -/
  from_   : Nat
deriving DecidableEq, Repr

/-- Connection Table, route maps and Path Equaliser. -/
structure Conn where
  /-- every entry as last committed, by destination GA | 14,155,776 × 32 | 06 R159, R186 | 0x0300_0000 (R186) -/
  com      : Tbl ConnRec
  /-- earlier records still governing a cycle not yet passed | list | 06 R171 | empty -/
  old      : List ConnOld
  /-- physical block of each logical block swapped or repaired since BOOT, by logical block | 12 | 06 R159, R164 | Config.initialBlock -/
  blocks   : Tbl Nat
  /-- spare blocks of the start-up pool not yet taken; they are `Config.initialBlock` 4,096 − `spares` to 4,095 | count | 06 R159, R186 | 640 (R159: no repairs) -/
  spares   : Nat
  /-- spare blocks that the pool held when BOOT ended | count | 06 R186; 15 Table 15.16 | 640 (R159: no repairs) -/
  total    : Nat
  /-- physical blocks returned to the pool since BOOT, by a march or a retest, oldest first | list | 06 R164; 15 R419 | none -/
  freed    : List Nat
  /-- physical block that a swap took out of service, by logical block | 12 | 06 R164; 15 R403 | none -/
  outBlk   : Tbl (Option Nat)
  /-- logical blocks that have failed with the pool empty | list | 06 Table 6.15 | none -/
  bad      : List Nat
  /-- physical blocks that the start-up march found faulty | list | 06 R186; 13 R364 | none -/
  worn     : List Nat
  /-- Path Equaliser bindings, as committed | 8,192 | 06 R172, R186 | disabled -/
  eq       : Tbl EqBind
  /-- by binding: the earlier settings that govern until those committed do, newest first | 8,192 lists | 01 R23; 02 R53 | none -/
  eqOld    : Tbl (List EqBind)
deriving DecidableEq, Repr

/-! ## Counter bank (chapter 14) -/

/-- One counter (14 Table 14.5). -/
structure Counter where
  value : Nat
  sat   : Bool
  bound : Bool
  /-- tap code and object index bound | 8, 24 | 14 R381 -/
  tap   : Nat
  obj   : Nat
  /-- tick number from which it counts | count | 14 R386 -/
  since : Nat
deriving DecidableEq, Repr

/-- Counter bank and count taps. -/
structure Cnt where
  /-- counters 0 to 1,048,575 | 1,048,576 × 50 | 14 R381, R390 | 0 (R390) -/
  bank : Tbl Counter
  /-- Gray accumulator of each tap, by tap code × 2^24 + object | 16 | 14 R376; 07 R207 | 0 (07 R207) -/
  acc  : Tbl Nat
  /-- accumulator value at the bank's last sample | 16 | 14 R376, R390 | 0 (sampled, R390) -/
  last : Tbl Nat
deriving DecidableEq, Repr

/-! ## Window Memory, march engine and Bus Matrix (chapter 13) -/

/-- A Window Memory fence (13 R362). -/
structure Fence where
  en    : Bool
  first : Nat
  last  : Nat
deriving DecidableEq, Repr

/-- A borrowed stripe (13 R361): 0 copy-in, 1 test, 2 copy-back. -/
structure Borrow where
  store    : Nat
  stripe   : Nat
  onReq    : Bool
  phase    : Nat
  /-- store 3: the logical block cut over, and the spare brought in for it (06 R164) -/
  block    : Option (Nat × Nat)
deriving DecidableEq, Repr

/-- March engine, repair and Bus Matrix. -/
structure Mem where
  /-- fences 0 to 15 | 16 | 13 R362, R371 | fence 0 over 0x007F_C000 to 0x007F_FFFF, others disabled -/
  fences   : Tbl Fence
  /-- background `RATE` | 14 | 13 R369, R371 | 500 -/
  rate     : Nat
  /-- store under background test, as numbered in Table 13.6 | 4 | 13 R363 | 0 (first in order) -/
  bgStore  : Nat
  /-- next background stripe of that store | 17 | 13 R363 | 0 -/
  bgNext   : Nat
  /-- elapsed time of the last background stripe | ns | 13 R363 | 0 -/
  bgAt     : Nat
  /-- completed passes | 32 | 13 R369 | 0 -/
  passes   : Nat
  /-- elapsed time at which the pass began | ns | 13 R369 | 0 -/
  passAt   : Nat
  /-- duration of the last complete pass, s | 32 | 13 R369 | DESIGN CHOICE 0 (log 4) -/
  lastPass : Nat
  /-- the borrowed stripe | record | 13 R361 | none -/
  borrow   : Option Borrow
  /-- repairs in progress: store, kind (0 row, 1 column) and location | list | 13 R358 | none -/
  mirror   : List (Nat × Nat × Nat)
  /-- stripes of the Window Memory under a destructive on-request test: first and number | 17, 17 | 13 R360, R369 | none -/
  testing  : Option (Nat × Nat)
  /-- repair map: store, kind and location of each repair in force | list | 13 R358, R371; 15 R417 section 3 | none -/
  repairs  : List (Nat × Nat × Nat)
  /-- locations of the Capture, Release and Aligner stores found uncorrectable: store, bank, address, tick first found since its last
  rewrite | list | 13 R357, 15 R403 | none -/
  seen     : List (Nat × Nat × Nat × Nat)
  /-- sticky `HIST_UNCORR`, `HIST_REPAIR_FAIL`, `HIST_ABANDON` | 3 | 13 R369, R371 | 0 -/
  hist     : BitVec 3
  /-- master holding the lock of each target | 8 | 13 R365, R371 | none -/
  locks    : Tbl (Option Nat)
  /-- the address locked at each target | 32 | 13 R365 | 0 -/
  lockAddr : Tbl Nat
  /-- the last port E read returned undefined data and was warned on `WBUSY_N` | 1 | 13 R355 | 0 -/
  warned   : Bool
  /-- data returned by the last port E read | 32 | 13 R355 | DESIGN CHOICE 0 (log 4) -/
  readE    : Word
  /-- data returned by the last port I read | bytes | 13 R354 | none -/
  readI    : List Byte
  /-- the last port I access received an error response or a poisoned completion | 1 | 13 R356, R367 | 0 -/
  errI     : Bool
deriving DecidableEq, Repr
/-! ## Lanes (chapters 3, 4, 7, 9) -/

/-- Settings of one transmitter that an enable brings in at its tick (09 R239). -/
structure TxSet where
  pol   : Bool
  swing : Nat
  taps  : List Int
deriving DecidableEq, Repr

/-- SerDes of one lane (chapter 9). -/
structure Serdes where
  /-- receiver enabled, `RX_EN` | 1 | 09 R250, R252 | 1 -/
  rxEn    : Bool
  /-- electrical class, `CLASS` | 2 | 09 R232, R252 | 0 LR -/
  cls     : Nat
  /-- `ADAPT` HOLD | 1 | 09 R236, R252 | 0 CONTINUOUS -/
  hold    : Bool
  /-- adaptation has converged | 1 | 09 R236, Table 9.11 | 0 (acquiring) -/
  conv    : Bool
  /-- coefficients in force: 31 FFE taps, then the DFE tap | 32 × 16 signed | 09 R233, R236 | Config.initCoef of class LR (R252) -/
  coefs   : List Int
  /-- good coefficient set | 32 × 16 signed | 09 R236, R252 | none -/
  good    : Option (List Int)
  /-- elapsed time since which the lane has been aligned with no uncorrectable codeword and the CDR locked | ns | 09 R236 | none -/
  okFrame : Option Nat
  /-- elapsed time since which the PRBS checker has been locked with no bit error and the CDR locked | ns | 09 R236 | none -/
  okPrbs  : Option Nat
  /-- elapsed time of the last refresh of the good set | ns | 09 R236 | 0 -/
  goodAt  : Nat
  /-- `LOS` condition on the line input | 1 | 09 R234, R252 | 1 (R234: present from the enable) -/
  los     : Bool
  /-- consecutive detector windows above the deassert threshold | 2 | 09 R234 | 0 -/
  above   : Nat
  /-- the CDR has declared lock | 1 | 09 R235 | 0 -/
  locked  : Bool
  /-- recovered frequency offset, ppb | 32 signed | 09 R233, Table 9.11 | 0 -/
  offset  : Int
  /-- received amplitude of the last window, mV | 12 | 09 R234, Table 9.11 | DESIGN CHOICE 0 (log 4: no window yet) -/
  ampl    : Nat
  /-- SerDes fenced as failed, `FAILED` | 1 | 09 R253 | 0 -/
  failed  : Bool
  /-- transmitter enabled, `TX_EN` | 1 | 09 R239, R252 | 0 -/
  txEn    : Bool
  /-- enable that waits for the next grain-cycle tick | record | 09 R239, R249 | none -/
  txNext  : Option TxSet
  /-- `TX_POL_INV` | 1 | 09 R239, R252 | 0 -/
  txPol   : Bool
  /-- `SWING` | 2 | 09 R238, Table 9.9 | 2 -/
  swing   : Nat
  /-- transmit taps c(−3) to c(+2) | 6 × 8 signed | 09 R238, R252 | 0, 2, −10, 40, −6, 0 (Table 9.3, LR) -/
  taps    : List Int
  /-- `LOOP` | 2 | 09 R241, R252 | 0 -/
  loop    : Nat
  /-- `LINE_TX` | 1 | 09 R241, Table 9.12 | 1 -/
  lineTx  : Bool
  /-- `LOOP_SLIPS` | 16 | 09 R243, R250 | 0 -/
  slips   : Nat
  /-- fill of the far-end loop's elastic buffer, symbols | 8 | 09 R243 | 64 -/
  fill    : Nat
  /-- elapsed time up to which the offset beyond 100 ppm has moved that fill, and the part of a symbol it left, 10^-9 symbols | ns, signed | 09 R243 | 0 -/
  fillAt  : Nat
  frac    : Int
  /-- bits received in the far-end loop and not yet sent, oldest first: the last ones, two to a symbol, are the elastic buffer | list | 09 R243 | none -/
  echo    : List Bool
  /-- PRBS generator: on, PRBS31Q | 2 | 09 R245, R252 | 0 -/
  genEn   : Bool
  genPat  : Bool
  /-- register of the PRBS generator, the newest bit in bit 0 | 31 | 09 R245 | DESIGN CHOICE 0 (log 4; loaded with a free value when the generator is set on) -/
  genReg  : Nat
  /-- PRBS checker: on, PRBS31Q, locked, locked to the complemented form, sticky `HIST_LOSS` | 5 | 09 R247, R252 | 0 -/
  chkEn   : Bool
  chkPat  : Bool
  chkLock : Bool
  chkInv  : Bool
  chkHist : Bool
  /-- `BITS` and `ERRORS` counted so far, but for the lock in progress | 2 × 48 | 09 R247, R252 | 0 -/
  bits    : Nat
  errors  : Nat
  /-- elapsed time at which the checker locked, or was last cleared while locked | ns | 09 R247 | 0 -/
  lockAt  : Nat
  /-- the command scan in progress has met the `LOS` or `LOL` condition or a disabled receiver | 1 | 09 R248, R249 | 0 -/
  eyeInt  : Bool
  /-- elapsed time at which the command scan began | ns | 09 R248 | 0 -/
  eyeAt   : Nat
deriving DecidableEq, Repr

/-- Defects of one lane (07 R190 to R196). -/
structure Ldef where
  /-- `EVENT_EN` | 6 | 07 Table 7.11 | 0b11_1111 -/
  en     : BitVec 6
  /-- `FEC_FAIL_THRESH` | 9 | 07 Table 7.11 | 1 -/
  thresh : Nat
  /-- `T_SET`, 125 µs | 14 | 07 Table 7.11 | 20 -/
  tset   : Nat
  /-- `T_CLEAR`, 125 µs | 14 | 07 Table 7.11 | 80 -/
  tclear : Nat
  /-- elapsed time of the last command that shortened `T_SET`, and `T_CLEAR`: nothing is declared, or cleared, before it under the shorter value | 2 × ns | 07 R192 | 0 -/
  setFrom : Nat
  clrFrom : Nat
  /-- conditions present | 6 | 07 R190, Table 7.12 | `LOS`, `LOL`, `LOF` (09 R234, R235; 04 R111, R117); R207 counts them from BOOT exit -/
  cond   : BitVec 6
  /-- elapsed time at which each condition last changed | 6 × ns | 07 R191 | 0 -/
  since  : Tbl Nat
  /-- defects declared | 6 | 07 R191, R207 | 0 -/
  decl   : BitVec 6
  /-- sticky `HIST` | 6 | 07 Table 7.12, R207 | 0 -/
  hist   : BitVec 6
  /-- elapsed time at which the timers stopped for a Lane Engine swap, and the conditions then | ns, 6 | 07 R195 | none -/
  heldAt : Option (Nat × BitVec 6)
deriving DecidableEq, Repr

/-- One message in a transmit queue (03 R75). -/
structure Msg where
  typ  : Nat
  seq  : Nat
  data : List Byte
  /-- marker blocks still to carry it -/
  left : Nat
deriving DecidableEq, Repr

/-- One received message (03 R76, Table 3.14). -/
structure RxMsg where
  fc    : Word
  pos   : Nat
  bytes : List Byte
deriving DecidableEq, Repr

/-- A seed slot (03 R91): LANE_SEED and epoch. -/
structure Seed where
  seed  : Word
  epoch : Nat
deriving DecidableEq, Repr

/-- Ingress frame settings of one lane (03 Table 3.10), with its receive seed slots (03 R91). -/
structure FrameIn where
  expId   : Nat
  idChk   : Bool
  tmapChk : Bool
  expGen  : Nat
  a       : Seed
  b       : Seed
deriving DecidableEq, Repr

/-- One section as a lane's framer sends it (03 R66). -/
structure TxSection where
  fc     : Word
  cyc    : Nat
  sec    : Nat
  /-- 1,150 bits -/
  marker : List Bool
  /-- 40 codewords of 544 symbols -/
  words  : List (List (BitVec 10))
  /-- what leaves at the ball: 0 nothing (squelched), 1 these bits, 2 PRBS, 3 the received symbols -/
  line   : Nat
  /-- the received bits that the far-end loop sends in this section's place -/
  echo   : List Bool
  /-- what the transmitter drives, of the same codes, before `LINE_TX` -/
  pads   : Nat
  /-- `TX_POL_INV` -/
  pol    : Bool
  /-- PRBS31Q, and the generator's register at the section's first bit -/
  prbs   : Bool × Nat
deriving DecidableEq, Repr

/-- Transmit framer of one lane (chapter 3). -/
structure Tx where
  /-- `TX_LANE_ID` | 8 | 03 Table 3.10 | the lane number -/
  id      : Nat
  /-- `RDI` | 1 | 03 Table 3.10 | 0 -/
  rdi     : Bool
  /-- transmit seed slots A and B | 2 × 36 | 03 R91, R97 | seed 0; epochs 0 and 1 -/
  a       : Seed
  b       : Seed
  /-- active transmit slot: B | 1 | 03 R91, R97 | 0 (A) -/
  act     : Bool
  /-- transmit message queue, at most 4 | records | 03 R75, R97 | empty -/
  queue   : List Msg
  /-- next `SEQ` | 8 | 03 R75, R97 | 0 -/
  seq     : Nat
  /-- `SEQ` last sent | 8 | 03 R75 | none -/
  last    : Option Nat
  /-- `BIP8` of the section last sent | 8 | 03 R82 | DESIGN CHOICE 0 (log 4: no section sent yet) -/
  bip     : Byte
  /-- number of the next section to send | 3 | 03 R66 | 0 -/
  sec     : Nat
  /-- the section last sent | record | 03 R66 | none -/
  sent    : Option TxSection
  /-- line bits of the sections that a near-end loop has still to bring to the receiver, oldest first, at most 16 | list | 09 R241 | none -/
  looped  : List (List Bool)
  /-- the marker block of the oldest of them has been examined | 1 | 09 R241 | 0 -/
  seen    : Bool
deriving DecidableEq, Repr

/-- Receive framer of one lane (chapter 3; 02 R47, R48). -/
structure Rx where
  /-- ingress frame settings and receive seed slots, newest first, each with its first core cycle | records | 03 Table 3.10, R91, R97; 02 R53 | the lane number, 0, 0, 0; seeds 0, epochs 0 and 1 -/
  cfg     : List (Nat × FrameIn)
  /-- receive slot used for the last section: B | 1 | 03 R91, Table 3.11 | 0 -/
  slot    : Bool
  /-- last valid `LANE_ID` | 8 | 03 R72, Table 3.11 | DESIGN CHOICE 0 (log 4: no valid header yet) -/
  id      : Nat
  /-- last valid `QL` | 4 | 03 R72 | DESIGN CHOICE 0 (log 4) -/
  ql      : Nat
  /-- last valid `RDI` | 1 | 03 R72 | DESIGN CHOICE 0 (log 4) -/
  rdi     : Bool
  /-- last valid `SEED_EPOCH` | 4 | 03 R72 | DESIGN CHOICE 0 (log 4) -/
  epoch   : Nat
  /-- last valid `FC` | 32 | 03 R72, Table 3.11 | DESIGN CHOICE 0 (log 4) -/
  fc      : Word
  /-- received `TMAP_GEN` | 16 | 03 Table 3.11 | DESIGN CHOICE 0 (log 4) -/
  gen     : Nat
  /-- received `REI` | 4 | 03 Table 3.11 | DESIGN CHOICE 0 (log 4) -/
  rei     : Nat
  /-- `LANE_ID_MISMATCH`, `LANE_TMAP_MISMATCH`, `LANE_SEED_EPOCH` raised and not re-armed | 3 | 03 R73, R84, R91 | 0 -/
  idBad   : Bool
  genBad  : Bool
  epBad   : Bool
  /-- valid or predicted section number, cycle and FC of the section in progress | 3, 3, 32 | 03 R72 | 0 -/
  pSec    : Nat
  pCyc    : Nat
  pFc     : Word
  /-- valid or predicted `SEED_EPOCH` of the section in progress | 4 | 03 R72, R91 | 0 -/
  pEp     : Nat
  /-- its header was valid | 1 | 03 R72 | 0 -/
  hdrOk   : Bool
  /-- its marker block has been examined and its codewords are still to come | 1 | 03 R66 | 0 -/
  due     : Bool
  /-- number of the core cycle to which the lane cycle in progress goes | count | 02 R47 | none -/
  core    : Option Nat
  /-- PLESIO timing, newest first, each value with its first core cycle | 1 | 05 R126, R155 | LOCKED -/
  plesio  : List (Nat × Bool)
  /-- core cycles, newest first, at most 96, whose lane cycle has had the `LANE_SKEW` condition | list | 02 R49 | none -/
  skews   : List Nat
  /-- lane cycles begun | count | 05 R130 | 0 -/
  count   : Nat
  /-- alignment gained and no section 0 begun since | 1 | 04 R113 | 0 -/
  fresh   : Bool
  /-- the lane cycle in progress is the first of its alignment | 1 | 04 R113; 05 R131 | 0 -/
  newAl   : Bool
  /-- lane cycle count of the first lane cycle of the alignment | count | 05 R131 | 0 -/
  alAt    : Nat
  /-- core cycles that hold a whole lane cycle, newest first, at most 4 | list | 04 R113; 02 R49 | none -/
  whole   : List Nat
  /-- `BIP8` computed over the last section received, when it can be checked | 8 | 03 R83 | none -/
  bip     : Option Byte
  /-- `BIP8` bits in error in the last section checked | 4 | 03 R82 | 0 -/
  bipErr  : Nat
  /-- uncorrectable codewords of the lane cycle in progress | 9 | 07 Table 7.2 | 0 -/
  uncorr  : Nat
  /-- an errored or invalid marker block in the lane cycle in progress | 1 | 04 R111 | 0 -/
  loam    : Bool
  /-- the lane has been aligned for the whole of the lane cycle in progress | 1 | 07 Table 7.2 | 0 -/
  steady  : Bool
  /-- the lane has had the loss-of-frame condition in the lane cycle in progress | 1 | 07 R198 | 1 -/
  lofIn   : Bool
  /-- grains of the sections of the lane cycle decoded so far, by section | lists of 16 | 03 R80 | none -/
  grains  : Tbl (Option (List Grain))
  /-- receive message queue, oldest first, at most 16 | records | 03 R76, R97 | empty -/
  queue   : List RxMsg
  /-- `SEQ` of the last message queued | 8 | 03 R76, R97 | none (R97: undefined, so the first valid message is queued) -/
  seq     : Option Nat
  /-- `LANE_MSG_OVERFLOW` raised since the queue was last not full | 1 | 03 R76 | 0 -/
  ovf     : Bool
deriving DecidableEq, Repr

/-- A candidate tracker (04 R99, R101, R104). -/
structure Tracker where
  pos  : Nat
  cnt  : Nat
  /-- the reversed form matched -/
  rev  : Bool
  qual : Bool
  sec  : Nat
  cyc  : Nat
  fc   : Word
  /-- `SEED_EPOCH` of its last valid header (03 R72) -/
  epoch : Nat
deriving DecidableEq, Repr

/-- Alignment settings (04 Table 4.6). -/
structure AlignSet where
  mode    : Nat
  pol     : Nat
  n       : Nat
  m       : Nat
  delta   : Nat
  alpha   : Nat
  recEn   : Bool
  restart : Bool
  recMs   : Nat
deriving DecidableEq, Repr

/-- Alignment of one lane (chapter 4). -/
structure Align where
  /-- settings in force | record | 04 Table 4.6, R117 | FOLLOW, AUTO, 3, 4, 2, 8, 0, 0, 100 -/
  cfg     : AlignSet
  /-- committed settings not yet in force, with their first cycle, in order | list | 04 R108, R115 | none -/
  next    : List (Nat × AlignSet)
  /-- header mode in use | 1 | 04 R99, R117 | 0 (pattern) -/
  header  : Bool
  /-- pattern search of a recovery in progress | 1 | 04 R109 | 0 -/
  recov   : Bool
  /-- receive polarity inversion in force | 1 | 04 R103, R117 | 0 -/
  inv     : Bool
  /-- candidate trackers, at most 8 | 8 records | 04 R99, R117 | free -/
  trk     : List Tracker
  /-- position of the candidate that opened the decision window in progress | 18 | 04 R106 | none -/
  window  : Option Nat
  /-- alignment position | 18 | 04 R99, R117 | none -/
  pos     : Option Nat
  /-- position at which sections are taken: that of the alignment, kept while the lane free-wheels | 18 | 04 R112 | 0 -/
  fpos    : Nat
  /-- adopted, first marker block at the position not yet examined | 1 | 04 R106 | 0 -/
  gain    : Bool
  /-- the winning candidate, whose header values the first marker block follows | record | 04 R106, R112 | none -/
  won     : Option Tracker
  /-- the lane has been aligned since BOOT or its restart | 1 | 04 R112; 06 R183 | 0 -/
  ever    : Bool
  /-- E or A | 5 | 04 R102, R105 | 0 -/
  err     : Nat
  /-- elapsed time since which the lane has hunted in header mode | ns | 04 R109 | none -/
  hunt    : Option Nat
  /-- `LANE_LOF_AMBIG` raised: number of the last cycle in which a candidate was qualified | count | 04 R106 | none -/
  ambig   : Option Nat
  /-- s_L, ps | 24 | 02 R47; 04 R116 | 0 (R116: before first alignment) -/
  sil     : Nat
  /-- s_L of the last lane cycles, newest first, with their core cycles, at most 8 | list | 02 R51 | none -/
  sils    : List (Nat × Nat)
  /-- Λ_rx measured at bring-up, ps | 22 | 02 R51 | DESIGN CHOICE 0 (log 4: not measured before the first alignment) -/
  lambda  : Nat
  /-- s_L in the near-end parallel loop, ps, from the setting of the loop on | 21 | 09 R242 | DESIGN CHOICE 0 (log 4: no loop set yet) -/
  loopS   : Nat
  /-- recorded difference of cycle indices | 35 | 02 R48; 04 R116 | DESIGN CHOICE 0 (log 4: none recorded yet) -/
  diff    : Nat
  /-- sticky `HIST_LOSS`, `HIST_AMBIG`, `HIST_POL`, `HIST_RECOVERY` | 4 | 04 R116, R117 | 0 -/
  hist    : BitVec 4
deriving DecidableEq, Repr

/-- One lane. -/
structure Lane where
  sd    : Serdes
  ldef  : Ldef
  tx    : Tx
  rx    : Rx
  al    : Align
deriving DecidableEq, Repr


/-! ## Tributaries, accords and the data plane (chapters 2, 3, 5, 7). A list of (k, v) pairs, newest first, holds a setting that
takes the value v from cycle number k on (02 R53). -/

/-- One Tributary Map: generation, and the tributary ID of each mapped grain (05 R119). -/
structure TMap where
  gen  : Nat
  ents : Tbl Nat
deriving DecidableEq, Repr

/-- Egress settings of `TRIB_SET` (05 Table 5.7). -/
structure EgSet where
  src   : Nat
  jct   : Nat
  stat  : Bool
  rdi   : Bool
  fsf   : Bool
  ql    : Nat
  acc   : Nat
  accId : Nat
  seq   : Nat
  last  : Bool
deriving DecidableEq, Repr

/-- One lane cycle of an ingress tributary at the receiver: its D, and the CRC over its client data once whole (03 R86, R87). -/
structure TaRx where
  lc   : Nat
  core : Nat
  d    : Nat
  crc  : Option (BitVec 16)
  lof  : Bool
deriving DecidableEq, Repr

/-- One cycle of an ingress tributary on its way through the core: its overhead, and its grains when the Aligner store holds it. -/
structure TaCyc where
  n    : Nat
  lc   : Nat
  d    : Nat
  ftag : Nat
  /-- created or changed at this cycle: its `FTAG` covers nothing (05 R123) -/
  fresh : Bool
  /-- the most recent multiframe bytes 4 to 7 of each lane cycle number, as of this cycle (03 Table 3.8) -/
  mfs  : Tbl (List Byte)
  /-- delay in the Rate Absorber, ps (05 R129, R130) -/
  lat  : Nat
  /-- ingress check of its data: 0 none or skipped, 1 passed, 2 failed, 3 the Rate Absorber generated the tag (07 Table 7.5) -/
  chk  : Nat
  /-- LOCKED lane with `LANE_SKEW` or loss of frame in this cycle (07 R199) -/
  bad  : Bool
  gr   : Option (List Grain)
deriving DecidableEq, Repr

/-- Rate Absorber share of one tributary (05 R128). -/
structure RaShare where
  on   : Bool
  /-- D_out of the core cycle in progress -/
  d    : Nat
  /-- client bits received since the share was initialised, and those still held, oldest first -/
  got  : Nat
  bits : List Bool
  /-- next client bit to read -/
  rd   : Int
  /-- inserted zero bits still to read -/
  zero : Nat
  e    : Int
  /-- `FTAG` over the data of the last core cycle emitted; none in the first -/
  tag  : Option (BitVec 16)
  /-- lane cycle count at which it was last initialised -/
  at_  : Nat
  /-- re-initialised: this core cycle's content is undefined (05 R131) -/
  new_ : Bool
deriving DecidableEq, Repr

/-- Rate Absorber, whole-cycle content of one lane (05 R130). -/
structure RaLane where
  on    : Bool
  /-- lane cycle count that the core cycle in progress takes, and whether an undefined first cycle -/
  take_ : Int
  /-- synchronous delay, ps; what it was over the lane cycles taken when it was last initialised at 1.5T; and that of the last core cycles -/
  x     : Int
  off   : Int
  xs    : List (Nat × Int)
  /-- re-initialised: this core cycle's content is undefined (05 R131) -/
  new_  : Bool
  /-- lane cycle count at which it was last initialised -/
  at_   : Nat
  /-- controlled slips -/
  slips : Nat
  /-- lane cycles held, newest first, by lane cycle count -/
  held  : List (Nat × List (List Grain))
deriving DecidableEq, Repr

/-- Defects of one tributary (07 R197 to R200; Table 7.13). -/
structure TaDef where
  /-- `PROFILE`, `DEG_EN`, `SF_SRC`, `JC_SF_COUNT`, `EVENT_EN` -/
  prof   : Nat
  degEn  : Bool
  sfSrc  : BitVec 3
  jcN    : Nat
  en     : BitVec 4
  /-- conditions, and the elapsed time at which each last changed -/
  cond   : BitVec 4
  since  : Tbl Nat
  decl   : BitVec 4
  /-- elapsed time of the last declaration of each (08 R213) -/
  declAt : Tbl Nat
  hist   : BitVec 4
  /-- tick number from which the first window may begin; begin of the window in progress is the frame tick there -/
  winAt  : Nat
  winExp : Nat
  winS   : Nat
  checked : Nat
  errors : Nat
  /-- `DEG_CLAMPED`, as set at the end of the last window -/
  clamp  : Bool
  lastE  : Nat
  lastC  : Nat
  /-- last internal verdict: elapsed time, source TA, delayed in the Aligner store (07 Table 7.10) -/
  intAt  : Option (Nat × Nat × Bool)
deriving DecidableEq, Repr

/-- One ingress tributary. -/
structure InTa where
  /-- `TAG_CHECK` -/
  tag   : List (Nat × Bool)
  /-- previous lane cycle, and the one whose overhead came last -/
  prev  : Option TaRx
  cur   : Option TaRx
  /-- cycles through the core, newest first, at most 96 -/
  cycs  : List TaCyc
  /-- consecutive `JC` errors, and the JC source of `SF` (07 R197) -/
  jcRun : Nat
  jcSf  : Bool
  /-- last multiframe bytes of each lane cycle number (03 Table 3.8) -/
  mf    : Tbl (List Byte)
  /-- last consistent member label; the same with the core cycle that carries its data; one whose data is still in the Rate
  Absorber, with its first client bit and its lane cycle count; the last frame's label (05 R142 to R144) -/
  lab   : Option Word
  labAt : Option (Word × Nat)
  pend  : Option (Word × Nat × Nat)
  cand  : Option Word
  /-- frames in a row that failed the multiframe check -/
  fails : Nat
  /-- loss-of-multiframe condition -/
  lomf  : Bool
  /-- sticky `HIST_JC` to `HIST_LOMF` (05 Table 5.8) -/
  hist  : BitVec 5
  ra    : RaShare
  /-- slips, and the tick number of the last `TRIB_SLIP` -/
  slips : Nat
  slipAt : Option Nat
  /-- tick number of the last `SEAL_AUTH_FAIL` (11 R314) -/
  authAt : Option Nat
  df    : TaDef
deriving DecidableEq, Repr

/-- What the verdict on an egress cycle needs (07 R199). -/
structure EgInfo where
  fwd   : Bool
  /-- a case of R199 that gives no verdict -/
  none_ : Bool
  src   : Nat
  /-- data cycle -/
  nd    : Nat
  delayed : Bool
deriving DecidableEq, Repr

/-- One egress tributary. -/
structure EgTa where
  /-- settings, by egress cycle -/
  set   : List (Nat × EgSet)
  /-- CRC over the client data of the last egress cycle, none when it was of another configuration -/
  crc   : Option (BitVec 16)
  info  : Option EgInfo
  /-- D and label last sent -/
  d     : Nat
  label : Word
  /-- `HIST_INT_TAG` -/
  hist  : Bool
  /-- `SEAL_FRAME_SPLIT` raised and r not 0 since (11 R295) -/
  split : Bool
  /-- `HIST_SPLIT`, now and as of the last frame tick (11 Table 11.9) -/
  splitH : Bool
  splitS : Bool
  df    : TaDef
deriving DecidableEq, Repr

/-- A tributary defect profile (07 R197). -/
structure Profile where
  exp  : Nat
  winS : Nat
  tset : Nat
  tclear : Nat
deriving DecidableEq, Repr

/-- Settings of one accord (05 Tables 5.10, 5.11). -/
structure AccSet where
  en     : Bool
  aligned : Bool
  id     : Nat
  depth  : Nat
  margin : Nat
  frames : Nat
  /-- by place: TA bound, 0x3_FFFF none -/
  mem    : Tbl Nat
deriving DecidableEq, Repr

/-- One accord (05 R140 to R147). -/
structure Accord where
  /-- settings, newest first, each with its first core cycle -/
  set    : List (Nat × AccSet)
  /-- by place: offset last measured; offset used for its delay; offset repeated in the last frames and how often -/
  om     : Tbl (Option Word)
  used   : Tbl (Option Word)
  run    : Tbl (Word × Nat)
  oref   : Option Word
  /-- places for which the `ACCORD_SKEW` condition is present, and those whose recomputation its end makes due (05 R146) -/
  skew   : List Nat
  owed   : List Nat
  /-- `MEMBER_LOST` declared, and the elapsed time of its declaration (08 R213) -/
  lost   : Bool
  lostAt : Nat
  hist   : BitVec 3
deriving DecidableEq, Repr

/-- Tributary Maps, tributaries, accords and the Aligner store. -/
structure Trib where
  /-- ingress Tributary Maps, active and inactive, by lane and lane cycle | 144 × 2 × 98,304 × 16 | 05 R119, R122, R155 | 0, no tributary -/
  inMap : Tbl (List (Nat × TMap))
  /-- egress Tributary Maps, by lane and egress cycle | 144 × 2 × 98,304 × 16 | 05 R119, R122, R155 | 0, no tributary -/
  egMap : Tbl (List (Nat × TMap))
  /-- ingress tributaries | 147,456 records | 05 R120, 07 R197 | defaults of Tables 5.7 and 7.13 -/
  inTa  : Tbl InTa
  /-- egress tributaries | 147,456 records | 05 R120, R134 | defaults of Tables 5.7 and 7.13 -/
  egTa  : Tbl EgTa
  /-- tributary defect profiles 0 to 7 | 8 records | 07 R197, Table 7.13 | `EXP` 6, `WINDOW_S` 1, `T_SET` 0, `T_CLEAR` 80 -/
  prof  : Tbl Profile
  /-- accords 0 to 16,383 | records | 05 R140, R155 | disabled -/
  acc   : Tbl Accord
  /-- Aligner-store units on their way back to the pool: tick number, use (0 accord, 1 equaliser, 2 checked), units | list | 05 R148, R152 | none -/
  ret   : List (Nat × Nat × Nat)
  /-- accord delay a_m, equaliser delay s and checked hold of each TA, in cycles, by data cycle | 7 each | 05 R145, 06 R172, 11 R292 | 0 -/
  delA  : Tbl (List (Nat × Nat))
  delE  : Tbl (List (Nat × Nat))
  delC  : Tbl (List (Nat × Nat))
  /-- units that checked release of each TA reserves | 17 each | 11 R292 | 0 -/
  unitC : Tbl Nat
  /-- first data cycle of each TA that the Aligner store holds | count | 05 R148, 06 R173 | none -/
  store : Tbl (Option Nat)
  /-- Rate Absorber, whole-cycle content, by lane | records | 05 R127, R130 | off -/
  raLane : Tbl RaLane
deriving DecidableEq, Repr

/-- The grains of one section in the Capture Stage, with the core cycle that they were written for (02 R44). -/
structure Sect where
  n  : Nat
  gr : List Grain
deriving DecidableEq, Repr

/-- One buffer of the Release Stage: the egress cycle it holds and the grains that differ from 0x0000 (02 R45). -/
structure RelBuf where
  m  : Nat
  gr : Tbl Grain
deriving DecidableEq, Repr

/-- The egress cycle in progress: number, grains that differ from 0x0000, overhead bytes of each tributary by TA. -/
structure OutCycle where
  m  : Nat
  gr : Tbl Grain
  oh : Tbl (List Byte)
deriving DecidableEq, Repr

/-- The stores of the data plane. -/
structure Data where
  /-- Capture Stage: by lane, the ring of 221,184 grain places as 18 places of one section each; section σ of cycle n stands in place (8n + σ) mod 18 | 144 × 221,184 × 16 | 02 R44 | DESIGN CHOICE none written (log 4; 04 R112: undefined content, read as free values) -/
  cap : Tbl (Tbl Sect)
  /-- Release Stage: the two buffers used alternately | 144 × 2 × 98,304 × 16 | 02 R45, 06 R161 | 0x0000 (06 R161) -/
  rel0 : Option RelBuf
  rel1 : Option RelBuf
  /-- the next crossover pass writes the second buffer | 1 | 02 R45 | DESIGN CHOICE 0 (log 4: which buffer is first) -/
  relNext : Bool
  /-- egress staging buffers: the egress cycle being sent | 144 × 98,304 × 16 | 02 R43 | none -/
  out : Option OutCycle
deriving DecidableEq, Repr
/-! ## Protection switching (chapter 8) -/

/-- A protection switch in progress (08 R216 to R219). -/
structure ProtRun where
  /-- target side: ALT -/
  alt     : Bool
  /-- writes still to commit, in order -/
  left    : List PortWrite
  /-- first write committed -/
  started : Bool
  /-- follows another group of its link set in one run -/
  chain   : Bool
  /-- entries of `ETA` written -/
  written : Nat
deriving DecidableEq, Repr

/-- A protection group (08 R209, Table 8.4, Table 8.5). -/
structure PGroup where
  en        : Bool
  /-- `TYPE` 0 1+1, 1 TAIL, 2 HEAD -/
  typ       : Nat
  revertive : Bool
  prio      : Nat
  eqUse     : Bool
  requireEq : Bool
  trig      : BitVec 3
  eta       : Nat
  nrm       : Nat
  alt       : Nat
  wtrS      : Nat
  holdOff   : Nat
  eqBind    : Nat
  link      : Nat
  xta       : Nat
  xfill     : Nat
  xtaEn     : Bool
  reqTa     : Nat
  /-- selected side: ALT -/
  side      : Bool
  /-- governing request and stored external request, codes of Table 8.1 -/
  req       : Nat
  ext       : Nat
  /-- 0 neither, 1 `WTR`, 2 `DNR` -/
  rev       : Nat
  /-- elapsed time at which the wait-to-restore timer started -/
  wtrAt     : Nat
  /-- revert held -/
  held      : Bool
  /-- the request in force arose during `WTR` or `DNR` (R215) -/
  inRev     : Bool
  /-- elapsed time since which each trigger is declared: SF of NRM, SF of ALT, DEG of NRM, DEG of ALT, MEMBER_LOST of NRM and ALT -/
  since     : Tbl (Option Nat)
  /-- triggers declared for `HOLD_OFF` -/
  ok        : BitVec 6
  /-- remote bridge request, and consecutive frames that say otherwise (R223) -/
  rr        : Bool
  rrCnt     : Nat
  /-- loss of frame in the frame in progress on the lane of `REQ_TA` (R223) -/
  rrBad     : Bool
  /-- a switch is decided and not yet started -/
  due       : Bool
  run       : Option ProtRun
  failed    : Bool
  /-- `PROT_SWITCH_FAIL` raised and no switch completed since -/
  failSeen  : Bool
  fcDone    : Word
  cycDone   : Nat
  switches  : Nat
  hist      : BitVec 5
deriving DecidableEq, Repr

/-! ## Timing Subsystem (chapter 10) -/

/-- A reference candidate (10 R254 to R263; Tables 10.14, 10.15). -/
structure RefC where
  en     : Bool
  lockout : Bool
  prio   : Nat
  /-- `QL_MODE` RECEIVED -/
  recv   : Bool
  qlFixed : Nat
  evEn   : BitVec 5
  /-- `LANE`: none until a command names one -/
  lane   : Option Nat
  dnuRet : Bool
  freq   : Nat
  /-- `PHASE_ADJ`, ps -/
  adj    : Int
  /-- state while enabled: 1 FAILED, 2 MACERATING, 3 AVAILABLE -/
  st     : Nat
  /-- elapsed time at which the maceration timer runs out -/
  macAt  : Nat
  /-- effective received level, last received level, and how often in a row it has come -/
  qlEff  : Nat
  qlRx   : Nat
  qlRun  : Nat
  /-- causes of Table 10.3 -/
  cause  : BitVec 5
  /-- elapsed time since which the lane of an LREF candidate has been good -/
  goodAt : Option Nat
  /-- offset of the last gate, ppt; none before a gate completes -/
  offset : Option Int
  /-- slope, ppt/s, and the 1 s means behind it, newest first, at most 10; monitor updates since the last mean -/
  slope  : Int
  means  : List Int
  upd    : Nat
  /-- consecutive offset updates beyond the hard threshold -/
  hard   : Nat
  drift  : Bool
  slew   : Bool
  /-- phase last measured, ps, before R266's reduction -/
  phase  : Int
  /-- sticky `HIST_FAIL` to `HIST_QL` -/
  hist   : BitVec 5
deriving DecidableEq, Repr

/-- Settings of `TIME_SEL_SET` (10 Table 10.8). -/
structure SelSet where
  /-- 0 AUTO, 1 MANUAL, 2 FORCED -/
  mode   : Nat
  ref    : Nat
  revertive : Bool
  macer  : Nat
  qlHold : Nat
  qlFree : Nat
  soft   : Nat
  hard   : Nat
  hardLane : Nat
  slew   : Nat
  pull   : Nat
  bwLane : Nat
  bwLow  : Nat
  bwHigh : Nat
  bwTin  : Nat
  /-- `TEMP_SRC` HOST -/
  host   : Bool
deriving DecidableEq, Repr

/-- DPLL states (10 Table 10.5). -/
inductive DpllState where
  | freerun | acquire | locked | drydown | steered
deriving DecidableEq, Repr

/-- The DPLL pair (10 R265 to R274). -/
structure Dpll where
  /-- `STATE` | 3 | 10 Table 10.11, R283 | FREERUN -/
  st     : DpllState
  /-- `SEL_REF` | 5 | 10 R264 | none (R283: every candidate disabled) -/
  sel    : Option Nat
  /-- `ACTIVE_DPLL` | 1 | 10 R284 | DESIGN CHOICE 0 (log 4) -/
  active : Nat
  /-- DPLLs that have failed | 2 | 10 R284 | 0 -/
  failed : Nat
  /-- frequency word in force, 10^-15 | 48 signed | 10 R269, R283 | 0 -/
  word   : Int
  /-- integrator of the loop, 10^-27 | signed | 10 R268 | 0 -/
  integ  : Int
  /-- steered word that applies at the next update | 48 signed | 10 R273 | none -/
  steer  : Option Int
  /-- bandwidth index in force | 4 | 10 R268 | DESIGN CHOICE 6 (log 4: no candidate selected yet) -/
  bw     : Nat
  /-- last phase error, ps | 32 signed | 10 R274 | DESIGN CHOICE 0 (log 4: none sampled yet) -/
  perr   : Int
  /-- consecutive samples above 100 ns | 2 | 10 Table 10.5 | 0 -/
  far    : Nat
  /-- elapsed time since which the lock rule's conditions have held | ns | 10 R270 | none -/
  okAt   : Option Nat
  /-- a switch is in progress: elapsed time at its start | ns | 10 R265 | none -/
  swAt   : Option Nat
  /-- a command has changed `SEL_MODE`, `SEL_REF` or a lockout since the last evaluation | 1 | 10 R265 | 0 -/
  selCmd : Bool
  /-- elapsed time spent LOCKED before the last entry, since BOOT or `MODEL_CLEAR` | ns | 10 R269, Table 10.11 | 0 -/
  lockNs : Nat
  /-- elapsed time of the last entry to LOCKED, while LOCKED | ns | 10 R269 | none -/
  lockFrom : Option Nat
  /-- words of the LOCKED updates, newest first, with their elapsed times, at most 62,000 | list | 10 R271 | empty -/
  words  : List (Nat × Int)
  /-- elapsed time at which the selection was lost, while there is none | ns | 10 R271 | none -/
  lostAt : Option Nat
  /-- word held in DRYDOWN without a valid model | 48 signed | 10 R271 | 0 -/
  hold   : Int
deriving DecidableEq, Repr

/-- An output (10 R275, R280). -/
structure TOut where
  en     : Bool
  squelch : Nat
  mult   : Nat
deriving DecidableEq, Repr

/-- The TIN input (10 R276, R277). -/
structure Tin where
  /-- elapsed time of the last edge -/
  edge   : Option Nat
  /-- number, since BOOT, of the frame tick that coincides with the compensated edge (R277) -/
  edgeFrame : Nat
  /-- a valid message has followed the last edge -/
  got    : Bool
  /-- edges in a row, each followed by a valid message with consecutive `SECONDS` -/
  run    : Nat
  /-- consecutive seconds without a valid message -/
  quiet  : Nat
  /-- `SECONDS` of the last valid message, and the frame of the edge it describes -/
  sec    : Option Nat
  secFrame : Nat
  /-- the DPLL has reached LOCKED on TIN with `FOLLOW_TIN` = 1 -/
  followed : Bool
deriving DecidableEq, Repr

/-- Time counter (10 R275, R281). -/
structure Tod where
  /-- TAI seconds | 48 | 10 R275, R283 | 0 -/
  sec    : Nat
  /-- frame ticks since the last second boundary, 0 to 7,999 | 13 | 10 R275 | DESIGN CHOICE 0 (log 4: the first boundary is taken at the first frame tick) -/
  frames : Nat
  /-- frame ticks since the first of this BOOT | count | 10 R277 | 0 -/
  count  : Nat
  /-- `UTC_OFFSET` | 16 signed | 10 R281 | DESIGN CHOICE 0 (log 4) -/
  utc    : Int
  /-- `TIME_VALID` | 1 | 10 R283 | 0 -/
  valid  : Bool
  /-- `FOLLOW_TIN` | 1 | 10 R281 | 1 -/
  follow : Bool
  /-- seconds to be loaded at the next boundary | 48 | 10 R281, R277 | none -/
  load   : Option Nat
  /-- a disagreement with `TOD_IN` is corrected at the next boundary | 1 | 10 R277 | 0 -/
  fix    : Bool
  /-- elapsed time of the last second boundary | ns | 10 R275 | none -/
  bndAt  : Option Nat
  /-- `TOD_OUT` has sent the message of the last `PPS_OUT` edge | 1 | 10 R275 | 1 (no edge yet; the first tick is one) -/
  sent   : Bool
  /-- last message on `TOD_OUT` | 16 bytes | 10 R276 | none -/
  out    : List Byte
  /-- elapsed time at which that message began | ns | 10 R276 | none -/
  outAt  : Option Nat
deriving DecidableEq, Repr

/-- The recursive least-squares fit of the frequency word against 1, t, θ and θ² (10 R272; log 64). Times and temperatures are
counted from the fit's first update. -/
structure Fit where
  /-- elapsed time and temperature of the first update | ns, 0.01 °C | 10 R272 | none -/
  from_ : Option (Nat × Int)
  /-- lowest and highest temperature seen, 0.01 °C | 16 signed each | 10 R272 | 0 -/
  lo    : Int
  hi    : Int
  /-- weighted sums of the products of the regressors | 4 by 4 | 10 R272 | all 0 -/
  info  : List (List Int)
  /-- weighted sums of the regressors times the word | 4 | 10 R272 | all 0 -/
  vec   : List Int
deriving DecidableEq, Repr

/-- A fit that has seen nothing. -/
def Fit.reset : Fit := { from_ := none, lo := 0, hi := 0, info := List.replicate 4 (List.replicate 4 0), vec := List.replicate 4 0 }

/-- Timing Subsystem. -/
structure Time where
  /-- candidates 0 to 24 | 25 records | 10 R254, R283 | disabled, defaults of Table 10.14 -/
  refs   : Tbl RefC
  /-- settings of `TIME_SEL_SET` | record | 10 Table 10.8, R283 | its defaults -/
  sel    : SelSet
  dpll   : Dpll
  /-- drydown model terms A, B1, B2 | record | 10 R271, R272 | 0, nothing learned -/
  model  : Model
  /-- F0, 10^-15 | 48 signed | 10 R271, R272 | DESIGN CHOICE 0 (log 4: not learned) -/
  f0     : Int
  /-- the model terms were restored | 1 | 10 R272 | 0 -/
  restored : Bool
  /-- the fit that gives F0, A, B1 and B2 | record | 10 R272 | nothing seen -/
  fit    : Fit
  /-- elapsed time of the last learning update | ns | 10 R272 | none -/
  learnAt : Option Nat
  /-- t_a and θ_a of the last LOCKED update | ns, 0.01 °C | 10 R271 | DESIGN CHOICE 0 (log 4: none yet) -/
  tA     : Nat
  thA    : Int
  /-- die temperature last read, 0.01 °C | 16 signed | 10 R272 | DESIGN CHOICE 0 (log 4: not read yet) -/
  die    : Int
  /-- host temperature and the elapsed time at which it was written | 16 signed, ns | 10 R272, R273 | none -/
  hostT  : Option (Int × Nat)
  /-- phase ring: address, length, next index, next `SEQ` | 23, 13, 12, 16 | 10 R274, R283 | none set -/
  ringAddr : Nat
  ringLen : Nat
  ringIdx : Nat
  ringSeq : Nat
  /-- outputs 0 to 5 | 6 records | 10 R280, R283 | disabled, `SQUELCH` 0b01, `MULT` 1,250 -/
  outs   : Tbl TOut
  /-- `PPS_ADV`, ps | 20 | 10 R280 | 0 -/
  ppsAdv : Nat
  /-- `PPS_WIDTH`, ms | 10 | 10 R280 | 100 -/
  ppsWidth : Nat
  tin    : Tin
  tod    : Tod
  /-- level that the egress cycle in progress carries, and the lane that carries 0b1111 in it | 4, 8 | 10 R258, R283 | 0b1011, none -/
  txQl   : Nat
  txDnu  : Option Nat
deriving DecidableEq, Repr

def SelSet.reset : SelSet :=
  { mode := 0, ref := 0, revertive := true, macer := 300, qlHold := 0b1011, qlFree := 0b1011, soft := 20, hard := 92,
    hardLane := 46, slew := 100, pull := 92, bwLane := 9, bwLow := 6, bwHigh := 12, bwTin := 3, host := false }

/-- The Timing Subsystem on leaving BOOT (10 R283). -/
def Time.reset : Time :=
  { refs := [], sel := .reset
    dpll := { st := .freerun, sel := none, active := 0, failed := 0, word := 0, integ := 0, steer := none, bw := 6, perr := 0, far := 0,
              okAt := none, swAt := none, selCmd := false, lockNs := 0, lockFrom := none, words := [], lostAt := none, hold := 0 }
    model := Model.reset, f0 := 0, restored := false, fit := .reset, learnAt := none, tA := 0, thA := 0, die := 0, hostT := none
    ringAddr := 0, ringLen := 0, ringIdx := 0, ringSeq := 0, outs := [], ppsAdv := 0, ppsWidth := 100
    tin := { edge := none, edgeFrame := 0, got := false, run := 0, quiet := 0, sec := none, secFrame := 0, followed := false }
    tod := { sec := 0, frames := 0, count := 0, utc := 0, valid := false, follow := true, load := none, fix := false, bndAt := none, sent := true, out := [], outAt := none }
    txQl := 0b1011, txDnu := none }

/-! ## Key Store, Seal Engines and Command Cipher Engine (chapter 11) -/

/-- A key slot (11 Table 11.2) with its key, 16 or 32 bytes. -/
structure KeySlot where
  loaded : Bool
  use    : Nat
  len256 : Bool
  gen    : Nat
  mask   : Nat
  count  : Nat
  limM1  : Nat
  key    : List Byte
deriving DecidableEq, Repr

/-- A seal key pair (11 R296, R298). -/
structure Pair where
  /-- current phase of a sealing pair -/
  cur    : Bool
  /-- frame at whose tick a commanded flip is made -/
  flip   : Option Word
  /-- no usable next slot: zero grains (11 R298) -/
  exh    : Bool
  /-- the slot that last ceased to be current: phase, tick number -/
  ceased : Option (Bool × Nat)
deriving DecidableEq, Repr

/-- A sealing binding, by egress TA (11 R286, R287). -/
structure TxSeal where
  pair  : Nat
  salt  : Word
  /-- F of the next frame, and of the last sealed frame -/
  fNext : Nat
  fLast : Nat
  /-- the frame in progress is sealed: phase, F; none: it sends zero grains or is not sealed -/
  frame : Option (Bool × Nat)
  /-- zero grains are sent -/
  zero  : Bool
  /-- ciphertext of the frame so far -/
  ct    : List Byte
  /-- tag of the previous frame, none when it was not sealed -/
  tag   : Option (List Byte)
  /-- a frame has begun under the binding -/
  begun : Bool
  /-- words 0 to 3 of `SEAL_GET` as of the last frame tick (11 Table 11.9) -/
  samp  : List Word
deriving DecidableEq, Repr

/-- One frame at an opener (11 R289 to R291): lane FC, cycles taken with core cycle and bytes, and what its overhead carried. -/
structure OpenFrame where
  fc     : Word
  cycs   : List (Nat × List Byte)
  sealed : Bool
  phase  : Bool
  ivLow  : Nat
  /-- a condition of R291 has failed -/
  bad    : Bool
  /-- F under which it is verified -/
  f      : Nat
  /-- tag computed once the frame is whole -/
  tag    : List Byte
deriving DecidableEq, Repr

/-- An opening binding, by ingress TA. -/
structure RxSeal where
  pair  : Nat
  salt  : Word
  fast  : Bool
  hint  : Nat
  fLast : Option Nat
  /-- last received `KEY_PHASE`, and the tick number at which each phase was last received -/
  phase : Bool
  seen  : Tbl (Option Nat)
  /-- the frame being received, and the one that waits for its tag -/
  cur   : Option OpenFrame
  wait  : Option OpenFrame
  /-- tag bytes received in cycles 3 to 6 of the frame being received -/
  rxTag : List Byte
  fails : Nat
  hist  : Bool
  /-- words 0 to 4 of `SEAL_GET` as of the last frame tick (11 Table 11.9) -/
  samp  : List Word
deriving DecidableEq, Repr

/-- A cipher channel (11 Table 11.12). -/
structure Chan where
  mode   : Nat
  ivGen  : Bool
  wrapped : Bool
  maxLen : Nat
  ctx    : Nat
  fixed  : Word
deriving DecidableEq, Repr

/-- What an operation goes on from after a restore (11 Table 11.4). -/
structure CceCtx where
  /-- `KEY_SLOT`, mode, decryption, `TAG_LEN`, `BYTES_DONE`, `AAD_DONE` -/
  slot   : Nat
  mode   : Nat
  dec    : Bool
  tagLen : Nat
  base   : Nat
  aadLen : Nat
  /-- output of the bytes before `BYTES_DONE` -/
  pre    : List Byte
  /-- `CHAIN`, `GHASH` -/
  chain  : List Byte
  hash   : Nat
deriving DecidableEq, Repr

/-- A cipher operation (11 R306 to R311). -/
structure CceOp where
  /-- order of decode -/
  id     : Nat
  job    : Job
  chan   : Nat
  prio   : Nat
  /-- 0 queued, 1 running, 2 suspended, 3 suspended and spilled -/
  st     : Nat
  /-- its first descriptor has been reached: key checked, invocation counted -/
  begun  : Bool
  /-- stamp of its suspension: a larger one is more recent -/
  sAt    : Nat
  /-- `GEN` of the key slot at the start -/
  gen    : Nat
  /-- IV or counter block used, and the invocation field of `IV_GEN` -/
  iv     : List Byte
  inv    : Nat
  /-- AAD as read at the start -/
  aad    : List Byte
  /-- next input descriptor, input taken so far -/
  src    : Nat
  inp    : List Byte
  /-- output descriptor in hand or next, whether in hand, bytes filled in it, output bytes written in all -/
  dst    : Nat
  held   : Bool
  fill   : Nat
  wrote  : Nat
  /-- the spill record from which it was last restored (11 R311) -/
  ctx    : Option CceCtx
deriving DecidableEq, Repr

/-- Key Store and cipher engines. -/
structure Keys where
  /-- seal slots 0 to 8,191 | 8,192 records | 11 R296, Table 11.2, R315 | empty, `COUNT` 0, `GEN` 0 -/
  sealS : Tbl KeySlot
  /-- command slots 0 to 63 | 64 records | 11 R300, R315 | empty, `COUNT` 0, `GEN` 0 -/
  cmdS  : Tbl KeySlot
  /-- device KEK | 256 | 11 R300 | DESIGN CHOICE 0 (log 4: drawn at BOOT, a free value) -/
  kek   : Nat
  /-- alarm causes that persist | 5 | 11 R305 | 0 -/
  alarm : BitVec 5
  /-- seal key pairs 0 to 4,095 | records | 11 R296, R298, R315 | phase 0, no direction -/
  pairs : Tbl Pair
  /-- sealing bindings, by egress TA | records | 11 R285, R315 | none -/
  tx    : Tbl (Option TxSeal)
  /-- opening bindings, by ingress TA | records | 11 R285, R315 | none -/
  rx    : Tbl (Option RxSeal)
  /-- cipher channels 0 to 15 | 16 records | 11 Table 11.12, R315 | defaults of Table 11.12 -/
  chans : Tbl Chan
  /-- queued, running and suspended operations; queued ones in command order | list | 11 R306, R310, R315 | none -/
  ops   : List CceOp
  /-- operations decoded so far, and suspensions so far: the model's own stamps | count | MODEL (log 3) | DESIGN CHOICE 0 (log 3) -/
  nextId : Nat
  nextS  : Nat
  /-- ordinary channel served last | 4 | 11 R310 | DESIGN CHOICE 15 (log 4: the round begins at channel 2) -/
  turn  : Nat
deriving DecidableEq, Repr

/-! ## Failover, spares, field I/O and the save (chapter 15) -/

/-- Processor roles, in the order of 15 Table 15.1. -/
inductive Role where
  | active | standby | cold | restarting | failed
deriving DecidableEq, Repr

/-- One journal record (15 R393): a decoded command, a reply, a port write or a rule change. -/
structure JRec where
  /-- 0 command, 1 reply, 2 update-port write, 3 protection-rule state -/
  kind : Nat
  ring : Nat
  tag  : Word
  at_  : Nat
deriving DecidableEq, Repr

/-- Control processors under the Supervisor Arbiter. -/
structure Cp where
  /-- roles of CP-A, CP-B, CP-S | 3 × 3 | 15 R392, R422 | A active, B restarting, S cold (R422) -/
  role      : Tbl Role
  /-- processor on Bus Matrix port M0 | 2 | 13 Table 13.4, 15 R392 | CP-A -/
  m0        : Nat
  /-- processor on Bus Matrix port M1 | 2 | 13 Table 13.4 | CP-B -/
  m1        : Nat
  /-- the standby's last complete self-test pass succeeded, with no failing step since | 1 | 15 R397 | 0 -/
  passOk    : Bool
  /-- the standby's journal lag is within 20 µs | 1 | 15 R397 | 1 -/
  lagOk     : Bool
  /-- the digests matched at the last check | 1 | 15 R397 | 0 -/
  digestOk  : Bool
  /-- self-test passes of the current standby | 32 | 15 Table 15.17 | 0 -/
  passes    : Nat
  /-- elapsed time from which the standby has been fit without a break | ns | 15 R400 | none -/
  fitSince  : Option Nat
  /-- revert hold-off, s | 12 | 15 R400, R422 | 60 -/
  holdoff   : Nat
  /-- `LAST_CAUSE` | 4 | 15 Table 15.17 | 0 -/
  lastCause : Nat
  /-- `LAST_GAP_US` | 16 | 15 Table 15.17 | 0 -/
  lastGap   : Nat
  /-- `FAILOVERS` | 32 | 15 Table 15.17 | 0 -/
  failovers : Nat
  /-- `FC_LAST` | 32 | 15 Table 15.17 | 0 -/
  fcLast    : Word
  /-- `SVA_OK` | 1 | 15 R401 | 1 -/
  svaOk     : Bool
  /-- the failover gap in progress: start, cause, old active CP, CP taking over | record | 15 R395 | none -/
  gap       : Option (Nat × Nat × Nat × Nat)
  /-- no processor remains to run the command plane | 1 | 15 R399 | 0 -/
  none_     : Bool
  /-- elapsed times of the resets of each processor within the last hour | list | 15 R398 | none -/
  resets    : Tbl (List Nat)
  /-- elapsed times of the active CP's corrected errors within the last second | list | 15 Table 15.2 | none -/
  corr      : List Nat
  /-- journal records the standby has not yet applied, oldest first | list | 15 R393 | empty -/
  journal   : List JRec
deriving DecidableEq, Repr

/-- A swap in progress in a pool (15 R402, R404). -/
structure Swap where
  unit  : Nat
  spare : Nat
  auto  : Bool
  /-- the unit itself has been judged hard-failed -/
  hard  : Bool
  /-- elapsed time and tick number at its start -/
  since : Nat
  tick  : Nat
  /-- command ring that waits for it, 4 for none -/
  ring  : Nat
deriving DecidableEq, Repr

/-- Spare-pool manager (15 R402 to R404). -/
structure Spare where
  /-- units out of service, as (pool, unit) | list | 15 R403 | none -/
  out     : List (Nat × Nat)
  /-- units judged hard-failed since they were last good, as (pool, unit) | list | 15 R403, R417 | none -/
  hard    : List (Nat × Nat)
  /-- spares in use, as (pool, spare, unit served) | list | 15 R402 | none -/
  used    : List (Nat × Nat × Nat)
  /-- spares marked hard-failed, as (pool, spare) | list | 15 R404 | none -/
  dead    : List (Nat × Nat)
  /-- the swap in progress in each pool | 9 | 15 R404 | none -/
  swap    : Tbl (Option Swap)
  /-- hard-failed units whose swap waits for the running one, as (pool, unit) | list | 15 R404 | none -/
  wait    : List (Nat × Nat)
  /-- `FC_LAST`, `CYCLE_LAST`, `UNIT_LAST` of each pool | 9 × 48 | 15 Table 15.16 | 0 -/
  last    : Tbl (Word × Nat × Nat)
  /-- edge-link receive and transmit forwarded clocks lost, by die | 4 | 16 R443 | none -/
  clkLost : List Nat
deriving DecidableEq, Repr

/-- One guarded pin (15 R408, R409). -/
structure GuardPin where
  /-- kind of the fault raised, 0 none | 3 | 15 Table 15.18 -/
  kind  : Nat
  /-- kind shown by the last measurements, and how many in a row | 3, 2 | 15 R408 -/
  seen  : Nat
  count : Nat
  /-- measurements in a row that do not show the fault raised | 2 | 15 R408 -/
  miss  : Nat
  /-- the guard has swapped the legs | 1 | 15 R409 -/
  swapped : Bool
  /-- elapsed time at the end of the last 1 s gate | ns | 15 R409 -/
  gateAt : Nat
deriving DecidableEq, Repr

/-- Field I/O Guard and field I/O (15 R407 to R412). -/
structure Fio where
  /-- GPIO directions, `DIR` | 16 | 15 R410, R412 | 0 -/
  dir     : BitVec 16
  /-- GPIO output levels, `LEVEL` | 16 | 15 R410, R412 | 0 -/
  level   : BitVec 16
  /-- `ALM_ASSERT` | 1 | 15 R410, R412 | 1 -/
  alm     : Bool
  /-- `GPIO_EVT` | 16 | 15 R410, R412 | 0 -/
  gpioEvt : BitVec 16
  /-- `ALM_EVT` | 4 | 15 R410, R412 | 0b1111 -/
  almEvt  : BitVec 4
  /-- accepted GPIO levels | 16 | 15 R411 | DESIGN CHOICE 0 (log 4: no sample yet) -/
  gpio    : BitVec 16
  /-- accepted ALM_IN levels | 4 | 15 R411 | DESIGN CHOICE 0 (log 4: no sample yet) -/
  almIn   : BitVec 4
  /-- consecutive samples of each pin (0 to 15 GPIO, 16 to 19 ALM_IN) that differ from its accepted level | 20 × 2 | 15 R411 | 0 -/
  cand    : Tbl Nat
  /-- sticky `HIST_GPIO` | 16 | 15 R411, R412 | 0 -/
  histG   : BitVec 16
  /-- sticky `HIST_ALM` | 4 | 15 R411, R412 | 0 -/
  histA   : BitVec 4
  /-- guarded pins 0 to 31 | 32 records | 15 R408 | no fault -/
  pins    : Tbl GuardPin
  /-- elapsed time at which the guard turned each GPIO driver off | ns | 15 Table 15.7 | none -/
  offAt   : Tbl (Option Nat)
deriving DecidableEq, Repr

/-- Power and Save Unit (15 R413 to R418). -/
structure Save where
  /-- `SAVE_EN`, `PFN_EN`, `VIN_EN` | 1 each | 15 R419, R422 | 1 -/
  en      : Bool
  pfnEn   : Bool
  vinEn   : Bool
  /-- `TAIL_RECORDS` | 13 | 15 R419, R422 | 4,096 -/
  tailN   : Nat
  /-- store identified at BOOT | 1 | 15 R414, R419 | 0 -/
  storeOk : Bool
  /-- store capacity, KB | 16 | 15 R419 | 0 -/
  storeKb : Nat
  /-- `HOLD_FAULT`: reversed, open, short in bits 0 to 2 | 3 | 15 R419 | 0 -/
  holdFault : BitVec 3
  /-- a capacitor measurement exists | 1 | 15 R414 | 0 -/
  measured : Bool
  /-- C_meas, µF | 16 | 15 R414 | 0 (none exists) -/
  cUf     : Nat
  /-- elapsed time of the last measurement that was not asked for | ns | 15 R414 | none -/
  capAt   : Option Nat
  /-- ESR, mΩ | 16 | 15 R414 | 0 (none exists) -/
  esr     : Nat
  /-- `VHOLD`, mV | 16 | 15 R419 | DESIGN CHOICE 0 (log 4: capacitor not measured) -/
  vhold   : Nat
  /-- armed | 1 | 15 R414 | 0 -/
  armed   : Bool
  /-- contents of flacon slot 0 of the save store, kept through resets; none: no valid flacon | flacon | 15 R416, R417 | DESIGN CHOICE none (log 4: a new store) -/
  slot0   : Option Flacon
  /-- as slot 0 | flacon | 15 R416 | DESIGN CHOICE none (log 4) -/
  slot1   : Option Flacon
  /-- the copy the active CP last staged | flacon | 15 R415 | none -/
  stagedF : Option Flacon
  /-- the save in progress: elapsed time, CAUSE, armed, FC, cycle | record | 15 R415 | none -/
  saving  : Option (Nat × Nat × Bool × Word × Nat)
  /-- elapsed time of the last staging | ns | 15 R415 | 0 -/
  stageAt : Nat
  /-- HALT or RETENTION is due at this time after `SYS_MODE_SET` HALT or RETENTION | ns | 16 R438, R439 | none -/
  haltAt  : Option (Nat × Mode)
deriving DecidableEq, Repr

/-! ## The state -/

/-- The whole block, and the queue of the commands that wait for it. -/
structure State where
  /-- commands that wait, first in first out | list | MODEL (the block's queue) | empty -/
  pending : List Instr
  clk     : Clk
  dev     : Dev
  tick    : Tick
  evt     : Evt
  io      : Io
  /-- Window Memory, 8,388,608 bytes; a byte not listed reads 0 | bytes | 12 R325, 13 R350 | 0 (R325) -/
  wm      : List Host.Cell
  port    : Port
  /-- lanes 0 to 143 that differ from their start-up state | 144 records | chapters 3, 4, 7, 9 | start-up (03 R97, 04 R117, 07 R207, 09 R252) -/
  lanes   : Tbl Lane
  conn    : Conn
  trib    : Trib
  data    : Data
  keys    : Keys
  /-- protection groups 0 to 65,535 | records | 08 R209, R211 | disabled (R211) -/
  prot    : Tbl PGroup
  cnt     : Cnt
  mem     : Mem
  cp      : Cp
  spare   : Spare
  health  : Health
  fio     : Fio
  save    : Save
  time    : Time
deriving DecidableEq, Repr

/-- Ring layout when `READY` becomes 1 (12 Table 12.5). -/
def ringReset (r : Nat) : Ring :=
  let (b, z) : Nat × Nat := match r with
    | 0 => (0x00000, 6) | 1 => (0x01000, 10) | 2 => (0x11000, 10)
    | 3 => (0x21000, 8) | 4 => (0x25000, 11) | _ => (0x45000, 14)
  { base := b, size := z, en := true, cfgErr := false, index := 0, fault := false, db := 0 }

/-- The clock at reset. -/
def Clk.reset : Clk := { ticks := 0, fc := 0, cyc := 0, now := 0, tickAt := 0, free := 0 }

/-- Device state at reset (12 Table 12.2). -/
def Dev.reset : Dev :=
  { ne := false, mode := .boot, ready := false, activeCp := 0, failover := false, bootErr := 0, fwVersion := 0, prevMode := 0,
    fcMode := 0, cycMode := 0, fence := [], cameFrom := .commissioning, woke := false, restored := false, bootSrc := 0,
    resetLow := true, resetDue := false, powered := true, railsOff := false, retFlag := false, retRecord := none, fenceDue := [], bootPhase := 0,
    bootInp := none, bootAt := 0, upAt := 0, pollAt := 0, jtag := .idcode }

/-- Tick generator at start-up (02 R64). -/
def Tick.reset : Tick :=
  { follower := false, outEn := false, delay := 0, phase := 0, limit := 100, gen := 0, failed := 0,
    link := { markFc := 0, prev := none, good := 0, valid := false, lastFc := 0, fcMatch := false },
    offset := 0, missing := 0, beyond := 0, loss := none, off := none, mism := none, hist := 0,
    stepAt := none, genNext := none, samp := { fc := 0, status := 0, offset := 0, lastFc := 0, hist := 0 } }

/-- Event queue at start-up. -/
def Evt.reset : Evt := { queue := [], ovf := none, syncs := [], tail := [], log := [], unread := [] }

/-- Host interface at reset (12 R348, Tables 12.3 to 12.5). -/
def Io.reset : Io :=
  { pcie := { width := 4, rate := 160, msixOn := true, msixMask := false, aerUncorr := 0, aerCorr := 0 }, rings := [], irq := 0, mask := 0b11110, thresh := 1, holdoff := 0, lost := 0, msix := [], irqHeld := none,
    irqLate := 0, offered := 0, jobs := [], late := [], done := [], require := false, authSlot := none }

/-- Switching core at start-up (06 R186). -/
def Conn.reset : Conn := { com := [], old := [], blocks := [], spares := 640, total := 640, freed := [], outBlk := [], bad := [], worn := [], eq := [], eqOld := [] }

/-- March engine and Bus Matrix at start-up (13 R371). -/
def Mem.reset : Mem :=
  { fences := [], rate := 500, bgStore := 0, bgNext := 0, bgAt := 0, passes := 0, passAt := 0, lastPass := 0,
    borrow := none, mirror := [], testing := none, repairs := [], seen := [], hist := 0, locks := [], lockAddr := [], warned := false, readE := 0, readI := [],
    errI := false }

/-- Processors at start-up (15 R422). -/
def Cp.reset : Cp :=
  { role := [], m0 := 0, m1 := 1, passOk := false, lagOk := true, digestOk := false, passes := 0, fitSince := none,
    holdoff := 60, lastCause := 0, lastGap := 0, failovers := 0, fcLast := 0, svaOk := true, gap := none, none_ := false,
    resets := [], corr := [], journal := [] }

def Spare.reset : Spare :=
  { out := [], hard := [], used := [], dead := [], swap := [], wait := [], last := [], clkLost := [] }

def Health.reset : Health :=
  { die := [], pct := [], hours := 0, hourAt := 0, trend := [], eccHist := [], recAt := [], base := [], baseDue := [], oscBase := [], wires := [], scanAt := [], failed := false }

/-- Field I/O at start-up (15 R412). -/
def Fio.reset : Fio :=
  { dir := 0, level := 0, alm := true, gpioEvt := 0, almEvt := 0b1111, gpio := 0, almIn := 0, cand := [], histG := 0,
    histA := 0, pins := [], offAt := [] }

/-- Power and Save Unit at start-up (15 R422). -/
def Save.reset : Save :=
  { en := true, pfnEn := true, vinEn := true, tailN := 4096, storeOk := false, storeKb := 0, holdFault := 0,
    measured := false, cUf := 0, esr := 0, capAt := none, vhold := 0, armed := false, slot0 := none, slot1 := none, stagedF := none,
    saving := none, stageAt := 0, haltAt := none }

/-- Tributaries at start-up (05 R155; 07 R207). -/
def Trib.reset : Trib :=
  { inMap := [], egMap := [], inTa := [], egTa := [], prof := [], acc := [], ret := [], delA := [], delE := [], delC := [],
    unitC := [], store := [], raLane := [] }

/-- Key Store and cipher engines at start-up (11 R315). -/
def Keys.reset : Keys :=
  { sealS := [], cmdS := [], kek := 0, alarm := 0, pairs := [], tx := [], rx := [], chans := [], ops := [], nextId := 0, nextS := 0, turn := 15 }

/-- The machine right after reset. -/
def State.reset : State :=
  { pending := [], clk := .reset, dev := .reset, tick := .reset, evt := .reset, io := .reset, wm := [],
    port := { staged := [], waiting := [], slot := 0 }, lanes := [], conn := .reset, trib := .reset, data := { cap := [], rel0 := none, rel1 := none, relNext := false, out := none }, keys := .reset, prot := [], cnt := { bank := [], acc := [], last := [] }, mem := .reset,
    cp := .reset, spare := .reset, health := .reset, fio := .reset, save := .reset, time := .reset }

end Sys2Proof.Machine
end

