-- ==== Sys2Proof/Machine/Ops.lean ====
section
/-! DEFINITION. The named operations over tables, memory, time, events, interrupts and replies. -/

namespace Sys2Proof.Machine

/-! ## Tables -/

/-- The value at key `k`; an unlisted key reads as the default `d k`. -/
def tget {α : Type} (d : Nat → α) : Tbl α → Nat → α
  | [], k => d k
  | (j, v) :: t, k => if k = j then v else if k < j then d k else tget d t k

/-- Removes key `k`. -/
def tdel {α : Type} (k : Nat) : Tbl α → Tbl α
  | [] => []
  | (j, v) :: t => if k = j then t else (j, v) :: tdel k t

/-- Lists `v` at key `k`, in key order. -/
def tput {α : Type} (k : Nat) (v : α) : Tbl α → Tbl α
  | [] => [(k, v)]
  | (j, w) :: t => if k < j then (k, v) :: (j, w) :: t else if k = j then (k, v) :: t else (j, w) :: tput k v t

/-- Writes `v` at key `k`; writing the default removes the entry, so equal tables are equal lists. -/
def tset {α : Type} [DecidableEq α] (d : Nat → α) (k : Nat) (v : α) (t : Tbl α) : Tbl α :=
  if v = d k then tdel k t else tput k v t

/-- Canonical form: keys strictly rising from `lo` on, no entry equal to the default. -/
def tblWf {α : Type} [DecidableEq α] (d : Nat → α) (lo : Nat) : Tbl α → Bool
  | [] => true
  | (j, v) :: t => decide (lo ≤ j) && decide (v ≠ d j) && tblWf d (j + 1) t

/-! ## Settings by cycle (02 R53): pairs of a first cycle and a value, newest first -/

/-- The value in force in cycle `n`. -/
def verAt {α : Type} (d : α) (n : Nat) : List (Nat × α) → α
  | [] => d
  | (k, v) :: t => if k ≤ n then v else verAt d n t

/-- The value written last. -/
def verNew {α : Type} (d : α) : List (Nat × α) → α
  | [] => d
  | (_, v) :: _ => v

/-- Keeps what cycle `n` or a later one can use. -/
def verKeep {α : Type} (n : Nat) : List (Nat × α) → List (Nat × α)
  | [] => []
  | (k, v) :: t => if k ≤ n then [(k, v)] else (k, v) :: verKeep n t

/-- A value takes hold from cycle `k` on, written in cycle `now`; of two written for one cycle the later governs (01 R24). -/
def verPut {α : Type} (now k : Nat) (v : α) (l : List (Nat × α)) : List (Nat × α) :=
  (k, v) :: verKeep (now - 100) (l.filter (fun x => decide (x.1 ≠ k)))

/-- A value takes hold from cycle `k` on, among values that may take hold later. -/
def verIns {α : Type} (now k : Nat) (v : α) : List (Nat × α) → List (Nat × α)
  | [] => [(k, v)]
  | (j, w) :: t => if k < j then (j, w) :: verIns now k v t else (k, v) :: verKeep (now - 100) (((j, w) :: t).filter (fun x => decide (x.1 ≠ k)))

/-- Default of versioned tables. -/
def noVer {α : Type} (_ : Nat) : List (Nat × α) := []

/-! ## Bits and bytes -/

/-- Bits [hi:lo] of a word, as a number. -/
def fld (w : Word) (hi lo : Nat) : Nat := w.toNat / 2 ^ lo % 2 ^ (hi + 1 - lo)

/-- Bit i of a word. -/
def bit (w : Word) (i : Nat) : Bool := w.getLsbD i

/-- A reply or register word from a number. -/
def wd (n : Nat) : Word := BitVec.ofNat 32 n

/-- A word from a signed number, two's complement. -/
def wdI (n : Int) : Word := BitVec.ofInt 32 n

/-- 0 or 1. -/
def b2n (b : Bool) : Nat := if b then 1 else 0

/-- The `n` bytes of a number, least significant first (00 R10). -/
def leBytes : Nat → Nat → List Byte
  | 0, _ => []
  | n + 1, v => BitVec.ofNat 8 v :: leBytes n (v / 256)

/-- The number that little-endian bytes spell (00 R10). -/
def leNat : List Byte → Nat
  | [] => 0
  | b :: t => b.toNat + 256 * leNat t

/-- The bytes of a number, most significant first (00 R11). -/
def beBytes (n v : Nat) : List Byte := (leBytes n v).reverse

/-- The number that big-endian bytes spell. -/
def beNat (bs : List Byte) : Nat := bs.foldl (fun a b => a * 256 + b.toNat) 0

/-- Pads or cuts a list to `n` elements. -/
def padTo {α : Type} (n : Nat) (z : α) (l : List α) : List α := (l ++ List.replicate (n - l.length) z).take n

/-- Parameter word `i` of a list of words, 0 when absent. -/
def wAt (ws : List Word) (i : Nat) : Word := ws.getD i 0

/-- Reflected CRC-32C step of one bit (07 R201). -/
def crcBit (c : BitVec 32) : BitVec 32 := if c.getLsbD 0 then (c >>> 1) ^^^ 0x82F63B78 else c >>> 1

/-- One byte of CRC-32C. -/
def crcByte (c : BitVec 32) (b : Byte) : BitVec 32 :=
  crcBit (crcBit (crcBit (crcBit (crcBit (crcBit (crcBit (crcBit (c ^^^ b.zeroExtend 32))))))))

/-- CRC-32C (07 R201). -/
def crc32c (bs : List Byte) : BitVec 32 := bs.foldl crcByte 0xFFFFFFFF ^^^ 0xFFFFFFFF

/-! ## Window Memory (13 R350; 12 R325) -/

/-- What a byte that nothing has written reads: 0 (12 R325). -/
def memDefault (_ : Nat) : Byte := 0

/-- One byte of the Window Memory. -/
def memRead (m : List Host.Cell) (a : Nat) : Byte := tget memDefault m a

/-- Writes one byte; a byte written 0 is not listed. -/
def memWrite (m : List Host.Cell) (a : Nat) (b : Byte) : List Host.Cell := tset memDefault a b m

/-- The canonical form of the Window Memory. -/
def Memory.wf (m : List Host.Cell) : Bool := tblWf memDefault 0 m

/-- `n` bytes from address `a` on. -/
def readBytes (m : List Host.Cell) (a : Nat) : Nat → List Byte
  | 0 => []
  | n + 1 => memRead m a :: readBytes m (a + 1) n

/-- Writes bytes from address `a` on. -/
def writeBytes (m : List Host.Cell) (a : Nat) : List Byte → List Host.Cell
  | [] => m
  | b :: t => writeBytes (memWrite m a b) (a + 1) t

/-- A little-endian number of `n` bytes at `a`. -/
def readLE (m : List Host.Cell) (a n : Nat) : Nat := leNat (readBytes m a n)

/-- Address `a` lies in the stripes of a destructive on-request test (13 Table 13.2). -/
def testedAt (t : Option (Nat × Nat)) (a : Nat) : Bool :=
  match t with | some (f, n) => decide (f ≤ a / 4096) && decide (a / 4096 < f + n) | none => false

/-- Writes bytes of which those under a destructive test may be lost, which a free value decides (13 Table 13.2; log 2). -/
def writeTested (t : Option (Nat × Nat)) (c : Nat) (m : List Host.Cell) (a : Nat) : List Byte → List Host.Cell
  | [] => m
  | b :: r => writeTested t c (if testedAt t a && decide (Config.freeAt c (0x1310000000 + a) % 2 = 1) then m else memWrite m a b) (a + 1) r

/-- Writes bytes in a memory, a part of which may be under a destructive test. -/
def putBytes (t : Option (Nat × Nat)) (c : Nat) (m : List Host.Cell) (a : Nat) (bs : List Byte) : List Host.Cell :=
  match t with | none => writeBytes m a bs | some _ => writeTested t c m a bs

/-- Writes bytes of the Window Memory in a state. -/
def wmPut (a : Nat) (bs : List Byte) (s : State) : State := { s with wm := putBytes s.mem.testing s.clk.free s.wm a bs }

/-- The device reads `n` bytes from address `a` on: those under a destructive test are free values (13 Table 13.2; log 2). -/
def wmGet (s : State) (a n : Nat) : List Byte :=
  match s.mem.testing with
  | none => readBytes s.wm a n
  | some t => (List.range n).map (fun i =>
      if testedAt (some t) (a + i) then BitVec.ofNat 8 (Config.freeAt s.clk.free (0x1300000000 + a + i)) else memRead s.wm (a + i))

/-- The part of the Window Memory that belongs to the host ends here (12 R325). -/
def hostEnd : Nat := 0x700000

/-- An area of `n` bytes at `a`, aligned to `al`, in the host's part (12 R473). -/
def areaOk (a n al : Nat) : Bool := a % al == 0 && decide (a + n ≤ hostEnd)

/-! ## Time (02 R40 to R42) -/

/-- Cycle length in nanoseconds (02 R39). -/
def cycleNs : Nat := 15625

/-- Nanosecond offset of this moment in its cycle, 0 to 15,624; 0 before the first tick (02 R42; 16 R437). -/
def nsOf (c : Clk) : Nat := if c.ticks = 0 then 0 else min (c.now - c.tickAt) (cycleNs - 1)

/-- Number of the cycle in progress, counted from the first tick after BOOT. -/
def cyc0 (s : State) : Nat := s.clk.ticks - 1

/-- Absolute index `8 × FC + cycle` of tick number `t`, modulo 2^35 (02 R40). -/
def absIdx (s : State) (t : Nat) : Nat :=
  (8 * s.clk.fc.toNat + s.clk.cyc + 2 ^ 35 + t - (s.clk.ticks - 1)) % 2 ^ 35

/-- FC and cycle number of tick number `t` (02 R40). Before the first tick, tick number 0 begins FC 0, cycle 0 (02 R52). -/
def fcOf (s : State) (t : Nat) : Word × Nat :=
  let i := if s.clk.ticks = 0 then t % 2 ^ 35 else absIdx s t
  (wd (i / 8), i % 8)

/-- The two reply words that report the effective cycle of tick number `t` (12 R471). -/
def effWords (s : State) (t : Nat) : List Word := [(fcOf s t).1, wd (fcOf s t).2]

/-- Serial comparison of FC values: `a` is later than `b` (02 R41). -/
def fcLater (a b : Word) : Bool := decide (1 ≤ (a - b).toNat) && decide ((a - b).toNat ≤ 2147483647)

/-- Tick number of the first cycle governed by a write committed now (02 R52): the smallest k with tick k at least T
after the commit edge; a commit on the edge of tick j counts at tick j. -/
def effTick (s : State) : Nat := if nsOf s.clk = 0 then s.clk.ticks else s.clk.ticks + 1

/-- The same for a command with the tick-aligned attribute (02 R54): the first such k with cycle number 0. -/
def effTickAligned (s : State) : Nat :=
  let k := effTick s
  k + (8 - (fcOf s k).2) % 8

/-- A free value: the next draw, for purpose `k` (log 2). -/
def draw (k : Nat) (s : State) : Nat × State :=
  (Config.freeAt s.clk.free k, { s with clk := { s.clk with free := s.clk.free + 1 } })

/-! ## Modes -/

/-- The source of `VSAVE_OUT` (17 R458): `VDD_IO18` in reset and in every mode but these: the hold-up converter in SAVE, and none
in RETENTION and HALT, where the device switches it off. -/
def vsaveSource (d : Dev) : SaveSupply :=
  if !d.powered then .off
  else if d.resetLow then .io18
  else match d.mode with
    | .save => .holdUp
    | .retention | .halt => .off
    | .boot | .commissioning | .service | .maintenance | .contained => .io18

/-- The `SSPI_*` pins are powered, and drive (17 R458). -/
def sspiPowered (d : Dev) : Bool := vsaveSource d != .off

/-- `MODE` code (12 Table 12.2). -/
def modeCode : Mode → Nat
  | .boot => 1 | .retention => 2 | .commissioning => 3 | .service => 4 | .maintenance => 5
  | .contained => 6 | .save => 7 | .halt => 8

/-- The data and control planes run (16 Table 16.1). -/
def running (s : State) : Bool :=
  match s.dev.mode with
  | .commissioning | .service | .maintenance | .contained => true
  | _ => false

/-! ## Interrupts (12 R324) -/

/-- MSI-X vector of an `IRQ_STATUS` bit (12 Table 12.4). -/
def irqVector : Nat → Nat
  | 0 => 0 | 1 => 1 | 2 => 2 | 3 => 2 | _ => 3

/-- Default of an MSI-X table entry: masked (PCIe; log 5). -/
def msixReset (_ : Nat) : Msix := { addr := 0, data := 0, masked := true, pend := false, sent := 0 }

/-- Sends one message on vector `v`, or sets its pending bit while the vector is masked (12 R324). -/
def msixSend (v : Nat) (io : Io) : Io :=
  let m := tget msixReset io.msix v
  let m' := if m.masked || io.pcie.msixMask then { m with pend := true } else { m with sent := m.sent + 1 }
  if io.pcie.msixOn then { io with msix := tset msixReset v m' io.msix } else io

/-- The modes that are exceptions for the interrupts: no MSI-X message is sent in them (12 R324; 17 Table 17.13). -/
def irqSilent (m : Mode) : Bool := m == .halt || m == .retention || m == .save || m == .boot

/-- The effect of `IRQ_STATUS` bit `b` going from 0 to 1. -/
def irqEdge (b : Nat) (s : State) : State :=
  if s.dev.failover then { s with io := { s.io with irqLate := s.io.irqLate ||| (1#5 <<< b) } }
  else if s.io.mask.getLsbD b && !irqSilent s.dev.mode then { s with io := msixSend (irqVector b) s.io }
  else s

/-- Sets `IRQ_STATUS` bit `b` (12 R324). -/
def irqRaise (b : Nat) (s : State) : State :=
  if s.io.irq.getLsbD b then s
  else irqEdge b { s with io := { s.io with irq := s.io.irq ||| (1#5 <<< b) } }

/-- `IRQ_N` asserted, as the masked status bits give it (12 R324). -/
def irqLevel (s : State) : Bool := (s.io.irq &&& s.io.mask) != 0

/-- `IRQ_N` at the pin: held through a gap and in SAVE, released in BOOT, HALT and RETENTION (12 R324; 15 R396; 17 Table 17.13). -/
def irqPin (s : State) : Bool :=
  match s.io.irqHeld with
  | some b => b
  | none => if irqSilent s.dev.mode then false else irqLevel s

/-! ## Events (07 R204; 12 R342, R343; 14 R378, R379) -/

/-- A record with the timestamp of this moment (07 R204; 02 R42). -/
def mkRec (s : State) (cls code idx : Nat) (data : Word) (set : Bool := false) : Rec :=
  { cls, code, idx, data, set, fc := s.clk.fc, cyc := s.clk.cyc, ns := nsOf s.clk }

/-- A record with the timestamp of the elapsed time `t`, now or earlier (07 R191; 02 R42). -/
def mkRecAt (s : State) (t cls code idx : Nat) (data : Word) (set : Bool) : Rec :=
  if s.clk.tickAt ≤ t || s.clk.ticks = 0 then mkRec { s with clk := { s.clk with now := min t s.clk.now } } cls code idx data set
  else
    let d := (s.clk.tickAt - t + cycleNs - 1) / cycleNs
    if s.clk.ticks ≤ d then { cls, code, idx, data, set, fc := 0, cyc := 0, ns := 0 }
    else
      let p := fcOf s (s.clk.ticks - 1 - d)
      { cls, code, idx, data, set, fc := p.1, cyc := p.2, ns := t + d * cycleNs - s.clk.tickAt }

/-- Records that the fault history holds (15 R417). -/
def isFaultRec (r : Rec) : Bool :=
  match r.cls with
  | 0x0F => true
  | 0x0D => true
  | 0x0A => r.code == 0x01 || r.code == 0x03
  | 0x05 => r.code == 0x10
  | 0x02 => r.code == 0x21
  | 0x07 => r.code == 0x13
  | 0x09 => r.code == 0x01
  | _ => false

/-- Appends to a list that keeps its last `n` elements. -/
def pushLast {α : Type} (n : Nat) (l : List α) (x : α) : List α := (l ++ [x]).drop (l.length + 1 - n)

/-- Saturating 32-bit increment. -/
def satInc32 (n : Nat) : Nat := min (n + 1) 0xFFFFFFFF

/-- The queue takes a record that there is room for; it also enters the tail (15 R417). -/
def evtAccept (r : Rec) (e : Evt) : Evt :=
  { e with queue := e.queue ++ [r], tail := pushLast 4096 e.tail r }

/-- A record arrives at the event queue (12 R342, R343). -/
def enqueue (r : Rec) (s : State) : State :=
  let e := if isFaultRec r then { s.evt with log := pushLast 256 s.evt.log r } else s.evt
  if e.queue.length < 4096 then { s with evt := evtAccept r e }
  else
    let ovf := match e.ovf with
      | none => (r, 1)
      | some (f, n) => (f, satInc32 n)
    irqRaise 2 { s with evt := { e with ovf := some ovf }, io := { s.io with lost := satInc32 s.io.lost } }

/-- An event raised in the control domain: it enters the queue directly (14 R378). -/
def raise (cls code idx : Nat) (data : Word) (set : Bool := false) (s : State) : State :=
  enqueue (mkRec s cls code idx data set) s

/-- The same, with the timestamp of an earlier instant (07 R191). -/
def raiseAt (t cls code idx : Nat) (data : Word) (set : Bool) (s : State) : State :=
  enqueue (mkRecAt s t cls code idx data set) s

/-- The synchroniser of `k`, when its acknowledge phase is in progress. -/
def findSync (k : EventKey) (l : List Sync) : Option Sync := l.find? (fun x => x.key == k)

/-- The longest acknowledge phase of an event, ps, by the domain that raises it (14 Table 14.3). Which domain raises which event is
DEDUCED from the unit that its rule names (log 75). -/
def ackPhase (k : EventKey) : Nat :=
  match k.cls with
  | 0x02 => if k.code = 0x20 then 6429 else 5500
  | 0x03 => 5500
  | 0x04 => 5500
  | 0x08 => 5500
  | 0x05 => 4667
  | 0x0A => 4667
  | 0x07 => 10813
  | 0x0F => 20143
  | 0x0D => 33000
  | _ => 9000

/-- Sets the synchroniser of `k`, or removes it when it idles. -/
def setSync (k : EventKey) (y : Option Sync) (s : State) : State :=
  { s with evt := { s.evt with syncs := y.toList ++ s.evt.syncs.filter (fun x => x.key != k) } }

/-- The phases of a synchroniser that have ended by `t`, ps: a pending record has been launched, which began another (14 R379,
R380). -/
def syncSettle (k : EventKey) (t : Nat) : Nat → State → State
  | 0, s => s
  | n + 1, s =>
    match findSync k s.evt.syncs with
    | none => s
    | some y =>
      if t ≤ y.at_ + ackPhase k then s
      else match y.pend with
        | none => setSync k none s
        | some r => syncSettle k t n (enqueue r (setSync k (some { y with pend := none, at_ := y.at_ + ackPhase k }) s))

/-- A boot or a wake is under way, in which no synchroniser merges (14 R390). -/
def mergesNot (s : State) : Bool := s.dev.mode == .boot || s.dev.mode == .retention

/-- An event raised at `t`, ps, outside the control domain crosses through its pulse synchroniser (14 R378, R379); in BOOT nothing is
merged (R390). -/
def pulseRec (t : Nat) (r : Rec) (s : State) : State :=
  let k : EventKey := { cls := r.cls, code := r.code, index := r.idx }
  let s := syncSettle k t 2 s
  match if mergesNot s then none else findSync k s.evt.syncs with
  | none => enqueue r (if mergesNot s then s else setSync k (some { key := k, at_ := t, pend := none }) s)
  | some y =>
    let p := match y.pend with
      | none => r
      | some q => { q with data := r.data, set := r.set }
    setSync k (some { y with pend := some p }) s

/-- An event raised outside the control domain, now. -/
def pulse (cls code idx : Nat) (data : Word) (set : Bool := false) (s : State) : State :=
  pulseRec (1000 * s.clk.now) (mkRec s cls code idx data set) s

/-- Takes the oldest record out of the queue; an owed `EVT_OVERFLOW` record then enters it (12 R343). -/
def dequeue (e : Evt) : Evt :=
  let e1 := { e with queue := e.queue.drop 1 }
  match e.ovf with
  | none => e1
  | some (f, n) => evtAccept { f with cls := 0x0C, code := 0x01, idx := 0, data := wd n, set := false } { e1 with ovf := none }

/-- The 16 bytes of a record (07 Table 7.9). -/
def recBytes (r : Rec) : List Byte :=
  leBytes 4 r.fc.toNat ++ [BitVec.ofNat 8 (r.cyc + 8 * b2n r.set)] ++ leBytes 2 r.ns ++ [BitVec.ofNat 8 r.cls]
    ++ leBytes 3 r.idx ++ [BitVec.ofNat 8 r.code] ++ leBytes 4 r.data.toNat

/-- The condition of `EVENT_READY` holds (12 Table 12.4). -/
def evtReady (s : State) : Bool :=
  decide (max s.io.thresh 1 ≤ s.evt.unread.length) ||
  (decide (s.io.holdoff ≠ 0) && match s.evt.unread with
    | [] => false
    | t :: _ => decide (t + 1000 * s.io.holdoff ≤ s.clk.now))

/-- Sets `EVENT_READY` when its condition holds. -/
def evtRefresh (s : State) : State := if evtReady s then irqRaise 1 s else s

/-- `MODE`, `READY`, `ACTIVE_CP` or `FAILOVER` has changed: `STATE_CHANGE` (12 Table 12.4). -/
def stateChange (s : State) : State := irqRaise 4 s

/-! ## Rings (12 R323 to R333) -/

/-- Ring `r`. -/
def ring (s : State) (r : Nat) : Ring := tget ringReset s.io.rings r

/-- Sets ring `r`. -/
def setRing (r : Nat) (g : Ring) (s : State) : State := { s with io := { s.io with rings := tset ringReset r g s.io.rings } }

/-- Slot count of a ring. -/
def slots (g : Ring) : Nat := 2 ^ g.size

/-- Default of a ring's job: none. -/
def noJob (_ : Nat) : Option Job := none

/-- The command in progress on a ring. -/
def job (s : State) (r : Nat) : Option Job := tget noJob s.io.jobs r

/-- Sets or clears the command in progress on a ring. -/
def setJob (r : Nat) (j : Option Job) (s : State) : State := { s with io := { s.io with jobs := tset noJob r j s.io.jobs } }

/-- Default of the completed tags: none. -/
def noTags (_ : Nat) : List Word := []

/-- Status byte (12 Table 12.7). -/
def statusCode : Status → Nat
  | .ok => 0x00 | .badOpcode => 0x01 | .badParam => 0x02 | .badCrc => 0x03 | .busy => 0x04 | .notInMode => 0x05
  | .routeBlocked => 0x10 | .slotInUse => 0x20 | .keyExhausted => 0x21 | .keyErased => 0x22 | .authFail => 0x23
  | .lenLimit => 0x24 | .aborted => 0x30 | .alreadyDone => 0x31 | .noSuchTag => 0x32 | .hwFault => 0x40
  | .spareExhausted => 0x41

/-- The echo of a job. -/
def jobEcho (j : Job) : Echo :=
  { ring := j.ring, cls := j.cls, act := j.act, tag := j.tag, abortable := j.abortable, authed := j.authed }

/-- Bytes 0 to 55 of a reply (12 R331). -/
def replyHead (e : Echo) (st : Status) (ws : List Word) : List Byte :=
  [BitVec.ofNat 8 e.cls, BitVec.ofNat 8 e.act,
   BitVec.ofNat 8 (64 * b2n e.abortable + 32 * b2n e.authed + ws.length), BitVec.ofNat 8 (statusCode st)]
  ++ leBytes 4 e.tag.toNat ++ padTo 48 0 (ws.flatMap (fun w => leBytes 4 w.toNat))

/-- The 64 bytes of a reply (12 R331). -/
def replyBytes (e : Echo) (st : Status) (ws : List Word) : List Byte :=
  let h := replyHead e st ws
  h ++ leBytes 4 (crc32c h).toNat ++ [0, 0, 0, 0]

/-- Default role of a processor at start-up (15 R422). -/
def roleReset : Nat → Role
  | 0 => .active | 1 => .restarting | _ => .cold

/-- Role of processor `c`. -/
def role (s : State) (c : Nat) : Role := tget roleReset s.cp.role c

/-- Sets a role. -/
def setRole (c : Nat) (x : Role) (s : State) : State := { s with cp := { s.cp with role := tset roleReset c x s.cp.role } }

/-- The standby processor. -/
def standby (s : State) : Option Nat := [0, 1, 2].find? (fun c => role s c == .standby)

/-- Appends a journal record for the standby to apply (15 R393). The layout of the journal's part of the Window Memory is not given:
the records are held as what they say (log 73). -/
def jrnl (kind r : Nat) (tag : Word) (s : State) : State :=
  { s with cp := { s.cp with journal := s.cp.journal ++ [{ kind, ring := r, tag, at_ := s.clk.now }] } }

/-- An active processor answers commands: not in a failover gap, nor with no processor left (15 R395, R399). -/
def answers (s : State) : Bool := !s.dev.failover && !s.cp.none_

/-- The reply slot at `DEV_INDEX` of ring 4 has `OWN` 1, and the ring is enabled (12 R332, R333). -/
def replySlotOpen (s : State) : Bool :=
  let g := ring s 4
  g.en && (memRead s.wm (g.base + 64 * g.index + 2)).getLsbD 7

/-- Writes a reply into the reply ring (12 R332): bytes 8 to 63 first, then bytes 0 to 7, then `DEV_INDEX` and
`REPLY_READY`. -/
def putReply (e : Echo) (st : Status) (ws : List Word) (s : State) : State :=
  let g := ring s 4
  let bs := replyBytes e st ws
  let a := g.base + 64 * g.index
  let s := wmPut a (bs.take 8) (wmPut (a + 8) (bs.drop 8) s)
  let s := setRing 4 { g with index := (g.index + 1) % slots g } s
  let s := { s with io := { s.io with
    offered := s.io.offered - 1
    done := tset noTags e.ring ((e.tag :: tget noTags s.io.done e.ring).take 16) s.io.done } }
  irqRaise 0 (jrnl 1 e.ring e.tag s)

/-- A command replies: now, or as soon as a processor answers and the slot at `DEV_INDEX` is offered (12 R332, R333; 15 R395). That
a reply which meets a slot not offered waits for it is DESIGN CHOICE: the rules keep one from being due there, but for a ring 4
that is disabled and enabled again with commands outstanding (log 75). -/
def writeReply (e : Echo) (st : Status) (ws : List Word) (s : State) : State :=
  if answers s && replySlotOpen s && s.io.late.isEmpty then putReply e st ws s
  else { s with io := { s.io with late := s.io.late ++ [{ echo := e, st, words := ws }] } }

/-- Writes the replies that wait, as far as slots are offered, at most `n`. -/
def sendLate : Nat → State → State
  | 0, s => s
  | n + 1, s =>
    match s.io.late with
    | [] => s
    | x :: l => if answers s && replySlotOpen s then sendLate n (putReply x.echo x.st x.words { s with io := { s.io with late := l } }) else s

/-- A command ring faults (12 R330). -/
def ringFault (r : Nat) (s : State) : State :=
  let g := ring s r
  raise 0x01 0x01 r (wd g.index) false (irqRaise 3 (setRing r { g with fault := true } s))

/-! ## Descriptors (12 R340, R341) -/

/-- A bulk buffer descriptor (12 Table 12.9). -/
structure Desc where
  addr  : Nat
  len   : Nat
  dcrc  : Nat
  next  : Nat
  last  : Bool
  own   : Bool
  /-- reserved bits set, area outside the host's part, or `NEXT` misaligned -/
  bad   : Bool
deriving DecidableEq, Repr

/-- Reads the descriptor at `a`. -/
def readDesc (s : State) (a : Nat) : Desc :=
  let w0 := leNat (wmGet s a 4)
  let w1 := leNat (wmGet s (a + 4) 4)
  let w3 := leNat (wmGet s (a + 12) 4)
  let addr := w0 % 2 ^ 23
  let len := w1 % 2 ^ 24
  let last := w3 / 2 ^ 30 % 2 == 1
  { addr, len, dcrc := leNat (wmGet s (a + 8) 4), next := w3 % 2 ^ 23, last, own := w3 / 2 ^ 31 == 1,
    bad := decide (w0 / 2 ^ 23 ≠ 0) || decide (w1 / 2 ^ 24 ≠ 0) || decide (w3 / 2 ^ 23 % 2 ^ 7 ≠ 0)
      || !areaOk addr len 8 || (!last && decide (w3 % 16 ≠ 0)) }

/-- Hands a descriptor back: bytes 12 to 15 as found, with `OWN` 0 (12 R341). -/
def handBack (a : Nat) (s : State) : State :=
  let w3 := leNat (wmGet s (a + 12) 4)
  wmPut (a + 12) (leBytes 4 (w3 % 2 ^ 31)) s

/-- Hands back an output buffer of `n` bytes written: bytes 0 to 11, then bytes 12 to 15 with `OWN` 0 (12 R341; 07 R202). -/
def handBackOut (a n : Nat) (s : State) : State :=
  let d := readDesc s a
  let crc := crc32c (wmGet s d.addr n)
  handBack a (wmPut (a + 4) (leBytes 4 n ++ leBytes 4 crc.toNat) s)

/-- Ends one command in progress: hands back what it has taken, frees the ring and replies (12 R331, R341). -/
def endJobOne (r : Nat) (st : Status) (ws : List Word) (s : State) : State :=
  match job s r with
  | none => s
  | some j => writeReply (jobEcho j) st ws (setJob r none (j.taken.foldl (fun s a => handBack a s) s))

/-- The aborts that wait for a target reply after it, with `ST_NOT_IN_MODE` (12 R337, Table 12.8). An abort may itself be
a target, so there are at most as many links as command rings. -/
def answerAborts : Nat → Bool → Nat → State → State
  | 0, _, _, s => s
  | k + 1, isOp, n, s =>
    [0, 1, 2, 3].foldl (fun s q => match job s q with
      | some j => if j.work = .abort isOp n then answerAborts k false q (endJobOne q .notInMode [] s) else s
      | none => s) s

/-- Ends a command in progress, and the aborts that wait for it; in a failover gap its reply falls due when the gap ends. -/
def endJob (r : Nat) (st : Status) (ws : List Word) (s : State) : State :=
  if answers s then answerAborts 4 false r (endJobOne r st ws s)
  else match job s r with
    | some j => setJob r (some { j with work := .due st ws }) s
    | none => s

/-- The ring whose job satisfies `p`. -/
def findJob (s : State) (p : Job → Bool) : Option Job :=
  [0, 1, 2, 3].findSome? (fun r => match job s r with | some j => if p j then some j else none | none => none)

end Sys2Proof.Machine
end

