-- ==== Sys2Proof/Machine/Flags.lean ====
section
/-! DEFINITION. What the host register page reads: the status bits and fields of every register, as State gives them (12 R321 to R324). -/

namespace Sys2Proof.Machine

/-- `DEV_STATE` (12 Table 12.2). -/
def devState (d : Dev) : Word := wd (modeCode d.mode + 16 * b2n d.ready + 32 * d.activeCp + 128 * b2n d.failover + 256 * d.bootErr)

/-- `HID1` (12 Table 12.2). -/
def hid1 (d : Dev) : Word := if d.ne then 0x12 else 0x11

/-- A 32-bit read of the host register page (12 R321 to R324); reserved locations read 0. -/
def regRead (off : Nat) (s : State) : Word :=
  let d := s.dev
  if off = 0 then 0x455A3F10
  else if off = 4 then hid1 d
  else if off = 8 then d.fwVersion
  else if off = 0xC then devState d
  else if 0x40 ≤ off && off < 0xA0 && off % 4 = 0 then
    let r := (off - 0x40) / 16
    let g := ring s r
    match off % 16 with
    | 0 => wd g.base
    | 4 => wd (g.size + 256 * b2n g.en + 512 * b2n g.cfgErr)
    | 8 => wd (g.index + 65536 * b2n g.fault)
    | _ => if r = 5 then wd g.db else 0
  else if off = 0x100 then s.io.irq.setWidth 32
  else if off = 0x104 then s.io.mask.setWidth 32
  else if off = 0x108 then wd (s.io.thresh + 65536 * s.io.holdoff)
  else if off = 0x10C then wd s.io.lost
  else if 0x2000 ≤ off && off < 0x2040 && off % 4 = 0 then
    let m := tget msixReset s.io.msix ((off - 0x2000) / 16)
    match off % 16 with
    | 0 => wd m.addr
    | 4 => wd (m.addr / 2 ^ 32)
    | 8 => m.data
    | _ => wd (b2n m.masked)
  else if off = 0x3000 then
    wd ((List.range 4).foldl (fun v k => v + 2 ^ k * b2n (tget msixReset s.io.msix k).pend) 0)
  else 0

end Sys2Proof.Machine
end

