-- ==== Sys2Proof/Machine/Aes.lean ====
section
/-! DEFINITION. AES (FIPS 197) and its modes of operation (SP 800-38A, 38D, 38F), over lists of bytes (chapter 11). -/

namespace Sys2Proof.Machine

/-- Multiplication by x in GF(2^8), x^8 + x^4 + x^3 + x + 1. -/
def g8X (a : Byte) : Byte := if a.msb then (a <<< 1) ^^^ 0x1B else a <<< 1

/-- Multiplication in GF(2^8), by the low `n` bits of `b`. -/
def g8MulN (a b : Byte) : Nat → Byte
  | 0 => 0
  | n + 1 => g8X (g8MulN a (b >>> 1) n) ^^^ (if b.getLsbD 0 then a else 0)

def g8Mul (a b : Byte) : Byte := g8MulN a b 8

/-- a^254, the inverse, 0 for 0. -/
def g8Inv (a : Byte) : Byte :=
  let a2 := g8Mul a a
  let a3 := g8Mul a2 a
  let a6 := g8Mul a3 a3
  let a12 := g8Mul a6 a6
  let a15 := g8Mul a12 a3
  let a30 := g8Mul a15 a15
  let a60 := g8Mul a30 a30
  let a63 := g8Mul a60 a3
  let a126 := g8Mul a63 a63
  let a127 := g8Mul a126 a
  g8Mul a127 a127

/-- Rotation left. -/
def rot8 (b : Byte) (n : Nat) : Byte := (b <<< n) ||| (b >>> (8 - n))

/-- The S-box and its inverse. -/
def subByte (a : Byte) : Byte :=
  let b := g8Inv a
  b ^^^ rot8 b 1 ^^^ rot8 b 2 ^^^ rot8 b 3 ^^^ rot8 b 4 ^^^ 0x63
def invSubByte (a : Byte) : Byte := g8Inv (rot8 a 1 ^^^ rot8 a 3 ^^^ rot8 a 6 ^^^ 0x05)

/-- Sum of two byte lists. -/
def xorBytes (a b : List Byte) : List Byte := List.zipWith (· ^^^ ·) a b

/-- `ShiftRows` and its inverse, on 16 bytes in columns. -/
def shiftRows (b : List Byte) : List Byte := (List.range 16).map (fun i => b.getD ((i + 4 * (i % 4)) % 16) 0)
def invShiftRows (b : List Byte) : List Byte := (List.range 16).map (fun i => b.getD ((i + 12 * (i % 4)) % 16) 0)

/-- One column times a circulant row. -/
def mixCol (m : List Byte) (c : List Byte) : List Byte :=
  (List.range 4).map (fun i => (List.range 4).foldl (fun v j => v ^^^ g8Mul (m.getD ((j + 4 - i) % 4) 0) (c.getD j 0)) 0)

/-- Cuts bytes into columns. -/
def chunk (n : Nat) : Nat → List Byte → List (List Byte)
  | 0, _ => []
  | k + 1, l => l.take n :: chunk n k (l.drop n)

def mixColumns (b : List Byte) : List Byte := (chunk 4 4 b).flatMap (mixCol [2, 3, 1, 1])
def invMixColumns (b : List Byte) : List Byte := (chunk 4 4 b).flatMap (mixCol [14, 11, 13, 9])

/-- Next word of the key schedule; words newest first. -/
def nextKeyWord (nk i : Nat) (rc : Byte) (ws : List (List Byte)) : List Byte :=
  let t := ws.headD []
  let t := if i % nk = 0 then (match (t.drop 1 ++ t.take 1).map subByte with | a :: l => (a ^^^ rc) :: l | [] => [])
    else if nk = 8 && i % 8 = 4 then t.map subByte else t
  xorBytes t (ws.getD (nk - 1) [])

/-- Key schedule: words from number `i` on. -/
def keyLoop (nk : Nat) : Nat → Nat → Byte → List (List Byte) → List (List Byte)
  | 0, _, _, ws => ws
  | k + 1, i, rc, ws => keyLoop nk k (i + 1) (if i % nk = 0 then g8X rc else rc) (nextKeyWord nk i rc ws :: ws)

/-- Round keys of a 16-byte or 32-byte key, in order. -/
def roundKeys (key : List Byte) : List (List Byte) :=
  let nk := key.length / 4
  let n := 4 * (nk + 7)
  chunk 16 (nk + 7) ((keyLoop nk (n - nk) nk 1 (chunk 4 nk key).reverse).reverse.flatten)

/-- One round of encryption. -/
def encRound (b k : List Byte) : List Byte := xorBytes (mixColumns (shiftRows (b.map subByte))) k

/-- The cipher under round keys. -/
def aesEncRk (rk : List (List Byte)) (b : List Byte) : List Byte :=
  let mid := (rk.drop 1).dropLast
  xorBytes (shiftRows ((mid.foldl encRound (xorBytes b (rk.headD []))).map subByte)) (rk.getLastD [])

/-- The inverse cipher under round keys. -/
def aesDecRk (rk : List (List Byte)) (b : List Byte) : List Byte :=
  let r := rk.reverse
  let mid := (r.drop 1).dropLast
  xorBytes ((invShiftRows (mid.foldl (fun b k => invMixColumns (xorBytes ((invShiftRows b).map invSubByte) k)) (xorBytes b (r.headD [])))).map
    invSubByte) (r.getLastD [])

def aesEnc (key b : List Byte) : List Byte := aesEncRk (roundKeys key) b
def aesDec (key b : List Byte) : List Byte := aesDecRk (roundKeys key) b

/-- Blocks of 16 bytes, the last one maybe short. -/
def blocks16 (bs : List Byte) : List (List Byte) := chunk 16 ((bs.length + 15) / 16) bs

/-! ## CBC, CFB-128, CTR (SP 800-38A) -/

def cbcEnc (rk : List (List Byte)) : List Byte → List (List Byte) → List Byte
  | _, [] => []
  | iv, b :: t => let c := aesEncRk rk (xorBytes b iv); c ++ cbcEnc rk c t

def cbcDec (rk : List (List Byte)) : List Byte → List (List Byte) → List Byte
  | _, [] => []
  | iv, c :: t => xorBytes (aesDecRk rk c) iv ++ cbcDec rk c t

def cfbEnc (rk : List (List Byte)) : List Byte → List (List Byte) → List Byte
  | _, [] => []
  | iv, b :: t => let c := xorBytes b (aesEncRk rk iv); c ++ cfbEnc rk c t

def cfbDec (rk : List (List Byte)) : List Byte → List (List Byte) → List Byte
  | _, [] => []
  | iv, c :: t => xorBytes c (aesEncRk rk iv) ++ cfbDec rk c t

/-- Increment of the whole block, modulo 2^128 (11 R306). -/
def inc128 (b : List Byte) : List Byte := beBytes 16 (beNat b + 1)

/-- Increment of the last 32 bits (SP 800-38D). -/
def inc32 (b : List Byte) : List Byte := b.take 12 ++ beBytes 4 (beNat (b.drop 12) + 1)

/-- A counter mode with increment `inc`. -/
def ctrWith (inc : List Byte → List Byte) (rk : List (List Byte)) : List Byte → List (List Byte) → List Byte
  | _, [] => []
  | c, b :: t => xorBytes b (aesEncRk rk c) ++ ctrWith inc rk (inc c) t

/-- CTR (11 R306). -/
def ctr (rk : List (List Byte)) (c : List Byte) (bs : List Byte) : List Byte := ctrWith inc128 rk c (blocks16 bs)

/-! ## GCM (SP 800-38D) -/

/-- One step of the product in GF(2^128), most significant bit of `x` first. -/
def ghStep (x : BitVec 128) (zv : BitVec 128 × BitVec 128) (i : Nat) : BitVec 128 × BitVec 128 :=
  let (z, v) := zv
  (if x.getMsbD i then z ^^^ v else z, if v.getLsbD 0 then (v >>> 1) ^^^ 0xE1000000000000000000000000000000#128 else v >>> 1)

def ghMul (x y : BitVec 128) : BitVec 128 := ((List.range 128).foldl (ghStep x) (0, y)).1

/-- GHASH over blocks, from an accumulator. -/
def ghash (h : BitVec 128) (acc : BitVec 128) (bs : List (List Byte)) : BitVec 128 :=
  bs.foldl (fun y b => ghMul (y ^^^ BitVec.ofNat 128 (beNat (padTo 16 0 b))) h) acc

/-- The GCM tag, 16 bytes, of a ciphertext. -/
def gcmTag (rk : List (List Byte)) (iv aad ct : List Byte) : List Byte :=
  let h := BitVec.ofNat 128 (beNat (aesEncRk rk (List.replicate 16 0)))
  let y := ghash h (ghash h 0 (blocks16 aad)) (blocks16 ct)
  let y := ghash h y [beBytes 8 (8 * aad.length) ++ beBytes 8 (8 * ct.length)]
  xorBytes (beBytes 16 y.toNat) (aesEncRk rk (iv ++ [0, 0, 0, 1]))

/-- The GCM stream cipher from block `n` of the text on. -/
def gcmStream (rk : List (List Byte)) (iv : List Byte) (n : Nat) (bs : List Byte) : List Byte :=
  ctrWith inc32 rk (iv ++ beBytes 4 (n + 2)) (blocks16 bs)

/-! ## Key wrap (SP 800-38F) -/

/-- One step of the wrap: A, and the registers R. -/
def kwStep (rk : List (List Byte)) (n : Nat) (ar : List Byte × List (List Byte)) (t : Nat) : List Byte × List (List Byte) :=
  let (a, r) := ar
  let i := t % n
  let b := aesEncRk rk (a ++ r.getD i [])
  (xorBytes (b.take 8) (beBytes 8 (t + 1)), r.set i (b.drop 8))

/-- AES-KW wrap of a text of whole 8-byte blocks. -/
def kwWrap (key p : List Byte) : List Byte :=
  let n := p.length / 8
  let (a, r) := (List.range (6 * n)).foldl (kwStep (roundKeys key) n) (List.replicate 8 0xA6, chunk 8 n p)
  a ++ r.flatten

/-- One step of the unwrap. -/
def kwBack (rk : List (List Byte)) (n : Nat) (ar : List Byte × List (List Byte)) (t : Nat) : List Byte × List (List Byte) :=
  let (a, r) := ar
  let i := t % n
  let b := aesDecRk rk (xorBytes a (beBytes 8 (t + 1)) ++ r.getD i [])
  (b.take 8, r.set i (b.drop 8))

/-- AES-KW unwrap: none when the integrity check fails. -/
def kwUnwrap (key c : List Byte) : Option (List Byte) :=
  let n := c.length / 8 - 1
  let (a, r) := (List.range (6 * n)).reverse.foldl (kwBack (roundKeys key) n) (c.take 8, chunk 8 n (c.drop 8))
  if a == List.replicate 8 0xA6 then some r.flatten else none

end Sys2Proof.Machine
end

