-- ==== Sys2Proof/Machine/Codec.lean ====
section
/-! DEFINITION. Line codes of the frame: bit lists, CRC-16, whitening and scrambling, RS(544,514) (chapter 3). -/

namespace Sys2Proof.Machine

/-- The `n` low bits of a number, most significant first. -/
def bitsOf (n v : Nat) : List Bool := (List.range n).map (fun i => v.testBit (n - 1 - i))

/-- The number that bits spell, most significant first. -/
def natOf (bs : List Bool) : Nat := bs.foldl (fun a b => 2 * a + b.toNat) 0

/-- Bytes as bits, each byte most significant bit first. -/
def bitsOfBytes (bs : List Byte) : List Bool := bs.flatMap (fun b => bitsOf 8 b.toNat)

/-- Cuts a list into `k` groups of `n`. -/
def groups {α : Type} (n : Nat) : Nat → List α → List (List α)
  | 0, _ => []
  | k + 1, l => l.take n :: groups n k (l.drop n)

/-- Bits as bytes. -/
def bytesOfBits (bs : List Bool) : List Byte := (groups 8 (bs.length / 8) bs).map (fun g => BitVec.ofNat 8 (natOf g))

/-- Bitwise sum of two bit lists. -/
def xorBits (a b : List Bool) : List Bool := List.zipWith (fun x y => x != y) a b

/-- Number of positions in which two bit lists differ. -/
def hamming (a b : List Bool) : Nat := (xorBits a b).countP id

/-- Complements every even-numbered bit: a reversed pair (03 R67). -/
def compEven : List Bool → List Bool
  | [] => []
  | [a] => [(!a)]
  | a :: b :: t => (!a) :: b :: compEven t

/-- One bit into a CRC-16 register, not reflected. -/
def crc16Bit (poly : BitVec 16) (c : BitVec 16) (b : Bool) : BitVec 16 :=
  if c.msb != b then (c <<< 1) ^^^ poly else c <<< 1

/-- A CRC-16 over bits, initial value 0xFFFF, no final XOR. -/
def crc16 (poly : BitVec 16) (bs : List Bool) : BitVec 16 := bs.foldl (crc16Bit poly) 0xFFFF

/-- `HCRC` and `MCRC`: x^16 + x^12 + x^5 + 1 (03 R70). -/
def hcrc (bs : List Byte) : BitVec 16 := crc16 0x1021 (bitsOfBytes bs)

/-- `FTAG`: x^16 + x^15 + x^2 + 1 over client data bits in line order (03 R87). -/
def ftagOf (bs : List Bool) : BitVec 16 := crc16 0x8005 bs

/-- The sequence s_k = s_(k−58) XOR s_(k−39) that starts with the bits of `v` (03 R71, R89). -/
def lfsr (v : BitVec 58) : Nat → List Bool
  | 0 => []
  | n + 1 => v.msb :: lfsr ((v <<< 1) ||| (if v.getLsbD 57 != v.getLsbD 38 then 1#58 else 0#58)) n

/-- The whitening sequence w_0 to w_1029 (03 R71). -/
def whitening : List Bool := lfsr 0x2F39A5C17E4D86B 1030

/-- Start vector of a section's keystream (03 R89). -/
def scramblerStart (sec : Nat) (fc : Word) (seed : Word) : BitVec 58 :=
  BitVec.ofNat 58 (sec * 2 ^ 55 + 2 ^ 54 + (fc.toNat % 2 ^ 22) * 2 ^ 32 + seed.toNat)

/-- Information bits of a section. -/
def infoBits : Nat := 205600

/-- Scrambles or descrambles the information bits of a section (03 R89). -/
def scramble (sec : Nat) (fc : Word) (seed : Word) (bs : List Bool) : List Bool :=
  xorBits bs (lfsr (scramblerStart sec fc seed) infoBits)

/-- Pattern field, normal form (03 R68). -/
def patternN : List Bool := bitsOf 120 0x3C5A96E71B0D4F82A6C935F07E1DB4

/-- Pattern field as seen through a reversed pair (03 R68). -/
def patternR : List Bool := bitsOf 120 0x96F03C4DB1A7E5280C639F5AD4B71E

/-! ## RS(544,514) over GF(2^10), x^10 + x^3 + 1 (03 R77 to R79) -/

/-- One symbol of a codeword. -/
abbrev Sym := BitVec 10

/-- Multiplication by x. -/
def gfX (a : Sym) : Sym := if a.msb then (a <<< 1) ^^^ 0x009 else a <<< 1

/-- Multiplication in GF(2^10), by the low `n` bits of `b`, most significant first. -/
def gfMulN (a b : Sym) : Nat → Sym
  | 0 => 0
  | n + 1 => gfX (gfMulN a (b >>> 1) n) ^^^ (if b.getLsbD 0 then a else 0)

/-- Multiplication in GF(2^10). -/
def gfMul (a b : Sym) : Sym := gfMulN a b 10

/-- Powers. -/
def gfPow (a : Sym) : Nat → Sym
  | 0 => 1
  | n + 1 => gfMul a (gfPow a n)

/-- Inverse: a^1022. -/
def gfInv (a : Sym) : Sym := gfPow a 1022

/-- Value of a polynomial, highest degree first. -/
def hornerHi (x : Sym) (p : List Sym) : Sym := p.foldl (fun v c => gfMul v x ^^^ c) 0

/-- Value of a polynomial, lowest degree first. -/
def hornerLo (x : Sym) : List Sym → Sym
  | [] => 0
  | c :: t => c ^^^ gfMul x (hornerLo x t)

/-- Product with (x − a), highest degree first. -/
def polyRoot (a : Sym) (p : List Sym) : List Sym :=
  List.zipWith (· ^^^ ·) (p ++ [0]) (0 :: p.map (gfMul a))

/-- Generator polynomial: roots α^0 to α^29 (IEEE 802.3 clause 119; log 16), highest degree first. -/
def rsGen : List Sym := (List.range 30).foldl (fun p j => polyRoot (gfPow 2 j) p) [1]

/-- One information symbol through the division register. -/
def rsStep (g : List Sym) (r : List Sym) (c : Sym) : List Sym :=
  let f := c ^^^ r.headD 0
  List.zipWith (fun a b => a ^^^ gfMul f b) (r.drop 1 ++ [0]) g

/-- The 30 parity symbols of 514 information symbols (03 R78). -/
def rsParity (m : List Sym) : List Sym := m.foldl (rsStep (rsGen.drop 1)) (List.replicate 30 0)

/-- A codeword: information symbols, then parity symbols (03 R78). -/
def rsEncode (m : List Sym) : List Sym := m ++ rsParity m

/-- The 30 syndromes of a received word. -/
def rsSyndromes (r : List Sym) : List Sym := (List.range 30).map (fun j => hornerHi (gfPow 2 j) r)

/-- Adds two polynomials, lowest degree first. -/
def polyAdd : List Sym → List Sym → List Sym
  | [], q => q
  | p, [] => p
  | a :: p, b :: q => (a ^^^ b) :: polyAdd p q

/-- Berlekamp-Massey: syndromes still to come, those seen (newest first), locator, last locator, last discrepancy, shift, length. -/
def bmLoop : List Sym → List Sym → List Sym → List Sym → Sym → Nat → Nat → List Sym
  | [], _, c, _, _, _, _ => c
  | s :: t, seen, c, b, d0, m, l =>
    let seen' := s :: seen
    let d := (List.zipWith gfMul c seen').foldl (· ^^^ ·) 0
    if d = 0 then bmLoop t seen' c b d0 (m + 1) l
    else
      let q := gfMul d (gfInv d0)
      let c' := polyAdd c (List.replicate m 0 ++ b.map (gfMul q))
      if 2 * l ≤ seen.length then bmLoop t seen' c' c d 1 (seen.length + 1 - l) else bmLoop t seen' c' b d0 (m + 1) l

/-- Drops leading zeros of the highest degrees. -/
def polyTrim (p : List Sym) : List Sym := (p.reverse.dropWhile (· == 0)).reverse

/-- Error locator of a received word. -/
def rsLocator (s : List Sym) : List Sym := polyTrim (bmLoop s [] [1] [1] 1 1 0)

/-- Formal derivative in characteristic 2: odd coefficients move down, even ones vanish. -/
def polyDeriv : List Sym → List Sym
  | [] => []
  | _ :: t => (t.zip (List.range t.length)).map (fun (c, i) => if i % 2 = 0 then c else 0)

/-- The first `n` coefficients of a product. -/
def polyMulMod (n : Nat) : List Sym → List Sym → List Sym
  | [], _ => []
  | a :: p, q => (polyAdd (q.map (gfMul a)) (0 :: polyMulMod n p q)).take n

/-- Error value at position `i` (Forney). -/
def rsError (lam om : List Sym) (i : Nat) : Sym :=
  let x := gfPow 2 (543 - i)
  let xi := gfInv x
  if hornerLo xi lam = 0 then gfMul x (gfMul (hornerLo xi om) (gfInv (hornerLo xi (polyDeriv lam)))) else 0

/-- Decodes a word of 544 symbols (03 R79): the information symbols and the number of symbols corrected, up to 15; `none` when
it cannot be corrected. -/
def rsDecode (r : List Sym) : Option (List Sym × Nat) :=
  let s := rsSyndromes r
  if s.all (· == 0) then some (r.take 514, 0)
  else
    let lam := rsLocator s
    let om := polyMulMod 30 s lam
    let c := List.zipWith (· ^^^ ·) r ((List.range 544).map (rsError lam om))
    let n := (List.zipWith (fun a b => decide (a ≠ b)) r c).countP id
    if lam.length ≤ 16 && n ≤ 15 && (rsSyndromes c).all (· == 0) then some (c.take 514, n) else none

end Sys2Proof.Machine
end

