-- ==== Sys2Proof/Machine/Line.lean ====
section
/-! DEFINITION. The line: bits of a section, PAM4 levels and test patterns (03 R66, R67; 09 R245, R247). -/

namespace Sys2Proof.Machine

/-- Symbols as bits, each most significant bit first (03 R78). -/
def symBits (w : List Sym) : List Bool := w.flatMap (fun c => bitsOf 10 c.toNat)

/-- The 218,750 bits of a section, in the order of the line (03 R66). -/
def sectionBits (t : TxSection) : List Bool := t.marker ++ t.words.flatMap symBits

/-- Bits of a section on the line. -/
def sectionLen : Nat := 218750

/-- PAM4 level of a pair of bits, by the Gray code (03 R67). -/
def pam4 : Bool → Bool → Nat
  | false, false => 0
  | false, true => 1
  | true, true => 2
  | true, false => 3

/-- PAM4 levels of a stream of bits (03 R67). -/
def pam4s : List Bool → List Nat
  | a :: b :: t => pam4 a b :: pam4s t
  | _ => []

/-! ## PRBS13Q and PRBS31Q (09 R245): the polynomials 1 + x + x² + x¹² + x¹³, and 1 + x²⁸ + x³¹ with its output inverted, are
PRESUMED from IEEE 802.3, which R245 names (log 59). `q` is true for PRBS31Q. -/

/-- Length of the register. -/
def prbsDeg (q : Bool) : Nat := if q then 31 else 13

/-- Next bit of the register `v`, whose newest bit is bit 0. -/
def prbsNext (q : Bool) (v : Nat) : Bool :=
  if q then v.testBit 27 != v.testBit 30
  else (v.testBit 0 != v.testBit 1) != (v.testBit 11 != v.testBit 12)

/-- The register with a bit shifted in. -/
def prbsShift (q : Bool) (v : Nat) (x : Bool) : Nat := (2 * v + x.toNat) % 2 ^ prbsDeg q

/-- The next `n` bits of the pattern, and the register after them. -/
def prbsRun (q : Bool) (v : Nat) : Nat → List Bool × Nat
  | 0 => ([], v)
  | n + 1 =>
    let x := prbsNext q v
    let (t, w) := prbsRun q (prbsShift q v x) n
    ((x != q) :: t, w)

/-- The checker predicts every bit, from the register `v` on (09 R247). -/
def prbsFollows (q : Bool) (v : Nat) : List Bool → Bool
  | [] => true
  | b :: t =>
    let x := prbsNext q v
    (b == (x != q)) && prbsFollows q (prbsShift q v x) t

/-- The checker, seeded from the first bits received, predicts the 1,024 that follow (09 R247). -/
def prbsPredicts (q : Bool) (bs : List Bool) : Bool :=
  bs.length == prbsDeg q + 1024
    && prbsFollows q (natOf ((bs.take (prbsDeg q)).map (· != q))) (bs.drop (prbsDeg q))

/-- The form to which the checker locks: some true with even-numbered bits complemented (09 R247). -/
def prbsForm (q : Bool) (bs : List Bool) : Option Bool :=
  if prbsPredicts q bs then some false else if prbsPredicts q (compEven bs) then some true else none

/-! ## What leaves -/

/-- The bits that leave under output code `k` of a section: none when nothing is driven, those received in the far-end loop (09 R243);
`TX_POL_INV` complements every even-numbered bit (09 R239). -/
def outBits (k : Nat) (t : TxSection) : List Bool :=
  let bs := if k = 1 then sectionBits t else if k = 2 then (prbsRun t.prbs.1 t.prbs.2 sectionLen).1 else if k = 3 then t.echo else []
  if t.pol then compEven bs else bs

/-- The PAM4 levels that a section sends at the ball (03 R67; 09 R239). -/
def ballLevels (t : TxSection) : List Nat := pam4s (outBits t.line t)

end Sys2Proof.Machine
end

