-- ==== Sys2Proof/Machine/Operands.lean ====
section
/-! DEFINITION. The operand forms of commands: parameter fields, reserved bits, ranges, and what a command's body answers. -/

namespace Sys2Proof.Machine

/-- What a command answers once its checks and its effect are done: a reply, or work that goes on. -/
inductive Res where
  | reply (st : Status) (ws : List Word) (s : State)
  | wait (w : Work) (image : List Byte) (taken : List Nat) (s : State)
  /-- `CIPH_OP` has entered its channel's queue: the ring goes on (12 R329) -/
  | queued (s : State)
deriving Repr

/-- A refusal of the body's own checks: nothing changes (12 R334). -/
def refuse (st : Status) (s : State) : Res := .reply st [] s

/-- Done, without reply words. -/
def done (s : State) : Res := .reply .ok [] s

/-- Goes to the update port (01 R23). -/
def toPort (s : State) : Res := .wait .port [] [] s

/-- Reserved bits [hi:lo] of parameter word `i` are 0 (00 R12). -/
def rsv0 (ws : List Word) (i hi lo : Nat) : Bool := fld (wAt ws i) hi lo == 0

/-- Field [hi:lo] of parameter word `i`. -/
def pf (ws : List Word) (i hi lo : Nat) : Nat := fld (wAt ws i) hi lo

/-- Bit `k` of parameter word `i`. -/
def pb (ws : List Word) (i k : Nat) : Bool := bit (wAt ws i) k

/-- Signed field [hi:lo] of parameter word `i`, two's complement. -/
def pfI (ws : List Word) (i hi lo : Nat) : Int :=
  let n := pf ws i hi lo
  if n < 2 ^ (hi - lo) then (n : Int) else (n : Int) - 2 ^ (hi + 1 - lo)

/-- Field in an inclusive range. -/
def inR (n lo hi : Nat) : Bool := decide (lo ≤ n) && decide (n ≤ hi)

/-- Signed field in an inclusive range. -/
def inRI (n lo hi : Int) : Bool := decide (lo ≤ n) && decide (n ≤ hi)

/-- Lanes 0 to 143 (00 Names). -/
def laneOk (l : Nat) : Bool := decide (l < 144)

/-- Tributary addresses 0 to 147,455. -/
def taOk (t : Nat) : Bool := decide (t < 147456)

/-- Grain addresses 0 to 14,155,775. -/
def gaOk (g : Nat) : Bool := decide (g < 14155776)

end Sys2Proof.Machine
end

