-- ==== Sys2Proof/Machine/Counters.lean ====
section
/-! DEFINITION. The counter bank (chapter 14): taps, selection, reads and dumps. -/

namespace Sys2Proof.Machine

/-- An unbound counter (14 R390). -/
def counterReset (_ : Nat) : Counter := { value := 0, sat := false, bound := false, tap := 0, obj := 0, since := 0 }

/-- Default of taps and samples (07 R207). -/
def zeroN (_ : Nat) : Nat := 0

/-- Largest counter value (14 R383). -/
def cntMax : Nat := 0xFFFFFFFFFFFF

/-- Counter `n`. -/
def counter (s : State) (n : Nat) : Counter := tget counterReset s.cnt.bank n

/-- Sets counter `n`. -/
def setCounter (n : Nat) (c : Counter) (s : State) : State :=
  { s with cnt := { s.cnt with bank := tset counterReset n c s.cnt.bank } }

/-- Key of a tap: code and object index (07 R203). -/
def tapKey (tap obj : Nat) : Nat := tap * 2 ^ 24 + obj

/-- `n` increments arrive at a count tap; its Gray accumulator has 16 bits (14 R376). -/
def tapInc (tap obj n : Nat) (s : State) : State :=
  let k := tapKey tap obj
  { s with cnt := { s.cnt with acc := tset zeroN k ((tget zeroN s.cnt.acc k + n) % 65536) s.cnt.acc } }

/-- A counter takes `d` increments, saturating (14 R381, R383). -/
def counterAdd (d : Nat) (c : Counter) : Counter :=
  if d = 0 then c else
  let v := c.value + d
  if v < cntMax then { c with value := v } else { c with value := cntMax, sat := true }

/-- Difference of a tap's accumulator from the bank's last sample, modulo its width (14 R376). -/
def tapDiff (s : State) (k : Nat) : Nat := (tget zeroN s.cnt.acc k + 65536 - tget zeroN s.cnt.last k) % 65536

/-- The bank samples every tap: each bound counter that counts takes the whole difference (14 R376, R381, R386). -/
def sampleTaps (s : State) : State :=
  { s with cnt := { s.cnt with
    bank := s.cnt.bank.map (fun (n, c) =>
      (n, if c.bound && decide (c.since ≤ s.clk.ticks - 1) then counterAdd (tapDiff s (tapKey c.tap c.obj)) c else c))
    last := s.cnt.acc } }

/-- An uncorrectable check-bit error in a counter (14 R389). -/
def counterBad (n : Nat) (s : State) : State :=
  raise 0x0B 0x01 n 0 false (setCounter n { counter s n with value := cntMax, sat := true } s)

/-- COUNTER_TAP_SAMPLE (14 R376): one sample of the bank; `eccBad` are the counters found bad (R389). -/
def execCounterTapSample (eccBad : List Nat) (s : State) : Host.Outcome State Fault Refusal :=
  if eccBad.all (fun n => decide (n < 1048576)) then .next (eccBad.foldl (fun s n => counterBad n s) (sampleTaps s))
  else .refused (.illFormed "COUNTER_TAP_SAMPLE")

/-- The object index fits the tap (14 R382, R387; 07 Table 7.8; 11 Table 11.15). -/
def tapObjOk (tap obj : Nat) : Bool :=
  let ta := obj % 2 ^ 18
  let taDir (d : Nat) := taOk ta && obj / 2 ^ 18 == d * 32
  match tap with
  | 0x01 | 0x02 | 0x03 | 0x04 | 0x05 | 0x06 => laneOk obj
  | 0x10 | 0x11 | 0x12 | 0x16 | 0x17 | 0x18 | 0x19 => taDir 0
  | 0x13 | 0x14 | 0x15 | 0x1A => taDir 1
  | 0x20 | 0x21 => decide (obj ≤ 6)
  | _ => false

/-- Form of `CNT_SELECT` (14 Table 14.6). -/
def formCntSelect (ws : List Word) : Bool :=
  rsv0 ws 0 31 21 && (!pb ws 0 20 || tapObjOk (pf ws 1 7 0) (pf ws 1 31 8))

/-- `CNT_SELECT` waits for the next grain-cycle tick (14 R386). -/
def bodyCntSelect (_ : Packet) (s : State) : Res := .wait .bind [] [] s

/-- What tick k does for a waiting `CNT_SELECT` (14 R386): the counter is cleared and its binding takes hold; it counts
from tick k + 1, which the reply reports. `s` stands at tick k. -/
def bindAtTick (ws : List Word) (s : State) : State :=
  let b := pb ws 0 20
  let c : Counter := if b then
      { value := 0, sat := false, bound := true, tap := pf ws 1 7 0, obj := pf ws 1 31 8, since := s.clk.ticks }
    else counterReset 0
  setCounter (pf ws 0 19 0) c s

/-- Completes every `CNT_SELECT` that waits, at a tick (14 R386). -/
def bindJobs (s : State) : State :=
  [0, 1, 2, 3].foldl (fun s r => match job s r with
    | some j => match j.work with
      | .bind => endJob r .ok (effWords s s.clk.ticks) (bindAtTick j.params s)
      | _ => s
    | none => s) s

/-- The 8 bytes of a counter record (14 Table 14.5). -/
def counterBytes (c : Counter) : List Byte :=
  leBytes 8 (c.value + 2 ^ 48 * b2n c.sat + 2 ^ 49 * b2n c.bound)

/-- One access: the record, and the counter after it (14 R384). -/
def readCounter (clear : Bool) (n : Nat) (s : State) : List Byte × State :=
  let c := counter s n
  (counterBytes c, if clear then setCounter n { c with value := 0, sat := false } s else s)

/-- Reads `k` counters from `n` on, in ascending order (14 R385). -/
def readCounters (clear : Bool) (n : Nat) : Nat → State → List Byte × State
  | 0, s => ([], s)
  | k + 1, s =>
    let (a, s1) := readCounter clear n s
    let (b, s2) := readCounters clear (n + 1) k s1
    (a ++ b, s2)

/-- A block's skew, 0 to 1,000 ns: a free value (14 R385; log 2). -/
def skew (k : Nat) (s : State) : Nat × State :=
  if k ≤ 1 then (0, s) else let (v, s) := draw 0x1401 s; (v % 1001, s)

/-- Form of `CNT_READ` (14 Table 14.7; 12 R473). -/
def formCntRead (ws : List Word) : Bool :=
  let n := pf ws 0 26 20
  rsv0 ws 0 31 28 && rsv0 ws 1 31 23 && inR n 1 64 && decide (pf ws 0 19 0 + n ≤ 1048576) && areaOk (pf ws 1 22 0) (8 * n) 8

/-- `CNT_READ` (14 R387). -/
def bodyCntRead (p : Packet) (s : State) : Res :=
  let ws := p.params
  let n := pf ws 0 26 20
  let (bs, s1) := readCounters (pb ws 0 27) (pf ws 0 19 0) n s
  let (k, s2) := skew n s1
  .reply .ok [s.clk.fc, wd (s.clk.cyc + 8 * nsOf s.clk), wd k] (wmPut (pf ws 1 22 0) bs s2)

/-- Form of `CNT_DUMP` (14 Table 14.8; 12 R340, R473). -/
def formCntDump (ws : List Word) : Bool :=
  rsv0 ws 0 31 28 && rsv0 ws 1 31 24 && decide (pf ws 0 13 0 + pf ws 0 27 14 ≤ 16383) && areaOk (pf ws 1 22 0) 16 16

/-- What reaching an output descriptor gives a dump (12 R341; 14 R388): wait, refusal, or a buffer in hand. -/
inductive DumpReach where
  | wait | bad | buffer (cap : Nat)
deriving DecidableEq, Repr

/-- Reaches the output descriptor at `a`. -/
def dumpReach (a : Nat) (s : State) : DumpReach :=
  let d := readDesc s a
  if !d.own then .wait else if d.bad || d.len == 0 || d.len % 528 != 0 then .bad else .buffer d.len

/-- `CNT_DUMP` reaches its first descriptor (14 R388). -/
def bodyCntDump (p : Packet) (s : State) : Res :=
  let a := pf p.params 1 22 0
  match dumpReach a s with
  | .wait => .wait (.dumpWait 0 a) [] [] s
  | .bad => .reply .badParam [] (handBack a s)
  | .buffer cap => .wait (.dump 0 a cap 0) [] [a] s

/-- A dump that waits for a descriptor looks at it again (12 R341). -/
def dumpRecheck (r : Nat) (j : Job) (blocks a : Nat) (s : State) : State :=
  match dumpReach a s with
  | .wait => s
  | .bad => endJob r .badParam [] (setJob r (some { j with taken := [a] }) s)
  | .buffer cap => setJob r (some { j with work := .dump blocks a cap 0, taken := [a] }) s

/-- The 528 bytes of a block record (14 Table 14.9). -/
def blockRecord (b : Nat) (clear : Bool) (s : State) : List Byte × State :=
  let (bs, s1) := readCounters clear (64 * b) 64 s
  let (k, s2) := skew 64 s1
  (leBytes 4 s.clk.fc.toNat ++ leBytes 1 s.clk.cyc ++ leBytes 2 (nsOf s.clk) ++ [0] ++ leBytes 2 b ++ leBytes 2 k
    ++ leBytes 4 0 ++ bs, s2)

/-- The next block of a dump (14 R388): written, its buffer handed back when full or last, the next descriptor reached. -/
def dumpBlock (r : Nat) (j : Job) (blocks a cap fill : Nat) (s : State) : State :=
  let ws := j.params
  let total := pf ws 0 13 0 + 1
  let d := readDesc s a
  let (bs, s1) := blockRecord (pf ws 0 27 14 + blocks) (pb ws 1 23) s
  let s2 := wmPut (d.addr + fill) bs s1
  let fill' := fill + 528
  let n := blocks + 1
  if n = total then
    endJob r .ok [wd n] (setJob r (some { j with taken := [] }) (handBackOut a fill' s2))
  else if fill' = cap then
    let s3 := handBackOut a fill' s2
    let j3 := { j with taken := [], work := .dumpWait n d.next }
    if d.last then endJob r .badParam [] (setJob r (some j3) s3)
    else dumpRecheck r j3 n d.next (setJob r (some j3) s3)
  else setJob r (some { j with work := .dump n a cap fill' }) s2

/-- CNT_DUMP_BLOCK (14 R388); a dump waits out a failover gap (14 Table 14.10). -/
def execCntDumpBlock (r : Nat) (s : State) : Host.Outcome State Fault Refusal :=
  match job s r with
  | some j => match j.work with
    | .dump blocks a cap fill => .next (if running s && !s.dev.failover then dumpBlock r j blocks a cap fill s else s)
    | _ => .next s
  | none => .next s

end Sys2Proof.Machine
end

