-- ==== Sys2Proof/Machine/Memory.lean ====
section
/-! DEFINITION. The Window Memory's ports, its errors and repair (chapter 13). -/

namespace Sys2Proof.Machine

/-! ## Ports E and I (13 R350 to R356) -/

/-- Fence entries at start-up: fence 0 over 0x007F_C000 to 0x007F_FFFF (13 R362, R371). -/
def fenceReset (k : Nat) : Fence :=
  if k = 0 then { en := true, first := 0x7FC, last := 0x7FF } else { en := false, first := 0, last := 0 }

/-- Fence `k`; fence 0 is fixed (13 R362). -/
def fence (s : State) (k : Nat) : Fence := if k = 0 then fenceReset 0 else tget fenceReset s.mem.fences k

/-- Stripe `n` of the Window Memory overlaps an enabled fence (13 R362). -/
def fenced (s : State) (n : Nat) : Bool :=
  (List.range 16).any (fun k => let f := fence s k; f.en && decide (f.first ≤ n) && decide (n ≤ f.last))

/-- The Window Memory answers accesses: from the end of the start-up march (16 R432), in a wake from 180 µs after its beginning
(13 R364; 16 R441), and while its planes run. -/
def wmOpen (s : State) : Bool := running s || (s.dev.mode == .boot && decide (s.dev.bootPhase ≠ 0)) ||
  (s.dev.mode == .retention && s.dev.woke && !s.dev.resetLow && decide (s.dev.bootAt + 180000 ≤ s.clk.now))

/-- Address `a` lies in the range of a destructive on-request test (13 Table 13.2). -/
def underTest (s : State) (a : Nat) : Bool := testedAt s.mem.testing a

/-- Word `w` lies in a row or column whose repair is being mirrored in (13 R358). -/
def mirrored (s : State) (w : Nat) : Bool :=
  s.mem.mirror.any (fun x => x.1 == 0 && (if x.2.1 = 0 then Config.wmRow w == x.2.2 else Config.wmInColumn w x.2.2))

/-- The word of address `a` is on the fall-back path: in a borrowed stripe, or being mirrored (13 R352). -/
def fallBack (s : State) (a : Nat) : Bool :=
  (match s.mem.borrow with | some b => b.store == 0 && b.stripe == a / 4096 | none => false) || mirrored s (a / 8)

/-- The 8 check bits that word `w` of the Window Memory carries (13 R350). -/
def wmCheck (s : State) (w : Nat) : Nat := Config.checkBits 64 (readLE s.wm (8 * w) 8)

/-- A free byte of undefined read data (13 R352, R356; log 2). -/
def freeByte (a : Nat) (s : State) : Byte := BitVec.ofNat 8 (Config.freeAt s.clk.free (0x1300000000 + a))

/-- One written byte, as the path allows: host writes to the reserved region are discarded (12 R325); a write in a
destructive test's range may be lost (13 Table 13.2), which a free value decides. -/
def portWrite (host : Bool) (a : Nat) (b : Byte) (s : State) : State :=
  if !wmOpen s || (host && decide (hostEnd ≤ a)) then s
  else if underTest s a && decide (Config.freeAt s.clk.free (0x1310000000 + a) % 2 = 1) then s
  else { s with wm := memWrite s.wm a b }

/-- One read byte: host reads of the reserved region return 0 (12 R325). -/
def portRead (host : Bool) (a : Nat) (s : State) : Byte :=
  if !wmOpen s || (host && decide (hostEnd ≤ a)) then 0
  else if underTest s a then freeByte a s
  else memRead s.wm a

/-- Writes bytes from `a` on through a port, in ascending address order (13 R354). -/
def portWrites (host : Bool) : Nat → List Byte → State → State
  | _, [], s => s
  | a, b :: t, s => portWrites host (a + 1) t (portWrite host a b s)

/-- Reads `n` bytes through a port. -/
def portReads (host : Bool) (a n : Nat) (s : State) : List Byte := (List.range n).map (fun i => portRead host (a + i) s)

/-- Store number of the Window Memory (13 Table 13.6), and the taps of check-bit errors (14 R382). -/
def tapEccCorr : Nat := 0x20
def tapEccUncorr : Nat := 0x21

/-- Sticky bits of `MEM_TEST_GET` (13 Table 13.7). -/
def memHist (b : Nat) (s : State) : State := { s with mem := { s.mem with hist := s.mem.hist ||| (1#3 <<< b) } }

/-- An uncorrectable error found in store `st` at `a`, `ps` picoseconds from now: event, sticky bit, tap (13 R356, R357; 14 R382). -/
def eccUncorr (st a ps : Nat) (s : State) : State :=
  let r := mkRec { s with clk := { s.clk with now := s.clk.now + ps / 1000 } } 0x0A 0x01 st (wd a)
  let t := 1000 * s.clk.now + ps
  let s := memHist 0 (tapInc tapEccUncorr st 1 s)
  if st = 0 then enqueue r s else pulseRec t r s

/-- A spare row or column of a store is left: of their number, which is not given, those repairs in force and in progress use one
each (13 R358; log 74). -/
def sparesLeft (st kind : Nat) (s : State) : Bool :=
  decide ((s.mem.repairs ++ s.mem.mirror).countP (fun x => x.1 == st && x.2.1 == kind) < Config.spareCells st kind)

/-- A fault in a store's cells is repaired from its spare rows or columns, by a mirror that MEM_REPAIR completes; with none left it
stays, and is reported (13 R358, R359). Answers whether it is repaired. -/
def startRepair (st kind loc : Nat) (s : State) : Bool × State :=
  if s.mem.mirror.contains (st, kind, loc) then (true, s)
  else if sparesLeft st kind s then (true, { s with mem := { s.mem with mirror := s.mem.mirror ++ [(st, kind, loc)] } })
  else (false, raise 0x0A 0x03 st (wd (kind % 4 + 4 * loc)) false (memHist 1 s))

/-- A check-bit result of the Window Memory (13 R356): corrected and counted, or the word zeroed, reported and its row's
repair started. -/
def eccWm (h : EccHit) (s : State) : State :=
  if h.uncorrectable then
    let w := h.addr / 8
    let s := { s with wm := writeBytes s.wm (8 * w) (List.replicate 8 0) }
    (startRepair 0 0 (Config.wmRow w) (eccUncorr 0 h.addr 0 s)).2
  else tapInc tapEccCorr 0 1 s

/-- The port E write (13 R354). -/
def doWriteE (e : PortEAccess) (s : State) : State :=
  if e.write then
    (List.range 4).foldl (fun s i => if e.be.getLsbD i then
      portWrite true (e.addr + i) (BitVec.ofNat 8 (e.data.toNat / 256 ^ i)) s else s) s
  else s

/-- Masters that address target T0 (13 Table 13.4). -/
def reachesT0 (m : Nat) : Bool := m != 5

/-- The port I write (13 R354). -/
def doWriteI (i : PortIAccess) (s : State) : State :=
  if i.write && reachesT0 i.master then portWrites (i.master == 2) i.addr i.data s else s

/-- Two accesses meet in one word (13 R352). -/
def sameWord (e : PortEAccess) (i : PortIAccess) : Bool :=
  decide (i.addr / 8 ≤ e.addr / 8) && decide (e.addr / 8 ≤ (i.addr + i.len - 1) / 8)

/-- The port E read: undefined and warned when it meets a port I write on the fall-back path, or an uncorrectable error
(13 Table 13.1, R355, R356). -/
def doReadE (e : PortEAccess) (i : Option PortIAccess) (ecc : Option EccHit) (s : State) : State :=
  if e.write then { s with mem := { s.mem with warned := false } }
  else
    let meet := match i with | some i => i.write && sameWord e i && fallBack s e.addr | none => false
    let bad := match ecc with | some h => h.uncorrectable && h.addr / 8 == e.addr / 8 | none => false
    if meet || bad then
      let (v, s) := draw 0x1355 s
      { s with mem := { s.mem with readE := wd v, warned := true } }
    else { s with mem := { s.mem with readE := wd (leNat (portReads true e.addr 4 s)), warned := false } }

/-- The port I read: answered with an error when it finds an uncorrectable error, for PCIe poisoned and reported as Poisoned TLP
(bit 12, PRESUMED: PCIe; log 5) through Advanced Error Reporting (13 R356); a master that does not address T0 reads 0 with an error response (13 R367). -/
def doReadI (i : PortIAccess) (ecc : Option EccHit) (s : State) : State :=
  if !reachesT0 i.master then
    raise 0x0A 0x11 i.master (wd i.addr) false
      { s with mem := { s.mem with readI := List.replicate (if i.write then 0 else i.len) 0, errI := true } }
  else
    let bad := match ecc with
      | some h => h.uncorrectable && decide (i.addr / 8 ≤ h.addr / 8) && decide (h.addr / 8 ≤ (i.addr + i.len - 1) / 8)
      | none => false
    let s := if bad && i.master == 2 && !i.write then { s with io := { s.io with pcie := { s.io.pcie with aerUncorr := s.io.pcie.aerUncorr ||| 0x1000 } } } else s
    if i.write then { s with mem := { s.mem with errI := false } }
    else { s with mem := { s.mem with readI := portReads (i.master == 2) i.addr i.len s, errI := bad } }

/-- An undecoded slot of an enabled command ring: the device owns it (12 R327). -/
def ownsSlot (s : State) (a : Nat) : Bool :=
  (List.range 4).any (fun r =>
    let g := ring s r
    let k := (a - g.base) / 64
    g.en && !g.fault && decide (g.base ≤ a) && decide (k < slots g)
      && decide ((k + slots g - g.index) % slots g < (g.db + slots g - g.index) % slots g))

/-- A descriptor in the device's hands, with its data (12 R341). -/
def ownsDesc (s : State) (a : Nat) : Bool :=
  (findJob s (fun j => j.taken.any (fun d =>
    let x := readDesc s d
    (decide (d ≤ a) && decide (a < d + 16)) || (decide (x.addr ≤ a) && decide (a < x.addr + x.len))))).isSome

/-- The host writes bytes the device owns (12 R327, R341): behaviour is undefined (00 R6). -/
def hostBreaks (e : Option PortEAccess) (i : Option PortIAccess) (s : State) : Bool :=
  let own (a : Nat) := ownsSlot s a || ownsDesc s a
  (match e with
    | some e => e.write && (List.range 4).any (fun k => e.be.getLsbD k && own (e.addr + k))
    | none => false) ||
  (match i with
    | some i => i.write && i.master == 2 && (List.range i.len).any (fun k => own (i.addr + k))
    | none => false)

/-- Operands that no access has (13 R354): port E alignment and range, port I length and range. -/
def accessWf (e : Option PortEAccess) (i : Option PortIAccess) (ecc : Option EccHit) : Bool :=
  (match e with | some e => e.addr % 4 == 0 && decide (e.addr < 0x800000) | none => true) &&
  (match i with
    | some i => inR i.len 1 256 && decide (i.addr + i.len ≤ 0x800000) && decide (i.master < 8) && (!i.write || i.data.length == i.len)
    | none => true) &&
  (match ecc with | some h => decide (h.addr < 0x800000) | none => true)

/-- The accesses of one bank cycle (13 R352): port E writes before port I, and reads return the new data. -/
def windowAccess (e : Option PortEAccess) (i : Option PortIAccess) (ecc : Option EccHit) (s : State) : State :=
  let s := match ecc with | some h => eccWm h s | none => s
  let s := match e with | some e => doWriteE e s | none => s
  let s := match i with | some i => doWriteI i s | none => s
  let s := match e with | some e => doReadE e i ecc s | none => s
  match i with | some i => doReadI i ecc s | none => s

/-- One bank cycle (13 R352 to R356; 12 R325, R327, R341). -/
def windowServe (e : Option PortEAccess) (i : Option PortIAccess) (ecc : Option EccHit) (s : State) :
    Host.Outcome State Fault Refusal :=
  if !accessWf e i ecc then .refused (.illFormed "WINDOW_MEMORY_ACCESS")
  else if hostBreaks e i s then .fault (.obligationBroken "12 R327, R341")
  else .next (windowAccess e i ecc s)

/-! ## Repair (13 R358) -/

/-- A repair completes: one whose mirror runs, or one begun elsewhere that finds a spare, or finds none (13 R358; Table 13.9). -/
def memRepair (st kind loc : Nat) (s : State) : State :=
  let (ok, s) := startRepair st (kind % 4) loc s
  if ok then
    raise 0x0A 0x02 st (wd (kind % 4 + 4 * loc)) false { s with mem := { s.mem with
      mirror := s.mem.mirror.erase (st, kind % 4, loc), repairs := s.mem.repairs ++ [(st, kind % 4, loc)] } }
  else s

/-- MEM_REPAIR (13 R358, R361): a stripe of the store that is out is returned first. -/
def execMemRepair (st kind loc : Nat) (s : State) : Host.Outcome State Fault Refusal :=
  match s.mem.borrow with
  | some b => if b.store = st then .next s else .next (memRepair st kind loc s)
  | none => .next (memRepair st kind loc s)

end Sys2Proof.Machine
end

