-- ==== Sys2Proof/Machine/Survive.lean ====
section
/-! DEFINITION. Processor failover, spare pools, wear, field I/O and the brown-out save (chapter 15). -/

namespace Sys2Proof.Machine

/-! ## Control processors (15 R392 to R401) -/

/-- The journal lag, the age of the oldest record not yet applied, is within 20 µs (15 R393, R397). -/
def lagWithin (s : State) : Bool := match s.cp.journal with | x :: _ => decide (s.clk.now ≤ x.at_ + 20000) | [] => true

/-- The standby is fit (15 R397). -/
def standbyFit (s : State) : Bool := (standby s).isSome && s.cp.passOk && s.cp.lagOk && lagWithin s && s.cp.digestOk

/-- Starts or breaks the standby's fit period (15 R400). -/
def fitUpdate (s : State) : State :=
  let f := if standbyFit s then some (s.cp.fitSince.getD s.clk.now) else none
  { s with cp := { s.cp with fitSince := f } }

/-- `HEALTH_CP_FAULT` (15 R421), raised by the SVA for cause 1 to 3 and 5, by the self-test for cause 4. -/
def cpFault (c cause : Nat) (dead : Bool) (s : State) : State :=
  pulse 0x0F 0x03 c (wd (cause + 256 * b2n dead)) false s

/-- The SVA powers a cold CP-S, which takes the port of processor `c` and restarts (15 R399). -/
def powerSpare (c : Nat) (s : State) : State :=
  if role s 2 = .cold then
    let s := setRole 2 .restarting s
    { s with cp := { s.cp with
        m0 := if s.cp.m0 = c then 2 else s.cp.m0
        m1 := if s.cp.m1 = c then 2 else s.cp.m1 } }
  else s

/-- A processor is failed (15 R398, R399). -/
def markFailed (c cause : Nat) (s : State) : State := powerSpare c (cpFault c cause true (setRole c .failed s))

/-- Default of the reset times: none. -/
def noTimes (_ : Nat) : List Nat := []

/-- Resets a processor under causes 1 to 3 (15 R398): it restarts, or at the third reset within one hour it is failed. -/
def cpReset (c cause : Nat) (s : State) : State :=
  let ts := s.clk.now :: (tget noTimes s.cp.resets c).filter (fun t => decide (s.clk.now < t + 3600000000000))
  let s := { s with cp := { s.cp with resets := tset noTimes c ts s.cp.resets } }
  if ts.length < 3 then setRole c .restarting s else markFailed c cause s

/-- The active processor. -/
def activeCp (s : State) : Option Nat := [0, 1, 2].find? (fun c => role s c == .active)

/-- Default of the last cutovers. -/
def noLast (_ : Nat) : Word × Nat × Nat := (0, 0, 0)

/-- Default lock: none. -/
def noLock (_ : Nat) : Option Nat := none

/-- The lock that master `m` holds of target `t` is released, which abandons the write it held back: one beat, of which none is committed
(13 R365, R368; log 27). -/
def abandonLock (m t : Nat) (s : State) : State :=
  raise 0x0A 0x10 m (wd (t + 2 ^ 7)) false
    (memHist 2 { s with mem := { s.mem with locks := tset noLock t none s.mem.locks } })

/-- Targets whose lock master `m` holds. -/
def lockedBy (m : Nat) (s : State) : List Nat := (List.range 8).filter (fun t => decide (tget noLock s.mem.locks t = some m))

/-- A master is reset (13 R368): every lock it holds is released, and its writes that the update port has not accepted are dropped
(01 R25). A burst is one step, so no other is in progress (log 27). -/
def masterReset (m : Nat) (s : State) : State :=
  (lockedBy m s).foldl (fun s t => abandonLock m t s)
    { s with port := { s.port with waiting := s.port.waiting.filter (fun x => x.1 != m) } }

/-- The Bus Matrix port of a processor. -/
def cpPort (c : Nat) (s : State) : Nat := if s.cp.m1 = c then 1 else 0

/-- Step 1 of R395: the gap starts, `FAILOVER` is set, the port of the old active processor is reset, and outputs hold
(15 R396). -/
def gapStart (old new cause : Nat) (s : State) : State :=
  let pin := irqPin s
  let s := { s with
    dev := { s.dev with failover := true }
    io := { s.io with irqHeld := some pin }
    cp := { s.cp with gap := some (s.clk.now, cause, old, new) } }
  stateChange (masterReset (cpPort old s) s)

/-- The processor that takes over: the fit standby, else CP-S or a remaining processor (15 R394, R399). -/
def successor (old : Nat) (s : State) : Option Nat :=
  if standbyFit s then standby s
  else [2, 0, 1].find? (fun c => c != old && role s c != .failed && role s c != .active)

/-- The active processor is judged failed under cause 1 to 3 (15 R394, R398, R399). -/
def cpFails (cause : Nat) (s : State) : State :=
  match activeCp s with
  | none => s
  | some a =>
    let s := cpFault a cause false s
    match successor a s with
    | some n =>
      let s := gapStart a n cause s
      cpReset a cause (if n = 2 then powerSpare a s else s)
    | none =>
      let s := markFailed a cause (masterReset (cpPort a s) s)
      stateChange { s with dev := { s.dev with ready := false }, cp := { s.cp with none_ := true } }

/-- A judgement of the SVA is possible now: it runs, and no gap is in progress (15 R394, R401). -/
def svaJudges (s : State) : Bool := s.cp.svaOk && s.cp.gap.isNone

/-- CP_HEARTBEAT_TIMEOUT (15 R394 cause 1). -/
def execCpHeartbeatTimeout (s : State) : Host.Outcome State Fault Refusal := if svaJudges s then .next (cpFails 1 s) else .next s

/-- CP_MEMORY_ERROR (15 R394 causes 2 and 3). -/
def cpMemoryError (unc : Bool) (s : State) : State :=
  if unc then (if svaJudges s then cpFails 2 s else s)
  else
    let ts := s.clk.now :: s.cp.corr.filter (fun t => decide (s.clk.now < t + 1000000000))
    if 100 < ts.length && svaJudges s then cpFails 3 { s with cp := { s.cp with corr := [] } }
    else { s with cp := { s.cp with corr := ts } }

/-- CP_MEMORY_ERROR. -/
def execCpMemoryError (unc : Bool) (s : State) : Host.Outcome State Fault Refusal := .next (cpMemoryError unc s)

/-- Length of the gap in microseconds, saturating in 16 bits (15 Table 15.17). -/
def gapUs (t0 : Nat) (s : State) : Nat := min ((s.clk.now - t0) / 1000) 65535

/-- The bits of `IRQ_STATUS` that rose in the gap take effect when it ends (15 R396); in SAVE the pin stays held (17 Table 17.13). -/
def irqRelease (s : State) : State :=
  let late := s.io.irqLate
  let s := { s with io := { s.io with irqLate := 0, irqHeld := if s.dev.mode = .save then s.io.irqHeld else none } }
  (List.range 5).foldl (fun s b => if late.getLsbD b then irqEdge b s else s) s

/-- Steps 3 to 5 of R395: the new active processor has applied the journal; rings and rules resume, `FAILOVER` is cleared.
Cause 7 stands for a revert (cause 6 in the registers). -/
def gapEnd (t0 cause old new : Nat) (s : State) : State :=
  let us := gapUs t0 s
  let code := if cause = 7 then 6 else cause
  let s := if 6 ≤ cause then setRole old .standby s else s
  let s := setRole new .active s
  let s := { s with
    dev := { s.dev with failover := false, activeCp := new }
    spare := { s.spare with last := tset noLast 8 (s.clk.fc, s.clk.cyc, old) s.spare.last }
    cp := { s.cp with
      gap := none, lastCause := code, lastGap := us, failovers := (s.cp.failovers + 1) % 2 ^ 32, fcLast := s.clk.fc
      journal := [], passOk := false, passes := 0, digestOk := true, lagOk := true, fitSince := none, corr := [] } }
  let s := stateChange (irqRelease s)
  if cause = 7 then pulse 0x0F 0x02 new (wd (us * 65536)) false s
  else pulse 0x0F 0x01 new (wd (old + 4 * code + us * 65536)) false s

/-- The replies that fell due in the gap are written (15 R395). -/
def dueReplies (s : State) : State :=
  [0, 1, 2, 3].foldl (fun s r => match job s r with
    | some j => match j.work with
      | .due st ws => endJob r st ws s
      | _ => s
    | none => s) s

/-- All replies that waited for the end of the gap: those held back first (15 R395). -/
def repliesDue (s : State) : State := dueReplies (sendLate s.io.late.length s)

/-- The planned handover's command replies at the end of the gap (15 Table 15.15). -/
def handoverReply (new : Nat) (s : State) : State :=
  [0, 1, 2, 3].foldl (fun s r => match job s r with
    | some j => if j.work = .handover then endJob r .ok [s.clk.fc, wd (s.clk.cyc + 8 * new)] s else s
    | none => s) s

/-- The journal lag is judged: the standby is unfit while it is above 20 µs, which is reported once (15 R394 cause 5, R397). -/
def journalLag (s : State) : State :=
  match standby s with
  | none => s
  | some c =>
    let ok := lagWithin s
    let s1 := fitUpdate { s with cp := { s.cp with lagOk := ok } }
    if !ok && s.cp.lagOk then cpFault c 5 false s1 else s1

/-- JOURNAL_LAG, of processor `c` as standby. -/
def execJournalLag (c : Nat) (s : State) : Host.Outcome State Fault Refusal :=
  if 3 ≤ c then .refused (.illFormed "JOURNAL_LAG")
  else .next (if standby s = some c then journalLag s else s)

/-- JOURNAL_APPLY (15 R393): the standby applies the oldest record, which may bring its lag back within the limit. -/
def execJournalApply (s : State) : Host.Outcome State Fault Refusal :=
  if (standby s).isNone then .next s
  else
    let s := { s with cp := { s.cp with journal := s.cp.journal.drop 1 } }
    .next (if lagWithin s then journalLag s else s)

/-- STANDBY_SELFTEST_PASS (15 R397; R394 cause 4); without the SVA its role stays (15 R401). -/
def selftestPass (ok : Bool) (s : State) : State :=
  match standby s with
  | none => s
  | some c =>
    if ok then fitUpdate { s with cp := { s.cp with passOk := true, passes := (s.cp.passes + 1) % 2 ^ 32 } }
    else
      let s := cpFault c 4 false (if s.cp.svaOk then setRole c .restarting (masterReset (cpPort c s) s) else s)
      fitUpdate { s with cp := { s.cp with passOk := false } }

/-- STANDBY_SELFTEST_PASS. -/
def execStandbySelftestPass (ok : Bool) (s : State) : Host.Outcome State Fault Refusal := .next (selftestPass ok s)

/-- CP_DIGEST_EXCHANGE (15 R397). -/
def digestExchange (ok : Bool) (s : State) : State :=
  if (standby s).isSome then fitUpdate { s with cp := { s.cp with digestOk := ok } } else s

/-- CP_DIGEST_EXCHANGE. -/
def execCpDigestExchange (ok : Bool) (s : State) : Host.Outcome State Fault Refusal := .next (digestExchange ok s)

/-- CP_RESTART_COMPLETE (15 R398): a restarting processor first meets R397 and becomes standby. There is an active processor to copy
the verified image and the state from, outside a gap, and the roles are not frozen (15 R401). That the copied image passes its check is
DESIGN CHOICE: it is the one BOOT verified (log 73). -/
def restartComplete (c : Nat) (s : State) : State :=
  if role s c = .restarting && (standby s).isNone && (activeCp s).isSome && svaJudges s then
    let s := setRole c .standby s
    fitUpdate { s with cp := { s.cp with passOk := true, lagOk := true, digestOk := true, passes := 1, fitSince := none, journal := [] } }
  else s

/-- CP_RESTART_COMPLETE. -/
def execCpRestartComplete (c : Nat) (s : State) : Host.Outcome State Fault Refusal :=
  if c < 3 then .next (restartComplete c s) else .refused (.illFormed "CP_RESTART_COMPLETE")

/-- The revert hold-off has run (15 R400). -/
def revertDue (s : State) : Bool :=
  svaJudges s && decide (s.cp.holdoff ≠ 0) && role s s.cp.m0 == .standby && standbyFit s &&
  match s.cp.fitSince with
  | some t => decide (t + s.cp.holdoff * 1000000000 ≤ s.clk.now)
  | none => false

/-- CP_REVERT_HOLDOFF_EXPIRY (15 R400): control is handed to the processor on port M0. -/
def execCpRevertHoldoffExpiry (s : State) : Host.Outcome State Fault Refusal :=
  match activeCp s with
  | some a => if revertDue s then .next (gapStart a s.cp.m0 7 s) else .next s
  | none => .next s

/-- SVA_HEARTBEAT_TIMEOUT (15 R401): raised once; the roles stay frozen. -/
def execSvaHeartbeatTimeout (s : State) : Host.Outcome State Fault Refusal :=
  if s.cp.svaOk then .next (raise 0x0F 0x04 0 0 false { s with cp := { s.cp with svaOk := false } }) else .next s

/-! ## Spare pools (15 R402 to R404) -/

/-- Units of each pool (15 Table 15.4). -/
def poolUnits : Nat → Nat
  | 0 => 144 | 1 => 4608 | 2 => 16 | 3 => 16 | 4 => 16 | 5 => 16 | 6 => 16 | 7 => 3456 | 8 => 3 | _ => 0

/-- The group of units that share spares: an edge die, a link and direction, or the whole device. -/
def poolGroup (p u : Nat) : Nat := if p = 0 then u / 36 else if p = 1 then u / 576 else if p = 2 then u / 4 else 0

/-- Spares per group (15 Table 15.4); pool 7 counts its own. -/
def poolSpares (p : Nat) : Nat := if p = 0 then 2 else if p = 1 then 64 else 1

/-- Groups of a pool. -/
def poolGroups (p : Nat) : Nat := if p = 0 then 4 else if p = 1 then 8 else if p = 2 then 4 else 1

/-- Spare `x` of a pool is free. -/
def spareFree (p x : Nat) (s : State) : Bool :=
  !(s.spare.used.any (fun u => u.1 == p && u.2.1 == x)) && !s.spare.dead.contains (p, x)

/-- Blocks of the start-up pool not yet taken and found good by the start-up march, each with its place in the pool, then those
returned since (06 R159, R186); a block that has failed as a spare is none (15 R404). -/
def poolBlocks (s : State) : List (Nat × Nat) :=
  (((List.range s.conn.spares).map (fun i => (4096 - s.conn.spares + i, Config.initialBlock (4096 - s.conn.spares + i)))).filter
      (fun x => !s.conn.worn.contains x.2 && !s.spare.dead.contains (7, x.2)))
    ++ ((s.conn.freed.filter (fun x => !s.spare.dead.contains (7, x))).map (fun x => (4096, x)))

/-- The spare that a swap of unit `u` would bring in. The spec does not say which of several free spares a swap takes (01 R38;
15 R402): DESIGN CHOICE, the lowest-numbered free one; for pool 7 the next good block of the start-up pool, then the block returned
longest ago (log 56). -/
def pickSpare (p u : Nat) (s : State) : Option Nat :=
  if p = 7 then (poolBlocks s).head?.map (·.2)
  else
    let g := poolGroup p u
    ((List.range (poolSpares p)).map (fun i => g * poolSpares p + i)).find? (fun x => spareFree p x s)

/-- Default swap: none. -/
def noSwap (_ : Nat) : Option Swap := none

/-- The swap in progress in a pool. -/
def swapOf (s : State) (p : Nat) : Option Swap := tget noSwap s.spare.swap p

/-- Sets the swap of a pool. -/
def setSwap (p : Nat) (w : Option Swap) (s : State) : State :=
  { s with spare := { s.spare with swap := tset noSwap p w s.spare.swap } }

/-- A unit is out of service. -/
def unitOut (p u : Nat) (s : State) : Bool := s.spare.out.contains (p, u)

/-- Takes a unit out of service. -/
def takeOut (p u : Nat) (s : State) : State :=
  if unitOut p u s then s else { s with spare := { s.spare with out := s.spare.out ++ [(p, u)] } }

/-- The die of a unit: 0 core, 1 to 4 edge dies. -/
def unitDie (p u : Nat) : Nat :=
  if p = 0 then u / 36 + 1 else if p = 1 then u / 1152 + 1 else if p = 2 then u / 4 + 1 else if p = 15 then u / 36 + 1 else 0

/-- Default measures of a die. -/
def dieReset (_ : Nat) : HealthDie := { slow := 0, ecc := 0, eccUnit := 0, recs := [], hist := 0 }

/-- Sets a sticky history bit of a die (15 Table 15.14). -/
def dieHist (d b : Nat) (s : State) : State :=
  let h := tget dieReset s.health.die d
  { s with health := { s.health with die := tset dieReset d { h with hist := h.hist ||| (1#2 <<< b) } s.health.die } }

/-- `HEALTH_UNIT_FAIL` (15 R403). -/
def unitFail (p u : Nat) (s : State) : State := raise 0x0F 0x13 p (wd u) false (dieHist (unitDie p u) 1 s)

/-- Blocks in the spare pool of the Connection Table (06 R159). -/
def poolFree (s : State) : Nat := (poolBlocks s).length

/-- Takes the block that `pickSpare` names out of the pool. -/
def poolTake (s : State) : State :=
  match (poolBlocks s).head? with
  | some (i, x) => if i < 4096 then { s with conn := { s.conn with spares := 4095 - i } } else { s with conn := { s.conn with freed := s.conn.freed.erase x } }
  | none => s

/-- Returns a physical block to the pool (06 R164). -/
def poolGive (x : Nat) (s : State) : State := { s with conn := { s.conn with freed := s.conn.freed ++ [x] } }

/-- Reserves the spare that a swap brings in; pool 7 counts its blocks itself. -/
def reserve (p : Nat) (s : State) : State := if p = 7 then poolTake s else s

/-- Marks a unit as hard-failed, which a flacon records (15 R403, R417). -/
def markHard (p u : Nat) (s : State) : State :=
  if s.spare.hard.contains (p, u) then s else { s with spare := { s.spare with hard := s.spare.hard ++ [(p, u)] } }

/-- Starts a swap. -/
def startSwap (p u x : Nat) (auto : Bool) (r : Nat) (s : State) : State :=
  setSwap p (some { unit := u, spare := x, auto, hard := auto, since := s.clk.now, tick := s.clk.ticks, ring := r }) (reserve p s)

/-- No spare is left for a hard-failed unit (15 R403; 01 R38; 06 Table 6.15). -/
def swapFail (p u : Nat) (s : State) : State :=
  let s := takeOut p u (raise 0x0F 0x11 p (wd u) false s)
  if p = 7 then { s with conn := { s.conn with bad := u :: s.conn.bad } } else s

/-- A swap that a hard failure calls for: now, or after the one that runs (15 R404). -/
def autoSwap (p u : Nat) (s : State) : State :=
  if (swapOf s p).isSome then { s with spare := { s.spare with wait := s.spare.wait ++ [(p, u)] } }
  else match pickSpare p u s with
    | some x => startSwap p u x true 4 s
    | none => swapFail p u s

/-- The swaps of a pool that wait: each starts, or fails for want of a spare, until one runs (15 R404). -/
def serveWait (p : Nat) : Nat → State → State
  | 0, s => s
  | k + 1, s =>
    if (swapOf s p).isSome then s
    else match s.spare.wait.find? (fun x => x.1 == p) with
      | some (_, u) => serveWait p k (autoSwap p u { s with spare := { s.spare with wait := s.spare.wait.erase (p, u) } })
      | none => s

/-- A hard failure of the spare being brought in: the swap is abandoned, the spare marked, the next one tried (15 R404). -/
def spareFails (p : Nat) (w : Swap) (s : State) : State :=
  let s := { s with spare := { s.spare with dead := s.spare.dead ++ [(p, w.spare)] } }
  match pickSpare p w.unit s with
  | some x => setSwap p (some { w with spare := x, since := s.clk.now, tick := s.clk.ticks }) (reserve p s)
  | none =>
    let s := setSwap p none s
    let s := if w.ring < 4 then endJob w.ring .spareExhausted [] s else s
    serveWait p s.spare.wait.length (if w.hard then swapFail p w.unit s else raise 0x0F 0x11 p (wd w.unit) false s)

/-- The spare that serves unit `u` after a swap. -/
def servedBy (p u : Nat) (s : State) : Option Nat :=
  (s.spare.used.find? (fun x => x.1 == p && x.2.2 == u)).map (fun x => x.2.1)

/-- What serves unit `u` is judged hard-failed, no swap of that unit being in progress (15 R403; 01 R38): the unit itself, or
the spare that stands in for it, which is marked. A unit that is out with nothing in its place has failed already. -/
def failUnit (p u : Nat) (s : State) : State :=
  match servedBy p u s with
  | some x => autoSwap p u (unitFail p u { s with spare := { s.spare with
      used := s.spare.used.filter (fun y => !(y.1 == p && y.2.2 == u)), dead := s.spare.dead ++ [(p, x)] } })
  | none => if unitOut p u s then s else autoSwap p u (unitFail p u (markHard p u s))

/-- A unit is judged hard-failed (15 R403, R404): a swap in progress that would cure it completes. -/
def hardFailure (p u : Nat) (ofSpare : Bool) (s : State) : State :=
  match swapOf s p with
  | some w =>
    if ofSpare then spareFails p w s
    else if w.unit = u then setSwap p (some { w with hard := true }) (unitFail p u (markHard p u s))
    else if s.spare.wait.contains (p, u) then s
    else failUnit p u s
  | none => if ofSpare then s else failUnit p u s

/-- A check of the Health and Wear Monitor judges a unit hard-failed, unless the monitor has failed (15 R403, R406). -/
def monitorFinds (p u : Nat) (s : State) : State := if s.health.failed then s else hardFailure p u false s

/-- Cycles that a mirror lasts (15 Table 15.4). -/
def mirrorCycles : Nat → Nat
  | 3 => 1 | 4 => 4 | 5 => 3 | 6 => 65 | _ => 0

/-- Default of optional times and numbers: none. -/
def noTime (_ : Nat) : Option Nat := none

/-- Default of the block map (06 R159). -/
def blockReset (b : Nat) : Nat := Config.initialBlock b

/-- The cutover of a swap (15 R402; 06 R164): the spare takes over, the unit is out of service. -/
def cutover (p : Nat) (w : Swap) (s : State) : State :=
  let blk := if p = 7 && !unitOut p w.unit s then tset noTime w.unit (some (tget blockReset s.conn.blocks w.unit)) s.conn.outBlk else s.conn.outBlk
  let s := takeOut p w.unit (setSwap p none s)
  let s := { s with spare := { s.spare with
      used := s.spare.used ++ [(p, w.spare, w.unit)]
      last := tset noLast p (s.clk.fc, s.clk.cyc, w.unit) s.spare.last } }
  let s := if p = 7 then
      { s with conn := { s.conn with
          outBlk := blk
          blocks := tset blockReset w.unit w.spare s.conn.blocks
          bad := s.conn.bad.filter (fun b => b != w.unit) } }
    else s
  let s := raise 0x0F 0x10 p (wd (w.unit + 2 ^ 13 * w.spare + 2 ^ 31 * b2n w.auto)) false s
  let s := if w.ring < 4 then endJob w.ring .ok [s.clk.fc, wd (s.clk.cyc + 8 * w.spare)] s else s
  serveWait p s.spare.wait.length s

/-- Form of `HEALTH_SPARE_SWAP` (15 Table 15.15). -/
def formHealthSpareSwap (ws : List Word) : Bool :=
  let p := pf ws 0 3 0
  let op := pf ws 0 5 4
  rsv0 ws 0 31 6 && rsv0 ws 1 31 13 && decide (p ≤ 8) && decide (op ≠ 3) &&
  (if op = 2 then decide (p = 8) && decide (pf ws 1 12 0 ≤ 3600) else decide (pf ws 1 12 0 < poolUnits p))

/-- A lane of the unit is on a fenced edge die (15 R419; 16 R444). -/
def unitFenced (p u : Nat) (s : State) : Bool := p == 0 && decide (tget zeroN s.dev.fence (u / 36) ≠ 0)

/-- SWAP in pool 8: a planned handover to a fit standby (15 R419). -/
def handover (u : Nat) (s : State) : Res :=
  match activeCp s with
  | some a => if s.cp.svaOk && standbyFit s && standby s == some u then .wait .handover [] [] (gapStart a u 6 s) else refuse .notInMode s
  | none => refuse .notInMode s

/-- `HEALTH_SPARE_SWAP` (15 R419). -/
def bodyHealthSpareSwap (p : Packet) (s : State) : Res :=
  let pool := pf p.params 0 3 0
  let op := pf p.params 0 5 4
  let u := pf p.params 1 12 0
  if op = 2 then .reply .ok [0, 0] { s with cp := { s.cp with holdoff := u } }
  else if op = 1 then
    if pool < 8 && unitOut pool u s then .wait (.retest pool u) [] [] s else refuse .notInMode s
  else if pool = 8 then handover u s
  else match pickSpare pool u s with
    | none => refuse .spareExhausted s
    | some x =>
      if unitOut pool u s || unitFenced pool u s then refuse .notInMode s
      else if (swapOf s pool).isSome then refuse .busy s
      else .wait (.swap pool u) [] [] (startSwap pool u x false p.ring s)

/-- A unit that has passed its retest joins the pool (15 R419). A unit and the spare that serves for it change names: the
spare's number is free again. A Connection Table block goes to the pool under its own number, or serves again where nothing
stands in for it. -/
def rejoin (p u : Nat) (s : State) : State :=
  let s := { s with spare := { s.spare with
      out := s.spare.out.erase (p, u), hard := s.spare.hard.erase (p, u), used := s.spare.used.filter (fun x => !(x.1 == p && x.2.2 == u)) } }
  if p = 7 then
    let c := s.conn
    let x := tget noTime c.outBlk u
    let s := { s with conn := { c with outBlk := tset noTime u none c.outBlk } }
    if c.bad.contains u then
      { s with conn := { s.conn with bad := c.bad.filter (fun b => b != u), blocks := tset blockReset u (x.getD (tget blockReset c.blocks u)) c.blocks } }
    else match x with
      | some x => poolGive x { s with spare := { s.spare with dead := s.spare.dead.erase (7, x) } }
      | none => s
  else s

/-- UNIT_RETEST_COMPLETE (15 R419): a unit that passes joins the pool. -/
def retestComplete (ok : Bool) (j : Job) (p u : Nat) (s : State) : State :=
  let s := if ok then rejoin p u s else s
  endJob j.ring .ok [0, wd (8 * b2n ok)] s

/-- UNIT_RETEST_COMPLETE. -/
def execUnitRetestComplete (ok : Bool) (s : State) : Host.Outcome State Fault Refusal :=
  match findJob s (fun j => match j.work with | .retest .. => true | _ => false) with
  | some j => match j.work with
    | .retest p u => .next (retestComplete ok j p u s)
    | _ => .next s
  | none => .next s

/-- Form of `HEALTH_SPARE_GET`. -/
def formHealthSpareGet (ws : List Word) : Bool := rsv0 ws 0 31 4 && decide (pf ws 0 3 0 ≤ 8)

/-- Free spares of a pool (15 Table 15.16). -/
def freeSpares (p : Nat) (s : State) : Nat :=
  if p = 7 then poolFree s
  else if p = 8 then b2n (role s 2 == .cold)
  else ((List.range (poolSpares p * poolGroups p)).filter (fun x => spareFree p x s)).length

/-- Units of a pool out of service. -/
def unitsOut (p : Nat) (s : State) : Nat :=
  if p = 8 then ([0, 1, 2].filter (fun c => role s c == .failed)).length else (s.spare.out.filter (fun x => x.1 == p)).length

/-- `HEALTH_SPARE_GET` (15 Table 15.16). -/
def bodyHealthSpareGet (p : Packet) (s : State) : Res :=
  let k := pf p.params 0 3 0
  let total := if k = 7 then s.conn.total else poolSpares k * poolGroups k
  let (fc, cy, u) := tget noLast s.spare.last k
  .reply .ok [wd (total + 4096 * freeSpares k s), wd (unitsOut k s), fc, wd (cy + 8 * u)] s

/-- Role code (15 Table 15.17). -/
def roleCode : Role → Nat
  | .active => 0 | .standby => 1 | .cold => 2 | .restarting => 3 | .failed => 4

/-- Seconds until a revert, 0 when none is pending (15 Table 15.17). -/
def revertLeft (s : State) : Nat :=
  if decide (s.cp.holdoff ≠ 0) && role s s.cp.m0 == .standby then
    match s.cp.fitSince with
    | some t => s.cp.holdoff - (s.clk.now - t) / 1000000000
    | none => 0
  else 0

/-- `HEALTH_CP_GET` (15 Table 15.17). -/
def bodyHealthCpGet (_ : Packet) (s : State) : Res :=
  .reply .ok [wd (roleCode (role s 0) + 8 * roleCode (role s 1) + 64 * roleCode (role s 2) + 512 * b2n (standbyFit s)
      + 1024 * b2n s.cp.svaOk + 2048 * s.cp.holdoff), wd s.cp.passes,
    wd (revertLeft s + 4096 * s.cp.lastCause + 65536 * s.cp.lastGap), wd s.cp.failovers, s.cp.fcLast] s

/-! ## Wear (15 R405) -/

/-- Key of a unit in the wear tables. -/
def unitKey (p u : Nat) : Nat := p * 65536 + u

/-- One day in nanoseconds. -/
def dayNs : Nat := 86400000000000

/-- Raises `HEALTH_RECOMMEND`, no sooner than 24 h after the last for the unit (15 R405). -/
def recommend (p u reason : Nat) (s : State) : State :=
  let k := unitKey p u
  let quiet := s.health.failed || match tget noTime s.health.recAt k with | some t => decide (s.clk.now < t + dayNs) | none => false
  if quiet then s
  else
    let d := unitDie p u
    let h := tget dieReset s.health.die d
    let h := { h with recs := s.clk.now :: h.recs.filter (fun t => decide (s.clk.now < t + dayNs)), hist := h.hist ||| 1 }
    raise 0x0F 0x12 p (wd (u + 2 ^ 13 * reason)) false { s with health := { s.health with
        recAt := tset noTime k (some s.clk.now) s.health.recAt, die := tset dieReset d h s.health.die } }

/-- Slowdown of a ring oscillator against its baseline, 0.01 %. -/
def slowdown (base f : Nat) : Nat := (base - f) * 10000 / max base 1

/-- The ageing measure of one unit's oscillator (15 Table 15.5). That the first sample without a baseline takes it is DESIGN CHOICE:
the table takes it at the first BOOT (log 69). -/
def wearAge (m : WearMeas) (s : State) : State :=
  match m.osc with
  | none => s
  | some (o, f) =>
    let k := m.die * 32 + o
    let b := (tget noTime s.health.oscBase k).getD f
    let h := tget dieReset s.health.die m.die
    let s := { s with health := { s.health with
        oscBase := tset noTime k (some b) s.health.oscBase
        die := tset dieReset m.die { h with slow := max h.slow (slowdown b f) } s.health.die } }
    if 300 ≤ slowdown b f then recommend m.pool m.unit 1 s else s

/-- Default of the wire measures: none. -/
def noPairs (_ : Nat) : List (Nat × Nat) := []

/-- The trend of one edge-link wire (15 Table 15.5): more than 1 error in 10^12 bits over the last 24 hours. -/
def wearWire (m : WearMeas) (s : State) : State :=
  match m.wire with
  | none => s
  | some x =>
    let k := unitKey m.pool m.unit
    let l := (x :: tget noPairs s.health.wires k).take 24
    let s := { s with health := { s.health with wires := tset noPairs k l s.health.wires } }
    if (l.map (·.2)).sum < (l.map (·.1)).sum * 10 ^ 12 then recommend m.pool m.unit 3 s else s

/-- One unit's hourly measures (15 Table 15.5). -/
def wearOne (m : WearMeas) (s : State) : State :=
  let k := unitKey m.pool m.unit
  let tr := if 10 ≤ m.ecc then tget zeroN s.health.trend k + 1 else 0
  let eh := (m.ecc :: tget noTimes s.health.eccHist k).take 24
  let h := tget dieReset s.health.die m.die
  let worst := eh.foldl max 0
  let h := { h with
    ecc := max h.ecc worst
    eccUnit := if h.ecc < worst then m.unit else h.eccUnit }
  let s := { s with health := { s.health with
      trend := tset zeroN k tr s.health.trend, eccHist := tset noTimes k eh s.health.eccHist
      die := tset dieReset m.die h s.health.die } }
  wearWire m (if 24 ≤ tr then recommend m.pool m.unit 2 (wearAge m s) else wearAge m s)

/-- HEALTH_WEAR_SAMPLE (15 R405): every hour; the worst figures are taken afresh. -/
def wearSample (ms : List WearMeas) (s : State) : State :=
  let s := { s with health := { s.health with
      hours := s.health.hours + 1, hourAt := s.clk.now
      die := s.health.die.map (fun (d, h) => (d, { h with slow := 0, ecc := 0, eccUnit := 0 })) } }
  let s := ms.foldl (fun s m => wearOne m s) s
  { s with health := { s.health with die := s.health.die.filter (fun x => x.2 != dieReset x.1) } }

/-- A measure that the monitor can make (15 Table 15.5): 32 oscillators on each of five dies. -/
def wearOk (m : WearMeas) : Bool := decide (m.die < 5) && match m.osc with | some (o, _) => decide (o < 32) | none => true

/-- HEALTH_WEAR_SAMPLE. -/
def execHealthWearSample (ms : List WearMeas) (s : State) : Host.Outcome State Fault Refusal :=
  if !ms.all wearOk then .refused (.illFormed "HEALTH_WEAR_SAMPLE")
  else if running s && !s.health.failed && s.health.hourAt + 3600000000000 ≤ s.clk.now then .next (wearSample ms s) else .next s

/-- Default of eye baselines: none; of the margins: 0xFF. -/
def noBase (_ : Nat) : Option (Nat × Nat) := none
def pctReset (_ : Nat) : Nat := 255

/-- A lane converges (15 Table 15.5): its first convergence in SERVICE makes a baseline due. -/
def convergedBase (l : Nat) (s : State) : State :=
  if s.dev.mode == .service && (tget noBase s.health.base l).isNone && !s.health.baseDue.contains l then
    { s with health := { s.health with baseDue := s.health.baseDue ++ [l] } }
  else s

/-- A lane's margin scan against its baseline, which is the scan that follows the lane's first convergence in SERVICE (15 Table
15.5). -/
def marginScan (l h w : Nat) (s : State) : State :=
  let s := { s with health := { s.health with scanAt := tset noTime l (some s.clk.now) s.health.scanAt } }
  match tget noBase s.health.base l with
  | none =>
    if s.health.baseDue.contains l then
      { s with health := { s.health with
          baseDue := s.health.baseDue.erase l, base := tset noBase l (some (h, w)) s.health.base, pct := tset pctReset l 100 s.health.pct } }
    else s
  | some (bh, bw) =>
    let pc := min (min (100 * h / max bh 1) (100 * w / max bw 1)) 255
    let s := { s with health := { s.health with pct := tset pctReset l pc s.health.pct } }
    if 10 * h < 7 * bh || 10 * w < 7 * bw then recommend 15 l 4 s else s

/-- SERDES_MARGIN_SCAN (15 R405): every lane every 6 h, and when its baseline is due. While a `TEST_EYE_SCAN` has the lane's monitor the scan begins again after it,
so none completes (09 R248). -/
def execSerdesMarginScan (l h w : Nat) (s : State) : Host.Outcome State Fault Refusal :=
  if !laneOk l then .refused (.illFormed "SERDES_MARGIN_SCAN")
  else if !running s || s.health.failed || (findJob s (fun j => j.work = .eye l)).isSome then .next s
  else match tget noTime s.health.scanAt l with
    | some t => if t + 21600000000000 ≤ s.clk.now || s.health.baseDue.contains l then .next (marginScan l h w s) else .next s
    | none => .next (marginScan l h w s)

/-- Form of `HEALTH_GET`. -/
def formHealthGet (ws : List Word) : Bool := rsv0 ws 0 31 4 && decide (pf ws 0 2 0 ≤ 4)

/-- The lane of a die with the worst margin, and that margin. -/
def worstLane (d : Nat) (s : State) : Nat × Nat :=
  (List.range 36).foldl (fun (b : Nat × Nat) i =>
    let l := 36 * (d - 1) + i
    let p := tget pctReset s.health.pct l
    if p < b.2 then (l, p) else b) (36 * (d - 1), 255)

/-- `HEALTH_GET` (15 Table 15.14). -/
def bodyHealthGet (p : Packet) (s : State) : Res :=
  let d := pf p.params 0 2 0
  let h := tget dieReset s.health.die d
  let (l, m) := if d = 0 then (0, 255) else worstLane d s
  let n := (h.recs.filter (fun t => decide (s.clk.now < t + dayNs))).length
  .reply .ok [wd h.slow, wd s.health.hours, wd (h.ecc % 65536 + 65536 * (h.eccUnit % 65536)),
      wd (m + 256 * l + 65536 * (n % 65536)), wd h.hist.toNat]
    (if pb p.params 0 3 then { s with health := { s.health with die := tset dieReset d { h with hist := 0 } s.health.die } } else s)

/-! ## Field I/O (15 R407 to R412) -/

/-- Default of a guarded pin. -/
def pinReset (_ : Nat) : GuardPin := { kind := 0, seen := 0, count := 0, miss := 0, swapped := false, gateAt := 0 }

/-- A guarded pin. -/
def guardPin (s : State) (n : Nat) : GuardPin := tget pinReset s.fio.pins n

/-- Sets a guarded pin. -/
def setPin (n : Nat) (g : GuardPin) (s : State) : State := { s with fio := { s.fio with pins := tset pinReset n g s.fio.pins } }

/-- `GUARD_FAULT` (15 R408). -/
def guardEvent (n kind : Nat) (on : Bool) (s : State) : State := raise 0x0F 0x20 n (wd kind) on s

/-- One measurement counted: three in a row that show a fault raise it, three that do not clear it (15 R408). -/
def guardCount (m : GuardMeas) (g : GuardPin) : GuardPin × Bool :=
  let c := if m.kind = g.seen then g.count + 1 else 1
  let x := if m.kind = g.kind then 0 else g.miss + 1
  let g := { g with seen := m.kind, count := min c 3, miss := min x 3 }
  if g.kind = 0 then if m.kind ≠ 0 && 3 ≤ c then ({ g with kind := m.kind, miss := 0 }, true) else ({ g with miss := 0 }, false)
  else if 3 ≤ x then ({ g with kind := if 3 ≤ c then m.kind else 0, miss := 0 }, true)
  else (g, false)

/-- `HOLD_FAULT` bits of the `VHOLD` pin's fault (15 Table 15.12): reversed, open, short. -/
def holdBits (kind : Nat) : BitVec 3 :=
  if kind = 4 then 0b001 else if kind = 1 then 0b010 else if kind = 0 then 0 else 0b100

/-- E_avail scaled by 2 × 10^6: C in µF times the difference of the squares in mV² (15 R414). -/
def eScaled (v : Save) : Nat := v.cUf * (v.vhold * v.vhold - 64000000)

/-- E_avail in units of 10 µJ (15 Table 15.12). -/
def eAvail (v : Save) : Nat := min (eScaled v / 20000000) 65535

/-- The arming rule (15 R414): at least 12 mJ. -/
def armRule (v : Save) : Bool :=
  v.en && v.holdFault == 0 && v.storeOk && v.measured && decide (24000000000 ≤ eScaled v)

/-- Re-judges the arming; a change raises `SAVE_ARMED` (15 R414). -/
def rearm (s : State) : State :=
  let a := armRule s.save
  if a = s.save.armed then s
  else raise 0x0D 0x01 0 (wd (eAvail s.save)) a { s with save := { s.save with armed := a } }

/-- The guard turns off the driver of an output whose pin is faulty; a driver that is off stays so until a retry succeeds (15
Table 15.7, R412), and an input has none. -/
def driverGuard (n : Nat) (s : State) : State :=
  let off := tget noTime s.fio.offAt n
  let t := if !s.fio.dir.getLsbD n then none
    else if off.isNone && decide ((guardPin s (n + 10)).kind ≠ 0) then some s.clk.now else off
  { s with fio := { s.fio with offAt := tset noTime n t s.fio.offAt } }

/-- What a change of a pin's fault brings (15 Table 15.7), but for the alarm erase. -/
def guardEffect (n old new : Nat) (s : State) : State :=
  if 10 ≤ n && n ≤ 25 then driverGuard (n - 10) s
  else if n = 31 then
    let s := { s with save := { s.save with holdFault := holdBits new } }
    let s := if new = 4 then raise 0x0D 0x04 0 0 true s else if old = 4 then raise 0x0D 0x04 0 0 false s else s
    rearm s
  else s

/-- What a look at a reference pair shows (15 R409): reversed, normal, or no evidence. -/
def pairReversed : PairLook → Option Bool
  | .single false true => some true
  | .single true false => some false
  | .duty h => if 7500 ≤ h then some true else if h ≤ 2500 then some false else none
  | .single .. | .none => none

/-- A 1 s gate of the duty-cycle judgement ends with this look, or the look needs no gate. -/
def gateDone (m : GuardMeas) (g : GuardPin) (s : State) : Bool :=
  match m.pol with
  | .duty _ => decide (g.gateAt + 1000000000 ≤ s.clk.now)
  | .none | .single .. => true

/-- Polarity judgement of a `REFIN` pair (15 R409). -/
def guardPolarity (m : GuardMeas) (s : State) : State :=
  let g := guardPin s m.pin
  let due := gateDone m g s
  let g := match m.pol with
    | .duty _ => if due then { g with gateAt := s.clk.now } else g
    | .none | .single .. => g
  let s := setPin m.pin g s
  match if due then pairReversed m.pol else none with
  | some true => if g.swapped then s else guardEvent m.pin 4 true (setPin m.pin { g with swapped := true } s)
  | some false => if g.swapped then guardEvent m.pin 4 false (setPin m.pin { g with swapped := false } s) else s
  | none => s

/-- A driver that the guard turned off is tried again after 100 ms (15 Table 15.7). -/
def guardRetry (n : Nat) (s : State) : State :=
  if 10 ≤ n && n ≤ 25 then
    match tget noTime s.fio.offAt (n - 10) with
    | some t =>
      if t + 100000000 ≤ s.clk.now then
        let t' := if (guardPin s n).kind = 0 then none else some s.clk.now
        { s with fio := { s.fio with offAt := tset noTime (n - 10) t' s.fio.offAt } }
      else s
    | none => s
  else s

/-- The hold-up voltage as the guard reads it, with the arming judged again (15 R414, R419). -/
def holdVolts (mv : Nat) (s : State) : State := rearm { s with save := { s.save with vhold := min mv 65535 } }

/-- One pin's measurement (15 R408, R409). A failed guard channel reports its own pin as faulty, with the kind it shows (Table 15.6). -/
def guardOne (m : GuardMeas) (s : State) : State :=
  let g := guardPin s m.pin
  let (g', changed) := guardCount m g
  let s := setPin m.pin g' s
  let s := if changed then
      let s := if g.kind ≠ 0 then guardEvent m.pin g.kind false s else s
      let s := if g'.kind ≠ 0 then guardEvent m.pin g'.kind true s else s
      guardEffect m.pin g.kind g'.kind s
    else s
  let s := if m.pin < 8 then guardPolarity m s else if m.pin = 31 then holdVolts m.mv s else s
  guardRetry m.pin s

/-- A fault of `TAMPER_N` that counts as assertion (15 Table 15.7). -/
def tamperFault (s : State) : Bool := let k := (guardPin s 30).kind; k == 1 || k == 3 || k == 5

/-- Form of `SYS_IO_SET` (15 Table 15.20). -/
def formSysIoSet (ws : List Word) : Bool := rsv0 ws 0 31 19 && (!pb ws 0 18 || rsv0 ws 2 31 20)

/-- `SYS_IO_SET` (15 R410): all pins change at one instant; the guard keeps the driver of a faulty pin off. -/
def bodySysIoSet (p : Packet) (s : State) : Res :=
  let ws := p.params
  let mask := BitVec.ofNat 16 (pf ws 0 15 0)
  let pick (new old : BitVec 16) := (new &&& mask) ||| (old &&& ~~~mask)
  let f := s.fio
  let f := { f with
    dir := pick (BitVec.ofNat 16 (pf ws 1 15 0)) f.dir
    level := pick (BitVec.ofNat 16 (pf ws 1 31 16)) f.level
    alm := if pb ws 0 16 then pb ws 0 17 else f.alm
    gpioEvt := if pb ws 0 18 then BitVec.ofNat 16 (pf ws 2 15 0) else f.gpioEvt
    almEvt := if pb ws 0 18 then BitVec.ofNat 4 (pf ws 2 19 16) else f.almEvt }
  done ((List.range 16).foldl (fun s n => driverGuard n s) { s with fio := f })

/-- The accepted level of a pin: 0 to 15 GPIO, 16 to 19 ALM_IN (15 R411). -/
def ioLevel (s : State) (n : Nat) : Bool := if n < 16 then s.fio.gpio.getLsbD n else s.fio.almIn.getLsbD (n - 16)

/-- Flips the accepted level of a pin and its sticky bit (15 R411). -/
def ioFlip (n : Nat) (s : State) : State :=
  if n < 16 then { s with fio := { s.fio with gpio := s.fio.gpio ^^^ (1#16 <<< n), histG := s.fio.histG ||| (1#16 <<< n) } }
  else { s with fio := { s.fio with almIn := s.fio.almIn ^^^ (1#4 <<< (n - 16)), histA := s.fio.histA ||| (1#4 <<< (n - 16)) } }

/-- One pin's sample: accepted after 3 consecutive samples agree (15 R411). An output is not sampled; a pin that is faulty, or outside
its recommended range, reads as its last valid value (15 R407), the accepted level (log 69), so its count of samples starts anew. -/
def ioSample (lv out : Nat → Bool) (n : Nat) (sc : State × List Nat) : State × List Nat :=
  let (s, ch) := sc
  let held := (n < 16 && s.fio.dir.getLsbD n) || (guardPin s (n + 10)).kind ≠ 0 || out n
  if held then ({ s with fio := { s.fio with cand := tset zeroN n 0 s.fio.cand } }, ch)
  else
    let c := if lv n = ioLevel s n then 0 else tget zeroN s.fio.cand n + 1
    if 3 ≤ c then (ioFlip n { s with fio := { s.fio with cand := tset zeroN n 0 s.fio.cand } }, ch ++ [n])
    else ({ s with fio := { s.fio with cand := tset zeroN n c s.fio.cand } }, ch)

/-- An accepted change of an enabled input raises `SYS_IO_CHANGE` (15 R411). -/
def ioEvent (n : Nat) (s : State) : State :=
  let en := if n < 16 then s.fio.gpioEvt.getLsbD n else s.fio.almEvt.getLsbD (n - 16)
  if en then raise 0x01 0x20 (n + 10) (wd (s.fio.gpio.toNat + 65536 * s.fio.almIn.toNat)) (ioLevel s n) s else s

/-- IO_INPUT_SAMPLE (15 R411). -/
def ioInputSample (gpio : PinSense 16) (alm : PinSense 4) (s : State) : State :=
  let lv (n : Nat) := if n < 16 then gpio.level.getLsbD n else alm.level.getLsbD (n - 16)
  let out (n : Nat) := if n < 16 then gpio.out.getLsbD n else alm.out.getLsbD (n - 16)
  let (s, ch) := (List.range 20).foldl (fun sc n => ioSample lv out n sc) (s, [])
  ch.foldl (fun s n => ioEvent n s) s

/-- IO_INPUT_SAMPLE. -/
def execIoInputSample (gpio : PinSense 16) (alm : PinSense 4) (s : State) : Host.Outcome State Fault Refusal :=
  if running s then .next (ioInputSample gpio alm s) else .next s

/-- `ALM_OUT_N` is low at the pin (15 R410, R412; 17 Table 17.13). -/
def almOut (s : State) : Bool := s.fio.alm || s.dev.mode == .halt || s.dev.mode == .boot || s.dev.mode == .retention

/-- The level that `GPIO_IN` reports: accepted, or read back for an output whose driver is on (15 Table 15.21). -/
def gpioIn (s : State) : Nat :=
  (List.range 16).foldl (fun v n =>
    let b := if s.fio.dir.getLsbD n && (tget noTime s.fio.offAt n).isNone then s.fio.level.getLsbD n else s.fio.gpio.getLsbD n
    v + 2 ^ n * b2n b) 0

/-- Form of `SYS_IO_GET`. -/
def formSysIoGet (ws : List Word) : Bool := rsv0 ws 0 31 1

/-- `SYS_IO_GET` (15 Table 15.21). -/
def bodySysIoGet (p : Packet) (s : State) : Res :=
  let f := s.fio
  .reply .ok [wd (gpioIn s + 65536 * f.dir.toNat),
      wd (f.level.toNat + 65536 * f.almIn.toNat + 2 ^ 20 * b2n f.alm + 2 ^ 21 * b2n (almOut s)),
      wd (f.histG.toNat + 65536 * f.histA.toNat)]
    (if pb p.params 0 0 then { s with fio := { f with histG := 0, histA := 0 } } else s)

/-! ## Brown-out save (15 R413 to R420) -/

/-- `MAGIC` of a flacon (15 Table 15.9). -/
def flaconMagic : Word := 0x0D15F1AC

/-- The five sections of a flacon (15 Table 15.9). -/
def flaconSections (f : Flacon) : List (List Byte) :=
  [(Config.sectionBytes 0 (f.roles, f.failed, f.holdoff, f.out, f.dead)).take 256, (Config.sectionBytes 1 f.model).take 256,
   f.log.flatMap recBytes, (Config.sectionBytes 3 (f.health, f.repairs)).take 24576, f.tail.flatMap recBytes]

/-- The section table: offset and length of each, the sections standing one after another from byte 64 (15 Table 15.9 leaves their
places to the table: DESIGN CHOICE, log 15). -/
def sectionTable : Nat → List (List Byte) → List Byte
  | _, [] => []
  | o, b :: l => leBytes 4 o ++ leBytes 4 b.length ++ sectionTable (o + b.length) l

/-- `LEN` of a flacon. -/
def flaconLen (f : Flacon) : Nat := 64 + (flaconSections f).flatten.length + 4

/-- Bytes 0 to `LEN` - 5 of a flacon (15 Table 15.9). -/
def flaconBody (f : Flacon) : List Byte :=
  leBytes 4 f.magic.toNat ++ leBytes 4 f.gen ++ leBytes 4 f.len ++ leBytes 4 f.fc.toNat ++ leBytes 1 (f.cyc % 8) ++ leBytes 1 f.cause
    ++ leBytes 2 0 ++ leBytes 4 f.hid1.toNat ++ sectionTable 64 (flaconSections f) ++ (flaconSections f).flatten

/-- A flacon with its `LEN` and `FCRC`. -/
def flaconSeal (f : Flacon) : Flacon :=
  let f := { f with magic := flaconMagic, len := flaconLen f }
  { f with fcrc := crc32c (flaconBody f) }

/-- A slot holds a valid flacon (15 R418). -/
def flaconValid (f : Flacon) : Bool :=
  f.magic == flaconMagic && f.gen % 2 ^ 32 != 0 && decide (64 ≤ f.len) && decide (f.len ≤ 94788) && f.fcrc == crc32c (flaconBody f)

/-- What a slot holds, where it is valid. -/
def slotFlacon (o : Option Flacon) : Option Flacon := o.filter flaconValid

/-- The slot of the newest valid flacon, with it (15 R418). -/
def newestFlacon (v : Save) : Option (Nat × Flacon) :=
  match slotFlacon v.slot0, slotFlacon v.slot1 with
  | none, none => none
  | some a, none => some (0, a)
  | none, some b => some (1, b)
  | some a, some b => if fcLater (wd b.gen) (wd a.gen) then some (1, b) else some (0, a)

/-- The generation of the next flacon (15 Table 15.9): one more, modulo 2^32, skipping 0. -/
def nextGen (v : Save) : Nat :=
  match newestFlacon v with
  | none => 1
  | some (_, f) => if f.gen = 0xFFFFFFFF then 1 else f.gen + 1

/-- Assembles a flacon from the live state (15 R417): the units that are hard-failed, whether or not a swap has taken them out
(R423). -/
def mkFlacon (cause : Nat) (fc : Word) (cyc : Nat) (s : State) : Flacon :=
  flaconSeal
    { magic := flaconMagic, gen := nextGen s.save, len := 0, fc, cyc, cause, hid1 := hid1 s.dev
      roles := [0, 1, 2].map (fun c => roleCode (role s c)), failed := [0, 1, 2].filter (fun c => role s c == .failed)
      holdoff := s.cp.holdoff, out := s.spare.hard, dead := s.spare.dead, repairs := s.mem.repairs, model := s.time.model
      log := s.evt.log, health := s.health, tail := s.evt.tail.drop (s.evt.tail.length - s.save.tailN), fcrc := 0 }

/-- Writes a flacon to the slot not holding the newest valid one (15 Table 15.8). -/
def writeFlacon (f : Flacon) (s : State) : State :=
  match newestFlacon s.save with
  | some (0, _) => { s with save := { s.save with slot1 := some f } }
  | _ => { s with save := { s.save with slot0 := some f } }

/-- A write of the save store is cut short: the slot being written, the one not holding the newest valid flacon, holds what it held or
nothing valid; a torn write leaves the other in force (15 R418). Which of the two is a free value (log 2). -/
def tornWrite (s : State) : State :=
  let (v, s) := draw 0x154180 s
  if v % 2 = 0 then s
  else match newestFlacon s.save with
    | some (0, _) => { s with save := { s.save with slot1 := none } }
    | _ => { s with save := { s.save with slot0 := none } }

/-- The device loses power or is reset: a checkpoint or an armed save that runs is cut short. -/
def storeTorn (s : State) : State :=
  let armed := match s.save.saving with | some x => x.2.2.1 | none => false
  if armed || (findJob s (fun j => j.work = .saveTest 1)).isSome then tornWrite s else s

/-- The capacitance is measured now (15 R414): once charging has first completed after BOOT, then every 24 h from then on, and when
`SAVE_TEST` asks. Whether a measurement that was asked for puts the next one off is not said: DESIGN CHOICE, it does not (log 69). -/
def capDue (s : State) : Bool :=
  running s && match s.save.capAt with | some t => decide (t + dayNs ≤ s.clk.now) | none => true

/-- CAPACITOR_MEASUREMENT (15 R414): C = 0.2 mC / ΔV, ESR = ΔV / 0.5 A. -/
def capMeasure (drop esrDrop vhold : Nat) (s : State) : State :=
  let c := if drop = 0 then 65535 else min (200000 / drop) 65535
  let e := min (2 * esrDrop) 65535
  let s := rearm { s with save := { s.save with
      measured := true, cUf := c, esr := e, vhold := min vhold 65535, capAt := if capDue s then some s.clk.now else s.save.capAt } }
  match findJob s (fun j => j.work = .saveTest 0) with
  | some j => endJob j.ring .ok [wd (c + 65536 * e), 0, 0] s
  | none => s

/-- CAPACITOR_MEASUREMENT. -/
def execCapacitorMeasurement (drop esrDrop vhold : Nat) (s : State) : Host.Outcome State Fault Refusal :=
  if capDue s || (findJob s (fun j => j.work = .saveTest 0)).isSome then .next (capMeasure drop esrDrop vhold s) else .next s

/-- SAVE_STAGE_REFRESH (15 R415): every 1 s, by the active processor. -/
def execSaveStageRefresh (s : State) : Host.Outcome State Fault Refusal :=
  if running s && (activeCp s).isSome && decide (s.save.stageAt + 1000000000 ≤ s.clk.now) then
    .next { s with save := { s.save with stagedF := some (mkFlacon 8 s.clk.fc s.clk.cyc s), stageAt := s.clk.now } }
  else .next s

/-- CHECKPOINT_COMPLETE (15 R419). -/
def checkpointComplete (j : Job) (s : State) : State :=
  let f := mkFlacon 4 s.clk.fc s.clk.cyc s
  endJob j.ring .ok [wd f.gen, 0, 0] (writeFlacon f s)

/-- CHECKPOINT_COMPLETE. -/
def execCheckpointComplete (s : State) : Host.Outcome State Fault Refusal :=
  match findJob s (fun j => j.work = .saveTest 1) with
  | some j => if running s then .next (checkpointComplete j s) else .next s
  | none => .next s

/-- Form of `SAVE_CONFIG_SET` (15 Table 15.11). -/
def formSaveConfigSet (ws : List Word) : Bool := rsv0 ws 0 31 3 && rsv0 ws 1 31 13 && decide (pf ws 1 12 0 ≤ 4096)

/-- `SAVE_CONFIG_SET` (15 R419). -/
def bodySaveConfigSet (p : Packet) (s : State) : Res :=
  let ws := p.params
  done (rearm { s with save := { s.save with en := pb ws 0 0, pfnEn := pb ws 0 1, vinEn := pb ws 0 2, tailN := pf ws 1 12 0 } })

/-- `SAVE_GET` (15 Table 15.12). -/
def bodySaveGet (_ : Packet) (s : State) : Res :=
  let v := s.save
  let (slot, gen, fc) : Nat × Nat × Word := match newestFlacon v with
    | some (k, f) => (k, f.gen, f.fc)
    | none => (0, 0, 0)
  .reply .ok [wd (b2n v.armed + 2 * b2n v.en + 4 * b2n v.storeOk + 8 * v.holdFault.toNat + 64 * b2n v.measured
      + 128 * b2n s.dev.restored + 256 * slot), wd (v.vhold + 65536 * v.cUf), wd (v.esr + 65536 * eAvail v), wd gen, fc,
    wd v.storeKb] s

/-- Form of `SAVE_TEST` (15 Table 15.13). -/
def formSaveTest (ws : List Word) : Bool := rsv0 ws 0 31 2 && decide (pf ws 0 1 0 ≠ 3)

/-- Another `SAVE_TEST` runs. -/
def saveTestRuns (s : State) : Bool := (findJob s (fun j => match j.work with | .saveTest _ => true | _ => false)).isSome

/-- `SAVE_TEST` (15 R419). -/
def bodySaveTest (p : Packet) (s : State) : Res :=
  let op := pf p.params 0 1 0
  let v := s.save
  if op = 2 then
    .reply .ok [wd (v.storeKb + 65536 * b2n (slotFlacon v.slot0).isSome + 131072 * b2n (slotFlacon v.slot1).isSome),
      wd (((slotFlacon v.slot0).map (·.gen)).getD 0), wd (((slotFlacon v.slot1).map (·.gen)).getD 0)] s
  else if v.holdFault != 0 || !v.storeOk then refuse .notInMode s
  else if saveTestRuns s then refuse .busy s
  else .wait (.saveTest op) [] [] s

/-- Form of `EVT_LOG_READ` (15 R420). -/
def formEvtLogRead (ws : List Word) : Bool := rsv0 ws 0 31 24 && areaOk (pf ws 0 22 0) 4096 8

/-- `EVT_LOG_READ` (15 R420). -/
def bodyEvtLogRead (p : Packet) (s : State) : Res :=
  let bs := padTo 4096 0 (s.evt.log.flatMap recBytes)
  let n := s.evt.log.length
  let s1 := wmPut (pf p.params 0 22 0) bs s
  .reply .ok [wd n] (if pb p.params 0 23 then { s1 with evt := { s1.evt with log := [] } } else s1)

end Sys2Proof.Machine
end

