-- ==== Sys2Proof/Machine/March.lean ====
section
/-! DEFINITION. The march engine and the memory test commands (13 R359 to R363, R369; 06 R164). -/

namespace Sys2Proof.Machine

/-! ## March engine (13 R359 to R363) -/

/-- Stripes of each store (13 R363; log 14 for the route maps): Window Memory, Capture, Release, Connection Table blocks of five
stripes' size each, route maps, Aligner. -/
def storeStripes : Nat → Nat
  | 0 => 2048 | 1 => 16384 | 2 => 14592 | 3 => 4096 | 4 => 37888 | 5 => 16384 | _ => 131072

/-- Stripes of the spare banks not in use, one bank in 16 of each store (13 R363; 15 Table 15.4). -/
def spareStripes (s : State) : Nat :=
  (if spareFree 4 0 s then 1024 else 0) + (if spareFree 5 0 s then 912 else 0) + (if spareFree 6 0 s then 1024 else 0)

/-- Stripes that the background order takes of a store; the spare blocks stand among those of the Connection Table. -/
def bgStripes (s : State) (st : Nat) : Nat := if st = 6 then spareStripes s else storeStripes st

/-- The next store in R363's order, the spare banks at its end: DESIGN CHOICE (log 14). -/
def bgNextStore (s : State) : Nat → Nat
  | 0 => 1 | 1 => 2 | 2 => 3 | 3 => 4 | 4 => 5 | 5 => if spareStripes s = 0 then 0 else 6 | _ => 0

/-- The logical block that physical block `n` of the Connection Table serves (06 R159). -/
def liveBlock (s : State) (n : Nat) : Option Nat := (List.range 3456).find? (fun b => tget blockReset s.conn.blocks b % 4096 == n)

/-- A stripe that a preserving test skips: fenced (13 R362), or a live Connection Table block while fewer than two spares are
free or a swap of the block runs (06 R164; log 14). -/
def skipStripe (st n : Nat) (s : State) : Bool :=
  (st == 0 && fenced s n) ||
  (st == 3 && match liveBlock s n with
    | some b => decide (poolFree s < 2) || (match swapOf s 7 with | some w => w.unit == b | none => false)
    | none => false)

/-- Borrows stripe `n` of a store; a live Connection Table block is mirrored into a spare (13 R361; 06 R164). -/
def borrow (st n : Nat) (onReq : Bool) (s : State) : State :=
  let put (b : Option (Nat × Nat)) (s : State) : State :=
    { s with mem := { s.mem with borrow := some { store := st, stripe := n, onReq, phase := 0, block := b } } }
  if st = 3 then
    match liveBlock s n, pickSpare 7 0 s with
    | some b, some x => put (some (b, x)) (poolTake s)
    | _, _ => put none s
  else put none s

/-- Copy-in of a borrowed block ends at a cycle boundary: the block map switches to the spare (06 R164). A block that another
swap has moved meanwhile is not cut over. -/
def borrowCut (n b x : Nat) (s : State) : State :=
  if tget blockReset s.conn.blocks b % 4096 = n then
    { s with conn := { s.conn with blocks := tset blockReset b x s.conn.blocks } }
  else poolGive x { s with mem := { s.mem with borrow := s.mem.borrow.map (fun y => { y with block := none }) } }

/-- The tested block returns to the pool as a spare (06 R164); one left with faults is hard-failed (15 R403). -/
def borrowReturn (n b : Nat) (bad : Bool) (s : State) : State :=
  if bad then unitFail 7 b { s with spare := { s.spare with dead := s.spare.dead ++ [(7, n)] } }
  else poolGive n s

/-- An on-request test runs (13 R360). -/
def onRequest (s : State) : Bool := (findJob s (fun j => match j.work with | .memTest .. => true | _ => false)).isSome

/-- First stripe from `n` on that a test of store `st` may borrow, with the number skipped; at most `k` looked at. -/
def nextStripe (st : Nat) (s : State) : Nat → Nat → Option Nat × Nat
  | _, 0 => (none, 0)
  | n, k + 1 => if skipStripe st n s then let (r, m) := nextStripe st s (n + 1) k; (r, m + 1) else (some n, 0)

/-- The background order moves past a store's last stripe: the next store, and after the last store the next pass (13 R363). -/
def bgWrap (s : State) : State :=
  let m := s.mem
  if m.bgNext < bgStripes s m.bgStore then s
  else
    let st := bgNextStore s m.bgStore
    if st = 0 then
      { s with mem := { m with
          bgStore := 0, bgNext := 0, passes := (m.passes + 1) % 2 ^ 32
          lastPass := (s.clk.now - m.passAt) / 1000000000, passAt := s.clk.now } }
    else { s with mem := { m with bgStore := st, bgNext := 0 } }

/-- The next background stripe is borrowed, or skipped because a fence covers it or too few spare blocks are free
(13 R362, R363; 06 R164). -/
def bgStripe (s : State) : State :=
  let m := s.mem
  let s := if skipStripe m.bgStore m.bgNext s then { s with mem := { m with borrow := none } } else borrow m.bgStore m.bgNext false s
  bgWrap { s with mem := { s.mem with bgNext := m.bgNext + 1, bgAt := s.clk.now } }

/-- Background testing may take its next stripe now (13 R360, R363); a block takes the time of its five stripes (log 14). -/
def bgDue (s : State) : Bool :=
  running s && decide (s.mem.rate ≠ 0) && s.mem.borrow.isNone && !onRequest s
    && decide ((if s.mem.bgStore = 3 then 5 else 1) * 1000000000 ≤ (s.clk.now - s.mem.bgAt) * s.mem.rate)

/-- BACKGROUND_TEST_STRIPE (13 R363). -/
def execBackgroundTestStripe (s : State) : Host.Outcome State Fault Refusal := if bgDue s then .next (bgStripe s) else .next s

/-- An on-request preserving test takes its next stripe, counting those it skips (13 R362, R369). -/
def testTake (j : Job) (next left dn rep unrep skip : Nat) (s : State) : State :=
  let st := pf j.params 0 3 0
  let (r, k) := nextStripe st s next left
  match r with
  | none => setJob j.ring (some { j with work := .memTest next 0 dn rep unrep (skip + left) })
      { s with mem := { s.mem with borrow := none } }
  | some n => setJob j.ring (some { j with work := .memTest (n + 1) (left - k - 1) dn rep unrep (skip + k) }) (borrow st n true s)

/-- The borrowed stripe is returned at once, untested. -/
def borrowDrop (s : State) : State :=
  let t := { s with mem := { s.mem with borrow := none } }
  match s.mem.borrow with
  | some { stripe := n, phase := ph, block := some (l, x), .. } => if ph = 0 then poolGive x t else borrowReturn n l false t
  | _ => t

/-- Commands that wait for a stripe's return complete (13 R362). -/
def fenceDone (s : State) : State :=
  [0, 1, 2, 3].foldl (fun s r => match job s r with
    | some j => if j.work = .fenceWait then endJob r .ok [] s else s
    | none => s) s

/-- The faults that a march has found: how many are repaired, how many are left (13 R359). -/
def marchFaults (st : Nat) (rows cols : List Nat) (s : State) : (Nat × Nat) × State :=
  (rows.map (fun x => (0, x)) ++ cols.map (fun x => (1, x))).foldl (fun (u : (Nat × Nat) × State) (f : Nat × Nat) =>
    let (ok, t) := startRepair st f.1 f.2 u.2
    ((if ok then (u.1.1 + 1, u.1.2) else (u.1.1, u.1.2 + 1)), t)) ((0, 0), s)

/-- STRIPE_RETURNED (13 R361; 06 R164): copy-in ends and the shadow or the spare block serves the stripe, or copy-back ends and
it is returned, its faults under repair. -/
def stripeReturned (rows cols : List Nat) (b : Borrow) (s : State) : State :=
  if b.phase = 0 then
    let s := { s with mem := { s.mem with borrow := some { b with phase := 1 } } }
    match b.block with
    | some (l, x) => borrowCut b.stripe l x s
    | none => s
  else
    let ((fixed, left), s) := marchFaults b.store rows cols { s with mem := { s.mem with borrow := none } }
    let s := match b.block with
      | some (l, _) => borrowReturn b.stripe l (decide (0 < left)) s
      | none => s
    let s := if b.onReq then
        match findJob s (fun j => match j.work with | .memTest .. => true | _ => false) with
        | some j => match j.work with
          | .memTest next more dn rep unrep skip => testTake j next more (dn + 1) (rep + fixed) (unrep + left) skip s
          | _ => s
        | none => s
      else s
    fenceDone s

/-- STRIPE_RETURNED, in a mode in which memory tests run (13 R360); a block is cut over at a cycle boundary (06 R164). -/
def execStripeReturned (rows cols : List Nat) (s : State) : Host.Outcome State Fault Refusal :=
  match s.mem.borrow with
  | some b =>
    if !running s || (b.phase = 0 && b.block.isSome && nsOf s.clk ≠ 0) then .next s else .next (stripeReturned rows cols b s)
  | none => .next s

/-! ## Commands (13 R369) -/

/-- Form of `MEM_TEST_START` (13 Table 13.6, Table 13.2). -/
def formMemTestStart (ws : List Word) : Bool :=
  let st := pf ws 0 3 0
  let kind := pf ws 0 5 4
  let first := pf ws 1 16 0
  let cnt := pf ws 2 16 0
  rsv0 ws 0 31 6 && rsv0 ws 1 31 17 && decide (st ≤ 6) && decide (kind ≠ 3) &&
  (if kind = 2 then decide (first ≤ 10000) && wAt ws 2 == 0
   else rsv0 ws 2 31 17 && inR cnt 1 65536 && decide (first + cnt ≤ storeStripes st) &&
     (kind = 0 || st == 6 || (st == 0 && decide ((first + cnt) * 4096 ≤ hostEnd))))

/-- A destructive Window Memory range meets an enabled ring's area or a fence (13 Table 13.2, R369). -/
def destructiveBlocked (first cnt : Nat) (s : State) : Bool :=
  (List.range 6).any (fun r =>
    let g := ring s r
    let e := g.base + slots g * (if r = 5 then 16 else 64)
    g.en && decide (g.base < (first + cnt) * 4096) && decide (first * 4096 < e)) ||
  (List.range 16).any (fun k => let f := fence s k; f.en && decide (f.first < first + cnt) && decide (first ≤ f.last))

/-- `MEM_TEST_START` (13 R369): the stripe that background testing has out is returned. -/
def bodyMemTestStart (p : Packet) (s : State) : Res :=
  let ws := p.params
  let st := pf ws 0 3 0
  let kind := pf ws 0 5 4
  let first := pf ws 1 16 0
  let cnt := pf ws 2 16 0
  if kind = 2 then .reply .ok [0, 0, 0] { s with mem := { s.mem with rate := first } }
  else if onRequest s then refuse .busy s
  else if kind = 1 && st == 0 && destructiveBlocked first cnt s then refuse .badParam s
  else
    let s := fenceDone (borrowDrop s)
    .wait (.memTest first cnt 0 0 0 0) [] []
      (if kind = 1 && st == 0 then { s with mem := { s.mem with testing := some (first, cnt) } } else s)

/-- The end of an on-request test (13 R369; Table 13.2): a destructive test leaves its range 0. -/
def memTestEnd (j : Job) (left dn rep unrep skip : Nat) (s : State) : State :=
  let s := if pf j.params 0 5 4 = 1 && pf j.params 0 3 0 == 0 then
      { s with wm := s.wm.filter (fun c => !(decide (pf j.params 1 16 0 ≤ c.1 / 4096) &&
        decide (c.1 / 4096 < pf j.params 1 16 0 + pf j.params 2 16 0))) }
    else s
  let s := { s with mem := { s.mem with testing := none } }
  endJob j.ring .ok [wd (dn + left), wd (rep % 65536 + 65536 * (unrep % 65536)), wd skip] s

/-- MEM_TEST_COMPLETE (13 R369), in a mode in which memory tests run (13 R360): a destructive test ends with the faults found; a preserving one once its last stripe has
been returned; before its first stripe it takes that stripe. -/
def execMemTestComplete (rows cols : List Nat) (s : State) : Host.Outcome State Fault Refusal :=
  if !running s then .next s else
  match findJob s (fun j => match j.work with | .memTest .. => true | _ => false) with
  | none => .next s
  | some j => match j.work with
    | .memTest next left dn rep unrep skip =>
      if pf j.params 0 5 4 = 1 then
        let ((fixed, bad), s) := marchFaults (pf j.params 0 3 0) rows cols s
        .next (memTestEnd j left dn fixed bad skip s)
      else if s.mem.borrow.isSome then .next s
      else if left = 0 then .next (memTestEnd j 0 dn rep unrep skip s)
      else .next (testTake j next left dn rep unrep skip s)
    | _ => .next s

/-- Form of `MEM_TEST_GET`. -/
def formMemTestGet (ws : List Word) : Bool := rsv0 ws 0 31 1

/-- `MEM_TEST_GET` (13 Table 13.7). -/
def bodyMemTestGet (p : Packet) (s : State) : Res :=
  let m := s.mem
  .reply .ok [wd (m.rate + 2 ^ 14 * m.bgStore + 2 ^ 18 * b2n (onRequest s)), wd m.passes, wd m.lastPass, wd m.hist.toNat]
    (if pb p.params 0 0 then { s with mem := { m with hist := 0 } } else s)

/-- Form of `MEM_FENCE_SET` (13 Table 13.8). -/
def formMemFenceSet (ws : List Word) : Bool :=
  rsv0 ws 0 31 5 && rsv0 ws 1 11 0 && rsv0 ws 1 31 23 && rsv0 ws 2 11 0 && rsv0 ws 2 31 23
    && decide (pf ws 1 22 12 ≤ pf ws 2 22 12)

/-- `MEM_FENCE_SET` (13 R362): fence 0 is fixed; the reply waits for a borrowed stripe that the fence overlaps. -/
def bodyMemFenceSet (p : Packet) (s : State) : Res :=
  let ws := p.params
  let k := pf ws 0 3 0
  if k = 0 then refuse .notInMode s
  else
    let f : Fence := { en := pb ws 0 4, first := pf ws 1 22 12, last := pf ws 2 22 12 }
    let s1 := { s with mem := { s.mem with fences := tset fenceReset k f s.mem.fences } }
    let meets := match s.mem.borrow with
      | some b => b.store == 0 && f.en && decide (f.first ≤ b.stripe) && decide (b.stripe ≤ f.last)
      | none => false
    if meets then .wait .fenceWait [] [] s1 else done s1

end Sys2Proof.Machine
end

