-- ==== Sys2Proof/Machine/Rings.lean ====
section
/-! DEFINITION. Host register page, rings and events at the host side (12 R317 to R349; 14 R378). -/

namespace Sys2Proof.Machine

/-- Ring register and doorbell writes are ignored until `READY` is 1 (12 R348). -/
def ringsOpen (s : State) : Bool := s.dev.ready

/-- The range of `SIZE` for ring `r` (12 Table 12.3). -/
def sizeMax (r : Nat) : Nat := if r = 5 then 16 else 12

/-- Slot size of ring `r` (12 Table 12.5). -/
def slotBytes (r : Nat) : Nat := if r = 5 then 16 else 64

/-- End of a ring's area. -/
def ringEnd (r : Nat) (g : Ring) : Nat := g.base + slots g * slotBytes r

/-- The checks of an enable (12 R323): size, alignment, placement, overlap with other enabled rings. -/
def ringCheck (r : Nat) (g : Ring) (s : State) : Bool :=
  inR g.size 2 (sizeMax r) && g.base % slotBytes r == 0 && decide (ringEnd r g ≤ hostEnd) &&
  (List.range 6).all (fun q => q == r || !(ring s q).en || decide (ringEnd q (ring s q) ≤ g.base) || decide (ringEnd r g ≤ (ring s q).base))

/-- A write of `EN` = 1 to ring `r` whose `EN` is 0 (12 R323, R330). Ring 5 restarts with no unread record. -/
def ringEnable (r : Nat) (v : Word) (s : State) : State :=
  let g := { ring s r with size := fld v 4 0 }
  if ringCheck r g s then
    let g := { g with en := true, cfgErr := false, index := 0, fault := false, db := if r < 4 then 0 else g.db }
    let s := setRing r g s
    if r = 4 then { s with io := { s.io with offered := 0 } }
    else if r = 5 then { s with evt := { s.evt with unread := [] } } else s
  else setRing r { g with cfgErr := true, fault := false } s

/-- A write of `EN` = 0: the ring stops, `FAULT` is cleared (12 R330). `SIZE` is taken only while `EN` is 0 (12 R323). -/
def ringDisable (r : Nat) (v : Word) (s : State) : State :=
  let g := ring s r
  let g := if g.en then { g with en := false, fault := false } else { g with size := fld v 4 0, fault := false }
  let s := setRing r g s
  if r = 4 then { s with io := { s.io with offered := 0 } } else s

/-- A write to `RING_CFG`r (12 R323). -/
def ringCfgWrite (r : Nat) (v : Word) (s : State) : State :=
  if !ringsOpen s then s
  else if bit v 8 then (if (ring s r).en then s else ringEnable r v s)
  else ringDisable r v s

/-- RING_ENABLE (12 R323). -/
def execRingEnable (r : Nat) (v : Word) (s : State) : Host.Outcome State Fault Refusal :=
  if r < 6 && bit v 8 then .next (ringCfgWrite r v s) else .refused (.illFormed "RING_ENABLE")

/-- RING_DISABLE (12 R330). -/
def execRingDisable (r : Nat) (v : Word) (s : State) : Host.Outcome State Fault Refusal :=
  if r < 6 && !bit v 8 then .next (ringCfgWrite r v s) else .refused (.illFormed "RING_DISABLE")

/-- Causes of `IRQ_STATUS` bits that still hold set them again at once (12 R324). -/
def irqCauses (s : State) : State :=
  let s := evtRefresh s
  if (List.range 4).any (fun r => (ring s r).fault) then irqRaise 3 s else s

/-- A write of ones to `IRQ_STATUS` (12 R324). -/
def irqClear (v : Word) (s : State) : State :=
  irqCauses { s with io := { s.io with irq := s.io.irq &&& ~~~(v.setWidth 5) } }

/-- IRQ_STATUS_CLEAR (12 R324). -/
def execIrqStatusClear (v : Word) (s : State) : Host.Outcome State Fault Refusal := .next (irqClear v s)

/-- EVT_LOST_READ (12 R324): the read clears the count. -/
def execEvtLostRead (s : State) : Host.Outcome State Fault Refusal := .next { s with io := { s.io with lost := 0 } }

/-- MSI-X table write: entry, word (PCIe; log 5). Unmasking a vector with its pending bit set sends the message. -/
def msixWrite (off : Nat) (v : Word) (s : State) : State :=
  let k := off / 16
  let m := tget msixReset s.io.msix k
  let put (m : Msix) : State := { s with io := { s.io with msix := tset msixReset k m s.io.msix } }
  match off % 16 with
  | 0 => put { m with addr := m.addr / 2 ^ 32 * 2 ^ 32 + v.toNat / 4 * 4 }
  | 4 => put { m with addr := m.addr % 2 ^ 32 + 2 ^ 32 * v.toNat }
  | 8 => put { m with data := v }
  | _ =>
    let masked := bit v 0
    if !masked && m.pend && s.io.pcie.msixOn && !s.io.pcie.msixMask && !irqSilent s.dev.mode then put { m with masked := false, pend := false, sent := m.sent + 1 }
    else put { m with masked }

/-- A 32-bit aligned write to a register without behaviour of its own (12 R320 to R324). -/
def regWrite (off : Nat) (v : Word) (s : State) : State :=
  if off = 0x104 then { s with io := { s.io with mask := v.setWidth 5 } }
  else if off = 0x108 then evtRefresh { s with io := { s.io with thresh := fld v 15 0, holdoff := fld v 31 16 } }
  else if 0x40 ≤ off && off < 0xA0 && off % 16 = 0 then
    let r := (off - 0x40) / 16
    if ringsOpen s && !(ring s r).en then setRing r { ring s r with base := fld v 22 0 } s else s
  else if 0x2000 ≤ off && off < 0x2040 then msixWrite (off - 0x2000) v s
  else s

/-- REGISTER_WRITE (00 R13; 12 R320): other sizes and misaligned writes are ignored. -/
def execRegisterWrite (off size : Nat) (v : Word) (s : State) : Host.Outcome State Fault Refusal :=
  if size = 4 && off % 4 = 0 && off < 0x10000 then .next (regWrite off v s) else .next s

/-- The offered reply slots from `DEV_INDEX` on, up to the first with `OWN` = 0 (12 R332). -/
def countOffered (s : State) (g : Ring) : Nat → Nat → Nat
  | _, 0 => 0
  | i, k + 1 =>
    if (memRead s.wm (g.base + 64 * (i % slots g) + 2)).getLsbD 7 then 1 + countOffered s g (i + 1) k else 0

/-- A write of `RING_DB`4: slot ownership is checked again (12 R332), and replies that waited for a slot are written. -/
def replyDoorbell (s : State) : State :=
  let g := ring s 4
  if ringsOpen s && g.en then sendLate s.io.late.length { s with io := { s.io with offered := countOffered s g g.index (slots g) } } else s

/-- REPLY_RING_DOORBELL (12 R332). -/
def execReplyRingDoorbell (_ : Word) (s : State) : Host.Outcome State Fault Refusal := .next (replyDoorbell s)

/-- Records between the consumer index and `DEV_INDEX` of ring 5. -/
def unreadCount (g : Ring) : Nat := (g.index + slots g - g.db) % slots g

/-- A write of the consumer index (12 R342): one of at least the slot count is refused. -/
def consumerWrite (v : Nat) (s : State) : State :=
  let g := ring s 5
  if !ringsOpen s then s
  else if slots g ≤ v then raise 0x01 0x01 5 (wd v) false (irqRaise 3 s)
  else
    let g := { g with db := v }
    let n := unreadCount g
    { setRing 5 g s with evt := { s.evt with unread := s.evt.unread.drop (s.evt.unread.length - n) } }

/-- EVENT_CONSUMER_INDEX_WRITE (12 R342). -/
def execEventConsumerIndexWrite (v : Word) (s : State) : Host.Outcome State Fault Refusal := .next (consumerWrite (fld v 15 0) s)

/-- Writes the next queued record into ring 5 (12 R342). -/
def eventWrite (r : Rec) (s : State) : State :=
  let g := ring s 5
  let s := setRing 5 { g with index := (g.index + 1) % slots g } (wmPut (g.base + 16 * g.index) (recBytes r) s)
  evtRefresh { s with evt := { dequeue s.evt with unread := s.evt.unread ++ [s.clk.now] } }

/-- The control plane runs (16 Table 16.1), ring 5 is enabled, and writing would not make `DEV_INDEX` equal the consumer index
(12 R342, R343). A record of entering HALT from a mode in which the control plane ran still reaches the ring (16 R425: only OFF
and the change from SAVE to HALT have none; log 48, DEDUCED). -/
def eventRoom (s : State) : Bool :=
  let g := ring s 5
  (running s || (s.dev.mode == .halt && [3, 4, 5, 6].contains s.dev.prevMode)) && g.en && decide ((g.index + 1) % slots g ≠ g.db)

/-- EVENT_RING_WRITE (12 R342). -/
def execEventRingWrite (s : State) : Host.Outcome State Fault Refusal :=
  match s.evt.queue with
  | [] => .next s
  | r :: _ => if eventRoom s then .next (eventWrite r s) else .next s

/-- EVENT_HOLDOFF_EXPIRY (12 R324). -/
def execEventHoldoffExpiry (s : State) : Host.Outcome State Fault Refusal := .next (evtRefresh s)

/-- EVENT_ACK_PHASE_END (14 R379): the pending record is launched and a new phase begins, or the synchroniser idles. -/
def ackEnd (k : EventKey) (y : Sync) (s : State) : State :=
  match y.pend with
  | none => setSync k none s
  | some r => enqueue r (setSync k (some { y with pend := none, at_ := 1000 * s.clk.now }) s)

/-- EVENT_ACK_PHASE_END. -/
def execEventAckPhaseEnd (k : EventKey) (s : State) : Host.Outcome State Fault Refusal :=
  match findSync k s.evt.syncs with
  | some y => .next (ackEnd k y s)
  | none => .next s

end Sys2Proof.Machine
end

