-- ==== Sys2Proof/Machine/Switch.lean ====
section
/-! DEFINITION. The Connection Table and the Route Allocator (chapter 06): entries, loads, placement, commit. -/

namespace Sys2Proof.Machine

/-- Slot number of an entry without a route (06 Table 6.9). -/
def noSlot : Nat := 0x3FFFF

/-- Internal slots of a crossover pass (06 R157). -/
def slotCount : Nat := 196608

/-- Grains per lane per cycle (01 Table 1.7). -/
def laneGrains : Nat := 98304

/-- An entry at start-up (06 R186). -/
def connReset (_ : Nat) : ConnRec := { data := 0x03000000, eff := 0, effFc := 0, effCyc := 0, since := 0, slot := noSlot }

/-- The entry of destination `g` as last committed. -/
def committed (s : State) (g : Nat) : ConnRec := tget connReset s.conn.com g

/-- Fields of an entry (06 Table 6.2). -/
def entrySrc (d : Word) : Nat := fld d 23 0
def entryFill (d : Word) : Nat := fld d 26 24
def entryEq (d : Word) : Bool := bit d 27
def entryGen (d : Word) : Nat := fld d 31 28

/-- `FILL` SOURCE (06 Table 6.3). -/
def isSource (d : Word) : Bool := entryFill d == 0

/-- Data bits that the table accepts: no reserved `FILL`, `SRC_GA` in range (06 R160, R180). -/
def entryOk (d : Nat) : Bool := decide (d / 2 ^ 24 % 8 ≤ 3) && gaOk (d % 2 ^ 24)

/-- The record that governs the crossover pass of cycle number `n` (06 R171). -/
def inForce (s : State) (n g : Nat) : ConnRec :=
  let c := committed s g
  if c.since ≤ n then c
  else match s.conn.old.find? (fun o => o.ga == g && decide (o.r.since ≤ n) && decide (n < o.til)) with
    | some o => o.r
    | none => connReset g

/-- K_i of lane `i` in the committed state (06 R165). -/
def loadK (s : State) (i : Nat) : Nat :=
  (s.conn.com.filter (fun x => isSource x.2.data && entrySrc x.2.data / laneGrains == i)).length

/-- E_j of lane `j` in the committed state (06 R165). -/
def loadE (s : State) (j : Nat) : Nat :=
  (s.conn.com.filter (fun x => isSource x.2.data && x.1 / laneGrains == j)).length

/-- Fan-out of a source grain in the committed state (06 R162, R165). -/
def fanOut (s : State) (src : Nat) : Nat := (s.conn.com.filter (fun x => isSource x.2.data && entrySrc x.2.data == src)).length

/-- The data bits a write leaves, with the generation after the previous one (06 Table 6.2). -/
def nextData (old : Word) (d28 : Nat) : Word := wd (d28 % 2 ^ 28 + 2 ^ 28 * ((entryGen old + 1) % 16))

/-- Why the Route Allocator refuses a write: `BLOCK_REASON` of R166, 0 when it routes it. -/
def blockReason (s : State) (g : Nat) (d : Word) : Nat :=
  let old := (committed s g).data
  let src := entrySrc d
  if !isSource d || (isSource old && entrySrc old == src) then 0
  else
    let own := if isSource old && entrySrc old / laneGrains == src / laneGrains then 1 else 0
    if slotCount < loadK s (src / laneGrains) - own + 1 then 1
    else if 256 < fanOut s src + 1 then 2
    else 0

/-- Slots taken at capture lane `i`, but for destination `g`. -/
def capSlots (s : State) (i g : Nat) : List Nat :=
  (s.conn.com.filter (fun x => x.1 != g && isSource x.2.data && entrySrc x.2.data / laneGrains == i)).map (fun x => x.2.slot)

/-- Slots taken at release lane `j`, but for destination `g`. -/
def relSlots (s : State) (j g : Nat) : List Nat :=
  (s.conn.com.filter (fun x => x.1 != g && isSource x.2.data && x.1 / laneGrains == j)).map (fun x => x.2.slot)

/-- The first slot from `x` on, around the ring of slots, that is in no list; at most `k` looked at. -/
def firstFree (used : List Nat) (x : Nat) : Nat → Option Nat
  | 0 => none
  | k + 1 => if used.contains x then firstFree used ((x + 1) % slotCount) k else some x

/-- Number of slots to look at for a free one. -/
def lookAt (used : List Nat) : Nat := min (used.length + 1) slotCount

/-- The route at release lane `j` in slot `a`. -/
def routeAtRel (s : State) (g j a : Nat) : Option (Nat × ConnRec) :=
  s.conn.com.find? (fun x => x.1 != g && isSource x.2.data && x.1 / laneGrains == j && x.2.slot == a)

/-- The route at capture lane `i` in slot `a`. -/
def routeAtCap (s : State) (g i a : Nat) : Option (Nat × ConnRec) :=
  s.conn.com.find? (fun x => x.1 != g && isSource x.2.data && entrySrc x.2.data / laneGrains == i && x.2.slot == a)

/-- The routes of the path that alternately uses `a` and `b` from release lane `j` on, with the slot each moves to (06 R167). -/
def chainPath (s : State) (g a b : Nat) : Nat → Nat → List (Nat × Nat)
  | _, 0 => []
  | j, k + 1 =>
    match routeAtRel s g j a with
    | none => []
    | some (d, r) =>
      match routeAtCap s g (entrySrc r.data / laneGrains) b with
      | none => [(d, b)]
      | some (d2, _) => (d, b) :: (d2, a) :: chainPath s g a b (d2 / laneGrains) k

/-- Places a SOURCE entry (06 R167): a slot free on both lanes, else by a chain; which free slot is the device's choice
(06 R158), a free value here. Answers the slot and the routes that move. -/
def place (s : State) (g : Nat) (d : Word) : Nat × List (Nat × Nat) :=
  let old := committed s g
  if isSource old.data && entrySrc old.data == entrySrc d then (old.slot, [])
  else
    let cap := capSlots s (entrySrc d / laneGrains) g
    let rel := relSlots s (g / laneGrains) g
    let x := Config.freeAt s.clk.free 0x1158 % slotCount
    match firstFree (cap ++ rel) x (lookAt (cap ++ rel)) with
    | some y => (y, [])
    | none =>
      let a := (firstFree cap x (lookAt cap)).getD 0
      let b := (firstFree rel x (lookAt rel)).getD 0
      (a, chainPath s g a b (g / laneGrains) 144)

/-- The committed record of `g` changes to `r`; the one before stays for the cycles it still governs (01 R24; 06 R171). -/
def putConn (g : Nat) (r : ConnRec) (s : State) : State :=
  let c := committed s g
  let old := if c.since < r.since then { ga := g, til := r.since, r := c } :: s.conn.old else s.conn.old
  { s with conn := { s.conn with com := tset connReset g r s.conn.com, old } }

/-- A route moved by a chain placement takes its new slot together with the write (06 R167). -/
def moveRoute (k : Nat) (s : State) (m : Nat × Nat) : State := putConn m.1 { committed s m.1 with slot := m.2, since := k } s

/-- The commit of one entry that nothing refuses: effective at the cycle of R52 (06 R167, R169). Each route that a chain
placement moves takes a commit slot of its own. -/
def commitEntry (g : Nat) (d28 : Nat) (s : State) : State :=
  let old := committed s g
  let d := nextData old.data d28
  let k := effTick s
  let e := fcOf s k
  let (slot, moved) := if isSource d then place s g d else (noSlot, [])
  let s := moved.foldl (moveRoute k) s
  let s := { s with clk := { s.clk with free := s.clk.free + 1 }, port := { s.port with slot := s.port.slot + moved.length } }
  putConn g { data := d, eff := k, effFc := e.1, effCyc := e.2, since := k, slot } s

/-- Forgets records that no cycle still to be passed can use: cycle number `n` and later remain. -/
def connPrune (n : Nat) (s : State) : State := { s with conn := { s.conn with old := s.conn.old.filter (fun o => decide (n < o.til)) } }

/-- The physical block of a destination (06 R159). -/
def physBlock (s : State) (g : Nat) : Nat := tget blockReset s.conn.blocks (g / 4096) % 4096

/-- Data bits of an aperture read (06 R160). -/
def apertureRead (s : State) (a : Nat) : Word :=
  let g := (a - 0x4000000) / 4
  if gaOk g then (committed s g).data else 0

/-- An aperture write (06 R160): a commit through the Route Allocator; a reserved `FILL` or a `SRC_GA` out of range is ignored
and raises `CONN_WRITE_REJECTED`. -/
def apertureWrite (a : Nat) (v : Word) (s : State) : State :=
  let g := (a - 0x4000000) / 4
  if !gaOk g then s
  else if !entryOk v.toNat then pulse 0x05 0x11 g v false s
  else if s.conn.bad.contains (g / 4096) || blockReason s g v ≠ 0 then s
  else commitEntry g v.toNat s

/-- Number of the commit slot of this moment: slot i of a cycle falls 31.25 i ns after its tick (06 R169). -/
def slotNow (s : State) : Nat := 500 * s.clk.ticks + (4 * nsOf s.clk + 3) / 125

/-- The Route Allocator has this moment's commit slot free; so at most 500 writes commit in a cycle (02 R56; 06 R169). -/
def slotFree (s : State) : Bool := decide (s.port.slot ≤ slotNow s)

/-- The port commits writes: after the first tick (02 R52), outside a failover gap (15 R395) and a save (15 Table 15.8), while
a processor runs the control plane (01 R25, R28; 15 R399), in a free commit slot (06 R169). -/
def portOpen (s : State) : Bool :=
  running s && decide (0 < s.clk.ticks) && !s.dev.failover && !s.cp.none_ && s.save.haltAt.isNone && slotFree s

/-- Uses this moment's commit slot: the slot in which a write is checked is used, whether it commits or is refused (06 R169). -/
def takeSlot (s : State) : State := { s with port := { s.port with slot := slotNow s + 1 } }

/-- An aperture write reaches the Route Allocator and waits in order for its commit slot (02 R52, R56; log 3). -/
def apertureQueue (m a : Nat) (v : Word) (s : State) : State := { s with port := { s.port with waiting := s.port.waiting ++ [(m, a, v)] } }

/-- A target serves master `m`: no other master holds its lock (13 R365). -/
def lockAllows (s : State) (t m : Nat) : Bool := match tget noLock s.mem.locks t with | some h => h == m | none => true

/-- The first aperture write that may be served commits, when the port is open; while a lock of T2 holds, only its holder's (13 R365). One
of a control processor has its journal record (15 R393). -/
def apertureServe (s : State) : State :=
  match s.port.waiting.find? (fun x => lockAllows s 2 x.1) with
  | some (m, a, v) =>
    if portOpen s then apertureWrite a v (takeSlot { (if m ≤ 1 then jrnl 2 4 0 s else s) with port := { s.port with waiting := s.port.waiting.erase (m, a, v) } }) else s
  | none => s

/-- Masters that address the aperture, T2 (13 Table 13.4). -/
def reachesT2 (m : Nat) : Bool := m == 0 || m == 1 || m == 3

/-- APERTURE_WRITE (06 R160; 13 R367): the write commits in this slot if it is free and no other aperture write is ahead of it, or waits.
That a slot it finds free is its own, whatever protection writes wait for a later one, is DESIGN CHOICE: R56 orders only writes beyond a
cycle's 500 (log 3). -/
def execApertureWrite (m a : Nat) (v : Word) (s : State) : Host.Outcome State Fault Refusal :=
  if a % 4 ≠ 0 || a < 0x4000000 || 0x8000000 ≤ a || 8 ≤ m then .refused (.illFormed "APERTURE_WRITE")
  else if !reachesT2 m then .next (raise 0x0A 0x11 m (wd a) false { s with mem := { s.mem with errI := true } })
  else .next (apertureServe (apertureQueue m a v s))

/-! ## `CONN_SET` and `CONN_LOAD` -/

/-- Form of `CONN_SET` (06 R180, R181). -/
def formConnSet (ws : List Word) : Bool :=
  let n := pf ws 0 2 0
  rsv0 ws 0 31 3 && inR n 1 5 && ws.length == 1 + 2 * n &&
  (List.range n).all (fun r => gaOk (pf ws (1 + 2 * r) 23 0) && rsv0 ws (1 + 2 * r) 31 25 && rsv0 ws (2 + 2 * r) 31 28
    && entryOk (pf ws (2 + 2 * r) 27 0))

/-- `CONN_SET` goes to the update port (06 R170). -/
def bodyConnSet (_ : Packet) (s : State) : Res := .wait (.conn 0 (0, 0) (0, 0) []) [] [] s

/-- Form of `CONN_LOAD` (06 Table 6.10). -/
def formConnLoad (ws : List Word) : Bool := rsv0 ws 0 31 23 && rsv0 ws 1 31 1 && areaOk (pf ws 0 22 0) 16 16

/-- Record `r` of an image, as a number of 8 bytes (06 Table 6.11). -/
def loadRecord (img : List Byte) (r : Nat) : Nat := leNat ((img.drop (16 + 8 * r)).take 8)

/-- Entries in a record. -/
def recRun (x : Nat) : Nat := x / 2 ^ 52 % 2 ^ 11 + 1

/-- Record count of an image. -/
def imageRecords (img : List Byte) : Nat := leNat ((img.drop 4).take 4)

/-- A record of an image is acceptable (06 R182). -/
def loadRecordOk (x : Nat) : Bool :=
  let dst := x % 2 ^ 24
  let src := x / 2 ^ 24 % 2 ^ 24
  decide (x / 2 ^ 48 % 8 ≤ 3) && gaOk (dst + recRun x - 1) && gaOk (src + recRun x - 1)

/-- The records of an image, one after the other. -/
def loadRecords (img : List Byte) : Nat → List Byte → List Nat
  | 0, _ => []
  | n + 1, bs => leNat (bs.take 8) :: loadRecords img n (bs.drop 8)

/-- All records of an image. -/
def imageRecs (img : List Byte) : List Nat := loadRecords img (imageRecords img) (img.drop 16)

/-- The checks of an image (06 R182). -/
def imageOk (img : List Byte) (len : Nat) : Bool :=
  leNat (img.take 2) == 0x0601 && leNat ((img.drop 2).take 2) == 0 && inR (imageRecords img) 1 65536
    && leNat ((img.drop 8).take 8) == 0 && len == 16 + 8 * imageRecords img && (imageRecs img).all loadRecordOk

/-- The record and offset of entry number `n` of an image. -/
def locate : List Nat → Nat → Nat → Option (Nat × Nat × Nat)
  | [], _, _ => none
  | x :: t, r, n => if n < recRun x then some (r, n, x) else locate t (r + 1) (n - recRun x)

/-- A command that takes one input descriptor reaches it (12 R340, R341): `none` while the descriptor is not handed over, else
the outcome and the copied data. `len` says which lengths the command takes before the copy's CRC is checked (05 R151). The
descriptor is handed back in every case. -/
def takeBuffer (len : Nat → Bool) (a : Nat) (s : State) : Option (Option Status × List Byte × State) :=
  let d := readDesc s a
  if !d.own then none
  else
    let data := wmGet s d.addr d.len
    let s := handBack a s
    if d.bad || !d.last || !len d.len then some (some .badParam, [], s)
    else if (crc32c data).toNat ≠ d.dcrc then some (some .badCrc, [], s)
    else some (none, data, s)

/-- `CONN_LOAD` with its image copied and checked (06 R182). -/
def connLoadTaken (ws : List Word) (img : List Byte) (s : State) : Res :=
  if !imageOk img img.length then refuse .badParam s
  else if pb ws 1 0 then .reply .ok [0, 0, 0, 0, 0, 0] s
  else .wait (.conn 0 (0, 0) (0, 0) []) img [] s

/-- The next entry that a connection command writes. -/
def connNext (j : Job) (n : Nat) : Option PortWrite :=
  if j.act = 0x10 then
    if n < pf j.params 0 2 0 then
      some (.conn (pf j.params (1 + 2 * n) 23 0) (pf j.params (2 + 2 * n) 27 0) (pb j.params (1 + 2 * n) 24))
    else none
  else (locate (imageRecs j.image) 0 n).map (fun (_, o, x) =>
    .conn (x % 2 ^ 24 + o) (x / 2 ^ 24 % 2 ^ 24 + o + 2 ^ 24 * (x / 2 ^ 48 % 16)) (o == 0 && decide (x / 2 ^ 63 = 1)))

/-- The reply words of a connection command (06 Tables 6.8, 6.10). -/
def connWords (j : Job) (n : Nat) (first last : Word × Nat) (gens : List Nat) (refused : Bool) (reason : Nat) : List Word :=
  let mid := [first.1, wd first.2, last.1, wd last.2]
  if j.act = 0x10 then
    [wd (n + 8 * reason)] ++ mid ++ [wd ((gens.zip (List.range 5)).foldl (fun v (g, r) => v + g * 16 ^ r) 0)]
  else
    let (r, o) : Nat × Nat := if refused then (match locate (imageRecs j.image) 0 n with | some (r, o, _) => (r, o) | none => (0, 0)) else (0, 0)
    [wd n] ++ mid ++ [wd (r + 65536 * o + 2 ^ 27 * reason)]

/-- Form of `CONN_OCCUPANCY_GET` (06 R185). -/
def formConnOccupancyGet (ws : List Word) : Bool := rsv0 ws 0 31 23 && areaOk (pf ws 0 22 0) 1152 8

/-- `CONN_OCCUPANCY_GET` (06 R185). -/
def bodyConnOccupancyGet (p : Packet) (s : State) : Res :=
  let bs := (List.range 144).flatMap (fun i => leBytes 4 (loadK s i) ++ leBytes 4 (loadE s i))
  .reply .ok [wd (poolFree s)] (wmPut (pf p.params 0 22 0) bs s)

end Sys2Proof.Machine
end

