-- ==== Sys2Proof/Machine/Lanes.lean ====
section
/-! DEFINITION. Lanes: SerDes, loops, test patterns, eye monitor and lane defects (chapters 7 and 9). -/

namespace Sys2Proof.Machine

/-! ## Start-up state and access -/

/-- The initial coefficient set of a class (09 R236). -/
def classCoefs (c : Nat) : List Int := (List.range 32).map (Config.initCoef c)

/-- SerDes at BOOT exit (09 R252). -/
def serdesReset : Serdes :=
  { rxEn := true, cls := 0, hold := false, conv := false, coefs := classCoefs 0, good := none, okFrame := none, okPrbs := none,
    goodAt := 0, los := true, above := 0, locked := false, offset := 0, ampl := 0, failed := false, txEn := false,
    txNext := none, txPol := false, swing := 2, taps := [0, 2, -10, 40, -6, 0], loop := 0, lineTx := true, slips := 0,
    fill := 64, fillAt := 0, frac := 0, echo := [], genEn := false, genPat := false, genReg := 0, chkEn := false, chkPat := false, chkLock := false, chkInv := false, chkHist := false,
    bits := 0, errors := 0, lockAt := 0, eyeInt := false, eyeAt := 0 }

/-- Lane defects at BOOT exit (07 R207): the conditions of a lane without signal, nothing declared. -/
def ldefReset : Ldef :=
  { en := 0b111111, thresh := 1, tset := 20, tclear := 80, setFrom := 0, clrFrom := 0, cond := 0b111, since := [], decl := 0, hist := 0, heldAt := none }

/-- Seed slots at BOOT exit (03 R97). -/
def seedA : Seed := { seed := 0, epoch := 0 }
def seedB : Seed := { seed := 0, epoch := 1 }

/-- Transmit framer at BOOT exit (03 R97). -/
def txReset (l : Nat) : Tx :=
  { id := l, rdi := false, a := seedA, b := seedB, act := false, queue := [], seq := 0, last := none, bip := 0, sec := 0, sent := none,
    looped := [], seen := false }

/-- Ingress frame settings at BOOT exit (03 R97). -/
def frameInReset (l : Nat) : FrameIn := { expId := l, idChk := false, tmapChk := false, expGen := 0, a := seedA, b := seedB }

/-- Receive framer at BOOT exit (03 R97). -/
def rxReset (_ : Nat) : Rx :=
  { cfg := [], slot := false, id := 0, ql := 0, rdi := false, epoch := 0,
    fc := 0, gen := 0, rei := 0, idBad := false, genBad := false, epBad := false, pSec := 0, pCyc := 0, pFc := 0, pEp := 0, hdrOk := false,
    due := false, core := none, plesio := [], skews := [], count := 0, fresh := false, newAl := false, alAt := 0, whole := [], bip := none, bipErr := 0, uncorr := 0,
    loam := false, steady := false, lofIn := true, grains := [], queue := [], seq := none, ovf := false }

/-- Alignment settings at BOOT exit (04 Table 4.6). -/
def alignSetReset : AlignSet :=
  { mode := 0, pol := 0, n := 3, m := 4, delta := 2, alpha := 8, recEn := false, restart := false, recMs := 100 }

/-- Alignment at BOOT exit (04 R117). -/
def alignReset : Align :=
  { cfg := alignSetReset, next := [], header := false, recov := false, inv := false, trk := [], window := none, pos := none, fpos := 0,
    gain := false, won := none, ever := false, err := 0, hunt := none, ambig := none, sil := 0, sils := [], lambda := 0, loopS := 0, diff := 0, hist := 0 }

/-- A lane at BOOT exit. -/
def laneReset (l : Nat) : Lane := { sd := serdesReset, ldef := ldefReset, tx := txReset l, rx := rxReset l, al := alignReset }

/-- Lane `l`. -/
def lane (s : State) (l : Nat) : Lane := tget laneReset s.lanes l

/-- Sets lane `l`. -/
def setLane (l : Nat) (x : Lane) (s : State) : State := { s with lanes := tset laneReset l x s.lanes }

/-- Changes the parts of lane `l`. -/
def modSd (l : Nat) (f : Serdes → Serdes) (s : State) : State := setLane l { lane s l with sd := f (lane s l).sd } s
def modDef (l : Nat) (f : Ldef → Ldef) (s : State) : State := setLane l { lane s l with ldef := f (lane s l).ldef } s
def modTx (l : Nat) (f : Tx → Tx) (s : State) : State := setLane l { lane s l with tx := f (lane s l).tx } s
def modRx (l : Nat) (f : Rx → Rx) (s : State) : State := setLane l { lane s l with rx := f (lane s l).rx } s
def modAl (l : Nat) (f : Align → Align) (s : State) : State := setLane l { lane s l with al := f (lane s l).al } s

/-- All lanes. -/
def allLanes : List Nat := List.range 144

/-- Fence cause of an edge die, 0 when it is not fenced (16 R443). -/
def fenceCause (s : State) (e : Nat) : Nat := tget zeroN s.dev.fence e

/-- The lane is on a fenced edge die (16 R444). -/
def laneFenced (s : State) (l : Nat) : Bool := decide (fenceCause s (l / 36) ≠ 0)

/-- Number of the cycle in progress. -/
def curCycle (s : State) : Nat := s.clk.ticks - 1

/-! ## Transmitter (09 R239) -/

/-- The cluster's synthesiser is being replaced, waits for a swap, or is out without a spare (09 R253, Table 9.8; 01 R38). -/
def clusterDown (s : State) (c : Nat) : Bool :=
  (match swapOf s 2 with | some w => w.unit == c | none => false) || s.spare.wait.any (fun x => x == (2, c))
    || (unitOut 2 c s && !(s.spare.used.any (fun x => x.1 == 2 && x.2.2 == c)))

/-- The Lane Engine of a lane is being replaced, waits for a swap, or is out without a spare: its content is undefined
(09 Table 9.8; 01 R38). -/
def engineDown (s : State) (l : Nat) : Bool :=
  (match swapOf s 0 with | some w => w.unit == l | none => false) || s.spare.wait.any (fun x => x == (0, l))
    || (unitOut 0 l s && !(s.spare.used.any (fun x => x.1 == 0 && x.2.2 == l)))

/-- The lane's transmitter drives its pads: enabled and not squelched, but for `LINE_TX` (09 R239, R241, Tables 9.8, 9.16). -/
def txDrives (s : State) (l : Nat) : Bool :=
  let d := (lane s l).sd
  running s && d.txEn && !d.failed && !laneFenced s l && !clusterDown s (l / 9)

/-- The lane's transmitter is enabled and not squelched (09 Table 9.11). -/
def txActive (s : State) (l : Nat) : Bool :=
  let d := (lane s l).sd
  txDrives s l && (d.lineTx || d.loop == 0 || d.loop == 3)

/-- Every transmitter is squelched (02 R61; 16 Table 16.2). -/
def allSquelched (s : State) : Bool := allLanes.all (fun l => !txActive s l)

/-- A loop or a generator is active on some lane (09 R244). -/
def loopGenActive (s : State) : Bool :=
  s.lanes.any (fun x => decide (x.2.sd.loop ≠ 0) || x.2.sd.genEn)

/-- A mode, with what decides how a fence or its release changes it (16 R443, R445). -/
structure ModeView where
  mode     : Mode
  cameFrom : Mode
  /-- fence causes of the four dies -/
  fence    : List Nat

/-- The first fence leads to CONTAINED. -/
def ModeView.fenced (v : ModeView) (f : List Nat) : ModeView :=
  match v.mode with
  | .commissioning | .service | .maintenance =>
    if f = v.fence then v else { mode := .contained, cameFrom := v.mode, fence := f }
  | _ => { v with fence := f }

/-- The release of the last fence leads back. -/
def ModeView.freed (v : ModeView) : ModeView :=
  if v.mode = .contained && v.fence.all (· == 0) then { v with mode := v.cameFrom } else v

/-- One staged write, as it changes the mode at its effective cycle (16 R426, R448). -/
def ModeView.staged (v : ModeView) (x : Staged) : ModeView :=
  match x.w with
  | .cmd 0x01 0x20 ws _ => if v.mode = .contained then v else { v with mode := if pf ws 0 3 0 = 4 then .service else .maintenance }
  | .cmd 0x01 0x22 ws _ =>
    let w := v.fenced ((List.range 4).map (fun e => let c := v.fence.getD e 0; if pb ws 0 e && c == 0 then 1 else c))
    ({ w with fence := (List.range 4).map (fun e => let c := w.fence.getD e 0; if pb ws 0 (4 + e) && c == 1 then 0 else c) } : ModeView).freed
  | _ => v

/-- The device mode that governs cycle number `n`, the failure fences and the committed changes counted (16 R426, R443). -/
def modeAt (s : State) (n : Nat) : Mode :=
  let v : ModeView := { mode := s.dev.mode, cameFrom := s.dev.cameFrom, fence := (List.range 4).map (fenceCause s) }
  let v := if curCycle s < n && !s.dev.fenceDue.isEmpty then v.fenced ((List.range 4).map (fun e =>
    if s.dev.fenceDue.any (fun x => x.1 == e) then 2 else v.fence.getD e 0)) else v
  ((s.port.staged.filter (fun x => decide (x.tick ≤ n))).foldl ModeView.staged v).mode

/-- The mode that the committed changes lead to (16 R426). -/
def committedMode (s : State) : Mode := modeAt s (s.clk.ticks + 16)

/-! ## Conditions (07 R190; 09 R234, R235) -/

/-- Frequency range of the CDR, ppb (09 R235). -/
def cdrRange : Nat := 200000

/-- `LOL` condition on the line input (09 R235). -/
def lineLol (d : Serdes) : Bool := d.los || !d.locked || decide (cdrRange < d.offset.natAbs)

/-- The lane's `LOS` condition as the defect logic sees it (07 R190; 09 R242, R253; 16 R444). -/
def losCond (s : State) (l : Nat) : Bool :=
  let d := (lane s l).sd
  laneFenced s l || (d.rxEn && (d.failed || (d.loop != 2 && d.los)))

/-- The lane's `LOL` condition as the defect logic sees it. -/
def lolCond (s : State) (l : Nat) : Bool :=
  let d := (lane s l).sd
  laneFenced s l || (d.rxEn && (d.failed || (d.loop != 2 && lineLol d)))

/-- The lane is aligned, from its first marker block examined on (04 R99, R106). -/
def isAligned (x : Lane) : Bool := x.al.pos.isSome && !x.al.gain

/-- The loss-of-frame condition (04 R111; 07 R194). -/
def lofCond (s : State) (l : Nat) : Bool := (lane s l).sd.rxEn && !isAligned (lane s l)

/-- Sets condition `b` of lane `l` (07 Table 7.2). While the timers hold their counts, only the condition changes (07 R195). -/
def setCond (l b : Nat) (v : Bool) (s : State) : State :=
  let d := (lane s l).ldef
  if d.cond.getLsbD b = v then s
  else modDef l (fun d => { d with
    cond := d.cond ^^^ (1#6 <<< b), since := if d.heldAt.isSome then d.since else tset zeroN b s.clk.now d.since }) s

/-- Brings the conditions `LOS`, `LOL` and `LOF` up to date. -/
def condSync (l : Nat) (s : State) : State :=
  setCond l 2 (lofCond s l) (setCond l 1 (lolCond s l) (setCond l 0 (losCond s l) s))

/-- Elapsed time since which condition `b` has stood, counted from BOOT exit (07 R191, R207). -/
def condSince (s : State) (l b : Nat) : Nat := max (tget zeroN (lane s l).ldef.since b) s.dev.upAt

/-- The interval of R236 during which the lane has been aligned with the CDR locked: begins, goes on or ends. -/
def okSync (l : Nat) (s : State) : State :=
  modSd l (fun d =>
    let f := d.locked && isAligned (lane s l)
    let p := d.locked && d.chkLock
    { d with okFrame := if f then some (d.okFrame.getD s.clk.now) else none, okPrbs := if p then some (d.okPrbs.getD s.clk.now) else none }) s

/-- A running scan meets the `LOS` or `LOL` condition (09 R248, R249). -/
def eyeSync (l : Nat) (s : State) : State :=
  let d := (lane s l).sd
  if !d.rxEn || lineLol d then modSd l (fun d => { d with eyeInt := true }) s else s

/-- After any change of a lane's receiver. -/
def laneSync (l : Nat) (s : State) : State := eyeSync l (okSync l (condSync l s))

/-! ## Declared defects (07 R191 to R196) -/

/-- A lane defect is declared or cleared: state, history, and a record when its event is enabled (07 R196, R205), of the
elapsed time `t` at which its time ran out (07 R191). -/
def laneDefect (l b : Nat) (on : Bool) (t : Nat) (s : State) : State :=
  let d := (lane s l).ldef
  let decl := if on then d.decl ||| (1#6 <<< b) else d.decl &&& ~~~(1#6 <<< b)
  let s := modDef l (fun d => { d with decl, hist := if on then d.hist ||| (1#6 <<< b) else d.hist }) s
  if d.en.getLsbD b then raiseAt t 0x02 (b + 1) l (wd decl.toNat) on s else s

/-- One step of 125 µs (07 R192). -/
def stepNs : Nat := 125000

/-- Elapsed time at which the lane's timer for declaring, or for clearing, defect `b` runs out (07 R191); under a shortened time that
the count has already passed, the moment of the command (07 R192). -/
def laneSetAt (s : State) (l b : Nat) : Nat := max (condSince s l b + (lane s l).ldef.tset * stepNs) (lane s l).ldef.setFrom
def laneClearAt (s : State) (l b : Nat) : Nat := max (condSince s l b + (lane s l).ldef.tclear * stepNs) (lane s l).ldef.clrFrom

/-- The lane's timer for declaring defect `b` has run out (07 R191, R195). -/
def laneDeclareDue (s : State) (l b : Nat) : Bool :=
  let d := (lane s l).ldef
  running s && d.heldAt.isNone && d.cond.getLsbD b && !d.decl.getLsbD b && decide (laneSetAt s l b ≤ s.clk.now)

/-- The lane's timer for clearing defect `b` has run out. -/
def laneClearDue (s : State) (l b : Nat) : Bool :=
  let d := (lane s l).ldef
  running s && d.heldAt.isNone && !d.cond.getLsbD b && d.decl.getLsbD b && decide (laneClearAt s l b ≤ s.clk.now)

/-- A receiver is disabled: its declared defects are cleared with a record each, and its timers reset (07 R194). -/
def laneClearAll (l : Nat) (s : State) : State :=
  let s := (List.range 6).foldl (fun s b => if (lane s l).ldef.decl.getLsbD b then laneDefect l b false s.clk.now s else s) s
  let s := [3, 4, 5].foldl (fun s b => setCond l b false s) s
  let s := modRx l (fun r => { r with loam := false, uncorr := 0, steady := false }) s
  modDef l (fun d => { d with since := (List.range 6).map (fun b => (b, s.clk.now)) }) s

/-- A Lane Engine swap begins or ends: the timers hold their counts meanwhile (07 R195). -/
def laneHold (l : Nat) (s : State) : State := modDef l (fun d => { d with heldAt := some (d.heldAt.getD (s.clk.now, d.cond)) }) s

/-- The timers resume from the counts they held; of a condition that is no longer what it was, and after a reset of the timers
meanwhile (07 R194), the count begins. -/
def laneResume (l : Nat) (s : State) : State :=
  match (lane s l).ldef.heldAt with
  | none => s
  | some (t, c) =>
    let dt := s.clk.now - t
    modDef l (fun d => { d with
      heldAt := none
      since := (List.range 6).filterMap (fun b =>
        let v := max (tget zeroN d.since b) s.dev.upAt
        let v := if d.cond.getLsbD b = c.getLsbD b && decide (v ≤ t) then v + dt else s.clk.now
        if v = 0 then none else some (b, v)) }) s

/-! ## Alignment lost, or dropped with the receiver (04 R102, R112; 07 R194) -/

/-- Header mode is wanted by `ALIGN_MODE` and device mode (04 Table 4.1). -/
def wantHeader (cfg : AlignSet) (m : Mode) : Bool :=
  match cfg.mode with
  | 0 => m == .service || m == .contained
  | 1 => false
  | _ => true

/-- An unaligned lane takes the mode in use from its settings and the device mode (04 R108): a change frees its trackers and
window. The time spent in HUNT counts while recovery is enabled (04 R109; log 17). A pattern-mode recovery in progress ends at once
when `RECOVERY_EN` is cleared, and RESTART keeps it: DESIGN CHOICE (log 60). -/
def huntSync (l : Nat) (s : State) : State :=
  let x := lane s l
  if x.al.pos.isSome then s
  else
    let w := wantHeader x.al.cfg s.dev.mode
    let recov := x.al.recov && w && x.al.cfg.recEn
    let h := w && !recov
    let a := if h = x.al.header then { x.al with recov } else { x.al with recov, header := h, trk := [], window := none }
    let hunts := running s && x.sd.rxEn && h && a.cfg.recEn
    setLane l { x with al := { a with hunt := if hunts then some (a.hunt.getD s.clk.now) else none } } s

/-- Alignment is lost (04 R102, R105, R106, R112): every tracker is freed, the lane free-wheels. The count that `REI` sends becomes 0
here and stays 0 after a regain until a section is checked: DESIGN CHOICE (03 R82; log 61). -/
def alignLose (l : Nat) (s : State) : State :=
  let x := lane s l
  if x.al.pos.isNone then s
  else
    let s := setLane l { x with
      al := { x.al with pos := none, gain := false, won := none, trk := [], window := none, err := 0, hunt := none, hist := x.al.hist ||| 1 }
      rx := { x.rx with steady := false, lofIn := true, bip := none, bipErr := 0 } } s
    laneSync l (huntSync l s)

/-- The receiver is disabled: alignment and trackers go. -/
def alignDrop (l : Nat) (s : State) : State :=
  let s := alignLose l s
  huntSync l (modAl l (fun a => { a with trk := [], window := none, recov := false, hunt := none }) s)

/-- A change among the running modes reaches every lane (04 R108; 16 R426). -/
def lanesModeChange (s : State) : State := allLanes.foldl (fun s l => huntSync l s) s

/-! ## SerDes commands (09 R250) -/

/-- The lanes that `LANE` names: one, or with 0xFF every lane not fenced. -/
def laneList (s : State) (n : Nat) : List Nat := if n = 0xFF then allLanes.filter (fun l => !laneFenced s l) else [n]

/-- `LANE` in 0 to 143. -/
def formLane (ws : List Word) : Bool := laneOk (pf ws 0 7 0)

/-- `LANE` in 0 to 143, or 0xFF. -/
def formLaneAll (ws : List Word) : Bool := laneOk (pf ws 0 7 0) || pf ws 0 7 0 == 0xFF

/-- The taps of a `LANE_TX_SET`. -/
def txTaps (ws : List Word) : List Int :=
  [pfI ws 1 7 0, pfI ws 1 15 8, pfI ws 1 23 16, pfI ws 1 31 24, pfI ws 2 7 0, pfI ws 2 15 8]

/-- The tap rules of R238. -/
def tapsOk : List Int → Bool
  | [a, b, c, d, e, f] =>
    inRI a (-4) 4 && inRI b (-8) 8 && inRI c (-24) 0 && inRI d 16 64 && inRI e (-24) 0 && inRI f (-8) 8
      && decide (a.natAbs + b.natAbs + c.natAbs + d.natAbs + e.natAbs + f.natAbs ≤ 64)
  | _ => false

/-- Form of `LANE_TX_SET` (09 Table 9.9). -/
def formLaneTxSet (ws : List Word) : Bool :=
  formLaneAll ws && rsv0 ws 0 31 13 && rsv0 ws 2 31 16 && (!pb ws 0 12 || tapsOk (txTaps ws))

/-- The settings of a `LANE_TX_SET` on lane `l`. -/
def txSetOf (ws : List Word) (d : Serdes) : TxSet :=
  { pol := pb ws 0 9, swing := pf ws 0 11 10, taps := if pb ws 0 12 then txTaps ws else (d.txNext.map (·.taps)).getD d.taps }

/-- Settings come into force on lane `l`. -/
def txApply (x : TxSet) (d : Serdes) : Serdes := { d with txEn := true, txPol := x.pol, swing := x.swing, taps := x.taps, txNext := none }

/-- `LANE_TX_SET` (09 R239, R249): an enable waits for the next grain-cycle tick; a squelch acts at once. -/
def bodyLaneTxSet (p : Packet) (s : State) : Res :=
  let ws := p.params
  let n := pf ws 0 7 0
  if n ≠ 0xFF && laneFenced s n then refuse .notInMode s
  else
    let ls := laneList s n
    if pb ws 0 8 then
      let waits := ls.any (fun l => !(lane s l).sd.txEn)
      if waits then .wait .txOn [] [] (ls.foldl (fun s l => modSd l (fun d => { d with txNext := some (txSetOf ws d) }) s) s)
      else done (ls.foldl (fun s l => modSd l (fun d => txApply (txSetOf ws d) d) s) s)
    else
      done (ls.foldl (fun s l => modSd l (fun d =>
        { d with txEn := false, txPol := pb ws 0 9, swing := pf ws 0 11 10, taps := (txSetOf ws d).taps, txNext := none }) s) s)

/-- Transmitter enables take effect at a tick, from symbol 0 of a cycle, and their commands reply (09 R239). -/
def txEnables (s : State) : State :=
  let s := allLanes.foldl (fun s l => match (lane s l).sd.txNext with
    | some x => modSd l (txApply x) s
    | none => s) s
  [0, 1, 2, 3].foldl (fun s r => match job s r with
    | some j => if j.work = .txOn then endJob r .ok [] s else s
    | none => s) s

/-- Form of `LANE_RX_SET` (09 Table 9.10). -/
def formLaneRxSet (ws : List Word) : Bool :=
  formLaneAll ws && rsv0 ws 0 31 13 && decide (pf ws 0 10 9 ≠ 3) && decide (pf ws 0 12 11 ≠ 3)

/-- Adaptation starts over from the class's initial set (09 R236 RESTART). -/
def adaptRestart (cls : Nat) (d : Serdes) : Serdes :=
  { d with cls, hold := false, conv := false, coefs := classCoefs cls, good := none, okFrame := none, okPrbs := none }

/-- The checker stops and keeps its counts, those of the lock in progress included: compared bits follow from the time,
mismatches are a free value (09 R247; log 2). -/
def chkStop (l : Nat) (s : State) : State :=
  let d := (lane s l).sd
  if !d.chkLock then s
  else
    let (e, s) := draw 0x0247 s
    let run := 112 * (s.clk.now - d.lockAt)
    modSd l (fun d => { d with
      chkLock := false, okPrbs := none, bits := min (d.bits + run) cntMax, errors := min (d.errors + e % (run + 1)) cntMax }) s

/-- The receiver is adapting its coefficients (09 R233, R236). -/
def adapting (d : Serdes) : Bool := d.rxEn && !d.hold && !d.los && !d.failed

/-- The coefficients of this moment: while they adapt, free values of 16 bits (09 R233; log 2). -/
def coefTake (l : Nat) (s : State) : State :=
  if adapting (lane s l).sd then
    let c := s.clk.free
    modSd l (fun d => { d with coefs := (List.range 32).map (fun i => (BitVec.ofNat 16 (Config.freeAt c (0x0233000 + i))).toInt) })
      (draw 0x0233 s).2
  else s

/-- The `LOS` condition arises on the line input: the adaptation freeze (09 R236). -/
def losArise (d : Serdes) : Serdes :=
  let d := { d with los := true, above := 0, locked := false }
  if d.hold then d else { d with conv := false, coefs := d.good.getD (classCoefs d.cls) }

/-- `LANE_RX_SET` on one lane (09 R234, R236; 07 R194). -/
def rxSetLane (ws : List Word) (l : Nat) (s : State) : State :=
  let en := pb ws 0 8
  let cls := pf ws 0 10 9
  let ad := pf ws 0 12 11
  let s := if ad = 1 || !en then coefTake l s else s
  let d := (lane s l).sd
  let s := modSd l (fun d => if ad = 2 || cls ≠ d.cls then adaptRestart cls d else { d with hold := ad == 1 }) s
  if !en then
    if d.rxEn then
      let s := modSd l (fun d => { d with eyeInt := true }) (chkStop l s)
      let s := modSd l (fun d => { d with rxEn := false, locked := false, conv := false, above := 0 }) s
      laneClearAll l (laneSync l (alignDrop l s))
    else s
  else if !d.rxEn then
    let s := modSd l (fun d => losArise { d with rxEn := true }) s
    let s := laneSync l (huntSync l s)
    modDef l (fun d => { d with since := (List.range 6).map (fun b => (b, s.clk.now)) }) s
  else s

/-- `LANE_RX_SET` (09 R250). -/
def bodyLaneRxSet (p : Packet) (s : State) : Res :=
  let n := pf p.params 0 7 0
  if n ≠ 0xFF && laneFenced s n then refuse .notInMode s
  else done ((laneList s n).foldl (fun s l => rxSetLane p.params l s) s)

/-- Form of `LANE_SERDES_GET` (09 Table 9.11; 12 R473). -/
def formLaneSerdesGet (ws : List Word) : Bool :=
  formLane ws && rsv0 ws 0 31 9 && rsv0 ws 1 31 23 && (!pb ws 0 8 || areaOk (pf ws 1 22 0) 64 8)

/-- `ADAPT_STATE` (09 Table 9.11); of a disabled receiver, whose `LOS` is reported 0, acquiring (log 51). -/
def adaptState (d : Serdes) : Nat := if d.hold then 3 else if d.rxEn && d.los then 2 else if d.conv then 1 else 0

/-- Coefficients as 16-bit numbers. -/
def coefBytes (cs : List Int) : List Byte := padTo 64 0 (cs.flatMap (fun c => leBytes 2 (wdI c).toNat))

/-- `LANE_SERDES_GET` (09 R250). -/
def bodyLaneSerdesGet (p : Packet) (s : State) : Res :=
  let ws := p.params
  let l := pf ws 0 7 0
  let d := (lane s l).sd
  if laneFenced s l then refuse .notInMode s
  else
    let lol := d.rxEn && lineLol d
    .reply .ok [wd (b2n d.rxEn + 2 * b2n (txActive s l) + 4 * d.cls + 16 * b2n (d.rxEn && d.los) + 32 * b2n lol + 64 * adaptState d
        + 256 * d.loop + 1024 * b2n d.genEn + 2048 * b2n d.good.isSome + 4096 * b2n d.failed),
      wdI (if lol || !d.rxEn then 0 else d.offset), wd (d.ampl % 4096), wd (d.slips % 65536)]
      (if pb ws 0 8 then
        let s := coefTake l s
        wmPut (pf ws 1 22 0) (coefBytes (lane s l).sd.coefs) s
      else s)

/-- Form of `LANE_LOOP_SET` (09 Table 9.12). -/
def formLaneLoopSet (ws : List Word) : Bool := formLane ws && rsv0 ws 0 31 11

/-- The modes in which a loop or a generator may be activated (09 R244; 16 R426). -/
def loopMode (s : State) : Bool := committedMode s == .commissioning || committedMode s == .maintenance

/-- Another loop begins: nothing is on its way round it, the elastic buffer is centred, and s_L of the parallel loop lies in
1,720 ns to 1,730 ns (09 R242, R243; log 2). -/
def loopStart (l : Nat) (s : State) : State :=
  let (v, s) := draw 0x0242 s
  modSd l (fun d => { d with fill := 64, fillAt := s.clk.now, frac := 0, echo := [] })
    (modTx l (fun t => { t with looped := [], seen := false }) (modAl l (fun a => { a with loopS := 1720000 + v % 10001 }) s))

/-- `LANE_LOOP_SET` (09 R241 to R246). -/
def bodyLaneLoopSet (p : Packet) (s : State) : Res :=
  let ws := p.params
  let l := pf ws 0 7 0
  let n := pf ws 0 9 8
  let d := (lane s l).sd
  if laneFenced s l then refuse .notInMode s
  else if n ≠ 0 && n ≠ d.loop && !loopMode s then refuse .notInMode s
  else if n = 3 && d.genEn then refuse .notInMode s
  else done (laneSync l (modSd l (fun d => { d with loop := n, lineTx := pb ws 0 10 }) (if n = d.loop then s else loopStart l s)))

/-- Form of `TEST_PRBS_SET` (09 Table 9.13). -/
def formTestPrbsSet (ws : List Word) : Bool := formLane ws && rsv0 ws 0 31 13

/-- `TEST_PRBS_SET` (09 R244 to R247). -/
def bodyTestPrbsSet (p : Packet) (s : State) : Res :=
  let ws := p.params
  let l := pf ws 0 7 0
  let d := (lane s l).sd
  let gen := pb ws 0 8
  if laneFenced s l then refuse .notInMode s
  else if gen && !d.genEn && !loopMode s then refuse .notInMode s
  else if gen && d.loop = 3 then refuse .notInMode s
  else
    let (v, s) := if gen && (!d.genEn || pb ws 0 9 != d.genPat) then
        let (v, s) := draw 0x0245 s
        (1 + v % (2 ^ prbsDeg (pb ws 0 9) - 1), s)
      else (d.genReg, s)
    let s := if !pb ws 0 10 || pb ws 0 11 != d.chkPat then chkStop l s else s
    done (modSd l (fun d =>
      let d := { d with genEn := gen, genPat := pb ws 0 9, genReg := v, chkEn := pb ws 0 10, chkPat := pb ws 0 11 }
      if pb ws 0 12 then { d with bits := 0, errors := 0, chkHist := false, lockAt := s.clk.now } else d) s)

/-- Form of `TEST_PRBS_GET`. -/
def formTestPrbsGet (ws : List Word) : Bool := formLane ws && rsv0 ws 0 31 9

/-- `TEST_PRBS_GET` (09 R247): while locked, the mismatches of the lock in progress are a free value, at most the bits compared
(log 2). -/
def bodyTestPrbsGet (p : Packet) (s : State) : Res :=
  let l := pf p.params 0 7 0
  let d := (lane s l).sd
  if laneFenced s l then refuse .notInMode s
  else
    let (e, s) := if d.chkLock then draw 0x0247 s else (0, s)
    let run := if d.chkLock then 112 * (s.clk.now - d.lockAt) else 0
    let b := min (d.bits + run) cntMax
    let er := min (d.errors + e % (run + 1)) cntMax
    .reply .ok [wd (b2n d.chkEn + 2 * b2n d.chkLock + 4 * b2n d.chkInv + 8 * b2n d.chkHist),
        wd b, wd (b / 2 ^ 32), wd er, wd (er / 2 ^ 32)]
      (if pb p.params 0 8 then modSd l (fun d => { d with bits := 0, errors := 0, chkHist := false, lockAt := s.clk.now }) s
       else modSd l (fun d => if d.chkLock then { d with bits := b, errors := er, lockAt := s.clk.now } else d) s)

/-- Form of `TEST_EYE_SCAN` (09 Table 9.14; 12 R473). -/
def formTestEyeScan (ws : List Word) : Bool :=
  formLane ws && rsv0 ws 0 31 13 && inR (pf ws 0 12 8) 10 30 && rsv0 ws 1 31 23 && areaOk (pf ws 1 22 0) 16384 8

/-- The command scan that runs on a lane. -/
def eyeJob (s : State) (l : Nat) : Option Job := findJob s (fun j => j.work = .eye l)

/-- `TEST_EYE_SCAN` (09 R248, R249). -/
def bodyTestEyeScan (p : Packet) (s : State) : Res :=
  let l := pf p.params 0 7 0
  if laneFenced s l then refuse .notInMode s
  else if (eyeJob s l).isSome then refuse .busy s
  else .wait (.eye l) [] [] (eyeSync l (modSd l (fun d => { d with eyeInt := false, eyeAt := s.clk.now }) s))

/-! ## SerDes events -/

/-- Count of point (x, y) of a scan. -/
def eyePoint (counts : List Nat) (x y : Nat) : Nat := counts.getD (64 * y + x) 0

/-- Contiguous steps from `c` upwards, at most `k`, that hold. -/
def runUp (ok : Nat → Bool) (c : Nat) : Nat → Nat
  | 0 => 0
  | k + 1 => if c < 64 && ok c then 1 + runUp ok (c + 1) k else 0

/-- Contiguous steps below `c` that hold. -/
def runDown (ok : Nat → Bool) : Nat → Nat
  | 0 => 0
  | c + 1 => if ok c then 1 + runDown ok c else 0

/-- Contiguous steps that hold, the centre included; 0 when the centre does not hold (09 R248). -/
def eyeRun (ok : Nat → Bool) (c : Nat) : Nat := if ok c then runUp ok c 64 + runDown ok c else 0

/-- `EYE_H`e and `EYE_W`e (09 R248). -/
def eyeSize (counts : List Nat) (thresh c : Nat) : Nat × Nat :=
  (eyeRun (fun y => decide (eyePoint counts 32 y ≤ thresh)) c, eyeRun (fun x => decide (eyePoint counts x c ≤ thresh)) 32)

/-- A scan ends: counts into the Window Memory, then the reply (09 R248, Table 9.14). -/
def eyeComplete (l : Nat) (counts centres : List Nat) (uv : Nat) (j : Job) (s : State) : State :=
  let ws := j.params
  let e (k : Nat) := eyeSize counts (wAt ws 2).toNat (centres.getD k 0)
  let s1 := wmPut (pf ws 1 22 0) (counts.flatMap (leBytes 4)) s
  endJob j.ring .ok [wd ((e 0).1 + 2 ^ 7 * (e 0).2 + 2 ^ 14 * (e 1).1 + 2 ^ 21 * (e 1).2),
    wd ((e 2).1 + 2 ^ 7 * (e 2).2 + 2 ^ 14 * b2n (lane s l).sd.eyeInt), wd (uv % 65536)] s1

/-- EYE_SCAN_COMPLETE (09 R248): a count is of at most 2^DWELL symbols. -/
def execEyeScanComplete (l : Nat) (counts centres : List Nat) (uv : Nat) (s : State) : Host.Outcome State Fault Refusal :=
  if counts.length ≠ 4096 || centres.length ≠ 3 || !centres.all (fun c => decide (c < 64)) || !laneOk l then
    .refused (.illFormed "EYE_SCAN_COMPLETE")
  else match eyeJob s l with
    | some j => if counts.all (fun c => decide (c ≤ 2 ^ pf j.params 0 12 8)) then .next (eyeComplete l counts centres uv j s) else .next s
    | none => .next s

/-- Points of a scan measured so far: each costs 2^DWELL symbols at 56 GBd plus 1 µs (09 R248). -/
def eyeMeasured (dwell elapsed : Nat) : Nat := min (elapsed * 56 / (2 ^ dwell + 56000)) 4096

/-- An abort ends a scan at a point boundary: the counts of the points measured, which nothing names here, are free values of at most
2^DWELL (09 R248, Table 9.14; log 2). -/
def eyeAbort (l : Nat) (j : Job) (s : State) : State :=
  let n := eyeMeasured (pf j.params 0 12 8) (s.clk.now - (lane s l).sd.eyeAt)
  let c := s.clk.free
  let s := { s with clk := { s.clk with free := c + 1 } }
  wmPut (pf j.params 1 22 0) ((List.range n).flatMap (fun i => leBytes 4 (Config.freeAt c (0x0248000 + i) % (2 ^ pf j.params 0 12 8 + 1)))) s

/-- `LOS` thresholds of a class, mV (09 Table 9.1). -/
def losThresh (cls : Nat) : Nat × Nat := if cls = 1 then (45, 70) else if cls = 2 then (60, 90) else (35, 55)

/-- A detector window ends (09 R234). -/
def losWindow (a : Nat) (d : Serdes) : Serdes :=
  let (lo, hi) := losThresh d.cls
  let d := { d with ampl := min a 4095 }
  if d.los then
    if hi < a then (if 1 ≤ d.above then { d with los := false, above := 0 } else { d with above := 1 }) else { d with above := 0 }
  else if a < lo then losArise d else d

/-- LOS_WINDOW_END (09 R234), without what follows in other parts. In the near-end serial loop the detector sees the lane's own
transmitter, whose amplitude lies below 15 mV while it is squelched (09 R239, R241). -/
def losWindowEnd (l a : Nat) (s : State) : State :=
  let d := (lane s l).sd
  if running s && d.rxEn && !d.failed && !laneFenced s l then
    laneSync l (modSd l (losWindow (if d.loop = 1 && !txDrives s l then min a 14 else a)) s)
  else s

/-- Whole symbols by which a recovered offset beyond ±100 ppm has moved the elastic buffer's fill, at 56 symbols/ns, and the part of a
symbol left over (09 R243). -/
def driftOf (now : Nat) (d : Serdes) : Int × Int :=
  let o := if 100000 < d.offset then d.offset - 100000 else if d.offset < -100000 then d.offset + 100000 else 0
  let t := d.frac + o * 56 * (now - d.fillAt : Nat)
  (t / 1000000000, t % 1000000000)

/-- The fill brought up to date, short of a slip, which is an event of its own. -/
def loopDrift (now : Nat) (d : Serdes) : Serdes :=
  let (m, fr) := driftOf now d
  { d with fill := (max 1 (min 127 ((d.fill : Int) + m))).toNat, fillAt := now, frac := fr }

/-- Received bits enter the elastic buffer of a far-end loop (09 R243). -/
def loopEcho (l : Nat) (bs : List Bool) (s : State) : State :=
  let d := (lane s l).sd
  if d.loop = 3 && !lineLol d then modSd l (fun d => { d with echo := d.echo ++ bs }) s else s

/-- The CDR declares lock (09 R235); a far-end loop is taken up again with its buffer re-centred (09 R243). -/
def cdrLock (l : Nat) (off : Int) (s : State) : State :=
  let d := (lane s l).sd
  if running s && d.rxEn && !d.los && !d.failed && !laneFenced s l then
    laneSync l (modSd l (fun d =>
      let d := if lineLol d then { d with fill := 64, fillAt := s.clk.now, frac := 0, echo := [] } else loopDrift s.clk.now d
      { d with locked := true, offset := off }) s)
  else s

/-- The CDR's phase detector loses lock (09 R235). -/
def cdrLoss (l : Nat) (s : State) : State :=
  if running s && !laneFenced s l then laneSync l (modSd l (fun d => { d with locked := false }) s) else s

/-- One of the two conditions of R236 has held throughout the last 1 ms; `clean`: the checker met no bit error in it. -/
def goodDue (d : Serdes) (clean : Bool) (now : Nat) : Bool :=
  let held (t : Option Nat) := match t with | some t => decide (t + 1000000 ≤ now) | none => false
  d.rxEn && d.locked && (held d.okFrame || (clean && held d.okPrbs)) && decide (d.goodAt + 1000000 ≤ now)

/-- The good set becomes the coefficients in force: those that the adaptation has reached, or those that `ADAPT` HOLD keeps. -/
def goodTake (coefs : List Int) (now : Nat) (d : Serdes) : Serdes :=
  let c := if adapting d then coefs else d.coefs
  { d with good := some c, coefs := c, goodAt := now }

/-- GOOD_SET_REFRESH (09 R236). -/
def execGoodSetRefresh (l : Nat) (g : GoodSet) (s : State) : Host.Outcome State Fault Refusal :=
  if !laneOk l || g.coefs.length ≠ 32 then .refused (.illFormed "GOOD_SET_REFRESH")
  else if goodDue (lane s l).sd g.clean s.clk.now then .next (modSd l (goodTake g.coefs s.clk.now) s)
  else .next s

/-- ADAPTATION_CONVERGED (09 R236). -/
def execAdaptationConverged (l : Nat) (s : State) : Host.Outcome State Fault Refusal :=
  if !laneOk l then .refused (.illFormed "ADAPTATION_CONVERGED")
  else
    let d := (lane s l).sd
    if d.rxEn && !d.los && !d.hold then .next (convergedBase l (modSd l (fun d => { d with conv := true }) s)) else .next s

/-- LANE_LOOP_SLIP (09 R243): the fill of the elastic buffer moves by `w` symbols of wander, and by what the offset beyond ±100 ppm
has moved it; when it empties or fills, the buffer is centred again by repeating or dropping symbols, which is a slip. -/
def loopSlip (l : Nat) (w : Int) (s : State) : State :=
  let d := (lane s l).sd
  let (m, fr) := driftOf s.clk.now d
  let f := (d.fill : Int) + w + m
  if d.loop = 3 && !lineLol d then
    let s := modSd l (fun d => { d with fillAt := s.clk.now, frac := fr }) s
    if 0 < f && f < 128 then modSd l (fun d => { d with fill := f.toNat }) s
    else
      let n := (d.slips + 1) % 65536
      pulse 0x02 0x20 l (wd n) false (modSd l (fun d => { d with
        slips := n, fill := 64, echo := if 0 < f then d.echo.drop 128 else d.echo.take 128 ++ d.echo }) s)
  else s

/-- LANE_LOOP_SLIP. -/
def execLaneLoopSlip (m : LoopWander) (s : State) : Host.Outcome State Fault Refusal :=
  if laneOk m.lane then .next (loopSlip m.lane m.symbols s) else .refused (.illFormed "LANE_LOOP_SLIP")

/-- PRBS_CHECKER_LOCK (09 R247): the bits received, even-numbered one first, seed the register and 1,024 are predicted. In the near-end
serial loop they are the lane's own output (09 Table 9.7). -/
def prbsLock (l : Nat) (bs : List Bool) (s : State) : State :=
  let d := (lane s l).sd
  let bs := if d.loop = 1 then ((lane s l).tx.looped.getLastD []).take (prbsDeg d.chkPat + 1024) else bs
  if running s && d.chkEn && d.rxEn && !d.chkLock && !laneFenced s l then
    match prbsForm d.chkPat bs with
    | some inv => okSync l (modSd l (fun d => { d with chkLock := true, chkInv := inv, lockAt := s.clk.now }) s)
    | none => s
  else s

/-- PRBS_CHECKER_LOCK. -/
def execPrbsCheckerLock (l : Nat) (bs : List Bool) (s : State) : Host.Outcome State Fault Refusal :=
  if laneOk l then .next (prbsLock l bs s) else .refused (.illFormed "PRBS_CHECKER_LOCK")

/-- PRBS_CHECKER_LOSS (09 R247): `b` bits compared and `e` mismatches since the counts were last brought up to date; `w`
mismatches among the last 8,192 bits compared. -/
def prbsLoss (l b e w : Nat) (s : State) : State :=
  if (lane s l).sd.chkLock && decide (512 ≤ w) && decide (w ≤ 8192) && decide (e ≤ b) then
    modSd l (fun d => { d with
      chkLock := false, chkHist := true, okPrbs := none, bits := min (d.bits + b) cntMax, errors := min (d.errors + e) cntMax }) s
  else s

/-- PRBS_CHECKER_LOSS. -/
def execPrbsCheckerLoss (l b : Nat) (e : PrbsErrors) (s : State) : Host.Outcome State Fault Refusal :=
  if laneOk l then .next (prbsLoss l b e.count e.window s) else .refused (.illFormed "PRBS_CHECKER_LOSS")

/-- A SerDes hard failure (09 R253): `LANE_SERDES_FAIL`, transmitter squelched, `LOS` and `LOL` held present. -/
def serdesFail (l : Nat) (s : State) : State :=
  if (lane s l).sd.failed then s
  else
    let s := raise 0x02 0x21 l 0 false s
    laneSync l (modSd l (fun d => { d with failed := true, txEn := false, txNext := none, los := true, locked := false }) s)

/-! ## Lane defect commands (07 R206) -/

/-- Form of `LANE_DEFECT_SET` (07 Table 7.11). -/
def formLaneDefectSet (ws : List Word) : Bool :=
  formLane ws && rsv0 ws 0 31 23 && inR (pf ws 0 22 14) 1 320 && rsv0 ws 1 31 28 && decide (pf ws 1 13 0 ≤ 8000)
    && decide (pf ws 1 27 14 ≤ 8000)

/-- `LANE_DEFECT_SET` (07 R206). -/
def bodyLaneDefectSet (p : Packet) (s : State) : Res :=
  let ws := p.params
  done (modDef (pf ws 0 7 0) (fun d => { d with
    en := BitVec.ofNat 6 (pf ws 0 13 8), thresh := pf ws 0 22 14, tset := pf ws 1 13 0, tclear := pf ws 1 27 14
    setFrom := if pf ws 1 13 0 < d.tset then s.clk.now else d.setFrom
    clrFrom := if pf ws 1 27 14 < d.tclear then s.clk.now else d.clrFrom }) s)

/-- Form of `LANE_DEFECT_GET`. -/
def formLaneDefectGet (ws : List Word) : Bool := formLane ws && rsv0 ws 0 31 9

/-- `LANE_DEFECT_GET` (07 Table 7.12). -/
def bodyLaneDefectGet (p : Packet) (s : State) : Res :=
  let l := pf p.params 0 7 0
  let d := (lane s l).ldef
  .reply .ok [wd (d.cond.toNat + 256 * d.decl.toNat + 65536 * d.hist.toNat)]
    (if pb p.params 0 8 then modDef l (fun d => { d with hist := 0 }) s else s)

/-! ## Fences and swaps -/

/-- An edge die is fenced (16 R444): its lanes are squelched, unaligned, and their `LOS` and `LOL` conditions held present. No
lane cycle begins any more, so the conditions that hold for whole lane cycles end here (07 R193; log 61). -/
def fenceLanes (e : Nat) (s : State) : State :=
  (List.range 36).foldl (fun s i =>
    let l := 36 * e + i
    let s := [3, 4, 5].foldl (fun s b => setCond l b false s) (alignDrop l (chkStop l s))
    laneSync l (modSd l (fun d => { d with locked := false }) s)) s

/-- The lanes of an edge die restart under the start-up state of chapters 3, 4 and 9 (16 R445); their defect settings and
history are of chapter 7 and stand, their conditions follow the lane. -/
def restartLanes (e : Nat) (s : State) : State :=
  (List.range 36).foldl (fun s i =>
    let l := 36 * e + i
    laneSync l (huntSync l (setLane l { laneReset l with ldef := (lane s l).ldef } s))) s

/-- A Lane Engine or synthesiser swap that has just begun (07 R195). -/
def swapBegun (s0 s : State) : State :=
  match swapOf s0 0, swapOf s 0 with
  | none, some w => laneHold w.unit s
  | _, _ => s

/-- After a cutover: the lane's timers resume and Λ_rx is measured anew (02 Table 2.4; 07 R195); a cluster's transmitters come
back under the enable rules at the next tick (09 Table 9.8). -/
def swapEnded (p u : Nat) (s : State) : State :=
  if p = 0 then
    let (v, s) := draw 0x0251 s
    laneResume u (condSync u (modAl u (fun a => { a with lambda := 1995000 + v % 10001 }) s))
  else if p = 2 then
    (List.range 9).foldl (fun s i => modSd (9 * u + i) (fun d =>
      if d.txEn then { d with txEn := false, txNext := some (d.txNext.getD { pol := d.txPol, swing := d.swing, taps := d.taps }) } else d) s) s
  else s

end Sys2Proof.Machine
end

