-- ==== Sys2Proof/Machine/Framer.lean ====
section
/-! DEFINITION. Receive framer: marker blocks, headers, message channel, alignment, lane cycles (chapters 3 and 4; 02 R47 to R50). -/

namespace Sys2Proof.Machine

/-! ## Marker blocks and headers (03 R68 to R72) -/

/-- The sillage window W, ps (02 R40). -/
def windowPs : Nat := 3906250

/-- One cycle T, ps. -/
def cyclePs : Nat := 15625000

/-- A received header. -/
structure Hdr where
  ok    : Bool
  sec   : Nat
  id    : Nat
  cyc   : Nat
  rdi   : Bool
  ql    : Nat
  fc    : Word
  epoch : Nat
deriving DecidableEq, Repr

/-- Bits 120 to 1,149 of a marker block without whitening (03 R71). -/
def dewhiten (bs : List Bool) : List Bool := xorBits (bs.drop 120) whitening

/-- The header of a marker block, and whether it is valid (03 R69, R70, R72). -/
def headerOf (bs : List Bool) : Hdr :=
  let h := bytesOfBits ((dewhiten bs).take 240)
  let b (i : Nat) : Nat := (h.getD i 0).toNat
  { ok := (hcrc (h.take 28)).toNat == b 28 * 256 + b 29 && b 0 / 16 == 1
    sec := b 0 % 8, id := b 1, cyc := b 2 / 32, rdi := b 2 / 16 % 2 == 1, ql := b 2 % 16
    fc := wd (beNat ((h.drop 3).take 4)), epoch := b 7 / 16 }

/-- The 95 bytes of the lane message channel of a marker block (03 R74). -/
def channelOf (bs : List Bool) : List Byte := bytesOfBits (((dewhiten bs).drop 240).take 760)

/-- The next section number, cycle and FC in sequence (03 R72). -/
def nextPos (sec cyc : Nat) (fc : Word) : Nat × Nat × Word :=
  if sec < 7 then (sec + 1, cyc, fc) else if cyc < 7 then (0, cyc + 1, fc) else (0, 0, fc + 1)

/-- The pattern field matches a form: at most 3 bits differ (04 R100). -/
def matches3 (p bs : List Bool) : Bool := decide (hamming p (bs.take 120) ≤ 3)

/-! ## Lane cycles (02 R47 to R50; 04 R111 to R113) -/

/-- The ingress frame settings that govern the lane cycle in progress (02 R53). -/
def rxCfg (s : State) (l : Nat) : FrameIn :=
  let r := (lane s l).rx
  verAt (frameInReset l) (r.core.getD (curCycle s)) r.cfg

/-- The lane is in PLESIO timing for cycle number `n` (05 R126). -/
def plesioAt (s : State) (l n : Nat) : Bool := verAt false n (lane s l).rx.plesio

/-- The timing mode changes at one of the cycles `n` − 1 to `n` + 1: the lane's content in cycle `n` is undefined (05 R126). -/
def timingSpans (s : State) (l n : Nat) : Bool :=
  [n - 1, n, n + 1].any (fun t => decide (0 < t) && plesioAt s l t != plesioAt s l (t - 1))

/-- The lane cycle that ends is judged: `LOAM` and `FEC_FAIL` hold through the next one (07 R190). -/
def judgeCycle (l : Nat) (s : State) : State :=
  let x := lane s l
  setCond l 5 (x.sd.rxEn && x.rx.steady && decide (x.ldef.thresh ≤ x.rx.uncorr)) (setCond l 3 (x.sd.rxEn && x.rx.loam) s)

/-- A lane cycle begins for core cycle number `n`; `sl` is its sillage offset when it is measured (02 R47, R49; 04 R113); a
free-wheeling one keeps the last (04 R112), by which it is judged. -/
def beginCycle (l n : Nat) (sl : Option Nat) (s : State) : State :=
  let s := judgeCycle l s
  let s := match sl with
    | some v => setCond l 4 ((lane s l).sd.rxEn && !plesioAt s l n && decide (windowPs ≤ v))
        (modAl l (fun a => { a with sil := v, sils := ((n, v) :: a.sils).take 8 }) s)
    | none => setCond l 4 ((lane s l).sd.rxEn && (lane s l).al.ever && !plesioAt s l n && decide (windowPs ≤ (lane s l).al.sil)) s
  let al := isAligned (lane s l)
  let skew := (lane s l).ldef.cond.getLsbD 4
  modRx l (fun r => { r with
    skews := if skew then (n :: r.skews).take 96 else r.skews
    core := some n, count := r.count + 1, uncorr := 0, loam := false, steady := al, lofIn := !al, grains := []
    whole := r.whole.filter (fun c => c != n), newAl := r.fresh, alAt := if r.fresh then r.count + 1 else r.alAt, fresh := false }) s

/-- Records the difference of cycle indices at a section 0 (02 R48): `LANE_CYCLE_JUMP` when it changes while the lane stays
aligned; none for a regain (04 R113). -/
def recordDiff (l n : Nat) (first : Bool) (s : State) : State :=
  let x := lane s l
  let d := (8 * x.rx.pFc.toNat + x.rx.pCyc + 2 ^ 35 - absIdx s n) % 2 ^ 35
  let s := modAl l (fun a => { a with diff := d }) s
  if first || d = x.al.diff then s else pulse 0x02 0x10 l (wd d) false s

/-! ## Message channel (03 R74 to R76) -/

/-- The receiver takes a channel field (03 R76). -/
def takeMessage (l : Nat) (bs : List Byte) (s : State) : State :=
  let r := (lane s l).rx
  let b (i : Nat) : Nat := (bs.getD i 0).toNat
  let ok := (hcrc (bs.take 93)).toNat == b 93 * 256 + b 94 && inR (b 0) 1 0xEF && decide (b 2 ≤ 90) && r.seq != some (b 1)
  if !ok then s
  else if r.queue.length < 16 then
    let s1 := modRx l (fun r => { r with
      queue := r.queue ++ [{ fc := r.pFc, pos := r.pCyc + 8 * r.pSec, bytes := bs }], seq := some (b 1), ovf := false }) s
    if r.queue.isEmpty then pulse 0x02 0x14 l (wd (b 1)) false s1 else s1
  else if r.ovf then s
  else pulse 0x02 0x15 l (wd (b 1)) false (modRx l (fun r => { r with ovf := true }) s)

/-! ## Sections at the aligned position -/

/-- A valid header updates what the lane reports (03 R72), and is checked against `EXPECTED_ID` (03 R73). -/
def takeHeader (l : Nat) (h : Hdr) (s : State) : State :=
  let c := rxCfg s l
  let r := (lane s l).rx
  let s := modRx l (fun r => { r with id := h.id, ql := h.ql, rdi := h.rdi, epoch := h.epoch, fc := h.fc }) s
  if h.id = c.expId then modRx l (fun r => { r with idBad := false }) s
  else if c.idChk && !r.idBad then pulse 0x02 0x11 l (wd h.id) false (modRx l (fun r => { r with idBad := true }) s)
  else s

/-- The receive slot of the section: the one whose epoch matches, else the previous one with `LANE_SEED_EPOCH` (03 R91). The
epoch is that of the last header whose values the section is processed with (03 R72). -/
def takeEpoch (l : Nat) (s : State) : State :=
  let c := rxCfg s l
  let r := (lane s l).rx
  if c.a.epoch = r.pEp then modRx l (fun r => { r with slot := false, epBad := false }) s
  else if c.b.epoch = r.pEp then modRx l (fun r => { r with slot := true, epBad := false }) s
  else if r.epBad then s
  else pulse 0x02 0x13 l (wd r.pEp) false (modRx l (fun r => { r with epBad := true }) s)

/-- An aligned lane changes the mode in use at a lane cycle's first marker block, keeping its position (04 R108). -/
def alignMode (l n : Nat) (s : State) : State :=
  let x := lane s l
  let h := wantHeader x.al.cfg (modeAt s n)
  if x.al.pos.isSome && h != x.al.header then
    modAl l (fun a => { a with header := h, recov := false, err := 0, trk := [], window := none }) s
  else s

/-- Limit of E or A (04 R102, R105). -/
def errLimit (a : Align) : Nat := if a.header then a.cfg.alpha else a.cfg.m

/-- The lane is due to lose alignment (04 R102, R105, R110). -/
def lossDue (x : Lane) : Bool := isAligned x && decide (errLimit x.al ≤ x.al.err)

/-- Marker block of the alignment position: position and header values of the section, then what follows from them. `hv`: the
header gives the section's values; `good`: the block is neither errored nor invalid. An errored block before the first lane cycle of an
alignment belongs to no lane cycle that could be judged (04 R111, R113; 07 R190). -/
def alignedSection (l : Nat) (h : Hdr) (hv good : Bool) (arrival : Nat) (chan : List Byte) (s : State) : State :=
  let r := (lane s l).rx
  let (sec, cyc, fc) := if hv then (h.sec, h.cyc, h.fc) else nextPos r.pSec r.pCyc r.pFc
  let s := modRx l (fun r => { r with
    pSec := sec, pCyc := cyc, pFc := fc, pEp := if hv then h.epoch else r.pEp, hdrOk := h.ok, due := true }) s
  let s := if sec = 0 && 0 < s.clk.ticks then
      let n := curCycle s + arrival / cyclePs
      recordDiff l n r.fresh (beginCycle l n (some (arrival % cyclePs)) s)
    else s
  let s := if h.ok then takeHeader l h s else tapInc 0x05 l 1 s
  let s := takeMessage l chan (takeEpoch l s)
  if good then modAl l (fun a => { a with err := 0 }) s
  else modRx l (fun r => { r with loam := r.core.isSome }) (modAl l (fun a => { a with err := a.err + 1 }) s)

/-- The first marker block at a newly adopted position (04 R106, R111, R113): the lane is aligned from here on, its header values
follow those of the winner, and the free-wheeling lane cycle in progress is abandoned. -/
def alignGain (l : Nat) (s : State) : State :=
  let x := lane s l
  if !x.al.gain then s
  else
    let (v, s) := if x.al.ever then (x.al.lambda - 1995000, s) else draw 0x0251 s
    let s := modAl l (fun a => { a with
      gain := false, won := none, fpos := a.pos.getD a.fpos, ever := true, lambda := 1995000 + v % 10001 }) s
    let (sec, cyc, fc, ep) := match x.al.won with
      | some t => (t.sec, t.cyc, t.fc, t.epoch)
      | none => (x.rx.pSec, x.rx.pCyc, x.rx.pFc, x.rx.pEp)
    laneSync l (modRx l (fun r => { r with
      pSec := sec, pCyc := cyc, pFc := fc, pEp := ep, fresh := true, bip := none, steady := false, core := none, grains := []
      loam := false, uncorr := 0, due := false }) s)

/-! ## Candidates (04 R101 to R107) -/

/-- Qualified candidates. -/
def qualified (a : Align) : Nat := a.trk.countP (fun t => t.qual)

/-- `LANE_LOF_AMBIG` (04 R106): again only after 64 consecutive cycles in which no candidate was qualified. -/
def raiseAmbig (l : Nat) (s : State) : State :=
  let a := (lane s l).al
  let quiet := match a.ambig with | some t => decide (t + 64 < curCycle s) | none => true
  if quiet then
    pulse 0x02 0x16 l (wd (qualified a % 16)) false
      (modAl l (fun a => { a with ambig := some (curCycle s), hist := a.hist ||| 2 }) s)
  else s

/-- While a candidate is qualified, the 64 cycles of R106 do not run; once they have run, the event may be raised again. -/
def ambigAge (l : Nat) (s : State) : State :=
  let a := (lane s l).al
  match a.ambig with
  | some t => if 0 < qualified a then modAl l (fun a => { a with ambig := if t + 64 < curCycle s then none else some (curCycle s) }) s else s
  | none => s

/-- A candidate wins (04 R102, R103, R105): its position is adopted from its next expected marker block, all trackers are
freed; a reversed winner toggles the inversion while the polarity is AUTO. Until that block the lane free-wheels as before (04
R112). A recovery returns to header mode (04 R109) at the win, and for a win at once the inversion toggles at the win too: DESIGN
CHOICES, R109 names no cycle for R108, and R103 no winning block for such a win (log 60). -/
def adopt (l : Nat) (t : Tracker) (s : State) : State :=
  let s := if t.rev && decide ((lane s l).al.cfg.pol = 0) then pulse 0x02 0x17 l 0 false (modAl l (fun a => { a with inv := !a.inv, hist := a.hist ||| 4 }) s) else s
  modAl l (fun a => { a with
    pos := some t.pos, gain := true, won := some t, trk := [], window := none, err := 0, hunt := none, recov := false
    header := wantHeader a.cfg s.dev.mode }) s

/-- A decision window ends (04 R106), in a mode in which receivers align (04 R99). -/
def decisionEnd (l : Nat) (s : State) : State :=
  let a := (lane s l).al
  if !running s || a.window.isNone || a.pos.isSome then s
  else
    let s := modAl l (fun a => { a with window := none }) s
    match a.trk.filter (fun t => t.qual) with
    | [t] => adopt l t s
    | [] => s
    | _ => raiseAmbig l s

/-- Frees the trackers that satisfy `f`; when all qualified candidates but one have been freed, that one wins at once (04 R106). A
window whose opener goes stays open while two or more are qualified, to be decided at its end: DESIGN CHOICE (log 60). -/
def freeTrackers (l : Nat) (f : Tracker → Bool) (s : State) : State :=
  let a := (lane s l).al
  let gone := a.trk.any (fun t => f t && t.qual)
  let trk := a.trk.filter (fun t => !f t)
  let left := trk.filter (fun t => t.qual)
  let opener := a.trk.any (fun t => f t && a.window == some t.pos)
  let s := modAl l (fun a => { a with trk, window := if opener && left.length < 2 then none else a.window }) s
  match left with
  | [t] => if gone && a.pos.isNone then adopt l t s else s
  | _ => s

/-- Frees the tracker of position `p`. -/
def freeTracker (l p : Nat) (s : State) : State := freeTrackers l (fun t => t.pos == p) s

/-- The inversion that settings leave in force: forced normal, forced inverted, or as it is (04 R103). -/
def forcedInv (c : AlignSet) (inv : Bool) : Bool := if c.pol = 0 then inv else c.pol == 2

/-- Brings a committed `LANE_ALIGN_SET` into force: forced polarity, RESTART (04 R115). Under a forced polarity only the normal
form is searched, so candidates of the reversed form go (04 R103), and one that is left qualified wins (04 R106). -/
def alignApply (l : Nat) (c : AlignSet) (s : State) : State :=
  let s := modAl l (fun a => { a with cfg := { c with restart := false }, inv := forcedInv c a.inv }) s
  let s := if c.pol = 0 then s else freeTrackers l (fun t => t.rev) s
  if c.restart then huntSync l (modAl l (fun a => { a with trk := [], window := none, hunt := none }) (alignLose l s)) else huntSync l s

/-- Brings every `LANE_ALIGN_SET` that governs cycle `n` into force, in order of their cycles. -/
def alignPend (l n : Nat) (s : State) : State :=
  let a := (lane s l).al
  let due := a.next.filter (fun x => decide (x.1 ≤ n))
  if due.isEmpty then s
  else due.foldl (fun s x => alignApply l x.2 s) (modAl l (fun a => { a with next := a.next.filter (fun x => decide (n < x.1)) }) s)

/-- A candidate is looked at after a match or a valid header: it may qualify (04 R101, R104, R106). -/
def qualify (l : Nat) (t : Tracker) (hv : Bool) (s : State) : State :=
  let a := (lane s l).al
  let q := if a.header then decide (a.cfg.delta ≤ t.cnt) else decide (a.cfg.n ≤ t.cnt) && (hv || t.qual)
  let fresh := q && !t.qual
  let t := { t with qual := q }
  let trk := if a.trk.any (fun u => u.pos == t.pos) then a.trk.map (fun u => if u.pos = t.pos then t else u) else a.trk ++ [t]
  let s := modAl l (fun a => { a with trk }) s
  if !fresh then s
  else if a.pos.isSome then raiseAmbig l s
  else if a.window.isNone then modAl l (fun a => { a with window := some t.pos }) s
  else s

/-- Which form of the pattern field a block shows, the lane's inversion applied: some true reversed (04 R100, R103). -/
def patternForm (c : AlignSet) (bs : List Bool) : Option Bool :=
  if matches3 patternN bs then some false else if c.pol = 0 && matches3 patternR bs then some true else none

/-- A marker block at a position that no tracker holds (04 R101, R104, R107). -/
def markerNew (l : Nat) (m : Marker) (s : State) : State :=
  let a := (lane s l).al
  let bs := if a.inv then compEven m.bits else m.bits
  if 8 ≤ a.trk.length then s
  else if a.header then
    let h := headerOf bs
    if h.ok then qualify l { pos := m.pos, cnt := 0, rev := false, qual := false, sec := h.sec, cyc := h.cyc, fc := h.fc, epoch := h.epoch } true s else s
  else match patternForm a.cfg bs with
    | none => s
    | some rev =>
      let h := headerOf (if rev then compEven bs else bs)
      qualify l { pos := m.pos, cnt := 1, rev, qual := false, sec := h.sec, cyc := h.cyc, fc := h.fc, epoch := h.epoch } h.ok s

/-- What the lane aligns on: bits with the inversion applied, and their header, which is not valid while the `LOL` condition holds
(04 R103, R474). -/
def seenBlock (s : State) (l : Nat) (m : Marker) : List Bool × Hdr :=
  let bs := if (lane s l).al.inv then compEven m.bits else m.bits
  let h := headerOf bs
  (bs, { h with ok := h.ok && !lolCond s l })

/-- Section number that a block at the alignment position has: the predicted one in header mode, that of a valid header in pattern
mode (03 R72; 04 R105). -/
def blockSection (s : State) (l : Nat) (m : Marker) : Nat :=
  let r := (lane s l).rx
  let h := (seenBlock s l m).2
  if !(lane s l).al.header && h.ok then h.sec else (nextPos r.pSec r.pCyc r.pFc).1

/-- The time from the core tick to the first capture write: as measured, or as a near-end loop gives it (09 R242). -/
def arrivalOf (s : State) (m : Marker) : Nat :=
  let x := lane s m.lane
  if x.sd.loop = 1 then x.al.lambda else if x.sd.loop = 2 then x.al.loopS else m.arrival

/-- The marker block that falls due at the alignment position (04 R102, R105; R474). Values that come into force with this block
act on the count already held: a lane at or above its new limit loses alignment here (04 R110), and the block is then one at a
position that the lane does not hold. -/
def markerAligned (l : Nat) (m : Marker) (s : State) : State :=
  let s := alignGain l s
  let arr := arrivalOf s m
  let s := if blockSection s l m = 0 then
      let n := curCycle s + arr / cyclePs
      let s := alignMode l n (alignPend l n s)
      if lossDue (lane s l) then alignLose l s else s
    else s
  let x := lane s l
  if x.al.pos.isNone then (if lolCond s l then s else markerNew l m s)
  else
    let blind := lolCond s l
    let (bs, h) := seenBlock s l m
    let chan := if blind then [] else channelOf bs
    if x.al.header then
      let hv := h.ok && h.sec == (nextPos x.rx.pSec x.rx.pCyc x.rx.pFc).1
      alignedSection l h hv hv arr chan s
    else alignedSection l h h.ok (matches3 patternN bs && !blind) arr chan s

/-- A marker block where a candidate expects one (04 R102, R104, R105; R474). -/
def markerTracked (l : Nat) (t : Tracker) (m : Marker) (s : State) : State :=
  let a := (lane s l).al
  let bs := if a.inv then compEven m.bits else m.bits
  let p := nextPos t.sec t.cyc t.fc
  if lolCond s l then freeTracker l t.pos s
  else if a.header then
    let h := headerOf bs
    if h.ok && (h.sec, h.cyc, h.fc) == p then
      qualify l { t with cnt := t.cnt + 1, sec := h.sec, cyc := h.cyc, fc := h.fc, epoch := h.epoch } true s
    else freeTracker l t.pos s
  else if patternForm a.cfg bs = some t.rev then
    let h := headerOf (if t.rev then compEven bs else bs)
    let (sec, cyc, fc) := if h.ok then (h.sec, h.cyc, h.fc) else p
    qualify l { t with cnt := t.cnt + 1, sec, cyc, fc, epoch := if h.ok then h.epoch else t.epoch } h.ok s
  else freeTracker l t.pos s

/-- What is due before a marker block is examined: a loss, or the end of the decision window that this block ends. -/
def settle (l p : Nat) (s : State) : State :=
  let s := if lossDue (lane s l) then alignLose l s else s
  if (lane s l).al.window = some p then decisionEnd l s else s

/-- The lane is in a near-end loop: it receives its own signal (09 R241). -/
def nearLoop (s : State) (l : Nat) : Bool := (lane s l).sd.loop == 1 || (lane s l).sd.loop == 2

/-- The 1,150 bits that a near-end loop brings at a position, and the lane after it; none when nothing has come round. Position 0 is
that of the lane's own marker blocks; a block examined there is the next one sent (09 R241; log 62). -/
def loopBlock (l pos : Nat) (s : State) : Option (List Bool × State) :=
  let t := (lane s l).tx
  let q := if pos = 0 && t.seen then t.looped.drop 1 else t.looped
  let bs := (((q.take 2).flatten).drop pos).take 1150
  if bs.length = 1150 then some (bs, modTx l (fun t => { t with looped := q, seen := t.seen || pos == 0 }) s) else none

/-- The receiver examines a marker block (04 R99 to R107), which a near-end loop takes from the lane's own transmitter (09 R241). -/
def markerStep (m : Marker) (s : State) : State :=
  let l := m.lane
  if !running s || !(lane s l).sd.rxEn || laneFenced s l then s
  else match if nearLoop s l then loopBlock l m.pos s else some (m.bits, s) with
  | none => s
  | some (bits, s) =>
    let m := { m with bits }
    let x := lane s l
    let s := if m.pos = x.al.fpos then loopEcho l m.bits s else s
    let s := settle l m.pos (if x.al.pos.isNone then alignPend l (curCycle s) s else s)
    let a := (lane s l).al
    let s := if a.pos = some m.pos then markerAligned l m s
      else match a.trk.find? (fun t => t.pos == m.pos) with
        | some t => markerTracked l t m s
        | none => if lolCond s l then s else markerNew l m s
    ambigAge l s

/-- A marker block of the right length at a bit position of a section. -/
def markerOk (m : Marker) : Bool := laneOk m.lane && decide (m.pos < 218750) && m.bits.length == 1150

/-- ALIGNMENT_LOSS (04 R102, R105). -/
def alignmentLoss (l : Nat) (s : State) : State := if running s && lossDue (lane s l) then alignLose l s else s

/-- DECISION_WINDOW_END (04 R106). -/
def execDecisionWindowEnd (l : Nat) (s : State) : Host.Outcome State Fault Refusal :=
  if laneOk l then .next (decisionEnd l s) else .refused (.illFormed "DECISION_WINDOW_END")

/-- LANE_ALIGN_RECOVERY (04 R109): after `RECOVERY_TIME` in HUNT the lane searches in pattern mode. -/
def alignRecovery (l : Nat) (s : State) : State :=
  let x := lane s l
  match x.al.hunt with
  | some t =>
    if running s && x.al.header && x.al.pos.isNone && x.al.cfg.recEn && decide (t + 1000000 * x.al.cfg.recMs ≤ s.clk.now) then
      pulse 0x02 0x18 l 0 false (modAl l (fun a => { a with
        header := false, recov := true, trk := [], window := none, hunt := none, hist := a.hist ||| 8 }) s)
    else s
  | none => s

/-- LANE_ALIGN_RECOVERY. -/
def execLaneAlignRecovery (l : Nat) (s : State) : Host.Outcome State Fault Refusal :=
  if laneOk l then .next (alignRecovery l s) else .refused (.illFormed "LANE_ALIGN_RECOVERY")

/-- At a tick, unaligned lanes take the settings that govern the new cycle (04 R108). -/
def alignTick (s : State) : State :=
  s.lanes.foldl (fun s x => if x.2.al.pos.isNone then alignPend x.1 (curCycle s) s else s) s

/-! ## Commands (03 R93 to R96; 04 R115, R116) -/

/-- Form of `LANE_FRAME_SET` (03 Table 3.10). -/
def formLaneFrameSet (ws : List Word) : Bool := formLane ws && rsv0 ws 0 31 27 && rsv0 ws 1 31 16

/-- `LANE_FRAME_SET` goes to the update port (03 R93). -/
def bodyLaneFrameSet (_ : Packet) (s : State) : Res := toPort s

/-- Ingress settings change from cycle `k` on (02 R53). -/
def setFrameIn (l k : Nat) (f : FrameIn → FrameIn) (s : State) : State :=
  modRx l (fun r => { r with cfg := verPut (curCycle s) k (f (verNew (frameInReset l) r.cfg)) r.cfg }) s

/-- The ingress part of `LANE_FRAME_SET`. -/
def frameSetIn (ws : List Word) (k : Nat) (s : State) : State :=
  setFrameIn (pf ws 0 7 0) k (fun c => { c with
    expId := pf ws 0 23 16, idChk := pb ws 0 25, tmapChk := pb ws 0 26, expGen := pf ws 1 15 0 }) s

/-- The egress part of `LANE_FRAME_SET`. -/
def frameSetEg (ws : List Word) (s : State) : State :=
  modTx (pf ws 0 7 0) (fun t => { t with id := pf ws 0 15 8, rdi := pb ws 0 24 }) s

/-- Form of `LANE_FRAME_GET`. -/
def formLaneFrameGet (ws : List Word) : Bool := formLane ws && rsv0 ws 0 31 8

/-- `LANE_FRAME_GET` (03 Table 3.11). -/
def bodyLaneFrameGet (p : Packet) (s : State) : Res :=
  let x := lane s (pf p.params 0 7 0)
  let r := x.rx
  .reply .ok [wd (r.id + 2 ^ 8 * r.ql + 2 ^ 12 * b2n r.rdi + 2 ^ 13 * r.epoch + 2 ^ 17 * b2n r.slot + 2 ^ 18 * b2n x.tx.act
      + 2 ^ 31 * b2n (isAligned x)), r.fc, wd (r.gen + 2 ^ 16 * r.rei)] s

/-- Form of `LANE_SEED_SET` (03 Table 3.12, R94). -/
def formLaneSeedSet (ws : List Word) : Bool := formLane ws && rsv0 ws 0 31 15 && (!pb ws 0 14 || pb ws 0 8)

/-- `LANE_SEED_SET` goes to the update port. -/
def bodyLaneSeedSet (_ : Packet) (s : State) : Res := toPort s

/-- The committed transmit seed writes of one lane that wait for their tick, in order (03 R94). -/
def seedWrites (s : State) (l : Nat) : List (List Word) :=
  s.port.staged.filterMap (fun x => match x.w with
    | .cmd 0x02 0x12 ws _ => if pf ws 0 7 0 = l then some ws else none
    | _ => none)

/-- A seed slot as a command writes it. -/
def seedOf (ws : List Word) : Seed := { seed := wAt ws 1, epoch := pf ws 0 13 10 }

/-- The committed slots of one direction, and the active transmit slot: from the commit of an ACTIVATE on, the slot it names, though
the egress uses it only from its cycle (03 R92): DESIGN CHOICE (log 29). -/
def seedView (s : State) (l : Nat) (dir : Bool) : Seed × Seed × Bool :=
  let x := lane s l
  let c := verNew (frameInReset l) x.rx.cfg
  if dir then
    (seedWrites s l).foldl (fun (a, b, act) ws =>
      let act := if pb ws 0 14 then pb ws 0 9 else act
      if pb ws 0 9 then (a, seedOf ws, act) else (seedOf ws, b, act)) (x.tx.a, x.tx.b, x.tx.act)
  else (c.a, c.b, x.rx.slot)

/-- The checks of `LANE_SEED_SET` at its commit (03 R94). -/
def seedCommit (ws : List Word) (s : State) : Option Status :=
  let l := pf ws 0 7 0
  let (a, b, act) := seedView s l (pb ws 0 8)
  let other := if pb ws 0 9 then a else b
  if other.epoch = pf ws 0 13 10 then some .badParam
  else if pb ws 0 8 then (if pb ws 0 9 == act && txActive s l then some .slotInUse else none)
  else if pb ws 0 9 == (lane s l).rx.slot && isAligned (lane s l) then some .slotInUse
  else none

/-- A receive seed slot is written for cycle `k` on. -/
def seedSetIn (ws : List Word) (k : Nat) (s : State) : State :=
  if pb ws 0 8 then s
  else setFrameIn (pf ws 0 7 0) k (fun c => if pb ws 0 9 then { c with b := seedOf ws } else { c with a := seedOf ws }) s

/-- A transmit seed slot is written, and made active with `ACTIVATE` (03 R92). -/
def seedSetEg (ws : List Word) (s : State) : State :=
  if !pb ws 0 8 then s
  else modTx (pf ws 0 7 0) (fun t =>
    let t := if pb ws 0 9 then { t with b := seedOf ws } else { t with a := seedOf ws }
    if pb ws 0 14 then { t with act := pb ws 0 9 } else t) s

/-- Form of `LANE_MSG_SEND` (03 R95, Table 3.13). -/
def formLaneMsgSend (ws : List Word) : Bool :=
  formLane ws && inR (pf ws 0 15 8) 1 0xEF && decide (pf ws 0 22 16 ≤ 90) && !pb ws 0 23 && inR (pf ws 0 27 24) 1 8
    && rsv0 ws 0 31 28 && rsv0 ws 1 31 23 && areaOk (pf ws 1 22 0) (pf ws 0 22 16) 1

/-- `LANE_MSG_SEND` (03 R75, R95). -/
def bodyLaneMsgSend (p : Packet) (s : State) : Res :=
  let ws := p.params
  let l := pf ws 0 7 0
  let t := (lane s l).tx
  if 4 ≤ t.queue.length then refuse .busy s
  else
    let m : Msg := { typ := pf ws 0 15 8, seq := t.seq, data := wmGet s (pf ws 1 22 0) (pf ws 0 22 16), left := pf ws 0 27 24 }
    .reply .ok [wd t.seq] (modTx l (fun t => { t with queue := t.queue ++ [m], seq := (t.seq + 1) % 256 }) s)

/-- Form of `LANE_MSG_READ` (03 R96). -/
def formLaneMsgRead (ws : List Word) : Bool :=
  formLane ws && inR (pf ws 0 12 8) 1 16 && rsv0 ws 0 31 13 && rsv0 ws 1 31 23 && areaOk (pf ws 1 22 0) (104 * pf ws 0 12 8) 8

/-- The 104 bytes of a received message record (03 Table 3.14). -/
def rxMsgBytes (m : RxMsg) : List Byte :=
  leBytes 4 m.fc.toNat ++ [BitVec.ofNat 8 m.pos, 0, 0, 0] ++ padTo 95 0 m.bytes ++ [0]

/-- `LANE_MSG_READ` (03 R96). -/
def bodyLaneMsgRead (p : Packet) (s : State) : Res :=
  let ws := p.params
  let l := pf ws 0 7 0
  let out := (lane s l).rx.queue.take (pf ws 0 12 8)
  let s1 := wmPut (pf ws 1 22 0) (out.flatMap rxMsgBytes) s
  .reply .ok [wd out.length] (modRx l (fun r => { r with queue := r.queue.drop out.length, ovf := if out.isEmpty then r.ovf else false }) s1)

/-- Form of `LANE_ALIGN_SET` (04 Table 4.6). -/
def formLaneAlignSet (ws : List Word) : Bool :=
  formLane ws && decide (pf ws 0 9 8 ≠ 3) && decide (pf ws 0 11 10 ≠ 3) && decide (1 ≤ pf ws 0 15 12) && decide (1 ≤ pf ws 0 19 16)
    && decide (1 ≤ pf ws 0 22 20) && decide (1 ≤ pf ws 0 27 23) && rsv0 ws 0 31 30 && inR (pf ws 1 13 0) 1 10000 && rsv0 ws 1 31 14

/-- `LANE_ALIGN_SET` goes to the update port (04 R115). -/
def bodyLaneAlignSet (_ : Packet) (s : State) : Res := toPort s

/-- The settings that a `LANE_ALIGN_SET` names. -/
def alignSetOf (ws : List Word) : AlignSet :=
  { mode := pf ws 0 9 8, pol := pf ws 0 11 10, n := pf ws 0 15 12, m := pf ws 0 19 16, delta := pf ws 0 22 20,
    alpha := pf ws 0 27 23, recEn := pb ws 0 28, restart := pb ws 0 29, recMs := pf ws 1 13 0 }

/-- A committed `LANE_ALIGN_SET` waits for its lane's cycle `k` (04 R108); of two for one cycle the later stands (01 R24). -/
def alignCommit (ws : List Word) (k : Nat) (s : State) : State :=
  modAl (pf ws 0 7 0) (fun a => { a with next := a.next.filter (fun x => x.1 != k) ++ [(k, alignSetOf ws)] }) s

/-- Form of `LANE_ALIGN_GET`. -/
def formLaneAlignGet (ws : List Word) : Bool := formLane ws && rsv0 ws 0 31 9

/-- `LANE_ALIGN_GET` (04 Table 4.7). -/
def bodyLaneAlignGet (p : Packet) (s : State) : Res :=
  let l := pf p.params 0 7 0
  let x := lane s l
  let a := x.al
  let st := if isAligned x then 2 else if a.pos.isNone && a.trk.isEmpty then 0 else 1
  let sil := if plesioAt s l (curCycle s) && a.ever then 1953125 else a.sil
  .reply .ok [wd (b2n a.header + 2 * st + 8 * b2n a.inv + 16 * a.trk.length + 256 * qualified a
      + 4096 * b2n (isAligned x && x.rx.loam) + 8192 * min a.err 31), wd sil, wd a.diff, wd (a.diff / 2 ^ 32 % 8 + 8 * a.hist.toNat)]
    (if pb p.params 0 8 then modAl l (fun a => { a with hist := 0 }) s else s)

end Sys2Proof.Machine
end

