-- ==== Sys2Proof/Machine/Trib.lean ====
section
/-! DEFINITION. Tributaries, accords, the Aligner store and tributary defects (chapters 5 and 7). -/

namespace Sys2Proof.Machine

/-! ## Tributary Maps (05 R119 to R123) -/

/-- A map without entries (05 R155). -/
def mapReset : TMap := { gen := 0, ents := [] }

/-- The map of lane `l` in a direction (egress: by egress cycle) for cycle `n`. -/
def mapAt (s : State) (eg : Bool) (l n : Nat) : TMap :=
  verAt mapReset n (tget noVer (if eg then s.trib.egMap else s.trib.inMap) l)

/-- Grains of tributary `t`, rising (05 R120). -/
def tribGrains (m : TMap) (t : Nat) : List Nat := (m.ents.filter (fun x => x.2 == t)).map (·.1)

/-- IDs of the tributaries of a map, rising. -/
def tribIds (m : TMap) : List Nat := (List.range 1024).filter (fun t => m.ents.any (fun x => x.2 == t))

/-- Grains of a TA in cycle `n`. -/
def taGrains (s : State) (eg : Bool) (ta n : Nat) : List Nat := tribGrains (mapAt s eg (ta / 1024) n) (ta % 1024)

/-- Size G of a TA in cycle `n`, 0 when it does not exist. -/
def taSize (s : State) (eg : Bool) (ta n : Nat) : Nat := (taGrains s eg ta n).length

/-- The tributary comes into existence or changes at cycle `n` (05 R123). -/
def taNew (s : State) (eg : Bool) (ta n : Nat) : Bool := taGrains s eg ta n != taGrains s eg ta (n - 1)

/-- The ingress tributary that holds grain `g` of lane `l` in cycle `n`. -/
def taOfGrain (s : State) (l g n : Nat) : Option Nat :=
  match (mapAt s false l n).ents.find? (fun x => x.1 == g) with
  | some (_, t) => some (1024 * l + t)
  | none => none

/-- Client bits of a cycle (05 R124). -/
def clientLen (g d : Nat) : Nat := if 8 ≤ g then 16 * g - 128 + d else 16 * g

/-- Nominal client bits (05 R128). -/
def clientNom (g : Nat) : Nat := if 8 ≤ g then 16 * g - 64 else 16 * g

/-! ## Start-up state and access -/

/-- Defects of a tributary at start-up (07 Table 7.13, R207). -/
def taDefReset : TaDef :=
  { prof := 0, degEn := true, sfSrc := 0b111, jcN := 3, en := 0b1111, cond := 0, since := [], decl := 0, declAt := [], hist := 0, winAt := 0,
    winExp := 6, winS := 1, checked := 0, errors := 0, clamp := false, lastE := 0, lastC := 0, intAt := none }

/-- A Rate Absorber share at start-up. -/
def shareReset : RaShare := { on := false, d := 64, got := 0, bits := [], rd := 0, zero := 0, e := 0, tag := none, at_ := 0, new_ := false }

/-- An ingress tributary at start-up (05 Table 5.7). -/
def inTaReset (_ : Nat) : InTa :=
  { tag := [], prev := none, cur := none, cycs := [], jcRun := 0, jcSf := false, mf := [], lab := none, labAt := none, pend := none, cand := none, fails := 0,
    lomf := false, hist := 0, ra := shareReset, slips := 0, slipAt := none, authAt := none, df := taDefReset }

/-- No source (05 R475). -/
def noTa : Nat := 0x3FFFF

/-- Egress settings at start-up (05 Table 5.7). -/
def egSetReset : EgSet :=
  { src := noTa, jct := 2, stat := true, rdi := false, fsf := false, ql := 0, acc := 0, accId := 0, seq := 0, last := false }

/-- An egress tributary at start-up. -/
def egTaReset (_ : Nat) : EgTa :=
  { set := [], crc := none, info := none, d := 64, label := 0, hist := false, split := false, splitH := false, splitS := false, df := taDefReset }

/-- A defect profile at start-up. -/
def profReset (_ : Nat) : Profile := { exp := 6, winS := 1, tset := 0, tclear := 80 }

/-- Default of the member places: none. -/
def noMember (_ : Nat) : Nat := noTa

/-- Settings of an accord at start-up: disabled (05 R155). -/
def accSetReset : AccSet := { en := false, aligned := false, id := 0, depth := 64, margin := 0, frames := 8, mem := [] }

/-- An accord at start-up. -/
def accReset (_ : Nat) : Accord := { set := [], om := [], used := [], run := [], oref := none, skew := [], owed := [], lost := false, lostAt := 0, hist := 0 }

def inTa (s : State) (ta : Nat) : InTa := tget inTaReset s.trib.inTa ta
def egTa (s : State) (ta : Nat) : EgTa := tget egTaReset s.trib.egTa ta
def accord (s : State) (a : Nat) : Accord := tget accReset s.trib.acc a
def profile (s : State) (p : Nat) : Profile := tget profReset s.trib.prof p

/-- Changes an ingress tributary, an egress tributary, an accord. -/
def modIn (ta : Nat) (f : InTa → InTa) (s : State) : State :=
  { s with trib := { s.trib with inTa := tset inTaReset ta (f (inTa s ta)) s.trib.inTa } }
def modEg (ta : Nat) (f : EgTa → EgTa) (s : State) : State :=
  { s with trib := { s.trib with egTa := tset egTaReset ta (f (egTa s ta)) s.trib.egTa } }
def modAcc (a : Nat) (f : Accord → Accord) (s : State) : State :=
  { s with trib := { s.trib with acc := tset accReset a (f (accord s a)) s.trib.acc } }

/-- `TAG_CHECK` in cycle `n`. -/
def tagOn (s : State) (ta n : Nat) : Bool := verAt true n (inTa s ta).tag

/-- Egress settings in egress cycle `m`. -/
def egSet (s : State) (ta m : Nat) : EgSet := verAt egSetReset m (egTa s ta).set

/-- The settings of an accord that govern cycle `n`, those in force, and those committed last (02 R53). -/
def accAt (s : State) (ai n : Nat) : AccSet := verAt accSetReset n (accord s ai).set
def accNow (s : State) (ai : Nat) : AccSet := accAt s ai (curCycle s)
def accNew (s : State) (ai : Nat) : AccSet := verNew accSetReset (accord s ai).set

/-- Settings of an accord are committed for cycle `k`. -/
def putAcc (ai k : Nat) (c : AccSet) (s : State) : State := modAcc ai (fun a => { a with set := verPut (curCycle s) k c a.set }) s

/-- Place of a TA among members. -/
def placeIn (c : AccSet) (ta : Nat) : Option Nat := (c.mem.find? (fun y => y.2 == ta)).map (·.1)

/-- The accord and place that a TA is bound to in cycle `n`, now, and by the last commits (05 R140). -/
def memberAt (s : State) (ta n : Nat) : Option (Nat × Nat) :=
  s.trib.acc.findSome? (fun x => (placeIn (verAt accSetReset n x.2.set) ta).map (fun p => (x.1, p)))
def memberOf (s : State) (ta : Nat) : Option (Nat × Nat) := memberAt s ta (curCycle s)
def memberNew (s : State) (ta : Nat) : Option (Nat × Nat) :=
  s.trib.acc.findSome? (fun x => (placeIn (verNew accSetReset x.2.set) ta).map (fun p => (x.1, p)))

/-! ## Aligner store (05 R148, R152) -/

/-- Units for G grains over `depth` cycles. -/
def unitsFor (g depth : Nat) : Nat := (2 * g * depth + 1023) / 1024

/-- The size of an ingress tributary under the newest map. -/
def sizeNew (s : State) (ta : Nat) : Nat := taSize s false ta (s.clk.ticks + 16)

/-- Units of one member of an accord. -/
def memUnits (s : State) (a : AccSet) (ta : Nat) : Nat := if a.aligned then unitsFor (sizeNew s ta) a.depth else 0

/-- Units that will not have returned by cycle `n`, by use. -/
def unitsReturning (s : State) (n use : Nat) : Nat :=
  (s.trib.ret.filter (fun x => decide (n < x.1) && x.2.1 == use)).foldl (fun v x => v + x.2.2) 0

/-- Units reserved for accords, Path Equaliser and checked release as of cycle `n` (05 R154). -/
def accordUnits (s : State) (n : Nat) : Nat :=
  s.trib.acc.foldl (fun v x =>
    let c := verNew accSetReset x.2.set
    v + c.mem.foldl (fun v y => v + memUnits s c y.2) 0) 0 + unitsReturning s n 0
def eqUnits (s : State) (n : Nat) : Nat :=
  s.conn.eq.foldl (fun v x => v + (if x.2.st = 0 then 0 else x.2.units)) 0 + unitsReturning s n 1
def checkedUnits (s : State) (n : Nat) : Nat := s.trib.unitC.foldl (fun v x => v + x.2) 0 + unitsReturning s n 2

/-- Free units as of cycle `n` (05 R148; 06 R184). -/
def freeUnits (s : State) (n : Nat) : Nat := 65536 - accordUnits s n - eqUnits s n - checkedUnits s n

/-- Units go back to the pool 64 cycles after cycle `k`. -/
def returnUnits (k use n : Nat) (s : State) : State :=
  if n = 0 then s else { s with trib := { s.trib with ret := s.trib.ret ++ [(k + 64, use, n)] } }

/-- ALIGNER_UNITS_RETURN (05 R152; 06 R177). -/
def execAlignerUnitsReturn (s : State) : Host.Outcome State Fault Refusal :=
  .next { s with trib := { s.trib with ret := s.trib.ret.filter (fun x => decide (curCycle s < x.1)) } }

/-- Accord, equaliser and checked delay of a TA for data cycle `n` (05 R145; 06 R172; 11 R292). -/
def delayA (s : State) (ta n : Nat) : Nat := verAt 0 n (tget noVer s.trib.delA ta)
def delayE (s : State) (ta n : Nat) : Nat := verAt 0 n (tget noVer s.trib.delE ta)
def delayC (s : State) (ta n : Nat) : Nat := verAt 0 n (tget noVer s.trib.delC ta)

/-- A delay takes hold from cycle `k` on. -/
def putA (ta k d : Nat) (s : State) : State :=
  { s with trib := { s.trib with delA := tset noVer ta (verPut (curCycle s) k d (tget noVer s.trib.delA ta)) s.trib.delA } }
def putE (ta k d : Nat) (s : State) : State :=
  { s with trib := { s.trib with delE := tset noVer ta (verIns (curCycle s) k d (tget noVer s.trib.delE ta)) s.trib.delE } }
def putC (ta k d : Nat) (s : State) : State :=
  { s with trib := { s.trib with delC := tset noVer ta (verPut (curCycle s) k d (tget noVer s.trib.delC ta)) s.trib.delC } }

/-- The Aligner store holds the tributary's grains from cycle `k` on. -/
def storeFrom (ta k : Nat) (s : State) : State :=
  match tget noTime s.trib.store ta with
  | some _ => s
  | none => { s with trib := { s.trib with store := tset noTime ta (some k) s.trib.store } }

/-- The Aligner store holds the tributary's grains of cycle `n`. -/
def stored (s : State) (ta n : Nat) : Bool := match tget noTime s.trib.store ta with | some k => decide (k ≤ n) | none => false

/-- When no use is left and no cycle still to be passed is delayed, the store lets the tributary go. -/
def storeRelease (ta : Nat) (s : State) : State :=
  let acc := (match memberOf s ta with | some (a, _) => (accNow s a).aligned | none => false)
    || (match memberNew s ta with | some (a, _) => (accNew s a).aligned | none => false)
  let eq := s.conn.eq.any (fun x => x.2.ta == ta && x.2.st != 0)
  let now := curCycle s
  let used (n : Nat) : Bool := delayA s ta n + delayE s ta n + delayC s ta n != 0
  if acc || eq || tget zeroN s.trib.unitC ta != 0 || used now || used (now - 1) then s
  else { s with trib := { s.trib with store := tset noTime ta none s.trib.store } }

/-! ## Tributary defects (07 R197 to R200) -/

/-- Event index of a tributary (07 Table 7.9). -/
def taIndex (eg : Bool) (ta : Nat) : Nat := ta + 2 ^ 23 * b2n eg

/-- Defects of a tributary in a direction. -/
def taDef (s : State) (eg : Bool) (ta : Nat) : TaDef := if eg then (egTa s ta).df else (inTa s ta).df

/-- Changes them. -/
def modTd (eg : Bool) (ta : Nat) (f : TaDef → TaDef) (s : State) : State :=
  if eg then modEg ta (fun x => { x with df := f x.df }) s else modIn ta (fun x => { x with df := f x.df }) s

/-- Places of an accord whose `LOMF` is declared. -/
def lostPlaces (s : State) (ai : Nat) : List Nat := ((accNow s ai).mem.filter (fun y => (inTa s y.2).df.decl.getLsbD 2)).map (·.1)

/-- `MEMBER_LOST` follows the declared `LOMF` of an accord's members (07 Table 7.3), at the elapsed time `t`. -/
def memberLost (ai t : Nat) (s : State) : State :=
  let ps := lostPlaces s ai
  let on := !ps.isEmpty
  if on = (accord s ai).lost then s
  else raiseAt t 0x04 0x01 ai (wd (ps.headD 0)) on (modAcc ai (fun a => { a with lost := on, lostAt := if on then t else a.lostAt }) s)

/-- A tributary defect is declared or cleared (07 R196, R197, R205), at the elapsed time `t` (07 R191). -/
def taDefect (eg : Bool) (ta b : Nat) (on : Bool) (t : Nat) (s : State) : State :=
  let d := taDef s eg ta
  let decl := if on then d.decl ||| (1#4 <<< b) else d.decl &&& ~~~(1#4 <<< b)
  let s := modTd eg ta (fun d => { d with
    decl, hist := if on then d.hist ||| (1#4 <<< b) else d.hist, declAt := if on then tset zeroN b t d.declAt else d.declAt }) s
  let extra := match b, d.intAt with | 3, some (_, src, dl) => 16 * src + 2 ^ 22 * b2n dl | _, _ => 0
  let s := if d.en.getLsbD b then raiseAt t 0x03 (b + 1) (taIndex eg ta) (wd (decl.toNat + extra)) on s else s
  if b = 2 then (match memberOf s ta with | some (a, _) => memberLost a t s | none => s) else s

/-- The loss-of-multiframe condition of a member (05 R143), which a tributary has while it exists (07 R200). -/
def lomfCond (s : State) (ta : Nat) : Bool :=
  (memberOf s ta).isSome && decide (0 < taSize s false ta (curCycle s)) && ((inTa s ta).lomf || !isAligned (lane s (ta / 1024)))

/-- An `SF` source is present (07 R197). -/
def sfCond (s : State) (ta : Nat) : Bool :=
  let x := inTa s ta
  let d := (lane s (ta / 1024)).ldef.decl
  decide (0 < taSize s false ta (curCycle s)) &&
    ((x.df.sfSrc.getLsbD 0 && (d &&& 0b110111) != 0) || (x.df.sfSrc.getLsbD 1 && x.jcSf) || (x.df.sfSrc.getLsbD 2 && lomfCond s ta))

/-- Sets a condition and the time of its change. -/
def setTaCond (ta b : Nat) (v : Bool) (s : State) : State :=
  if (inTa s ta).df.cond.getLsbD b = v then s
  else modTd false ta (fun d => { d with cond := d.cond ^^^ (1#4 <<< b), since := tset zeroN b s.clk.now d.since }) s

/-- Brings `SF` and `LOMF` of an ingress tributary up to date; history of LOMF and of `MEMBER_LOST` (05 Tables 5.8, 5.12). -/
def taSync (ta : Nat) (s : State) : State :=
  let lm := lomfCond s ta
  let s := setTaCond ta 0 (sfCond s ta) (setTaCond ta 2 lm s)
  if !lm then s
  else
    let s := modIn ta (fun x => { x with hist := x.hist ||| 0b10000 }) s
    match memberOf s ta with
    | some (a, _) => modAcc a (fun a => { a with hist := a.hist ||| 1 }) s
    | none => s

/-- The ingress tributaries of a lane. -/
def laneTas (s : State) (l : Nat) : List Nat := (tribIds (mapAt s false l (curCycle s))).map (fun t => 1024 * l + t)

/-- After a change of a lane's alignment or declared defects. -/
def laneTaSync (l : Nat) (s : State) : State := (laneTas s l).foldl (fun s ta => taSync ta s) s

/-- A member takes the loss-of-multiframe condition with its lane's loss of frame (05 R143), and will be measured afresh (05 R146). -/
def memberLof (ta : Nat) (s : State) : State :=
  match memberOf s ta with
  | some (a, p) => modAcc a (fun x => { x with run := tdel p x.run })
      (modIn ta (fun x => { x with lomf := true, fails := 0, cand := none, pend := none }) s)
  | none => s

/-! ## Seal bindings (11 R285, R291, R296) -/

def noTx (_ : Nat) : Option TxSeal := none
def noRx (_ : Nat) : Option RxSeal := none
def txSeal (s : State) (ta : Nat) : Option TxSeal := tget noTx s.keys.tx ta
def rxSeal (s : State) (ta : Nat) : Option RxSeal := tget noRx s.keys.rx ta
def setTx (ta : Nat) (b : Option TxSeal) (s : State) : State := { s with keys := { s.keys with tx := tset noTx ta b s.keys.tx } }
def setRx (ta : Nat) (b : Option RxSeal) (s : State) : State := { s with keys := { s.keys with rx := tset noRx ta b s.keys.rx } }

/-- The bindings of one direction as committed: TA, pair, salt, fast release. -/
def sealBinds (s : State) (rx : Bool) : List (Nat × Nat × Word × Bool) :=
  let now := if rx then s.keys.rx.filterMap (fun x => x.2.map (fun b => (x.1, b.pair, b.salt, b.fast)))
    else s.keys.tx.filterMap (fun x => x.2.map (fun b => (x.1, b.pair, b.salt, false)))
  s.port.staged.foldl (fun l x => match x.w with
    | .cmd 0x08 act ws _ =>
      if act = (if rx then 0x11 else 0x10) then
        let ta := pf ws 0 17 0
        let l := l.filter (fun y => y.1 != ta)
        if pb ws 0 18 then l ++ [(ta, pf ws 1 11 0, wAt ws 2, rx && pb ws 0 19)] else l
      else l
    | _ => l) now

/-- A TA has a checked-release binding, as committed (11 R292). -/
def checkedBound (s : State) (ta : Nat) : Bool := (sealBinds s true).any (fun x => x.1 == ta && !x.2.2.2)

/-- The lane of an opened tributary loses frame: the frame being received fails, and so does the one before it while its tag is being
received (11 R291). -/
def openLof (ta : Nat) (s : State) : State :=
  let r := (lane s (ta / 1024)).rx
  match rxSeal s ta with
  | none => s
  | some b => setRx ta (some { b with
      cur := b.cur.map (fun c => { c with bad := true })
      wait := b.wait.map (fun w => if 3 ≤ r.pCyc && r.pCyc ≤ 6 then { w with bad := true } else w) }) s

/-- Lanes whose alignment or declared defects have changed between two states: members of a lane that has lost alignment have the
loss-of-multiframe condition (05 R143), frames being opened fail (11 R291), and `SF` follows (07 R197). -/
def alignHook (s0 s : State) : State :=
  allLanes.foldl (fun s l =>
    if isAligned (lane s0 l) = isAligned (lane s l) && (lane s0 l).ldef.decl = (lane s l).ldef.decl then s
    else
      let s := if isAligned (lane s l) || !isAligned (lane s0 l) then s else (laneTas s l).foldl (fun s ta => openLof ta (memberLof ta s)) s
      laneTaSync l s) s

/-- Elapsed time at which the timer of tributary defect `b` runs out for declaring, or for clearing (07 R191). -/
def taSetAt (s : State) (ta b : Nat) : Nat :=
  let d := (inTa s ta).df
  max (tget zeroN d.since b) s.dev.upAt + (profile s d.prof).tset * stepNs
def taClearAt (s : State) (ta b : Nat) : Nat :=
  let d := (inTa s ta).df
  max (tget zeroN d.since b) s.dev.upAt + (profile s d.prof).tclear * stepNs

/-- The timer of tributary defect `b` has run out for declaring (07 R191); a Lane Engine swap holds the lane's timers only (07 R195). -/
def taDeclareDue (s : State) (ta b : Nat) : Bool :=
  let d := (inTa s ta).df
  running s && d.cond.getLsbD b && !d.decl.getLsbD b && (b == 0 || b == 2)
    && decide (taSetAt s ta b ≤ s.clk.now)

/-- The timer of tributary defect `b` has run out for clearing. -/
def taClearDue (s : State) (ta b : Nat) : Bool :=
  let d := (inTa s ta).df
  running s && !d.cond.getLsbD b && d.decl.getLsbD b && (b == 0 || b == 2)
    && decide (taClearAt s ta b ≤ s.clk.now)

/-- Elapsed time at which `T_CLEAR` has passed since the last internal verdict (07 Table 7.3). -/
def intClearAt (s : State) (ta : Nat) : Nat :=
  let d := (egTa s ta).df
  match d.intAt with
  | some (t, _, _) => t + (profile s d.prof).tclear * stepNs
  | none => s.clk.now

/-- `T_CLEAR` has passed since then. -/
def intClearDue (s : State) (ta : Nat) : Bool :=
  running s && (egTa s ta).df.decl.getLsbD 3 && decide (intClearAt s ta ≤ s.clk.now)

/-- DEFECT_DECLARE, without what protection does (07 R191). -/
def defectDeclare (o : DefectObj) (b : Nat) (s : State) : State :=
  match o with
  | .lane l => if b < 6 && laneDeclareDue s l b then laneTaSync l (laneDefect l b true (laneSetAt s l b) s) else s
  | .ingress ta => if taDeclareDue s ta b then taDefect false ta b true (taSetAt s ta b) s else s
  | .egress _ => s

/-- DEFECT_CLEAR, without what protection does (07 R191). -/
def defectClear (o : DefectObj) (b : Nat) (s : State) : State :=
  match o with
  | .lane l => if b < 6 && laneClearDue s l b then laneTaSync l (laneDefect l b false (laneClearAt s l b) s) else s
  | .ingress ta => if taClearDue s ta b then taDefect false ta b false (taClearAt s ta b) s else s
  | .egress ta => if b = 3 && intClearDue s ta then taDefect true ta 3 false (intClearAt s ta) s else s

/-- The first frame tick at or after tick number `t`. -/
def nextFrame (s : State) (t : Nat) : Nat := t + (8 - (fcOf s t).2) % 8

/-- Begin of the `DEG` window in progress. -/
def degStart (s : State) (ta : Nat) : Nat := nextFrame s (inTa s ta).df.winAt

/-- N and `DEG_CLAMPED` (07 R198). -/
def degN (g exp w : Nat) : Nat × Bool :=
  let n := max 1 ((clientNom g * 64000 * w + 10 ^ exp - 1) / 10 ^ exp)
  if 32000 * w < n then (32000 * w, true) else (n, false)

/-- A `DEG` window begins afresh from tick number `t` on, under the profile now in force (07 R198, R206). -/
def degRestart (ta t : Nat) (s : State) : State :=
  let p := profile s (inTa s ta).df.prof
  modTd false ta (fun d => { d with winAt := t, winExp := p.exp, winS := p.winS, checked := 0, errors := 0 }) s

/-- One checked data cycle of a tributary in its `DEG` window. -/
def degCount (ta : Nat) (err : Bool) (s : State) : State :=
  let d := (inTa s ta).df
  if d.degEn && decide (degStart s ta ≤ curCycle s) then
    modTd false ta (fun d => { d with checked := d.checked + 1, errors := d.errors + b2n err }) s
  else s

/-- The `DEG` window of a tributary has ended (07 R198): windows follow one another whether or not checks are made in them. -/
def degDue (s : State) (ta : Nat) : Bool :=
  let d := (inTa s ta).df
  running s && d.degEn && decide (0 < taSize s false ta (curCycle s))
    && decide (degStart s ta + 64000 * d.winS ≤ curCycle s)

/-- The end of a `DEG` window. -/
def degEnd (ta : Nat) (s : State) : State :=
  let d := (inTa s ta).df
  let (n, clamp) := degN (taSize s false ta (curCycle s)) d.winExp d.winS
  let at_ := degStart s ta + 64000 * d.winS
  let t := s.clk.tickAt - cycleNs * (curCycle s - at_)
  let s1 := modTd false ta (fun d => { d with lastE := d.errors, lastC := d.checked, clamp }) s
  let s1 := if d.checked < 32000 * d.winS then s1
    else if n ≤ d.errors then (if d.decl.getLsbD 1 then s1 else taDefect false ta 1 true t s1)
    else (if d.decl.getLsbD 1 then taDefect false ta 1 false t s1 else s1)
  degRestart ta at_ s1

/-- A changed tributary: its declared defects are cleared with a record each, its timers and window restart (07 R200). -/
def taRestart (eg : Bool) (ta : Nat) (s : State) : State :=
  let s := [0, 1, 2, 3].foldl (fun s b => if (taDef s eg ta).decl.getLsbD b then taDefect eg ta b false s.clk.now s else s) s
  let s := modTd eg ta (fun d => { d with since := (List.range 4).map (fun b => (b, s.clk.now)), intAt := none }) s
  if eg then s else degRestart ta (curCycle s) (taSync ta (modIn ta (fun x => { x with jcRun := 0, jcSf := false }) s))

/-! ## Accords (05 R140 to R147) -/

/-- The difference of two offsets in serial arithmetic (02 R41). -/
def sdiff (a b : Word) : Int := (a - b).toInt

/-- Default tables of an accord. -/
def noOff (_ : Nat) : Option Word := none
def noRun (_ : Nat) : Word × Nat := (0, 0)

/-- Offset last measured of the member in a place. -/
def offOf (s : State) (ai p : Nat) : Option Word := tget noOff (accord s ai).om p

/-- Bound places whose member has no loss-of-multiframe condition. -/
def livePlaces (s : State) (ai : Nat) : List Nat := ((accNow s ai).mem.filter (fun y => !lomfCond s y.2)).map (·.1)

/-- Their offsets. -/
def liveOffsets (s : State) (ai : Nat) : List Word := (livePlaces s ai).filterMap (offOf s ai)

/-- The largest of some offsets. -/
def maxOff : List Word → Option Word
  | [] => none
  | x :: t => match maxOff t with | some y => some (if 0 < sdiff y x then y else x) | none => some x

/-- The smallest. -/
def minOff : List Word → Option Word
  | [] => none
  | x :: t => match minOff t with | some y => some (if sdiff y x < 0 then y else x) | none => some x

/-- Skew (05 R144). -/
def accSkew (s : State) (ai : Nat) : Nat :=
  match maxOff (liveOffsets s ai), minOff (liveOffsets s ai) with
  | some x, some y => (sdiff x y).toNat
  | _, _ => 0

/-- o_ref as a recomputation gives it (05 R145). -/
def newRef (s : State) (ai : Nat) : Option Word := (maxOff (liveOffsets s ai)).map (fun x => x + wd (accNow s ai).margin)

/-- A place's new offset has lasted: it is due for a change of delay (05 R146). -/
def placeDue (s : State) (ai p : Nat) : Bool :=
  let a := accord s ai
  (livePlaces s ai).contains p && decide ((accNow s ai).frames ≤ (tget noRun a.run p).2) && tget noOff a.used p != offOf s ai p

/-- The delay a member needs under a reference offset. -/
def needDelay (s : State) (ai : Nat) (ref : Word) (p : Nat) : Option Int := (offOf s ai p).map (fun o => sdiff ref o)

/-- Every measured member whose delay would change lies in 0 to `DEPTH` under a reference offset. -/
def allFit (s : State) (ai : Nat) (ref : Word) : Bool :=
  (livePlaces s ai).all (fun p => match needDelay s ai ref p with
    | some d => decide (0 ≤ d) && decide (d ≤ (accNow s ai).depth)
    | none => true)

/-- The delay that a place needs cannot be given (05 R146). -/
def placeOut (s : State) (ai p : Nat) : Bool :=
  match (accord s ai).oref.orElse (fun _ => newRef s ai) with
  | none => false
  | some ref => match needDelay s ai ref p with
    | none => false
    | some d =>
      if d < 0 then (match newRef s ai with | some r => !allFit s ai r | none => true) else decide (((accNow s ai).depth : Int) < d)

/-- Places for which the `ACCORD_SKEW` condition is present: it begins with a due member that cannot be placed, and ends when the
delay the member needs can be given (05 R146). -/
def skewPlaces (s : State) (ai : Nat) : List Nat :=
  let c := accNow s ai
  if c.en && c.aligned then
    (c.mem.map (·.1)).filter (fun p => placeOut s ai p && (placeDue s ai p || (accord s ai).skew.contains p))
  else []

/-- The delay that a place needs under the reference offset in force is below 0: o_ref is to be recomputed (05 R146). -/
def needsRef (s : State) (ai p : Nat) : Bool :=
  match (accord s ai).oref with
  | some ref => (match needDelay s ai ref p with | some d => decide (d < 0) | none => false)
  | none => false

/-- The `ACCORD_SKEW` condition at a frame tick: raised when it begins; its end by a recomputation that now fits makes that
recomputation due (05 R146; 07 Table 7.10). -/
def accordSkew (ai : Nat) (s : State) : State :=
  let a := accord s ai
  let k := skewPlaces s ai
  if k = a.skew then s
  else
    let redo := a.skew.filter (fun p => !k.contains p && needsRef s ai p)
    let s := modAcc ai (fun a => { a with skew := k, owed := redo ++ a.owed, hist := if k.isEmpty then a.hist else a.hist ||| 2 }) s
    if a.skew.isEmpty then pulse 0x04 0x10 ai (wd (accSkew s ai)) false s else s

/-- One member's delay changes to what a reference offset gives, from the cycle in progress on. -/
def placeMember (ai : Nat) (ref : Word) (p : Nat) (s : State) : State :=
  match needDelay s ai ref p with
  | none => s
  | some d =>
    let o := offOf s ai p
    let s := putA (tget noMember (accNow s ai).mem p) (curCycle s) d.toNat s
    modAcc ai (fun a => { a with oref := some ref, used := tset noOff p o a.used }) s

/-- The Aligner acts on the due members of an accord (05 R146); answers the places that changed. A member with the
loss-of-multiframe condition keeps its delay. -/
def accordAct (ai : Nat) (s : State) : State × List Nat :=
  ((accNow s ai).mem.map (·.1)).foldl (fun (s, ch) p =>
    if !(placeDue s ai p || ((accord s ai).owed.contains p && needsRef s ai p)) || placeOut s ai p then (s, ch)
    else match (accord s ai).oref.orElse (fun _ => newRef s ai) with
      | none => (s, ch)
      | some ref =>
        match needDelay s ai ref p with
        | none => (s, ch)
        | some d =>
          if 0 ≤ d then (placeMember ai ref p s, ch ++ [p])
          else match newRef s ai with
            | none => (s, ch)
            | some r =>
              let ps := (livePlaces s ai).filter (fun q => (offOf s ai q).isSome)
              (ps.foldl (fun s q => placeMember ai r q s) s, ch ++ ps)) (s, [])

/-- ACCORD_REALIGN (05 R146): at a frame tick. -/
def accordRealign (ai : Nat) (s : State) : State :=
  let c := accNow s ai
  if running s && c.en && c.aligned && s.clk.cyc = 0 then
    let (s1, ch) := accordAct ai s
    let s1 := modAcc ai (fun a => { a with owed := [] }) s1
    let ch := (List.range 64).filter (fun p => ch.contains p)
    match ch with
    | [] => s1
    | p :: _ =>
      pulse 0x04 0x11 ai (wd (p + 64 * ch.length)) false (modAcc ai (fun a => { a with hist := a.hist ||| 4 }) s1)
  else s

/-- ACCORD_REALIGN. -/
def execAccordRealign (ai : Nat) (s : State) : Host.Outcome State Fault Refusal :=
  if ai < 16384 then .next (accordRealign ai s) else .refused (.illFormed "ACCORD_REALIGN")

/-- A place is measured afresh: its new offset has not lasted any frame (05 R146). -/
def runReset (ai p : Nat) (s : State) : State := modAcc ai (fun a => { a with run := tset noRun p (0, 0) a.run }) s

/-- A member's offset is measured for core cycle `k` (05 R144). -/
def measureOffset (ai p ta k : Nat) (mfc : Word) (s : State) : State :=
  let a := accord s ai
  if tget noMember (accAt s ai k).mem p = ta then
    let o := BitVec.ofNat 32 (absIdx s k) - mfc
    let run := if tget noOff a.used p = some o then (o, 0)
      else if (tget noRun a.run p).1 = o && decide (0 < (tget noRun a.run p).2) then (o, (tget noRun a.run p).2 + 1) else (o, 1)
    modAcc ai (fun a => { a with om := tset noOff p (some o) a.om, run := tset noRun p run a.run }) s
  else s

/-- The data of a consistent label reaches the core in core cycle `k`: the label stands for it, and a member is measured (05 R142,
R144). -/
def labelled (ta k : Nat) (mfc : Word) (s : State) : State :=
  let s := modIn ta (fun x => { x with labAt := some (mfc, k), pend := none }) s
  match memberAt s ta k with
  | some (a, p) => measureOffset a p ta k mfc s
  | none => s

/-- Cycle 1 of a frame of an ingress tributary, carried in core cycle `k` (05 R142 to R144): multiframe check and label. The label of
a tributary that is no member is renewed as a member's is: after two frames that fail, by two consistent ones (05 R142). On a PLESIO
lane the data reaches the core once the Rate Absorber presents it. -/
def frameCheck (ta k : Nat) (s : State) : State :=
  let x := inTa s ta
  let b (i : Nat) : Nat := ((tget (fun _ => []) x.mf 0).getD i 0).toNat
  let mfc := wd (beNat (tget (fun _ => []) x.mf 1))
  let mem := memberAt s ta k
  let idOk := decide (128 ≤ b 3) && (match mem with
    | some (a, p) => b 0 * 256 + b 1 == (accAt s a k).id && b 2 == p
    | none => true)
  let pair := idOk && x.cand == some (mfc - 8)
  let lost := if mem.isSome then x.lomf else decide (2 ≤ x.fails)
  let pass := idOk && !lost && (match x.lab with | some l => mfc == l + 8 | none => false)
  let good := pass || ((lost || x.lab.isNone) && pair)
  let fails := if good then 0 else x.fails + 1
  let s := modIn ta (fun x => { x with
    cand := if idOk then some mfc else none
    lab := if good then some mfc else x.lab
    fails := min fails 2
    lomf := if good then false else x.lomf || (mem.isSome && decide (2 ≤ fails)) }) s
  let s := taSync ta s
  if good then
    if plesioAt s (ta / 1024) k then modIn ta (fun y => { y with pend := some (mfc, x.ra.got, (lane s (ta / 1024)).rx.count) }) s
    else labelled ta k mfc s
  else match mem with
    | some (a, p) => runReset a p s
    | none => s

/-- The settings of an accord that hold from the cycle that begins (05 R145, R152, R153): a place whose member changes is measured
afresh, a member that leaves is undelayed, one that joins begins its multiframe check. -/
def accordEffect (ai : Nat) (s : State) : State :=
  let k := curCycle s
  let c0 := accAt s ai (k - 1)
  let c1 := accAt s ai k
  let ch := (List.range 64).filter (fun p => tget noMember c0.mem p ≠ tget noMember c1.mem p)
  let s := modAcc ai (fun a => { a with
    om := a.om.filter (fun y => !ch.contains y.1), used := a.used.filter (fun y => !ch.contains y.1)
    run := a.run.filter (fun y => !ch.contains y.1), skew := a.skew.filter (fun p => !ch.contains p), owed := a.owed.filter (fun p => !ch.contains p)
    oref := if c0.en && c1.en then a.oref else none }) s
  let s := ch.foldl (fun s p =>
    let t0 := tget noMember c0.mem p
    let t1 := tget noMember c1.mem p
    let s := if t0 = noTa then s else taSync t0 (storeRelease t0 (if delayA s t0 k = 0 then s else putA t0 k 0 s))
    if t1 = noTa then s
    else taSync t1 (modIn t1 (fun x => { x with cand := none, fails := 0, lomf := !isAligned (lane s (t1 / 1024)) }) s)) s
  memberLost ai s.clk.now s

/-! ## Commands (05 R150 to R154) -/

/-- A descriptor address: reserved bits, alignment and area (12 R340, R473). -/
def descOk (ws : List Word) (i : Nat) : Bool := rsv0 ws i 31 23 && areaOk (pf ws i 22 0) 16 16

/-- Form of `TRIB_MAP_LOAD` (05 Table 5.6). -/
def formTribMapLoad (ws : List Word) : Bool := formLane ws && rsv0 ws 0 15 9 && descOk ws 1

/-- A load of the same lane and direction has not yet changed roles (05 R122). -/
def mapBusy (s : State) (ws : List Word) : Bool :=
  let same (p : List Word) := pf p 0 8 0 == pf ws 0 8 0
  (findJob s (fun j => j.cls == 3 && j.act == 0x10 && same j.params)).isSome ||
  (tget noVer (if pb ws 0 8 then s.trib.egMap else s.trib.inMap) (pf ws 0 7 0)).any (fun x => decide (curCycle s < x.1))

/-- The entries of a map buffer, none when a reserved bit is set (05 R151). -/
def parseMap : Nat → List Byte → Option (Tbl Nat)
  | g, a :: b :: t =>
    if b.toNat / 4 % 32 ≠ 0 then none
    else match parseMap (g + 1) t with
      | none => none
      | some l => some (if 128 ≤ b.toNat then (g, a.toNat + 256 * (b.toNat % 4)) :: l else l)
  | _, _ => some []

/-- `TRIB_MAP_LOAD` reaches its descriptor (05 R122, R151). -/
def tribMapReach (p : Packet) (s : State) : Res :=
  let a := pf p.params 1 22 0
  match takeBuffer (· == 196608) a s with
  | none => .wait (.desc a) [] [] s
  | some (some st, _, s) => refuse st s
  | some (none, img, s) => if (parseMap 0 img).isNone then refuse .badParam s else .wait .port img [] s

/-- `TRIB_MAP_LOAD` (05 R122): busy while a load of the same lane and direction has not taken hold. -/
def bodyTribMapLoad (p : Packet) (s : State) : Res := if mapBusy s p.params then refuse .busy s else tribMapReach p s

/-- Egress bindings that keep sizes equal in the egress cycle `m` (05 R137): egress TA and its source. -/
def sizedPairs (s : State) (m : Nat) : List (Nat × Nat) :=
  s.trib.egTa.filterMap (fun x =>
    let e := verAt egSetReset m x.2.set
    if e.jct ≠ 2 && e.src ≠ noTa then some (x.1, e.src) else none)

/-- Two sizes that differ while both exist. -/
def sizesClash (a b : Nat) : Bool := decide (a ≠ 0) && decide (b ≠ 0) && decide (a ≠ b)

/-- TAs of a new map that R137 or R149 refuses, effective at `k`. -/
def mapBad (ws : List Word) (m : TMap) (k : Nat) (s : State) : List Nat :=
  let l := pf ws 0 7 0
  let new (ta : Nat) := (tribGrains m (ta % 1024)).length
  if pb ws 0 8 then
    ((sizedPairs s (k + 3)).filter (fun x => x.1 / 1024 == l && sizesClash (new x.1) (taSize s false x.2 k))).map (·.1)
  else
    ((sizedPairs s (k + 3)).filter (fun x => x.2 / 1024 == l && sizesClash (new x.2) (taSize s true x.1 (k + 3)))).map (·.2)
    ++ ((s.trib.acc.map (fun x => verNew accSetReset x.2.set)).filter (fun c => c.aligned)).flatMap (fun c =>
      (c.mem.filter (fun y => y.2 / 1024 == l && new y.2 != taSize s false y.2 k)).map (·.2))

/-- A new map is committed for cycle `k` (05 R122). -/
def mapCommit (ws : List Word) (m : TMap) (k : Nat) (s : State) : State :=
  let l := pf ws 0 7 0
  let now := curCycle s
  if pb ws 0 8 then { s with trib := { s.trib with egMap := tset noVer l (verPut now (k + 3) m (tget noVer s.trib.egMap l)) s.trib.egMap } }
  else { s with trib := { s.trib with inMap := tset noVer l (verPut now k m (tget noVer s.trib.inMap l)) s.trib.inMap } }

/-- The tick at which a map takes effect: changed tributaries restart (07 R200). -/
def mapEffect (ws : List Word) (s : State) : State :=
  let l := pf ws 0 7 0
  let eg := pb ws 0 8
  let n := curCycle s
  let ids := (List.range 1024).filter (fun t =>
    (mapAt s eg l n).ents.any (fun x => x.2 == t) || (mapAt s eg l (n - 1)).ents.any (fun x => x.2 == t))
  ids.foldl (fun s t => if taNew s eg (1024 * l + t) n then taRestart eg (1024 * l + t) s else s) s

/-- Form of `TRIB_SET` (05 Table 5.7, R475). -/
def formTribSet (ws : List Word) : Bool :=
  taOk (pf ws 0 17 0) && rsv0 ws 0 31 19 &&
  if pb ws 0 18 then
    let src := pf ws 1 17 0
    rsv0 ws 1 31 29 && rsv0 ws 2 31 23 && decide (pf ws 1 19 18 ≠ 3) && decide (pf ws 1 28 27 ≠ 3) && (taOk src || src == noTa)
      && (src != noTa || (pf ws 1 19 18 == 2 && pf ws 1 28 27 != 1))
  else rsv0 ws 1 31 1 && wAt ws 2 == 0

/-- The egress settings a `TRIB_SET` names. -/
def egSetOf (ws : List Word) : EgSet :=
  { src := pf ws 1 17 0, jct := pf ws 1 19 18, stat := pb ws 1 20, rdi := pb ws 1 21, fsf := pb ws 1 22, ql := pf ws 1 26 23,
    acc := pf ws 1 28 27, accId := pf ws 2 15 0, seq := pf ws 2 21 16, last := pb ws 2 22 }

/-- `TRIB_SET` goes to the update port. -/
def bodyTribSet (_ : Packet) (s : State) : Res := toPort s

/-- R137 at the commit of an egress setting for cycle `k`. -/
def setClash (ta : Nat) (e : EgSet) (k : Nat) (s : State) : Bool :=
  e.jct != 2 && sizesClash (taSize s true ta (k + 3)) (taSize s false e.src k)

/-- Egress settings take hold from egress cycle `k + 3` on. -/
def putEg (ta k : Nat) (e : EgSet) (s : State) : State := modEg ta (fun x => { x with set := verPut (curCycle s) (k + 3) e x.set }) s

/-- A `TRIB_SET` is committed for cycle `k`. -/
def tribSetCommit (ws : List Word) (k : Nat) (s : State) : State :=
  let ta := pf ws 0 17 0
  if pb ws 0 18 then putEg ta k (egSetOf ws) s
  else modIn ta (fun x => { x with tag := verPut (curCycle s) k (pb ws 1 0) x.tag }) s

/-- Form of `TRIB_GET`, `TRIB_DEFECT_GET`. -/
def formTaGet (ws : List Word) : Bool := taOk (pf ws 0 17 0) && rsv0 ws 0 31 20

/-- Default of the Rate Absorber's whole-cycle content. -/
def raLaneReset (_ : Nat) : RaLane := { on := false, take_ := 0, x := 0, off := 0, xs := [], new_ := false, at_ := 0, slips := 0, held := [] }

/-- `TRIB_GET` (05 Table 5.8). A tributary that does not exist accepts and sends no D: `D` is then a free value (log 2). On a PLESIO
lane `D` is the one its Rate Absorber gives the core: DESIGN CHOICE (log 71). -/
def bodyTribGet (p : Packet) (s : State) : Res :=
  let ws := p.params
  let ta := pf ws 0 17 0
  let eg := pb ws 0 18
  let n := curCycle s
  let g := taSize s eg ta n
  let x := inTa s ta
  let y := egTa s ta
  let ra := !eg && plesioAt s (ta / 1024) n
  let (v, s) := if g = 0 then draw 0x0512 s else (0, s)
  let d := if g = 0 then v % 256 else if eg then y.d else if ra then x.ra.d else (x.cur.map (·.d)).getD 64
  let err : Int := if !ra then 0 else if 8 ≤ g then x.ra.e else (tget raLaneReset s.trib.raLane (ta / 1024)).x
  let mem := if eg then none else memberOf s ta
  let lab : Word := if eg then (if (egSet s ta n).acc = 0 then 0 else y.label)
    else if mem.isSome then x.lab.getD 0 else 0
  let (a, pl) := mem.getD (noTa, 0)
  .reply .ok [wd (g + 2 ^ 17 * b2n (decide (8 ≤ g)) + 2 ^ 18 * d + 2 ^ 26 * b2n ra + 2 ^ 27 * b2n (!eg && lomfCond s ta)), wdI err, lab,
      wd (if eg then 4 * b2n y.hist else x.hist.toNat), wd (a + 2 ^ 18 * pl + 2 ^ 24 * (if eg then 0 else delayA s ta n))]
    (if pb ws 0 19 then (if eg then modEg ta (fun y => { y with hist := false }) s else modIn ta (fun x => { x with hist := 0 }) s) else s)

/-- Form of `TRIB_TIMING_SET` (05 Table 5.9). -/
def formTribTimingSet (ws : List Word) : Bool := formLane ws && rsv0 ws 0 31 9

/-- `TRIB_TIMING_SET` goes to the update port. -/
def bodyTribTimingSet (_ : Packet) (s : State) : Res := toPort s

/-- A timing mode is committed for cycle `k` (05 R126). -/
def timingCommit (ws : List Word) (k : Nat) (s : State) : State :=
  modRx (pf ws 0 7 0) (fun r => { r with plesio := verPut (curCycle s) k (pb ws 0 8) r.plesio }) s

/-- Form of `ACCORD_SET` (05 Table 5.10; 12 R472). -/
def formAccordSet (ws : List Word) : Bool :=
  rsv0 ws 1 31 13 && rsv0 ws 2 31 8 &&
  (!pb ws 0 14 || (inR (pf ws 1 6 0) 1 64 && decide (pf ws 1 12 7 ≤ pf ws 1 6 0) && inR (pf ws 2 7 0) 1 255))

/-- `ACCORD_SET` goes to the update port. -/
def bodyAccordSet (_ : Packet) (s : State) : Res := toPort s

/-- The check of `ACCORD_SET` (05 R152). -/
def accordSetOk (ws : List Word) (s : State) : Bool :=
  let a := accNew s (pf ws 0 13 0)
  !(pb ws 0 14 && a.en && (a.aligned != pb ws 0 15 || a.depth != pf ws 1 6 0))

/-- The units of a member go back to the pool 64 cycles after cycle `k` (05 R152). -/
def memberUnits (c : AccSet) (k : Nat) (s : State) (ta : Nat) : State := returnUnits k 0 (memUnits s c ta) s

/-- An `ACCORD_SET` is committed for cycle `k` (05 R145, R152). -/
def accordSetCommit (ws : List Word) (k : Nat) (s : State) : State :=
  let ai := pf ws 0 13 0
  let c := accNew s ai
  if pb ws 0 14 then
    putAcc ai k { c with
      en := true, aligned := pb ws 0 15, id := pf ws 0 31 16, depth := pf ws 1 6 0, margin := pf ws 1 12 7, frames := pf ws 2 7 0 } s
  else putAcc ai k accSetReset ((c.mem.map (·.2)).foldl (memberUnits c k) s)

/-- Form of `ACCORD_MEMBER_SET` (05 Table 5.11). -/
def formAccordMemberSet (ws : List Word) : Bool := rsv0 ws 0 31 21 && rsv0 ws 1 31 18 && (pb ws 0 20 || taOk (pf ws 1 17 0))

/-- `ACCORD_MEMBER_SET` goes to the update port. -/
def bodyAccordMemberSet (_ : Packet) (s : State) : Res := toPort s

/-- The checks of `ACCORD_MEMBER_SET` (05 R153, R148; 06 R173; 11 R292). -/
def memberSetCheck (ws : List Word) (k : Nat) (s : State) : Option Status :=
  let a := accNew s (pf ws 0 13 0)
  let ta := pf ws 1 17 0
  if !a.en then some .notInMode
  else if pb ws 0 20 then none
  else if taSize s false ta k = 0 || (memberNew s ta).isSome || tget noMember a.mem (pf ws 0 19 14) != noTa then some .badParam
  else if a.aligned && s.conn.eq.any (fun x => x.2.ta == ta && x.2.st != 0) then some .badParam
  else if a.aligned && decide (48 < a.depth) && checkedBound s ta then some .badParam
  else if a.aligned && decide (freeUnits s k < unitsFor (taSize s false ta k) a.depth) then some .busy
  else none

/-- An `ACCORD_MEMBER_SET` is committed for cycle `k`. -/
def memberSetCommit (ws : List Word) (k : Nat) (s : State) : State :=
  let ai := pf ws 0 13 0
  let p := pf ws 0 19 14
  let ta := pf ws 1 17 0
  let c := accNew s ai
  if pb ws 0 20 then
    let old := tget noMember c.mem p
    if old = noTa then s else putAcc ai k { c with mem := tset noMember p noTa c.mem } (memberUnits c k s old)
  else
    let s := putAcc ai k { c with mem := tset noMember p ta c.mem } s
    if c.aligned then storeFrom ta k s else s

/-- Form of `ACCORD_GET` (05 Table 5.12; 12 R473). -/
def formAccordGet (ws : List Word) : Bool := rsv0 ws 0 31 15 && rsv0 ws 1 31 23 && areaOk (pf ws 1 22 0) 512 8

/-- A member record (05 Table 5.13). -/
def memberRecord (s : State) (ai p : Nat) : List Byte :=
  let c := accNow s ai
  let ta := tget noMember c.mem p
  if ta = noTa then leBytes 8 0
  else
    let rel := match offOf s ai p, minOff (c.mem.filterMap (fun y => offOf s ai y.1)) with
      | some o, some m => min (sdiff o m).toNat 255
      | _, _ => 0
    leBytes 4 (ta + 2 ^ 18 + 2 ^ 19 * b2n (lomfCond s ta)) ++ leBytes 1 rel ++ leBytes 1 (delayA s ta (curCycle s)) ++ leBytes 2 0

/-- `ACCORD_GET` (05 Tables 5.12, 5.13). -/
def bodyAccordGet (p : Packet) (s : State) : Res :=
  let ws := p.params
  let ai := pf ws 0 13 0
  let a := accord s ai
  let c := accNow s ai
  let s1 := wmPut (pf ws 1 22 0) ((List.range 64).flatMap (memberRecord s ai)) s
  .reply .ok [wd (b2n c.en + 2 * b2n c.aligned + 4 * c.mem.length + 2 ^ 9 * b2n (c.mem.any (fun y => lomfCond s y.2)) + 2 ^ 10 * b2n !a.skew.isEmpty),
      if c.aligned then a.oref.getD 0 else 0, wd (accSkew s ai), wd a.hist.toNat]
    (if pb ws 0 14 then modAcc ai (fun a => { a with hist := 0 }) s1 else s1)

/-- `ACCORD_STORE_GET` (05 R154). -/
def bodyAccordStoreGet (_ : Packet) (s : State) : Res :=
  let n := curCycle s
  .reply .ok [wd 65536, wd (freeUnits s n), wd (accordUnits s n), wd (eqUnits s n), wd (checkedUnits s n)] s

/-! ## Defect commands (07 R206) -/

/-- Form of `TRIB_DEFECT_PROFILE_SET` (07 Table 7.13). -/
def formTribDefectProfileSet (ws : List Word) : Bool :=
  rsv0 ws 0 31 11 && inR (pf ws 0 6 3) 5 9 && inR (pf ws 0 10 7) 1 10 && rsv0 ws 1 31 28 && decide (pf ws 1 13 0 ≤ 8000)
    && decide (pf ws 1 27 14 ≤ 8000)

/-- `TRIB_DEFECT_PROFILE_SET`: `EXP` and `WINDOW_S` apply from the end of each window in progress (07 R206). -/
def bodyTribDefectProfileSet (p : Packet) (s : State) : Res :=
  let ws := p.params
  let pr : Profile := { exp := pf ws 0 6 3, winS := pf ws 0 10 7, tset := pf ws 1 13 0, tclear := pf ws 1 27 14 }
  done { s with trib := { s.trib with prof := tset profReset (pf ws 0 2 0) pr s.trib.prof } }

/-- Form of `TRIB_DEFECT_SET`. -/
def formTribDefectSet (ws : List Word) : Bool :=
  taOk (pf ws 0 17 0) && rsv0 ws 0 31 22 && rsv0 ws 1 31 12 &&
  (if pb ws 0 18 then rsv0 ws 1 7 0 else decide (1 ≤ pf ws 1 7 4))

/-- `TRIB_DEFECT_SET` (07 R197, R198, R206): a lowered `JC_SF_COUNT` meets the errors counted. -/
def bodyTribDefectSet (p : Packet) (s : State) : Res :=
  let ws := p.params
  let ta := pf ws 0 17 0
  let prof := pf ws 0 21 19
  let en := BitVec.ofNat 4 (pf ws 1 11 8)
  if pb ws 0 18 then done (modTd true ta (fun d => { d with prof, en }) s)
  else
    let d := (inTa s ta).df
    let deg := pb ws 1 0
    let s := if d.decl.getLsbD 1 && (!deg || prof != d.prof) then taDefect false ta 1 false s.clk.now s else s
    let s := modTd false ta (fun d => { d with prof, en, degEn := deg, sfSrc := BitVec.ofNat 3 (pf ws 1 3 1), jcN := pf ws 1 7 4 }) s
    let s := modIn ta (fun x => { x with jcSf := x.jcSf || decide (pf ws 1 7 4 ≤ x.jcRun) }) s
    let s := if deg && (!d.degEn || prof != d.prof) then degRestart ta s.clk.ticks s else s
    done (taSync ta s)

/-- `TRIB_DEFECT_GET` (07 Table 7.14). `DEG_N` of an egress tributary, and of one that does not exist, is 0: DESIGN CHOICE (log 71). -/
def bodyTribDefectGet (p : Packet) (s : State) : Res :=
  let ws := p.params
  let ta := pf ws 0 17 0
  let eg := pb ws 0 18
  let d := taDef s eg ta
  let g := taSize s eg ta (curCycle s)
  let n := if eg || g = 0 then 0 else (degN g d.winExp d.winS).1
  let c := if eg then 8 * b2n (match d.intAt with | some (t, _, _) => decide (s.clk.tickAt ≤ t) | none => false)
    else d.cond.toNat + 2 * b2n (d.degEn && decide (0 < n) && decide (n ≤ d.errors))
  .reply .ok [wd (c + 16 * d.decl.toNat + 256 * d.hist.toNat + 4096 * b2n d.clamp), wd d.lastE, wd d.lastC, wd n]
    (if pb ws 0 19 then modTd eg ta (fun d => { d with hist := 0 }) s else s)

end Sys2Proof.Machine
end

