-- ==== Sys2Proof/Machine/Seal.lean ====
section
/-! DEFINITION. Seal key slots and pairs, sealing and opening of tributaries (chapter 11). -/

namespace Sys2Proof.Machine

/-! ## Key slots (11 R300, R302) -/

/-- An empty slot (11 R315). -/
def slotReset (_ : Nat) : KeySlot := { loaded := false, use := 0, len256 := false, gen := 0, mask := 0, count := 0, limM1 := 0, key := [] }

def sealSlot (s : State) (n : Nat) : KeySlot := tget slotReset s.keys.sealS n
def cmdSlot (s : State) (n : Nat) : KeySlot := tget slotReset s.keys.cmdS n
def setSealSlot (n : Nat) (k : KeySlot) (s : State) : State := { s with keys := { s.keys with sealS := tset slotReset n k s.keys.sealS } }
def setCmdSlot (n : Nat) (k : KeySlot) (s : State) : State := { s with keys := { s.keys with cmdS := tset slotReset n k s.keys.cmdS } }

/-- The slot has uses left (11 R299). -/
def slotLeft (k : KeySlot) (n : Nat) : Bool := decide (k.count + n ≤ k.limM1 + 1)

/-- A pair at start-up. -/
def pairReset (_ : Nat) : Pair := { cur := false, flip := none, exh := false, ceased := none }

def pair (s : State) (p : Nat) : Pair := tget pairReset s.keys.pairs p
def setPair (p : Nat) (x : Pair) (s : State) : State := { s with keys := { s.keys with pairs := tset pairReset p x s.keys.pairs } }

/-- Egress TAs bound to a pair, and ingress TAs. -/
def pairTx (s : State) (p : Nat) : List Nat :=
  s.keys.tx.filterMap (fun x => match x.2 with | some b => if b.pair = p then some x.1 else none | none => none)
def pairRx (s : State) (p : Nat) : List Nat :=
  s.keys.rx.filterMap (fun x => match x.2 with | some b => if b.pair = p then some x.1 else none | none => none)

/-- A seal slot is in use (11 R302). -/
def sealInUse (s : State) (n : Nat) : Bool :=
  let p := n / 2
  let ph := n % 2 == 1
  let x := pair s p
  let recent (t : Nat) : Bool := decide (s.clk.ticks < t + 16)
  (!(pairTx s p).isEmpty && (x.cur == ph || x.flip.isSome)) ||
  (match x.ceased with | some (q, t) => q == ph && recent t | none => false) ||
  (pairRx s p).any (fun ta => match rxSeal s ta with
    | some b => (match tget noTime b.seen (b2n ph) with | some t => recent t | none => false)
    | none => false)

/-! ## Sealing (11 R286 to R288, R298) -/

/-- The IV of a frame (11 R286). -/
def sealIv (salt : Word) (f : Nat) : List Byte := beBytes 4 salt.toNat ++ beBytes 8 f

/-- The stream cipher of a frame from byte `o` of its text on. -/
def sealStream (key : List Byte) (salt : Word) (f o : Nat) (bs : List Byte) : List Byte :=
  (gcmStream (roundKeys key) (sealIv salt f) (o / 16) (List.replicate (o % 16) 0 ++ bs)).drop (o % 16)

/-- Grains as bytes, most significant bit first, and back. -/
def grainBytes (gs : List Grain) : List Byte := gs.flatMap (fun g => beBytes 2 g.toNat)
def bytesGrains : List Byte → List Grain
  | a :: b :: t => BitVec.ofNat 16 (a.toNat * 256 + b.toNat) :: bytesGrains t
  | _ => []

/-- A sealing pair flips; a commanded flip to a later frame stays pending (11 R298). -/
def flipPair (p : Nat) (exh : Bool) (s : State) : State :=
  let x := pair s p
  pulse 0x08 0x10 p (wd (b2n (!x.cur) + 2 * b2n exh)) false
    (setPair p { cur := !x.cur, flip := if x.flip = some s.clk.fc then none else x.flip, exh := false, ceased := some (x.cur, s.clk.ticks) } s)

/-- A sealing pair at a frame tick: commanded flip, exhaustion flip, no usable next slot (11 R298). A commanded flip to a slot without
room leaves the pair without a usable slot: its count may not pass the limit (R299). -/
def pairFrame (p n : Nat) (s : State) : State :=
  let x := pair s p
  let cur := sealSlot s (2 * p + b2n x.cur)
  let next := sealSlot s (2 * p + b2n (!x.cur))
  if x.flip = some s.clk.fc then
    let s := flipPair p false s
    if next.loaded && !slotLeft next n then
      pulse 0x08 0x11 p (wd (2 * p + b2n (!x.cur))) false (setPair p { pair s p with exh := true } s)
    else s
  else if cur.loaded && !slotLeft cur n then
    if next.loaded && slotLeft next n then flipPair p true s
    else if x.exh then s
    else pulse 0x08 0x11 p (wd (2 * p + b2n x.cur)) false (setPair p { x with exh := true } s)
  else if x.exh then setPair p { x with exh := false } s
  else s

/-- The tag of the frame that has just ended, if it was sealed whole. -/
def frameTag (s : State) (b : TxSeal) (g : Nat) : Option (List Byte) :=
  match b.frame with
  | some (ph, f) =>
    if b.ct.length = 16 * g then some (gcmTag (roundKeys (sealSlot s (2 * b.pair + b2n ph)).key) (sealIv b.salt f) [] b.ct) else none
  | none => none

/-- A binding begins a frame at a frame tick, which begins egress cycle `m` (11 R286, R298). -/
def txBegin (ta m : Nat) (s : State) : State :=
  match txSeal s ta with
  | none => s
  | some b =>
    let tag := frameTag s b (taSize s true ta (m - 1))
    let x := pair s b.pair
    let n := 2 * b.pair + b2n x.cur
    let k := sealSlot s n
    if k.loaded && slotLeft k 1 && !x.exh && decide (0 < taSize s true ta m) then
      let s := tapInc 0x1A (taIndex true ta) 1 (setSealSlot n { k with count := k.count + 1 } s)
      setTx ta (some { b with
        frame := some (x.cur, b.fNext), fLast := b.fNext, fNext := b.fNext + 1, zero := false, ct := [], tag, begun := true }) s
    else setTx ta (some { b with frame := none, zero := true, ct := [], tag, begun := true }) s

/-- Every sealing pair and binding at a frame tick. -/
def sealFrameTick (m : Nat) (s : State) : State :=
  let ps := (s.keys.tx.filterMap (fun x => x.2.map (·.pair))).eraseDups
  let s := ps.foldl (fun s p => pairFrame p (pairTx s p).length s) s
  (s.keys.tx.map (·.1)).foldl (fun s ta => txBegin ta m s) s

/-- A binding seals the grains of egress cycle `m` (11 R286, R294). -/
def txCycle (ta m : Nat) (gs : List Grain) (s : State) : List Grain × State :=
  match txSeal s ta with
  | none => (gs, s)
  | some b =>
    if !b.begun then (gs, s)
    else
      let b := if taNew s true ta m && decide (s.clk.cyc ≠ 0) then { b with frame := none, zero := true } else b
      match b.frame with
      | none => (gs.map (fun _ => 0), setTx ta (some b) s)
      | some (ph, f) =>
        let ct := sealStream (sealSlot s (2 * b.pair + b2n ph)).key b.salt f b.ct.length (grainBytes gs)
        (bytesGrains ct, setTx ta (some { b with ct := b.ct ++ ct }) s)

/-- Multiframe bytes of a sealing binding in cycle `c`, none where the seal sets none (11 R287). -/
def sealMf (b : TxSeal) (c : Nat) : List Byte :=
  if 3 ≤ c && c ≤ 6 then
    match b.tag with
    | some t => if b.frame.isSome then ((t.drop (4 * (c - 3))).take 4) else [0, 0, 0, 0]
    | none => [0, 0, 0, 0]
  else match b.frame with
    | some (ph, f) => BitVec.ofNat 8 (128 * b2n ph) :: beBytes 3 f
    | none => [0, 0, 0, 0]

/-! ## Opening (11 R289 to R294) -/

/-- The value closest to `x` whose low 24 bits are `low`; of two as close, the larger (11 R289). -/
def closest (x low : Nat) : Nat :=
  let b := x / 2 ^ 24 * 2 ^ 24 + low
  if x ≤ b then (if 2 ^ 23 < b - x && decide (2 ^ 24 ≤ b) then b - 2 ^ 24 else b)
  else if 2 ^ 23 ≤ x - b then b + 2 ^ 24 else b

/-- Sets the grains that the Aligner store releases for a cycle of a tributary. -/
def setGr (ta n : Nat) (gs : List Grain) (s : State) : State :=
  modIn ta (fun x => { x with cycs := x.cycs.map (fun c => if c.n = n then { c with gr := some gs } else c) }) s

/-- A new frame at an opener. -/
def openNew (fc : Word) (bad : Bool) : OpenFrame :=
  { fc, cycs := [], sealed := false, phase := false, ivLow := 0, bad, f := 0, tag := [] }

/-- The cycles of a checked frame get their content: opened when the frame passes, else grains of 0 (11 R292). -/
def openContent (ta : Nat) (b : RxSeal) (fr : OpenFrame) (pass : Bool) (key : List Byte) (s : State) : State :=
  (fr.cycs.foldl (fun (s, o) (c : Nat × List Byte) =>
    let gs := if pass then bytesGrains (sealStream key b.salt fr.f o c.2) else (bytesGrains c.2).map (fun _ => 0)
    (setGr ta c.1 gs s, o + c.2.length)) (s, 0)).1

/-- A frame of an opener ends with a verdict (11 R291 to R293, R314). -/
def openVerdict (ta : Nat) (b : RxSeal) (fr : OpenFrame) (pass : Bool) (s : State) : State :=
  let s := tapInc 0x18 (taIndex false ta) 1 s
  let key := (sealSlot s (2 * b.pair + b2n fr.phase)).key
  let s := if b.fast then s else openContent ta b fr pass key s
  if pass then s
  else
    let s := tapInc 0x19 (taIndex false ta) 1 s
    let fails := (b.fails + 1) % 2 ^ 32
    let due := match (inTa s ta).authAt with | some t => decide (t + 64000 ≤ s.clk.ticks) | none => true
    let s := match rxSeal s ta with
      | some c => setRx ta (some { c with fails, hist := true }) s
      | none => s
    if due then pulse 0x08 0x01 ta (wd fails) false (modIn ta (fun x => { x with authAt := some s.clk.ticks }) s) else s

/-- Ends the frame that waits for its tag. -/
def openSettle (ta : Nat) (pass : Bool) (s : State) : State :=
  match rxSeal s ta with
  | some b => match b.wait with
    | some fr => openVerdict ta { b with wait := none } fr pass (setRx ta (some { b with wait := none }) s)
    | none => s
  | none => s

/-- The overhead of one lane cycle of an opened tributary (11 R287, R289, R291). A frame whose tag has not been received whole by cycle 7
of the next one fails. -/
def openOverhead (ta cyc : Nat) (fc : Word) (lof : Bool) (mf : List Byte) (s : State) : State :=
  match rxSeal s ta with
  | none => s
  | some b =>
    if b.cur.isNone && b.wait.isNone && cyc ≠ 0 then s else
    let b0 := (mf.getD 0 0).toNat
    let s := if cyc = 7 then openSettle ta false s else s
    let s := match (rxSeal s ta).bind (·.cur) with
      | some c =>
        if cyc = 0 || c.fc ≠ fc then
          let s := openSettle ta false s
          match rxSeal s ta with
          | some b => openVerdict ta b c false (setRx ta (some { b with cur := some (openNew fc (cyc != 0)), rxTag := [] }) s)
          | none => s
        else s
      | none =>
        let s := if cyc = 0 || b.wait.isNone then s else openSettle ta false s
        match rxSeal s ta with
        | some b => setRx ta (some { b with cur := some (openNew fc (cyc != 0)), rxTag := [] }) s
        | none => s
    match rxSeal s ta with
    | none => s
    | some b => match b.cur with
      | none => s
      | some c =>
        let c := if lof then { c with bad := true } else c
        let w := b.wait.map (fun w =>
          if w.fc + 1 ≠ fc || (cyc = 2 && b0 / 16 % 2 = 0) || (3 ≤ cyc && cyc ≤ 6 && lof) then { w with bad := true } else w)
        let c := if cyc = 2 then { c with sealed := b0 / 16 % 2 == 1 }
          else if cyc = 7 then { c with phase := decide (128 ≤ b0), ivLow := beNat (mf.drop 1) } else c
        let tag := if 3 ≤ cyc && cyc ≤ 6 then b.rxTag ++ mf else b.rxTag
        setRx ta (some { b with cur := some c, wait := w, rxTag := tag }) s

/-- A whole frame: IV, phase and slot are judged, the tag computed (11 R289 to R291, R299). -/
def openWhole (ta : Nat) (b : RxSeal) (c : OpenFrame) (s : State) : State :=
  let fp := match b.fLast with | some v => v + 1 | none => b.hint
  let ok := b.fLast.isSome && c.ivLow == fp % 2 ^ 24
  let cand := closest fp c.ivLow
  let last := match b.fLast with
    | some v => if ok then fp else if v < cand then cand else v
    | none => cand
  let n := 2 * b.pair + b2n c.phase
  let k := sealSlot s n
  let usable := k.loaded && slotLeft k 1
  let bad := c.bad || !ok || !usable || !c.sealed || decide (c.cycs.length ≠ 8) || (b.fast && c.phase != b.phase)
  let s := if usable then setSealSlot n { k with count := k.count + 1 } s else s
  let tag := gcmTag (roundKeys k.key) (sealIv b.salt fp) [] (c.cycs.flatMap (·.2))
  setRx ta (some { b with
    fLast := some last, phase := c.phase, seen := tset noTime (b2n c.phase) (some s.clk.ticks) b.seen
    cur := none, wait := some { c with bad, f := fp, tag } }) s

/-- The grains of one lane cycle of an opened tributary, in core cycle `n` (11 R286, R293, R294). The frame before ends with cycle 6:
its tag is there, and the lane has had no loss of frame and no PLESIO cycle up to here (11 R291), and its engine has not been replaced (11 Table 11.5). -/
def openCycle (ta n cyc : Nat) (gs : List Grain) (s : State) : State :=
  match rxSeal s ta with
  | none => s
  | some b => match b.cur with
    | none => s
    | some c =>
      let o := (c.cycs.flatMap (·.2)).length
      let bs := grainBytes gs
      let off := plesioAt s (ta / 1024) n || engineDown s (ta / 1024)
      let bad := c.bad || off || (taNew s false ta n && cyc != 0) || c.cycs.length != cyc
      let c := { c with cycs := c.cycs ++ [(n, bs)], bad }
      let k := sealSlot s (2 * b.pair + b2n b.phase)
      let s := match b.fast, b.fLast with
        | true, some v => if k.loaded then setGr ta n (bytesGrains (sealStream k.key b.salt (v + 1) o bs)) s else s
        | _, _ => s
      let b := { b with wait := b.wait.map (fun w => if off then { w with bad := true } else w) }
      if cyc = 7 then openWhole ta b c s
      else
        let s := setRx ta (some { b with cur := some c }) s
        match b.wait with
        | some w => if cyc = 6 then openSettle ta (!w.bad && b.rxTag == w.tag) s else s
        | none => s

/-! ## Commands (11 R313) -/

/-- Words of an F value of 62 bits. -/
def fOf (ws : List Word) : Nat := (wAt ws 3).toNat + 2 ^ 32 * pf ws 4 29 0

/-- Form of `SEAL_TX_SET` and `SEAL_RX_SET` (11 Tables 11.6, 11.7; 12 R472). -/
def formSealTxSet (ws : List Word) : Bool := taOk (pf ws 0 17 0) && rsv0 ws 0 31 19 && rsv0 ws 1 31 12 && rsv0 ws 4 31 30
def formSealRxSet (ws : List Word) : Bool := taOk (pf ws 0 17 0) && rsv0 ws 0 31 20 && rsv0 ws 1 31 12 && rsv0 ws 4 31 30

/-- `SEAL_TX_SET` and `SEAL_RX_SET` go to the update port. -/
def bodySealTxSet (_ : Packet) (s : State) : Res := toPort s
def bodySealRxSet (_ : Packet) (s : State) : Res := toPort s

/-- A depth above 48 on a TA (11 R292). -/
def deepUse (s : State) (ta : Nat) : Bool :=
  (match memberNew s ta with | some (a, _) => (accNew s a).aligned && decide (48 < (accNew s a).depth) | none => false) ||
  s.conn.eq.any (fun x => x.2.ta == ta && x.2.st != 0 && decide (48 < x.2.depth))

/-- The checks of a binding at its commit for cycle `k` (11 R292, R296, R313). -/
def sealSetCheck (rx : Bool) (ws : List Word) (k : Nat) (s : State) : Option Status :=
  let ta := pf ws 0 17 0
  let p := pf ws 1 11 0
  let own := sealBinds s rx
  if !pb ws 0 18 then none
  else match own.find? (fun x => x.1 == ta) with
    | some (_, q, salt, fast) => if q = p && salt = wAt ws 2 && (!rx || fast == pb ws 0 19) then none else some .notInMode
    | none =>
      let peers := own.filter (fun x => x.2.1 == p)
      if (sealBinds s (!rx)).any (fun x => x.2.1 == p) || decide (64 ≤ peers.length) || peers.any (fun x => x.2.2.1 == wAt ws 2) then
        some .badParam
      else if rx && !pb ws 0 19 then
        if deepUse s ta then some .badParam
        else if freeUnits s k < unitsFor (taSize s false ta k) 16 then some .busy
        else none
      else none

/-- What a checked-release binding reserves from its commit on. -/
def sealReserve (ws : List Word) (k : Nat) (s : State) : State :=
  let ta := pf ws 0 17 0
  if pb ws 0 18 && !pb ws 0 19 && !(sealBinds s true).any (fun x => x.1 == ta) then
    { s with trib := { s.trib with unitC := tset zeroN ta (unitsFor (taSize s false ta k) 16) s.trib.unitC } }
  else s

/-- A sealing binding as a command makes it. -/
def txNew (ws : List Word) : TxSeal :=
  { pair := pf ws 1 11 0, salt := wAt ws 2, fNext := fOf ws, fLast := 0, frame := none, zero := false, ct := [], tag := none, begun := false, samp := [] }

/-- An opening binding as a command makes it. -/
def rxNew (ws : List Word) (phase : Bool) : RxSeal :=
  { pair := pf ws 1 11 0, salt := wAt ws 2, fast := pb ws 0 19, hint := fOf ws, fLast := none, phase, seen := [], cur := none,
    wait := none, rxTag := [], fails := 0, hist := false, samp := [] }

/-- The settings of a command are those of the binding that stands. -/
def txSame (b : TxSeal) (ws : List Word) : Bool := b.pair == pf ws 1 11 0 && b.salt == wAt ws 2
def rxSame (b : RxSeal) (ws : List Word) : Bool := b.pair == pf ws 1 11 0 && b.salt == wAt ws 2 && b.fast == pb ws 0 19

/-- `SEAL_TX_SET` at its frame tick: one with the settings of the binding that stands changes nothing; another has been accepted only
behind a disable that it supersedes (01 R24). -/
def sealTxApply (ws : List Word) (s : State) : State :=
  let ta := pf ws 0 17 0
  if !pb ws 0 18 then setTx ta none s
  else if (txSeal s ta).any (fun b => txSame b ws) then s
  else setTx ta (some (txNew ws)) s

/-- A committed checked-release binding of `ta` waits for its tick: what it reserved stays reserved. -/
def checkedDue (ta : Nat) (s : State) : Bool :=
  s.port.staged.any (fun x => match x.w with
    | .cmd 0x08 0x11 ws _ => pf ws 0 17 0 == ta && pb ws 0 18 && !pb ws 0 19
    | _ => false)

/-- The checked hold of a tributary ends (11 R292): its units are returned, but where the next binding has reserved them. -/
def holdDrop (ta : Nat) (s : State) : State :=
  let k := curCycle s
  let s := if checkedDue ta s then s
    else
      let s := returnUnits k 2 (tget zeroN s.trib.unitC ta) s
      { s with trib := { s.trib with unitC := tset zeroN ta 0 s.trib.unitC } }
  storeRelease ta (if delayC s ta k = 0 then s else putC ta k 0 s)

/-- `SEAL_RX_SET` at its frame tick (11 R289, R292), as `sealTxApply`. -/
def sealRxApply (ws : List Word) (s : State) : State :=
  let ta := pf ws 0 17 0
  let k := curCycle s
  if !pb ws 0 18 then holdDrop ta (setRx ta none s)
  else if (rxSeal s ta).any (fun b => rxSame b ws) then s
  else
    let s := setRx ta (some (rxNew ws (pair s (pf ws 1 11 0)).cur)) s
    if pb ws 0 19 then holdDrop ta s else storeFrom ta k (putC ta k 16 s)

/-- Form of `SEAL_FLIP` (11 Table 11.8). -/
def formSealFlip (ws : List Word) : Bool := rsv0 ws 0 31 12

/-- `SEAL_FLIP` (11 R298). -/
def bodySealFlip (p : Packet) (s : State) : Res :=
  let n := pf p.params 0 11 0
  let x := pair s n
  if (pairTx s n).isEmpty || !(sealSlot s (2 * n + b2n (!x.cur))).loaded then refuse .notInMode s
  else
    let next := s.clk.fc + 1
    let fc := if fcLater (wAt p.params 1) next then wAt p.params 1 else next
    .reply .ok [fc] (setPair n { x with flip := some fc } s)

/-- Words 0 to 3 of `SEAL_GET` for a sealing binding (11 Table 11.9). -/
def txWords (s : State) (b : TxSeal) : List Word :=
  [wd (1 + 4 * b2n (pair s b.pair).cur + 16 * b2n b.zero + 32 * b.pair), wd b.fLast, wd (b.fLast / 2 ^ 32 % 2 ^ 30), 0]

/-- Words 0 to 4 of `SEAL_GET` for an opening binding. -/
def rxWords (b : RxSeal) : List Word :=
  let f := b.fLast.getD 0
  [wd (1 + 2 * b2n b.fast + 4 * b2n b.phase + 8 * b2n b.fLast.isSome + 32 * b.pair), wd f, wd (f / 2 ^ 32 % 2 ^ 30), wd b.fails, wd (b2n b.hist)]

/-- The frame tick samples what `SEAL_GET` reports (11 Table 11.9). -/
def sealSample (s : State) : State :=
  let s := (s.keys.tx.map (·.1)).foldl (fun s ta => setTx ta ((txSeal s ta).map (fun b => { b with samp := txWords s b })) s) s
  let s := (s.keys.rx.map (·.1)).foldl (fun s ta => setRx ta ((rxSeal s ta).map (fun b => { b with samp := rxWords b })) s) s
  ((s.trib.egTa.filter (fun x => x.2.splitH != x.2.splitS)).map (·.1)).foldl (fun s ta => modEg ta (fun x => { x with splitS := x.splitH }) s) s

/-- `SEAL_GET` (11 Table 11.9): as of the last frame tick. A history bit that has come since is not cleared. -/
def bodySealGet (p : Packet) (s : State) : Res :=
  let ws := p.params
  let ta := pf ws 0 17 0
  let clr := pb ws 0 19
  if pb ws 0 18 then
    let split := (egTa s ta).splitS
    .reply .ok (padTo 4 0 (((txSeal s ta).map (·.samp)).getD []) ++ [wd (2 * b2n split)])
      (if clr && split then modEg ta (fun x => { x with splitH := false, splitS := false }) s else s)
  else match rxSeal s ta with
    | some b => .reply .ok (padTo 5 0 b.samp)
        (if clr && bit (wAt b.samp 4) 0 then setRx ta (some { b with hist := false, samp := b.samp.take 4 }) s else s)
    | none => .reply .ok [0, 0, 0, 0, 0] s

/-- The engine of a lane is being replaced: frames in progress fail, or are sent on as zero grains (11 Tables 11.5, 11.16). -/
def sealSwap (l : Nat) (s : State) : State :=
  let s := ((s.keys.rx.map (·.1)).filter (fun ta => ta / 1024 == l)).foldl (fun s ta => setRx ta ((rxSeal s ta).map (fun b => { b with
    cur := b.cur.map (fun c => { c with bad := true }), wait := b.wait.map (fun w => { w with bad := true }) })) s) s
  ((s.keys.tx.map (·.1)).filter (fun ta => ta / 1024 == l)).foldl (fun s ta => setTx ta ((txSeal s ta).map (fun b =>
    if b.begun then { b with frame := none, zero := true, tag := none } else b)) s) s

/-! ## Erasure of seal slots (11 R304) -/

/-- A slot as erased. -/
def slotErased (k : KeySlot) : KeySlot := { k with loaded := false, key := [], count := 0, gen := (k.gen + 1) % 256 }

/-- A seal slot is erased: its users end (11 R304, Table 11.5). -/
def eraseSeal (n : Nat) (s : State) : State :=
  let p := n / 2
  let ph := n % 2 == 1
  let users := !(pairTx s p).isEmpty || !(pairRx s p).isEmpty
  let s := setSealSlot n (slotErased (sealSlot s n)) s
  let s := (pairTx s p).foldl (fun s ta => match txSeal s ta with
    | some b => if (pair s p).cur = ph then setTx ta (some { b with frame := none, zero := true, tag := none }) s else s
    | none => s) s
  let s := (pairRx s p).foldl (fun s ta => match rxSeal s ta with
    | some b => setRx ta (some { b with wait := b.wait.map (fun w => if w.phase = ph then { w with bad := true } else w) }) s
    | none => s) s
  if users then pulse 0x08 0x12 p (wd n) false s else s

end Sys2Proof.Machine
end

