-- ==== Sys2Proof/Machine/Ticks.lean ====
section
/-! DEFINITION. Sharing ticks between devices and the tick commands (02 R57 to R65). -/

namespace Sys2Proof.Machine

/-- A `TIME_TICK_SET` with ALIGN that waits (02 R61). -/
def alignPending (s : State) : Bool :=
  (findJob s (fun j => match j.work with | .tick _ => pb j.params 0 2 | _ => false)).isSome

/-- The device listens to `FTICK_IN`: FOLLOWER, or about to become one by ALIGN (02 R57, R61; log 12). -/
def ftickListens (s : State) : Bool :=
  s.tick.follower || (findJob s (fun j => match j.work with | .tick _ => pb j.params 0 2 && pb j.params 0 0 | _ => false)).isSome

/-- The symbol a pulse width spells (02 Table 2.7, R59): 2 marker, 1, 0; none outside every width. -/
def ftickSymbol (w : Nat) : Option Nat :=
  if inR w 2500 3500 then some 2 else if inR w 1500 2499 then some 1 else if inR w 500 1499 then some 0 else none

/-- The FC that a word of 64 widths carries, when every symbol lies in its accepted width (02 R58, R59). -/
def ftickWord (ws : List Nat) : Option Word :=
  let sy := ws.map ftickSymbol
  if ws.length = 64 && sy.head? == some (some 2) && (sy.drop 1).all (fun x => x == some 0 || x == some 1)
      && (sy.drop 33).all (fun x => x == some 0) then
    some (wd (((sy.drop 1).take 32).foldl (fun v x => 2 * v + x.getD 0) 0))
  else none

/-- A condition of R60 arises: event once, sticky bit. -/
def tickCond (b code : Nat) (data : Word) (cur : Option Nat) (s : State) : State :=
  let s := if cur.isNone then
      pulse 0x07 code 0 data false { s with tick := { s.tick with hist := s.tick.hist ||| (1#3 <<< b) } }
    else s
  s

/-- FTICK_WORD_RECEIVED (02 R59, R60). Own FC of the marker frame is taken as own FC less 63 at the moment of the row, whatever
`TICK_PHASE` is, and a word that is not consistent leaves a valid link valid and begins the count afresh: DESIGN CHOICE, the spec
says neither (log 58). Only a FOLLOWER raises `TICK_FC_MISMATCH`; a MASTER whose ALIGN waits just keeps the word. -/
def ftickReceive (ws : List Nat) (s : State) : State :=
  match ftickWord ws with
  | none => s
  | some f =>
    let k := s.tick.link
    if k.prev = some (f - 64) then
      let own := s.clk.fc - 63
      let k := { k with prev := some f, good := k.good + 1, valid := true, lastFc := f, fcMatch := f == own, markFc := own }
      let s := { s with tick := { s.tick with link := k } }
      if f = own || !s.tick.follower then s
      else { tickCond 2 0x32 f s.tick.mism s with tick := { (tickCond 2 0x32 f s.tick.mism s).tick with mism := some 0 } }
    else { s with tick := { s.tick with link := { k with prev := some f, good := 1 } } }

/-- FTICK_WORD_RECEIVED. -/
def execFtickWordReceived (ws : List Nat) (s : State) : Host.Outcome State Fault Refusal :=
  if ftickListens s && 0 < s.clk.ticks then .next (ftickReceive ws s) else .next s

/-- Counts the frames a condition of R60 has been absent; it clears after 64 with the link valid. -/
def condAge (met valid : Bool) : Option Nat → Option Nat
  | none => none
  | some n => if met || !valid then some 0 else if n + 1 < 64 then some (n + 1) else none

/-- The measurement of a FOLLOWER at a frame tick (02 R60): `edge` is own frame tick less `FTICK_IN` rising edge, ps. A frame
with no edge ends a run of frames beyond the limit, and counts as one that meets the conditions that are to clear: DESIGN CHOICE (log 58). -/
def ftickMeasure (edge : Option Int) (s : State) : State :=
  let t := s.tick
  match edge with
  | none =>
    let m := t.missing + 1
    let lose := decide (3 ≤ m)
    let k := if lose then { t.link with valid := false, good := 0, prev := none } else t.link
    let s1 := if lose then tickCond 0 0x30 (wdI t.offset) t.loss s else s
    { s1 with tick := { s1.tick with
        missing := m, link := k, beyond := 0
        loss := if lose then some 0 else condAge true k.valid t.loss
        off := condAge true k.valid t.off, mism := condAge (!k.fcMatch) k.valid t.mism } }
  | some d =>
    let e := d + t.delay - t.phase
    let far := decide ((t.limit : Int) * 1000 < e.natAbs)
    let b := if far then t.beyond + 1 else 0
    let hit := decide (8 ≤ b)
    let s1 := if hit then tickCond 1 0x31 (wdI e) t.off s else s
    { s1 with tick := { s1.tick with
        missing := 0, offset := e, beyond := b
        loss := condAge false t.link.valid t.loss
        off := if hit then some 0 else condAge far t.link.valid t.off
        mism := condAge (!t.link.fcMatch) t.link.valid t.mism } }

/-- The settings of a `TIME_TICK_SET` take effect (02 R55, R62). The spec does not say what becomes of `FTICK_VALID`, of the
count of words and of the conditions of R60 when a FOLLOWER becomes a MASTER: DESIGN CHOICE, they stay (log 58). -/
def tickApply (ws : List Word) (s : State) : State :=
  let fol := pb ws 0 0
  { s with tick := { s.tick with
      follower := fol, outEn := pb ws 0 3, delay := pf ws 1 19 0, phase := pf ws 2 23 0, limit := pf ws 3 13 0
      offset := if fol then s.tick.offset else 0 } }

/-- The clock after a step by `e` ns at a frame tick, own tick less where it belongs (02 R61). A frame tick that came late is
taken back to where it belongs, which may lie some cycles ago; one that came early is put off, and its first cycle is longer. -/
def clkStep (e : Int) (c : Clk) : Clk :=
  if 0 ≤ e then
    let n := e.toNat % 125000
    { c with cyc := n / cycleNs, tickAt := c.now - n % cycleNs }
  else { c with cyc := 0, tickAt := c.now + (-e).toNat % 125000 }

/-- ALIGN at a frame tick whose edge `d` (own tick less `FTICK_IN`, ps) has been measured (02 R61): the tick phase steps so that
e becomes 0, to the 1 ns of the model's time (log 3), and FC is loaded from the FTICK word; the three cycles across the step
hold undefined content. -/
def tickAlign (d : Int) (s : State) : State :=
  let k := s.tick.link
  let fc := k.lastFc + (s.clk.fc - k.markFc)
  { s with
    clk := { clkStep ((d + s.tick.delay - s.tick.phase + 500) / 1000) s.clk with fc }
    tick := { s.tick with offset := 0, stepAt := some (s.clk.ticks - 1), link := { k with markFc := k.lastFc, fcMatch := true } } }

/-- One waiting `TIME_TICK_SET` at a frame tick (02 R55, R61; 12 R471). -/
def tickJob (edge : Option Int) (s : State) (r : Nat) : State :=
  match job s r with
  | none => s
  | some j => match j.work with
    | .tick dl =>
      if pb j.params 0 2 then
        match edge with
        | some d =>
          if s.tick.link.valid && decide (2 ≤ s.tick.link.good) then
            let s := tickAlign d (tickApply j.params s)
            endJob r .ok [s.clk.fc, 0] s
          else if dl ≤ s.clk.now then endJob r .busy [] s
          else s
        | none => if dl ≤ s.clk.now then endJob r .busy [] s else s
      else endJob r .ok [s.clk.fc, 0] (tickApply j.params s)
    | _ => s

/-- The standby generator takes over at a tick boundary (02 R65). -/
def genTake (s : State) : State :=
  match s.tick.genNext with
  | some g => { s with tick := { s.tick with gen := g, genNext := none } }
  | none => s

/-- The sample that `TIME_TICK_GET` reports (02 R63). -/
def tickSample (s : State) : State :=
  let t := s.tick
  { s with tick := { t with samp := {
      fc := s.clk.fc
      status := wd (b2n t.follower + 4 * t.gen + 8 * b2n t.link.valid + 16 * b2n t.link.fcMatch)
      offset := wdI (if t.follower then t.offset else 0), lastFc := t.link.lastFc, hist := t.hist } } }

/-- What a frame tick does to the tick generator's own settings and measurements (02 R55, R60, R61, R63). -/
def tickFrame (edge : Option Int) (s : State) : State :=
  let s := if s.tick.follower then ftickMeasure edge s else s
  tickSample ([0, 1, 2, 3].foldl (tickJob edge) s)

/-! ## `FTICK_OUT` (02 R57, R58) -/

/-- Width in ns of the pulse that the frame of number `fc` sends (02 Table 2.7): the marker, the bits of the marker frame's FC from
the most significant, then zeros. -/
def ftickWidth (fc : Word) : Nat :=
  let i := fc.toNat % 64
  if i = 0 then 3000 else if i ≤ 32 && (fc - wd i).getLsbD (32 - i) then 2000 else 1000

/-- Level of the `FTICK_OUT` pin: the device's own frame ticks while enabled, low otherwise and before the first tick (02 R57,
R58, R62, R64). -/
def ftickOut (s : State) : Bool :=
  s.tick.outEn && running s && decide (0 < s.clk.ticks) && decide (s.tick.failed < 2) && decide (s.clk.cyc = 0)
    && decide (s.clk.tickAt ≤ s.clk.now) && decide (s.clk.now < s.clk.tickAt + ftickWidth s.clk.fc)

/-- The content captured or released in cycle number `n` is undefined because a step of ALIGN spans it (02 R61). -/
def stepSpans (s : State) (n : Nat) : Bool :=
  match s.tick.stepAt with | some t => decide (n ≤ t + 1) && decide (t ≤ n + 1) | none => false

/-- Form of `TIME_TICK_SET` (02 R62). -/
def formTimeTickSet (ws : List Word) : Bool :=
  rsv0 ws 0 31 4 && rsv0 ws 1 31 20 && rsv0 ws 2 31 24 && rsv0 ws 3 31 14 && decide (pf ws 0 1 0 ≤ 1)
    && decide (pf ws 1 19 0 ≤ 1000000) && decide (pf ws 2 23 0 ≤ 15624999) && inR (pf ws 3 13 0) 1 10000
    && (pb ws 0 0 || wAt ws 2 == 0)

/-- `TIME_TICK_SET` (02 R61, R62): ALIGN is judged by the mode, and by the one that the committed changes lead to (16 R426). -/
def bodyTimeTickSet (p : Packet) (s : State) : Res :=
  if pb p.params 0 2 then
    if loopMode s && (s.dev.mode == .commissioning || s.dev.mode == .maintenance) && allSquelched s then
      .wait (.tick (s.clk.now + 40000000)) [] [] s
    else refuse .notInMode s
  else .wait (.tick 0) [] [] s

/-- Form of `TIME_TICK_GET`. -/
def formTimeTickGet (ws : List Word) : Bool := rsv0 ws 0 31 1

/-- `TIME_TICK_GET` (02 R63): all words are of the last frame tick; the sticky bits reported are cleared, and one that has been
set since stays. -/
def bodyTimeTickGet (p : Packet) (s : State) : Res :=
  let t := s.tick
  let x := t.samp
  .reply .ok [x.fc, x.status, x.offset, x.lastFc, wd x.hist.toNat]
    (if pb p.params 0 0 then { s with tick := { t with hist := t.hist &&& ~~~x.hist, samp := { x with hist := 0 } } } else s)

end Sys2Proof.Machine
end

