-- ==== Sys2Proof/Machine/Sections.lean ====
section
/-! DEFINITION. Sections as the receiver decodes them, and the Rate Absorber (03 R77 to R91; 05 R124 to R133). -/

namespace Sys2Proof.Machine

/-! ## Grains and client data -/

/-- Bits of grains in tributary bit order (05 R120). -/
def grainBits (gs : List Grain) : List Bool := gs.flatMap (fun g => bitsOf 16 g.toNat)

/-- Grains of bits. -/
def bitsGrains (bs : List Bool) : List Grain := (groups 16 (bs.length / 16) bs).map (fun g => BitVec.ofNat 16 (natOf g))

/-- CRC over the client data of a cycle of G grains under D (03 R87; 05 R124). -/
def clientCrc (gs : List Grain) (d : Nat) : BitVec 16 := ftagOf ((grainBits gs).take (clientLen gs.length d))

/-- Grain `g` of a lane cycle held by sections. -/
def grainAt (secs : List (List Grain)) (g : Nat) : Grain := (secs.getD (g / 12288) []).getD (g % 12288) 0

/-- The grains of a tributary out of a lane cycle. -/
def pickGrains (secs : List (List Grain)) (gs : List Nat) : List Grain := gs.map (grainAt secs)

/-! ## Decoding (03 R77 to R83) -/

/-- A codeword as decoded: its information symbols, and the corrected symbols, none when it is uncorrectable (03 R79). -/
def decodeWord (w : List Sym) : List Sym × Option Nat :=
  match rsDecode w with | some (m, n) => (m, some n) | none => (w.take 514, none)

/-- Parity, bit position by bit position (03 R82). -/
def bip8 (bs : List Byte) : Byte := bs.foldl (· ^^^ ·) 0

/-- A count tap of codewords, which counts only while the lane is aligned (04 R474; 07 R203). -/
def cwTap (t l n : Nat) (s : State) : State := if isAligned (lane s l) then tapInc t l n s else s

/-- Uncorrectable codewords of a section: they count towards `FEC_FAIL`, and the interval of R236 begins anew (07 Table 7.2; 09 R236). -/
def badWords (l n : Nat) (s : State) : State :=
  if n = 0 then s
  else modSd l (fun d => { d with okFrame := d.okFrame.map (fun _ => s.clk.now) }) (modRx l (fun r => { r with uncorr := r.uncorr + n }) s)

/-- The codewords of a section: count taps and the information bits. While the `LOL` condition holds every codeword is
uncorrectable and its symbols are free values (02 Table 2.6; 04 R474; log 2). -/
def decodeSection (l : Nat) (ws : List (List Sym)) (s : State) : List Bool × State :=
  if lolCond s l then
    let c := s.clk.free
    let s := badWords l 40 (cwTap 0x03 l 40 (draw 0x0380 s).2)
    ((List.range infoBits).map (fun i => decide (Config.freeAt c (0x03800000 + i) % 2 = 1)), s)
  else
    let ds := ws.map decodeWord
    let corr := ds.filterMap (·.2)
    let bad := ds.length - corr.length
    let s := cwTap 0x01 l (corr.countP (fun n => decide (0 < n))) (cwTap 0x02 l (corr.foldl (· + ·) 0) (cwTap 0x03 l bad s))
    (ds.flatMap (fun d => symBits d.1), badWords l bad s)

/-- Number of ones of a byte. -/
def ones (b : Byte) : Nat := (bitsOf 8 b.toNat).countP id

/-- `BIP8` of the previous section against the one this section carries (03 R82, R83). Of the first section after alignment is gained
only the byte it carries goes unchecked; its own `BIP8` is compared with the second section's: DESIGN CHOICE (log 61). -/
def bipCheck (l : Nat) (carried : Byte) (line : List Byte) (s : State) : State :=
  let r := (lane s l).rx
  if !isAligned (lane s l) then s
  else
    let s := match r.bip with
      | some b => tapInc 0x04 l (ones (b ^^^ carried)) (modRx l (fun r => { r with bipErr := ones (b ^^^ carried) }) s)
      | none => s
    modRx l (fun r => { r with bip := some (bip8 (line.drop 100)) }) s

/-- Section overhead: `REI`, `TMAP_GEN` and its check (03 R82, R84). Of a free-wheeling section nothing is taken: the reply of
`LANE_FRAME_GET` keeps its last values (03 Table 3.11), and that `TMAP_GEN` is not checked either is a DESIGN CHOICE (log 61). -/
def sectionOverhead (l : Nat) (o : List Byte) (s : State) : State :=
  let b (i : Nat) : Nat := (o.getD i 0).toNat
  let gen := b 2 * 256 + b 3
  let c := rxCfg s l
  if !isAligned (lane s l) then s else
  let s := modRx l (fun r => { r with rei := b 1 % 16, gen }) s
  if gen = c.expGen then modRx l (fun r => { r with genBad := false }) s
  else if c.tmapChk && !(lane s l).rx.genBad then pulse 0x02 0x12 l (wd gen) false (modRx l (fun r => { r with genBad := true }) s)
  else s

/-! ## Tributary overhead at the receiver (03 R85 to R88; 05 R132) -/

/-- The ingress check of the previous lane cycle's data against the `FTAG` this one carries (05 R132). -/
def tagCheck (ta ftag : Nat) (p : TaRx) (s : State) : State :=
  match p.crc with
  | none => s
  | some crc =>
    if !tagOn s ta p.core then s
    else
      let err := crc.toNat != ftag
      let s := tapInc 0x11 (taIndex false ta) 1 s
      let s := if err then tapInc 0x12 (taIndex false ta) 1 (modIn ta (fun x => { x with hist := x.hist ||| 0b10 }) s) else s
      let s := if p.lof then s else degCount ta err s
      modIn ta (fun x => { x with cycs := x.cycs.map (fun c => if c.lc = p.lc && c.chk != 3 then { c with chk := if err then 2 else 1 } else c) }) s

/-- D of a lane cycle: accepted, or the previous one (03 R86). -/
def acceptD (lof : Bool) (prev : Nat) (o : List Byte) : Nat × Bool :=
  let jc := o.getD 0 0
  if lof then (prev, false)
  else if (jc ^^^ 0xFF) = o.getD 1 0 && decide (jc.toNat ≤ 128) then (jc.toNat, false)
  else (prev, true)

/-- The JC source of `SF` (07 R197) and the JC error count (03 R86). A free-wheeling cycle has no `JC` and breaks the row of errors. -/
def jcCount (ta : Nat) (lof err : Bool) (s : State) : State :=
  if lof then modIn ta (fun x => { x with jcRun := 0 }) s
  else if err then
    let s := tapInc 0x10 (taIndex false ta) 1 s
    modIn ta (fun x => { x with
      jcRun := x.jcRun + 1, jcSf := x.jcSf || decide (x.df.jcN ≤ x.jcRun + 1), hist := x.hist ||| 1 }) s
  else modIn ta (fun x => { x with jcRun := 0, jcSf := false }) s

/-- The tributary has come into existence or changed since its lane cycle `c` (05 R123). -/
def changedSince (s : State) (ta n : Nat) : Option TaRx → Bool
  | some c => (List.range (min (n - c.core) 96)).any (fun i => taNew s false ta (n - i))
  | none => taNew s false ta n

/-- The 8 overhead bytes of a tributary in the lane cycle that goes to core cycle `n`. A tributary that has no accepted D yet, because
it is new or because its lane has not been aligned since, has D = 64: DESIGN CHOICE (log 61). -/
def taOverhead (l n : Nat) (o : List Byte) (ta : Nat) (s : State) : State :=
  let r := (lane s l).rx
  let x := inTa s ta
  let new_ := changedSince s ta n x.cur
  let prev := if new_ then none else x.cur
  let lof := !isAligned (lane s l)
  let (d, err) := acceptD lof ((prev.map (·.d)).getD 64) o
  let ftag := (o.getD 2 0).toNat * 256 + (o.getD 3 0).toNat
  let mf := (o.drop 4).take 4
  let s := jcCount ta lof err s
  let s := match prev with | some p => if p.lc + 1 = r.count then tagCheck ta ftag p s else s | none => s
  let mfs := tput r.pCyc mf (if new_ then [] else x.mf)
  let rec_ : TaCyc := { n, lc := r.count, d, ftag, fresh := new_, mfs, lat := 0, chk := 0, bad := true, gr := none }
  let s := modIn ta (fun x => { x with
    prev, cur := some { lc := r.count, core := n, d, crc := none, lof }
    cycs := if plesioAt s l n then x.cycs else (rec_ :: x.cycs.filter (fun c => c.n != n)).take 96
    mf := mfs
    lomf := x.lomf || ((lof || r.lofIn || r.newAl) && (memberAt s ta n).isSome) }) s
  let s := if r.pCyc = 1 then frameCheck ta n s else s
  openOverhead ta r.pCyc r.pFc lof mf (taSync ta s)

/-- The overhead of every tributary that section `sec` carries. -/
def sectionTribs (l n sec : Nat) (info : List Byte) (s : State) : State :=
  let ids := (tribIds (mapAt s false l n)).filter (fun t => t / 128 == sec)
  ids.foldl (fun s t => taOverhead l n ((info.drop (100 + 8 * (t % 128))).take 8) (1024 * l + t) s) s

/-! ## The end of a lane cycle -/

/-- A tributary's data of a whole lane cycle: CRC, Aligner store, opener, Rate Absorber share. -/
def taWhole (l n : Nat) (secs : List (List Grain)) (bad : Bool) (ta : Nat) (s : State) : State :=
  let gs := pickGrains secs (taGrains s false ta n)
  let r := (lane s l).rx
  match (inTa s ta).cur with
  | none => s
  | some c =>
    if c.lc ≠ r.count then s
    else
      let keep := stored s ta n && (rxSeal s ta).isNone
      let client := (grainBits gs).take (clientLen gs.length c.d)
      let s := modIn ta (fun x => { x with
        cur := some { c with crc := some (ftagOf client), lof := c.lof || r.lofIn }
        cycs := x.cycs.map (fun y => if y.n = n && y.lc = r.count then { y with bad, gr := if keep then some gs else y.gr } else y)
        ra := if x.ra.on then { x.ra with got := x.ra.got + client.length, bits := x.ra.bits ++ client } else x.ra }) s
      openCycle ta n r.pCyc gs s

/-- Default of the capture places: not written. -/
def noCap (_ : Nat) : Tbl Sect := []
def noSect (_ : Nat) : Sect := { n := 0, gr := [] }

/-- A section of the lane cycle for core cycle `n` is written into the lane's ring: 18 places of a section each (02 R44). -/
def capPut (l n sec : Nat) (gr : List Grain) (s : State) : State :=
  let r := tget noCap s.data.cap l
  { s with data := { s.data with cap := tset noCap l (tset noSect ((8 * n + sec) % 18) { n, gr } r) s.data.cap } }

/-- Grain `g` of core cycle `n` of a lane, as long as the ring holds it (02 R44). -/
def capGrain (s : State) (l n g : Nat) : Option Grain :=
  let x := tget noSect (tget noCap s.data.cap l) ((8 * n + g / 12288) % 18)
  if x.n = n then x.gr[g % 12288]? else none

/-- A lane cycle is whole: the crossover pass may read it in the Capture Stage, or it stands in the Rate Absorber (02 R44; 05 R126). -/
def laneWhole (l n : Nat) (s : State) : State :=
  let x := lane s l
  let secs := (List.range 8).map (fun i => (tget (fun _ => none) x.rx.grains i).getD [])
  let skew := x.rx.skews.contains n
  let ids := tribIds (mapAt s false l n)
  let s := ids.foldl (fun s t => taWhole l n secs (skew || x.rx.lofIn || !isAligned x) (1024 * l + t) s) s
  if plesioAt s l n then
    let ra := tget raLaneReset s.trib.raLane l
    { s with trib := { s.trib with raLane := tset raLaneReset l { ra with held := ((x.rx.count, secs) :: ra.held).take 4 } s.trib.raLane } }
  else if skew then s
  else modRx l (fun r => { r with whole := (n :: r.whole.filter (fun c => c != n)).take 4 }) s

/-- The grains of a section. -/
def sectionGrains (info : List Byte) : List Grain := bytesGrains ((info.drop 1124).take 24576)

/-- The seed that descrambles the section (03 R91). -/
def rxSeed (s : State) (l : Nat) : Word :=
  let c := rxCfg s l
  if (lane s l).rx.slot then c.b.seed else c.a.seed

/-- A section whose position and header values are known is processed (03 R80 to R91). -/
def sectionProcess (l : Nat) (ws : List (List Sym)) (s : State) : State :=
  let (line, s) := decodeSection l ws s
  let r := (lane s l).rx
  let info := bytesOfBits (scramble r.pSec r.pFc (rxSeed s l) line)
  let s := sectionOverhead l info (bipCheck l (info.getD 0 0) (bytesOfBits line) s)
  match r.core with
  | none => s
  | some n =>
    let s := sectionTribs l n r.pSec info s
    let s := modRx l (fun r => { r with grains := tput r.pSec (some (sectionGrains info)) r.grains }) s
    let s := if plesioAt s l n then s else capPut l n r.pSec (sectionGrains info) s
    if r.pSec = 7 && (lane s l).rx.grains.length = 8 then laneWhole l n s else s

/-- The codewords that a near-end loop brings at the lane's position, and the lane after them; none when they have not come round
(09 R241; log 62). -/
def loopWords (l : Nat) (s : State) : Option (List (List Sym) × State) :=
  let x := lane s l
  let bs := (((x.tx.looped.take 2).flatten).drop (x.al.fpos + 1150)).take 217600
  let bs := if x.al.inv then compEven bs else bs
  if bs.length = 217600 then
    some ((groups 5440 40 bs).map (fun g => (groups 10 544 g).map (fun b => BitVec.ofNat 10 (natOf b))),
      modTx l (fun t => { t with looped := t.looped.drop 1, seen := false }) s)
  else none

/-- The section of the marker block just examined, or the next one at the free-wheeling position (04 R112). -/
def sectionTake (l : Nat) (ws : List (List Sym)) (s : State) : State :=
  let x := lane s l
  let raw := ws.flatMap symBits
  let s := loopEcho l (if x.al.inv then compEven raw else raw) s
  if x.rx.due then sectionProcess l ws (modRx l (fun r => { r with due := false }) s)
  else if isAligned x || !x.al.ever then s
  else
    let (sec, cyc, fc) := nextPos x.rx.pSec x.rx.pCyc x.rx.pFc
    let s := modRx l (fun r => { r with pSec := sec, pCyc := cyc, pFc := fc, hdrOk := false }) s
    let s := if sec = 0 then beginCycle l ((x.rx.core.map (· + 1)).getD (curCycle s)) none s else s
    sectionProcess l ws s

/-- SECTION_DECODED, without what protection does; a near-end loop takes the section from the lane's own transmitter (09 R241). -/
def sectionDecoded (l : Nat) (ws : List (List Sym)) (s : State) : State :=
  if !running s || !(lane s l).sd.rxEn || laneFenced s l || s.clk.ticks = 0 then s
  else match if nearLoop s l then loopWords l s else some (ws, s) with
    | some (ws, s) => sectionTake l ws s
    | none => s

/-- A section's operands: a lane and 40 codewords of 544 symbols. -/
def sectionOk (l : Nat) (ws : List (List Sym)) : Bool := laneOk l && ws.length == 40 && ws.all (fun w => w.length == 544)

/-! ## Rate Absorber (05 R127 to R133) -/

/-- Length and elapsed part of the lane cycle in progress, ps; a free value where nothing was measured (log 2). -/
def phaseOf (ph : List LanePhase) (l : Nat) (s : State) : (Nat × Nat) × State :=
  match ph.find? (fun p => p.lane == l) with
  | some p => ((p.elapsed, max p.length 1), s)
  | none => let (v, s) := draw 0x0528 s; ((v % cyclePs, cyclePs), s)

/-- B_T (05 R128). -/
def targetFill (g : Nat) : Int := (clientNom g : Int) + 512

/-- D of the lane cycle in progress: accepted already, or that of the last one. -/
def inD (x : InTa) : Nat := (x.cur.map (·.d)).getD 64

/-- A slip is counted on its tributary (05 R129; 07 Tables 7.8, 7.10). -/
def raSlip (ta : Nat) (s : State) : State :=
  let x := inTa s ta
  let slips := (x.slips + 1) % 2 ^ 32
  let due := match x.slipAt with | some t => decide (t + 64000 ≤ s.clk.ticks) | none => true
  let s := tapInc 0x16 (taIndex false ta) 1 (modIn ta (fun x => { x with
    slips, hist := x.hist ||| 0b1000, slipAt := if due then some s.clk.ticks else x.slipAt }) s)
  if due then pulse 0x03 0x10 ta (wd slips) false s else s

/-- D_out of a justified tributary for the core cycle that begins (05 R128, R131): the lane cycle in progress counts
under the map of the core cycle to which it goes. -/
def shareUpdate (l n : Nat) (el len : Nat) (ta : Nat) (s : State) : State :=
  let x := inTa s ta
  let r := (lane s l).rx
  let g := taSize s false ta n
  let sh := x.ra
  let inB : Int := (sh.got : Int) + (clientLen (taSize s false ta (r.core.getD n)) (inD x) * el / len : Nat)
  let created := !sh.on || taNew s false ta n
  if created || decide (sh.at_ < r.alAt) then
    modIn ta (fun x => { x with ra := { sh with
      on := true, d := 64, zero := 0, rd := inB - targetFill g, e := 0, at_ := r.count, new_ := true
      tag := if created then none else sh.tag }}) s
  else
    let e := inB + sh.zero - sh.rd - targetFill g
    if 448 < e then raSlip ta (modIn ta (fun x => { x with ra := { sh with rd := sh.rd + e, e := 0, d := 64 } }) s)
    else if e < -448 then raSlip ta (modIn ta (fun x => { x with ra := { sh with zero := sh.zero + (-e).toNat, e := 0, d := 64 } }) s)
    else modIn ta (fun x => { x with ra := { sh with e, d := (max 0 (min 128 (64 + e / 4))).toNat } }) s

/-- The `k` client bits that a core cycle reads, and the share after it; bits that have not come are free values. Inserted zero bits are
read before those held: DESIGN CHOICE, R128 says only that they are added (log 18). -/
def shareRead (ta k : Nat) (sh : RaShare) (c : Nat) : List Bool × RaShare :=
  let z := min sh.zero k
  let base : Int := (sh.got : Int) - sh.bits.length
  let bit (i : Nat) : Bool :=
    let j := sh.rd + i - base
    if 0 ≤ j && j.toNat < sh.bits.length then sh.bits.getD j.toNat false
    else decide (Config.freeAt c (0x052800000000 + 0x200000 * ta + i) % 2 = 1)
  let out := List.replicate z false ++ (List.range (k - z)).map bit
  let rd := sh.rd + (k - z : Nat)
  (out, { sh with zero := sh.zero - z, rd, bits := sh.bits.drop (rd - base).toNat })

/-- What the Rate Absorber emitted for a tributary in core cycle `n`: content, and the record of the cycle (05 R133). -/
def shareEmit (n : Nat) (ta : Nat) (s : State) : List Grain × State :=
  let x := inTa s ta
  let g := taSize s false ta n
  let k := clientLen g x.ra.d
  let (bits, sh) := shareRead ta k x.ra s.clk.free
  let bits := if x.ra.new_ then (List.range k).map (fun i => decide (Config.freeAt s.clk.free (0x053100000000 + 0x200000 * ta + i) % 2 = 1)) else bits
  let gs := bitsGrains (bits ++ List.replicate (16 * g - k) false)
  let keep := stored s ta n && (rxSeal s ta).isNone
  let rec_ : TaCyc := {
    n, lc := (x.cur.map (·.lc)).getD 0, d := x.ra.d, ftag := (x.ra.tag.getD 0).toNat, fresh := x.ra.tag.isNone, mfs := x.mf,
    lat := ((targetFill g + x.ra.e) * cyclePs / clientNom g).toNat, chk := 3, bad := false, gr := if keep then some gs else none }
  let s := modIn ta (fun x => { x with
    ra := { sh with tag := some (ftagOf bits), new_ := false }
    cycs := (rec_ :: x.cycs.filter (fun c => c.n != n)).take 96 }) s
  (gs, match x.pend with
    | some (mfc, b, _) => if (b : Int) < sh.rd then labelled ta n mfc s else s
    | none => s)

/-- Which lane cycle the whole-cycle content of a lane takes in the core cycle that begins: repeats below 0.75 T, discards
above 2.25 T (05 R130). The delay counts from half a window after the lane cycle began, with an offset fixed when the lane was
initialised: DESIGN CHOICE (log 18). At the first lane cycle of an alignment the delay is 1.5 T, and this core cycle's content is undefined (05
R131). -/
def syncUpdate (l n : Nat) (el : Nat) (s : State) : State :=
  let r := (lane s l).rx
  let ra := tget raLaneReset s.trib.raLane l
  let since (j : Int) : Int := ((r.count : Int) - j) * cyclePs + el + 1953125
  let delay (j : Int) : Int := since j + ra.off
  let put (x : RaLane) (s : State) : State :=
    { s with trib := { s.trib with raLane := tset raLaneReset l { x with xs := ((n, x.x) :: x.xs).take 8 } s.trib.raLane } }
  if !ra.on || decide (ra.at_ < r.alAt) then
    let j : Int := if since r.count < 15625000 then (r.count : Int) - 1 else r.count
    put { ra with on := true, take_ := j, x := 23437500, off := 23437500 - since j, new_ := true, at_ := r.count } s
  else
    let q := ra.take_ + 1
    let slip (j : Int) : State :=
      let s := tapInc 0x06 l 1 (put { ra with take_ := j, x := delay j, slips := ra.slips + 1, new_ := false } s)
      (tribIds (mapAt s false l n)).foldl (fun s t =>
        let ta := 1024 * l + t
        if taSize s false ta n < 8 then
          tapInc 0x17 (taIndex false ta) 1 (modIn ta (fun x => { x with slips := (x.slips + 1) % 2 ^ 32, hist := x.hist ||| 0b1000 }) s)
        else s) s
    if delay q < 11718750 then slip ra.take_
    else if 35156250 < delay q then slip (q + 1)
    else put { ra with take_ := q, x := delay q, new_ := false } s

/-- Lays grains over a section from grain number `g` on. -/
def overlay (g : Nat) : List Grain → Tbl Grain → List Grain
  | [], _ => []
  | x :: t, [] => x :: t
  | x :: t, (k, v) :: o => if k = g then v :: overlay (g + 1) t o else x :: overlay (g + 1) t ((k, v) :: o)

/-- One tributary's part of a PLESIO lane's content for core cycle `n` (05 R126, R130): a share of 8 grains or more is emitted by
its own Rate Absorber, a smaller one is taken from the lane cycle `ra` takes, whose content is `base`; it is undefined in the first
core cycle of a new tributary or a new alignment (05 R123, R131). -/
def raShareOut (n : Nat) (base : List (List Grain)) (ra : RaLane) (u : Tbl Grain × State) (ta : Nat) : Tbl Grain × State :=
  let (lay, s) := u
  let pos := taGrains s false ta n
  if 8 ≤ pos.length then
    let (gs, s) := shareEmit n ta s
    ((pos.zip gs).foldl (fun t x => tput x.1 x.2 t) lay, s)
  else
    let x := inTa s ta
    let new_ := taNew s false ta n
    let gs := if new_ || ra.new_ then
        pos.map (fun i => BitVec.ofNat 16 (Config.freeAt s.clk.free (0x053180000000 + 0x20000 * ta + i)))
      else pickGrains base pos
    let keep := stored s ta n && (rxSeal s ta).isNone
    let fresh := new_ || x.ra.tag.isNone
    let rec_ : TaCyc := {
      n, lc := ra.take_.toNat, d := 64, ftag := if fresh then 0 else (x.ra.tag.getD 0).toNat, fresh, mfs := x.mf, lat := ra.x.toNat
      chk := 3, bad := false, gr := if keep then some gs else none }
    let s := modIn ta (fun x => { x with
      ra := { x.ra with tag := some (clientCrc gs 64) }, cycs := (rec_ :: x.cycs.filter (fun c => c.n != n)).take 96 }) s
    ((pos.zip gs).foldl (fun t x => tput x.1 x.2 t) lay, match x.pend with
      | some (mfc, _, lc) => if (lc : Int) ≤ ra.take_ then labelled ta n mfc s else s
      | none => s)

/-- The lane cycle that a PLESIO lane takes up, section by section; free content where it is no longer held (log 2). -/
def raBase (l : Nat) (s : State) : List (List Grain) :=
  let ra := tget raLaneReset s.trib.raLane l
  match ra.held.find? (fun x => (x.1 : Int) == ra.take_) with
  | some (_, secs) => secs
  | none => (List.range 8).map (fun i => (List.range 12288).map (fun j =>
      BitVec.ofNat 16 (Config.freeAt s.clk.free (0x053000000000 + 0x20000 * l + 12288 * i + j))))

/-- The content that a PLESIO lane presents for core cycle `n`, put together at its end (05 R126, R130, R133). -/
def raEmit (l n : Nat) (s : State) : State :=
  let ra := tget raLaneReset s.trib.raLane l
  let c := s.clk.free
  let base := raBase l s
  let tas := (tribIds (mapAt s false l n)).map (fun t => 1024 * l + t)
  let (lay, s) := tas.foldl (raShareOut n base ra) (([] : Tbl Grain), s)
  let secs := (List.range 8).map (fun i => overlay (12288 * i) (base.getD i []) (lay.filter (fun x => x.1 / 12288 == i)))
  let s := (List.range 8).foldl (fun s i => capPut l n i (secs.getD i []) s) { s with clk := { s.clk with free := c + 1 } }
  modRx l (fun r => { r with whole := (n :: r.whole.filter (fun c => c != n)).take 4 }) s

/-- The Rate Absorber of one lane at the tick that begins core cycle `n`. -/
def raTick (ph : List LanePhase) (n l : Nat) (s : State) : State :=
  let ra := tget raLaneReset s.trib.raLane l
  let s := if ra.on && plesioAt s l (n - 1) then raEmit l (n - 1) s else s
  if plesioAt s l n && (lane s l).al.ever then
    let ((el, len), s) := phaseOf ph l s
    let s := syncUpdate l n el s
    (tribIds (mapAt s false l n)).foldl (fun s t =>
      if 8 ≤ taSize s false (1024 * l + t) n then shareUpdate l n el len (1024 * l + t) s else s) s
  else if ra.on then
    let s := { s with trib := { s.trib with raLane := tset raLaneReset l (raLaneReset 0) s.trib.raLane } }
    (laneTas s l).foldl (fun s ta => modIn ta (fun x => { x with ra := shareReset }) s) s
  else s

/-- Every lane in PLESIO timing now or in the last cycle. -/
def raTicks (ph : List LanePhase) (s : State) : State :=
  let n := curCycle s
  (s.lanes.map (·.1)).foldl (fun s l => if plesioAt s l n || plesioAt s l (n - 1) then raTick ph n l s else s) s

end Sys2Proof.Machine
end

