-- ==== Sys2Proof/WellFormed.lean ====
section
/-! DEFINITION. Well-formed commands: operands that some step of the device or of its surroundings can have. -/

namespace Sys2Proof

/-- Lanes 0 to 143 (00 Names). -/
def laneWf (l : Nat) : Bool := decide (l < 144)

/-- A packet (12 Table 12.6): a command ring, a 5-bit reserved field, a count byte, a 16-byte authenticator, and as many words in
all as the packet has room for. -/
def packetWf (p : Packet) : Bool :=
  decide (p.ring < 4) && decide (p.rsv < 32) && decide (p.params.length < 256) &&
  (match p.auth with
   | some a => a.length == 16 && decide (8 ≤ p.params.length + p.extra.length)
   | none => decide (12 ≤ p.params.length + p.extra.length))

/-- The accesses of one bank cycle (13 R354): port E alignment and range, `LW_A[23]` among its address bits (12 R319), port I length,
range and master. -/
def accessWf (e : Option PortEAccess) (i : Option PortIAccess) (ecc : Option EccHit) : Bool :=
  (match e with | some e => e.addr % 4 == 0 && decide (e.addr < 0x1000000) | none => true) &&
  (match i with
    | some i => decide (1 ≤ i.len) && decide (i.len ≤ 256) && decide (i.addr + i.len ≤ 0x800000) && decide (i.master < 8)
        && (!i.write || i.data.length == i.len)
    | none => true) &&
  (match ecc with | some h => decide (h.addr < 0x800000) | none => true)

/-- Target of an address on the Bus Matrix; 8 for an unmapped range (13 Table 13.5). -/
def burstTarget (a : Nat) : Nat :=
  if a < 0x00800000 then 0 else if a < 0x01000000 then 8 else if a < 0x03000000 then 1 else if a < 0x04000000 then 8
  else if a < 0x08000000 then 2 else if a < 0x08800000 then 3 else if a < 0x0C000000 then 8 else if a < 0x0D000000 then 4
  else if a < 0x0E000000 then 5 else if a < 0x0F000000 then 6 else if a < 0x0F010000 then 7 else 8

/-- A burst for a target (13 R365): 1 to 8 beats of 8 bytes within one 64-byte-aligned block. -/
def burstWf (t : Nat) (b : Burst) : Bool :=
  decide (b.master < 8) && decide (1 ≤ b.beats) && decide (b.beats ≤ 8) && b.addr % 8 == 0 && decide (b.addr < 2 ^ 32)
    && decide (b.addr / 64 = (b.addr + 8 * b.beats - 1) / 64) && (!b.write || b.data.length == b.beats) && burstTarget b.addr == t

/-- A defect's object and bit (07 Tables 7.2, 7.3). -/
def defectWf (o : DefectObj) (b : Nat) : Bool :=
  match o with
  | .lane l => laneWf l && decide (b < 6)
  | .ingress ta => decide (ta < 147456) && decide (b < 3)
  | .egress ta => decide (ta < 147456) && b == 3

/-- A measurement that the Field I/O Guard can make (15 Tables 15.7, 15.18). -/
def guardWf (m : GuardMeas) : Bool := decide (m.pin < 32) && decide (m.kind ≤ 5) && (decide (m.kind ≠ 4) || m.pin == 31)

/-- An hourly wear measure of a unit of a die (15 Table 15.5). -/
def wearWf (m : WearMeas) : Bool := decide (m.die < 5) && match m.osc with | some (o, _) => decide (o < 32) | none => true

/-- Units of each spare pool (15 Table 15.4). -/
def poolSize : Nat → Nat
  | 0 => 144 | 1 => 4608 | 2 => 16 | 3 => 16 | 4 => 16 | 5 => 16 | 6 => 16 | 7 => 3456 | _ => 0

/-- A unit that can fail hard: pools 0 to 7, 0xE for the Health and Wear Monitor, 0xF for a lane's SerDes (15 R403, R406). -/
def unitWf (p u : Nat) : Bool := (decide (p < 8) && decide (u < poolSize p)) || decide (p = 14) || (decide (p = 15) && laneWf u)

/-- A word of a data-plane store, with the grains it carries (13 R357). -/
def badWordWf (w : BadWord) : Bool := decide (1 ≤ w.store) && decide (w.store ≤ 6) && decide (w.bank < 16) && w.grains.all (fun x => decide (x.1 < 14155776))

/-- A well-formed command. -/
def Instr.wf : Instr → Bool
  | .sysNop p => packetWf p
  | .sysAbort p => packetWf p
  | .sysModeSet p => packetWf p
  | .sysModeGet p => packetWf p
  | .sysFenceSet p => packetWf p
  | .sysAuthSet p => packetWf p
  | .sysIoSet p => packetWf p
  | .sysIoGet p => packetWf p
  | .laneFrameSet p => packetWf p
  | .laneFrameGet p => packetWf p
  | .laneSeedSet p => packetWf p
  | .laneMsgSend p => packetWf p
  | .laneMsgRead p => packetWf p
  | .laneAlignSet p => packetWf p
  | .laneAlignGet p => packetWf p
  | .laneDefectSet p => packetWf p
  | .laneDefectGet p => packetWf p
  | .laneTxSet p => packetWf p
  | .laneRxSet p => packetWf p
  | .laneSerdesGet p => packetWf p
  | .laneLoopSet p => packetWf p
  | .tribMapLoad p => packetWf p
  | .tribSet p => packetWf p
  | .tribGet p => packetWf p
  | .tribTimingSet p => packetWf p
  | .tribDefectProfileSet p => packetWf p
  | .tribDefectSet p => packetWf p
  | .tribDefectGet p => packetWf p
  | .accordSet p => packetWf p
  | .accordMemberSet p => packetWf p
  | .accordGet p => packetWf p
  | .accordStoreGet p => packetWf p
  | .connSet p => packetWf p
  | .connGet p => packetWf p
  | .connLoad p => packetWf p
  | .connDelay p => packetWf p
  | .connEqSet p => packetWf p
  | .connEqGet p => packetWf p
  | .connOccupancyGet p => packetWf p
  | .protGroupSet p => packetWf p
  | .protCmd p => packetWf p
  | .protGet p => packetWf p
  | .timeRefSet p => packetWf p
  | .timeRefGet p => packetWf p
  | .timeSelSet p => packetWf p
  | .timeDpllGet p => packetWf p
  | .timeDpllSteer p => packetWf p
  | .timeOutSet p => packetWf p
  | .timeTodSet p => packetWf p
  | .timeTickSet p => packetWf p
  | .timeTickGet p => packetWf p
  | .sealTxSet p => packetWf p
  | .sealRxSet p => packetWf p
  | .sealFlip p => packetWf p
  | .sealGet p => packetWf p
  | .ciphKeyLoad p => packetWf p
  | .ciphKeyErase p => packetWf p
  | .ciphKeyGet p => packetWf p
  | .ciphChanSet p => packetWf p
  | .ciphOp p => packetWf p
  | .memTestStart p => packetWf p
  | .memTestGet p => packetWf p
  | .memFenceSet p => packetWf p
  | .cntSelect p => packetWf p
  | .cntRead p => packetWf p
  | .cntDump p => packetWf p
  | .evtMark p => packetWf p
  | .evtLogRead p => packetWf p
  | .saveConfigSet p => packetWf p
  | .saveGet p => packetWf p
  | .saveTest p => packetWf p
  | .testPrbsSet p => packetWf p
  | .testPrbsGet p => packetWf p
  | .testEyeScan p => packetWf p
  | .healthGet p => packetWf p
  | .healthSpareSwap p => packetWf p
  | .healthSpareGet p => packetWf p
  | .healthCpGet p => packetWf p
  | .commandDoorbell ring _ => decide (ring < 4)
  | .replyRingDoorbell _ => true
  | .eventConsumerIndexWrite _ => true
  | .ringEnable ring value => decide (ring < 6) && value.getLsbD 8
  | .ringDisable ring value => decide (ring < 6) && !value.getLsbD 8
  | .irqStatusClear _ => true
  | .evtLostRead => true
  | .registerWrite _ _ _ => true
  | .windowMemoryAccess e i ecc => accessWf e i ecc
  | .busMatrixBurst reqs target => reqs.all (burstWf target)
  | .matrixLockTimeout target => decide (target < 8)
  | .apertureWrite master addr _ => decide (addr % 4 = 0) && decide (0x4000000 ≤ addr) && decide (addr < 0x8000000) && decide (master < 8)
  | .commandDecode ring => decide (ring < 4)
  | .descriptorRecheck ring chan => decide (ring < 4) && decide (chan < 16)
  | .ciphOpStart => true
  | .ciphOpResume => true
  | .ciphOpComplete => true
  | .eyeScanComplete lane counts centres _ => laneWf lane && counts.length == 4096 && centres.length == 3 && centres.all (fun c => decide (c < 64))
  | .memTestComplete _ _ => true
  | .grainCycleTick _ => true
  | .frameTick _ => true
  | .crossoverPass badEntries words =>
    badEntries.all (fun g => decide (g < 14155776)) && words.bad.all badWordWf && words.corrected.all (fun x => decide (1 ≤ x) && decide (x ≤ 6))
  | .sectionTransmit lane => laneWf lane
  | .markerBlockReceived m => laneWf m.lane && decide (m.pos < 218750) && m.bits.length == 1150
  | .alignmentLoss lane => laneWf lane
  | .decisionWindowEnd lane => laneWf lane
  | .laneAlignRecovery lane => laneWf lane
  | .sectionDecoded lane codewords => laneWf lane && codewords.length == 40 && codewords.all (fun w => w.length == 544)
  | .losWindowEnd lane _ => laneWf lane
  | .cdrLock lane _ => laneWf lane
  | .cdrLossOfLock lane => laneWf lane
  | .goodSetRefresh lane good => laneWf lane && good.coefs.length == 32
  | .laneLoopSlip m => laneWf m.lane
  | .prbsCheckerLock lane _ => laneWf lane
  | .prbsCheckerLoss lane _ _ => laneWf lane
  | .defectDeclare obj bit => defectWf obj bit
  | .defectClear obj bit => defectWf obj bit
  | .degWindowEnd ta => decide (ta < 147456)
  | .accordRealign accord => decide (accord < 16384)
  | .alignerUnitsReturn => true
  | .connEqLocked bind => decide (bind < 8192)
  | .connEqLost bind => decide (bind < 8192)
  | .updatePortCommit => true
  | .protSwitchStart group => decide (group < 65536)
  | .protHoldOffExpiry group => decide (group < 65536)
  | .protWtrExpiry group => decide (group < 65536)
  | .ftickWordReceived _ => true
  | .ppsInEdge _ => true
  | .todInMessage _ => true
  | .todOutMessage => true
  | .refActivityLoss ref => decide (ref < 8)
  | .freqMonitorUpdate meas => meas.all (fun m => decide (m.ref < 25))
  | .macerationExpiry ref => decide (ref < 25)
  | .selectorEvaluation => true
  | .dpllSwitchTimeout => true
  | .dpllUpdate _ _ dpll => decide (dpll < 2)
  | .dpllLock => true
  | .drydownUpdate _ => true
  | .modelLearnUpdate _ => true
  | .xoFail => true
  | .dpllFailure => true
  | .tickGeneratorFailure => true
  | .edgeLinkClockLoss die => decide (die < 4)
  | .edgeDieFailure die => decide (die < 4)
  | .keyStoreAlarm causes => decide (causes ≠ 0)
  | .guardMeasurement meas => meas.all guardWf
  | .ioInputSample _ _ => true
  | .eventAckPhaseEnd _ => true
  | .eventRingWrite => true
  | .eventHoldoffExpiry => true
  | .counterTapSample eccBad => eccBad.all (fun n => decide (n < 1048576))
  | .backgroundTestStripe => true
  | .memRepair _ _ _ => true
  | .cpHeartbeatTimeout => true
  | .cpMemoryError _ => true
  | .failoverGapEnd => true
  | .journalApply => true
  | .standbySelftestPass _ => true
  | .cpDigestExchange _ => true
  | .cpRestartComplete cp => decide (cp < 3)
  | .cpRevertHoldoffExpiry => true
  | .svaHeartbeatTimeout => true
  | .unitHardFailure pool unit _ => unitWf pool unit
  | .spareCutover _ => true
  | .healthWearSample meas => meas.all wearWf
  | .serdesMarginScan lane _ _ => laneWf lane
  | .capacitorMeasurement _ _ _ => true
  | .saveStageRefresh => true
  | .saveTrigger _ _ => true
  | .saveComplete => true
  | .bootStart _ => true
  | .bootImagePoll => true
  | .bootComplete => true
  | .wakeStart _ => true
  | .resetAssert => true
  | .perstAssert => true
  | .railLoss _ => true
  | .ppsInEdgeMissing => true
  | .pcieLinkDown => true
  | .journalLag cp => decide (cp < 3)
  | .cceFault => true
  | .stripeReturned _ _ => true
  | .cntDumpBlock _ => true
  | .checkpointComplete => true
  | .unitRetestComplete _ => true
  | .adaptationConverged lane => laneWf lane
  | .alarmCauseEnded _ => true
  | .jtagInstruction _ => true

end Sys2Proof
end

