-- ==== Sys2Proof/Machine/Cross.lean ====
section
/-! DEFINITION. The crossover pass, the egress cycle with its overhead and verdicts, and the Path Equaliser (chapters 2, 5, 6, 7, 11). -/

namespace Sys2Proof.Machine

/-! ## The crossover pass (02 R43 to R45; 06 R157 to R161) -/

/-- Cycles of Aligner-store delay that an entry's grain has in ingress cycle `n` (02 R51; 05 R145; 06 R172; 11 R292). -/
def entryDelay (s : State) (n : Nat) (d : Word) : Nat :=
  match taOfGrain s (entrySrc d / laneGrains) (entrySrc d % laneGrains) n with
  | none => 0
  | some ta => delayA s ta n + (if entryEq d then delayE s ta n else 0) + delayC s ta n

/-- The content that lane `l` contributes to core cycle `n` is undefined whatever becomes of it: a step of ALIGN, a fence, a lane cycle
outside the window (02 R49, R61; 16 R443). -/
def laneOff (s : State) (l n : Nat) : Bool := stepSpans s n || laneFenced s l || (lane s l).rx.skews.contains n

/-- The same, with a change of timing mode and an engine that is down (05 R126; 09 Table 9.8). -/
def laneUndef (s : State) (l n : Nat) : Bool := laneOff s l n || engineDown s l || timingSpans s l n

/-- Position of an element in a list. -/
def posOf (x : Nat) : Nat → List Nat → Option Nat
  | _, [] => none
  | i, y :: t => if x = y then some i else posOf x (i + 1) t

/-- The tributary is opened in checked release. -/
def checkedOpen (s : State) (ta : Nat) : Bool := match rxSeal s ta with | some b => !b.fast | none => false

/-- A grain that the Aligner store or a Seal Engine holds for cycle `n` of a tributary. In checked release a cycle of no frame that passed is
0x0000 (11 R292, Tables 11.5, 11.16). -/
def heldGrain (s : State) (ta g n : Nat) : Option Grain :=
  let zero : Option Grain := if checkedOpen s ta then some 0 else none
  match (inTa s ta).cycs.find? (fun c => c.n == n), posOf g 0 (taGrains s false ta n) with
  | some c, some i => match c.gr with | some gs => gs[i]? | none => zero
  | _, _ => zero

/-- The grain that an entry with FILL SOURCE reads in the crossover pass of cycle `n`; none where it is undefined. -/
def sourceGrain (s : State) (n : Nat) (d : Word) : Option Grain :=
  let l := entrySrc d / laneGrains
  let g := entrySrc d % laneGrains
  let a := entryDelay s n d
  let ta := taOfGrain s l g n
  let checked := match ta with | some ta => checkedOpen s ta | none => false
  if n < a || (lane s l).rx.skews.contains n || (if checked then laneOff s l (n - a) else laneUndef s l (n - a)) then none
  else
    let direct : Option Grain := if (lane s l).rx.whole.contains n then capGrain s l n g else none
    match ta with
    | none => direct
    | some ta => if a = 0 && (rxSeal s ta).isNone then direct else heldGrain s ta g (n - a)

/-- An undefined grain: a free value. -/
def undefGrain (c g : Nat) : Grain := BitVec.ofNat 16 (Config.freeAt c (0x060000000000 + g))

/-- The Release buffer that holds egress cycle `m` (02 R45). -/
def relBuf (s : State) (m : Nat) : Option RelBuf := [s.data.rel0, s.data.rel1].findSome? (fun b => b.filter (fun b => b.m == m))

/-- The released grains of an egress cycle that differ from 0. -/
def released (s : State) (m : Nat) : Tbl Grain := ((relBuf s m).map (·.gr)).getD []

/-- Default grain: 0x0000 (06 R161). -/
def noGrain (_ : Nat) : Grain := 0

/-- What the pass of cycle `n` writes at destination `g` (06 Table 6.3, R161); `c` is the draw for undefined content. -/
def passGrain (c : Nat) (s : State) (n g : Nat) : Grain :=
  let d := (inForce s n g).data
  match entryFill d with
  | 0 => (sourceGrain s n d).getD (undefGrain c g)
  | 1 => 0x5A5A
  | 2 => tget noGrain (released s (n + 2)) g
  | _ => 0

/-! ### `CONN_DELAY` (06 R183) -/

/-- The bit offset of a grain from the first bit of its cycle (03 R81). -/
def bitOffset (g : Nat) : Nat :=
  let x := 8992 + 16 * (g % 12288)
  218750 * (g / 12288) + 1150 + x + 300 * (x / 5140)

/-- ε of an egress lane in the cycle served: a free value from −25 ps to +25 ps (02 Table 2.4). -/
def epsilon (s : State) (l : Nat) : Int := ((Config.freeAt s.clk.free (0x0237000000 + l) % 51 : Nat) : Int) - 25

/-- Λ_rx of a source grain in cycle `n`, with what the Rate Absorber's delay was in that cycle on a PLESIO lane: its actual fill, or the
synchronous delay (02 R51; 05 R129, R130). -/
def lambdaRx (s : State) (l g n : Nat) : Nat :=
  let al := (lane s l).al
  let xs := (tget raLaneReset s.trib.raLane l).xs
  let sync := match xs.find? (fun (x : Nat × Int) => x.1 == n) with | some x => x.2.toNat | none => 0
  if !plesioAt s l n then al.lambda
  else match taOfGrain s l g n with
    | some ta => al.lambda + (((inTa s ta).cycs.find? (fun c => c.n == n)).map (·.lat)).getD sync
    | none => al.lambda + sync

/-- s_L of a lane in cycle `n`: fixed at W/2 for a PLESIO lane (02 R50). -/
def sillageAt (s : State) (l n : Nat) : Nat :=
  let al := (lane s l).al
  if plesioAt s l n then 1953125 else ((al.sils.find? (fun x => x.1 == n)).map (·.2)).getD al.sil

/-- D of R51, rounded to the nearest ps: one bit lasts 1000/112 ps. -/
def transitPs (a lam sil : Nat) (eps bits : Int) : Int :=
  (3 + (a : Int)) * cyclePs + lam - sil + eps + (2000 * bits + 112).fdiv 224

/-- `CONN_DELAY` is served for cycle `n` at its crossover pass (06 R183, Table 6.12). -/
def delayServe (n : Nat) (j : Job) (s : State) : State :=
  let g := pf j.params 0 23 0
  let d := (inForce s n g).data
  let l := entrySrc d / laneGrains
  let m := g / laneGrains
  if !isSource d || !(lane s l).al.ever || !txActive s m || (lane s m).sd.loop = 3 then endJob j.ring .notInMode [] s
  else
    let a := entryDelay s n d
    let lam := lambdaRx s l (entrySrc d % laneGrains) n
    let sil := sillageAt s l n
    let eps := epsilon s m
    let bits : Int := (bitOffset (g % laneGrains) : Int) - bitOffset (entrySrc d % laneGrains)
    let (fc, cy) := fcOf s n
    endJob j.ring .ok [wdI (transitPs a lam sil eps bits), fc, wd (cy + 8 * a), wd lam, wd sil, wdI eps, wdI bits]
      { s with clk := { s.clk with free := s.clk.free + 1 } }

/-- Every `CONN_DELAY` that waits for this pass. -/
def delayJobs (n : Nat) (s : State) : State :=
  [0, 1, 2, 3].foldl (fun s r =>
    match job s r with
    | some j => match j.work with
      | .delay k => if k ≤ n then delayServe n j s else s
      | _ => s
    | none => s) s

/-- Form of `CONN_DELAY`. -/
def formConnDelay (ws : List Word) : Bool := gaOk (pf ws 0 23 0) && rsv0 ws 0 31 24

/-- `CONN_DELAY` waits for the first crossover pass that begins after it is decoded. -/
def bodyConnDelay (_ : Packet) (s : State) : Res :=
  .wait (.delay (if nsOf s.clk < 3907 then curCycle s - 1 else curCycle s)) [] [] s

/-! ## Path Equaliser (06 R172 to R177) -/

/-- A binding at start-up: disabled (06 R186). -/
def eqReset (_ : Nat) : EqBind :=
  { st := 0, ta := 0, depth := 64, s := 0, taRef := 0, refDelay := 0, matchN := 16, c0 := 0, omega := 0, excl := [], run := [],
    fails := 0, ambigRaised := false, rangeRaised := false, lockAt := none, fcLock := 0, cycLock := 0, hist := 0, fromLock := false, units := 0,
    from_ := 0 }

/-- A binding whose enable or disable starts it afresh; `CONN_EQ_RANGE` stays raised until a lock (06 R176). -/
def eqFresh (x : EqBind) : EqBind := { eqReset 0 with hist := x.hist, rangeRaised := x.rangeRaised }

def eqBind (s : State) (b : Nat) : EqBind := tget eqReset s.conn.eq b
def setEq (b : Nat) (x : EqBind) (s : State) : State := { s with conn := { s.conn with eq := tset eqReset b x s.conn.eq } }

/-- Default of the earlier settings of a binding: none. -/
def noEq (_ : Nat) : List EqBind := []

/-- The settings of a binding that govern a cycle from now on, newest first. -/
def eqAll (s : State) (b : Nat) : List EqBind := eqBind s b :: tget noEq s.conn.eqOld b

/-- The settings of a binding in force now (01 R23; 02 R53). -/
def eqForce (s : State) (b : Nat) : EqBind := ((eqAll s b).find? (fun x => decide (x.from_ ≤ curCycle s))).getD (eqReset 0)

/-- Changes the settings of a binding in force now. -/
def setForce (b : Nat) (x : EqBind) (s : State) : State :=
  let f := (eqForce s b).from_
  if f = (eqBind s b).from_ then setEq b x s
  else { s with conn := { s.conn with eqOld := tset noEq b ((tget noEq s.conn.eqOld b).map (fun y => if y.from_ = f then x else y)) s.conn.eqOld } }

/-- Keeps the settings up to the one in force in cycle `n`. -/
def eqKeep (n : Nat) : List EqBind → List EqBind
  | [] => []
  | x :: t => if x.from_ ≤ n then [x] else x :: eqKeep n t

/-- Settings of a binding are committed for cycle `k`: those before it govern until then, and of two for one cycle the later stands
(01 R24). -/
def eqCommit (b k : Nat) (x : EqBind) (s : State) : State :=
  let old := (eqKeep (curCycle s) (eqAll s b)).filter (fun y => decide (y.from_ ≠ k))
  setEq b { x with from_ := k } { s with conn := { s.conn with eqOld := tset noEq b old s.conn.eqOld } }

/-- First cycle of the settings that follow those in force, none when none are committed. -/
def eqUntil (s : State) (b : Nat) : Option Nat :=
  (((eqAll s b).filter (fun x => decide (curCycle s < x.from_))).getLast?).map (·.from_)

/-- Sticky bits of a binding, which belong to no setting. -/
def eqHist (b : Nat) (h : BitVec 3) (s : State) : State := let x := eqBind s b; setEq b { x with hist := x.hist ||| h } s

/-- The tag of data cycle `k` of a tributary, when its ingress check passed (06 R175). -/
def goodTag (s : State) (ta k : Nat) : Option Nat :=
  let cs := (inTa s ta).cycs
  match cs.find? (fun c => c.n == k), cs.find? (fun c => c.n == k + 1) with
  | some c, some d => if c.chk = 1 then some d.ftag else none
  | _, _ => none

/-- The comparison of candidate ω that data cycle `j` completes: none when the cycles are not compared. -/
def eqCompare (s : State) (x : EqBind) (om : Int) (j : Nat) : Option Bool :=
  let k : Int := if om < 0 then j else j - om
  let r : Int := k + om
  if k < x.c0 || r < x.c0 then none
  else match goodTag s x.ta k.toNat, goodTag s x.taRef r.toNat with
    | some a, some b => some (a == b)
    | _, _ => none

/-- The candidates of a binding: ω from −`REF_DELAY` to `DEPTH` − `REF_DELAY`. -/
def candidates (x : EqBind) : List Int := (List.range (x.depth + 1)).map (fun (i : Nat) => (i : Int) - x.refDelay)

/-- Matches in a row of a candidate. -/
def runOf (x : EqBind) (om : Int) : Nat := match x.run.find? (fun y => y.1 == om) with | some y => y.2 | none => 0

/-- One candidate is compared. -/
def eqStep (s : State) (j : Nat) (x : EqBind) (om : Int) : EqBind :=
  if x.excl.contains om then x
  else match eqCompare s x om j with
    | none => x
    | some false => { x with excl := x.excl ++ [om], run := x.run.filter (fun y => y.1 != om) }
    | some true => { x with run := (om, min (runOf x om + 1) 64) :: x.run.filter (fun y => y.1 != om) }

/-- A measuring binding after the comparisons of data cycle `j`; a lock applies from the cycle after next (06 R175, R176). The
sticky bits are set whenever their condition holds, though the event is raised once: DESIGN CHOICE (log 71). -/
def eqMeasure (b j : Nat) (x0 : EqBind) (s : State) : State :=
  let x := (candidates x0).foldl (eqStep s j) x0
  let live := (candidates x).filter (fun om => !x.excl.contains om)
  let won := live.filter (fun om => decide (x.matchN ≤ runOf x om))
  if live.isEmpty then
    let s := eqHist b 2 (setForce b { x with excl := [], run := [], c0 := j + 2, ambigRaised := false, rangeRaised := true } s)
    if x.rangeRaised then s else pulse 0x05 0x14 b 0 false s
  else if 2 ≤ won.length then
    let s := eqHist b 1 (setForce b { x with ambigRaised := true } s)
    if x.ambigRaised then s else pulse 0x05 0x13 b 0 false s
  else if live.length = 1 && won.length = 1 && x.lockAt.isNone then setForce b { x with lockAt := some (j + 2), omega := won.headD 0 } s
  else setForce b x s

/-- The comparisons of a binding, under the settings in force, once data cycle `j` has been checked. A loss that has been reached
stays (06 R176). -/
def eqData (j b : Nat) (s : State) : State :=
  let x := eqForce s b
  match x.st with
  | 2 => eqMeasure b j x s
  | 3 => match eqCompare s x x.omega j with
    | some true => if x.matchN ≤ x.fails then s else setForce b { x with fails := 0 } s
    | some false => setForce b { x with fails := min (x.fails + 1) 64 } s
    | none => s
  | _ => s

/-- Every binding. -/
def eqPass (n : Nat) (s : State) : State :=
  if n = 0 then s else (s.conn.eq.map (·.1)).foldl (fun s b => eqData (n - 1) b s) s

/-- CONN_EQ_LOCKED (06 R175): s applies from the boundary found, unless other settings govern by then. -/
def eqLocked (b : Nat) (s : State) : State :=
  let x := eqForce s b
  match x.st, x.lockAt with
  | 2, some k =>
    if (match eqUntil s b with | some t => decide (t ≤ k) | none => false) then s else
    let v := ((x.refDelay : Int) + x.omega).toNat
    let (fc, cy) := fcOf s k
    let s := setForce b { x with
      st := 3, s := v, lockAt := none, fails := 0, ambigRaised := false, rangeRaised := false, fcLock := fc, cycLock := cy } s
    pulse 0x05 0x12 b (wd ((wdI x.omega).toNat % 256 + 256 * v)) false (putE x.ta k v s)
  | _, _ => s


/-- CONN_EQ_LOST (06 R176): the binding keeps its s. -/
def eqLost (b : Nat) (s : State) : State :=
  let x := eqForce s b
  if x.st = 3 && decide (x.matchN ≤ x.fails) then
    pulse 0x05 0x15 b 0 false (eqHist b 4 (setForce b { x with st := 4 } s))
  else s

/-- CONN_EQ_LOST. -/
def execConnEqLost (b : Nat) (s : State) : Host.Outcome State Fault Refusal :=
  if b < 8192 then .next (if running s then eqLost b s else s) else .refused (.illFormed "CONN_EQ_LOST")

/-- A lane leaves LOCKED timing: its locked bindings are lost (06 R176). -/
def eqTiming (l : Nat) (s : State) : State :=
  (s.conn.eq.map (·.1)).foldl (fun s b =>
    let x := eqForce s b
    if x.st = 3 && (x.ta / 1024 = l || x.taRef / 1024 = l) then setForce b { x with fails := max x.fails x.matchN } s else s) s

/-- Form of `CONN_EQ_SET` (06 Table 6.13; 12 R472). -/
def formConnEqSet (ws : List Word) : Bool :=
  rsv0 ws 0 31 15 && rsv0 ws 1 31 25 &&
  (!pb ws 0 13 ||
    (taOk (pf ws 1 17 0) && inR (pf ws 1 24 18) 1 64 &&
      (if pb ws 0 14 then taOk (pf ws 2 17 0) && decide (pf ws 2 24 18 ≤ pf ws 1 24 18) && inR (pf ws 2 31 25) 4 64
       else rsv0 ws 2 31 7 && decide (pf ws 2 6 0 ≤ pf ws 1 24 18))))

/-- `CONN_EQ_SET` goes to the update port. -/
def bodyConnEqSet (_ : Packet) (s : State) : Res := toPort s

/-- The fields of a `CONN_EQ_SET` equal those in force (06 R177). -/
def eqSame (x : EqBind) (ws : List Word) : Bool :=
  x.ta == pf ws 1 17 0 && x.depth == pf ws 1 24 18 &&
  (if pb ws 0 14 then decide (2 ≤ x.st) && x.taRef == pf ws 2 17 0 && x.refDelay == pf ws 2 24 18 && x.matchN == pf ws 2 31 25
   else x.st == 1 && x.s == pf ws 2 6 0)

/-- A change that an enabled binding admits (06 R177). -/
def eqChangeOk (x : EqBind) (ws : List Word) : Bool :=
  x.ta == pf ws 1 17 0 && x.depth == pf ws 1 24 18 && !pb ws 0 14 && (x.st == 1 || (x.st == 3 && x.s == pf ws 2 6 0))

/-- The checks of `CONN_EQ_SET` at its commit for cycle `k`, in order (06 R184, R173, R177; 11 R292). -/
def eqSetCheck (ws : List Word) (k : Nat) (s : State) : Option Status :=
  let b := pf ws 0 12 0
  let x := eqBind s b
  let ta := pf ws 1 17 0
  let ref := pf ws 2 17 0
  let g := taSize s false ta k
  let pair := pb ws 0 14
  if !pb ws 0 13 || (x.st != 0 && eqSame x ws) then none
  else if g = 0 || (pair && (taSize s false ref k = 0 || taSize s false ref k != g)) then some .badParam
  else if s.conn.eq.any (fun y => y.1 != b && y.2.st != 0 && y.2.ta == ta) then some .badParam
  else if (match memberNew s ta with | some (a, _) => (accNew s a).aligned | none => false) then some .badParam
  else if decide (48 < pf ws 1 24 18) && checkedBound s ta then some .badParam
  else if pair && (plesioAt s (ta / 1024) k || plesioAt s (ref / 1024) k || !tagOn s ta k || !tagOn s ref k) then some .notInMode
  else if x.st != 0 && !eqChangeOk x ws then some .notInMode
  else if x.st = 0 && decide (freeUnits s k < unitsFor g (pf ws 1 24 18)) then some .busy
  else none

/-- A binding is disabled from cycle `k` on: its units return 64 cycles later (06 R177). -/
def eqDisable (b k : Nat) (s : State) : State :=
  let x := eqBind s b
  if x.st = 0 then s
  else
    let s1 := returnUnits k 1 x.units (eqCommit b k (eqFresh x) s)
    storeRelease x.ta (if delayE s x.ta k = 0 then s1 else putE x.ta k 0 s1)

/-- A `CONN_EQ_SET` is committed for cycle `k`. -/
def eqSetCommit (ws : List Word) (k : Nat) (s : State) : State :=
  let b := pf ws 0 12 0
  let x := eqBind s b
  let ta := pf ws 1 17 0
  let depth := pf ws 1 24 18
  if !pb ws 0 13 then eqDisable b k s
  else if x.st != 0 && eqSame x ws then s
  else
    let units := if x.st = 0 then unitsFor (taSize s false ta k) depth else x.units
    let base : EqBind := if x.st = 0 then eqFresh x else x
    if pb ws 0 14 then
      storeFrom ta k (eqCommit b k { base with
        st := 2, ta, depth, s := 0, taRef := pf ws 2 17 0, refDelay := pf ws 2 24 18, matchN := pf ws 2 31 25, c0 := k, units } s)
    else
      let v := pf ws 2 6 0
      let s1 := storeFrom ta k (eqCommit b k { base with
        st := 1, ta, depth, s := v, units, lockAt := none, fromLock := x.st == 3 || (x.st == 1 && x.fromLock && x.s == v),
        taRef := if x.st = 0 then noTa else x.taRef } s)
      if delayE s ta k = v then s1 else putE ta k v s1

/-- Form of `CONN_EQ_GET`. -/
def formConnEqGet (ws : List Word) : Bool := rsv0 ws 0 31 14

/-- `CONN_EQ_GET` (06 Table 6.14). -/
def bodyConnEqGet (p : Packet) (s : State) : Res :=
  let b := pf p.params 0 12 0
  let x := eqBind s b
  let y := eqForce s b
  let om := if y.st = 2 then 0 else (wdI y.omega).toNat % 256
  .reply .ok [wd (y.st + 8 * y.s + 2 ^ 10 * om), y.fcLock, wd y.cycLock, wd x.hist.toNat]
    (if pb p.params 0 13 then setEq b { x with hist := 0 } s else s)

/-! ## The pass as a step -/

/-- The crossover pass of the cycle before the one in progress has yet to run. -/
def passPending (s : State) : Bool :=
  decide (2 ≤ s.clk.ticks) && (relBuf s (curCycle s + 2)).isNone

/-- The 8 ECC bits of the entry of `g`, over its data bits and its physical index (06 R159). -/
def entryEcc (s : State) (g : Nat) : Nat :=
  Config.checkBits 56 ((committed s g).data.toNat + 2 ^ 32 * (4096 * physBlock s g + g % 4096))

/-- One buffer of the Release Stage is written, and the two change roles (02 R45). -/
def relPut (b : RelBuf) (s : State) : State :=
  { s with data := { s.data with
      rel0 := if s.data.relNext then s.data.rel0 else some b, rel1 := if s.data.relNext then some b else s.data.rel1
      relNext := !s.data.relNext } }

/-- The crossover pass of ingress cycle `n` (02 R43); the grains of a store word with an uncorrectable error are carried as read, by
destination (01 R30; 13 R357). -/
def crossPass (n : Nat) (bad : List (Nat × Grain)) (s : State) : State :=
  let c := s.clk.free
  let out := s.conn.com.filterMap (fun x => let v := passGrain c s n x.1; if v = 0 then none else some (x.1, v))
  let out := bad.foldl (fun t x => tset noGrain x.1 x.2 t) out
  delayJobs n (eqPass n (relPut { m := n + 3, gr := out } { s with clk := { s.clk with free := c + 1 } }))

/-- An entry that the pass finds uncorrectable: the copy in the route maps serves, the block is replaced (06 R163, R164), and the
error is counted (14 R382). -/
def badEntry (g : Nat) (s : State) : State :=
  monitorFinds 7 (g / 4096) (pulse 0x05 0x10 g (wd (physBlock s g)) false (tapInc tapEccUncorr 3 1 s))

/-- Pool of the banks of a data-plane store, and the cycles within which a location of it is rewritten, for the Aligner store
the delay in force for the word's grains (13 R357; 15 Table 15.4). -/
def storePool (w : BadWord) (s : State) : Option (Nat × Nat) :=
  match w.store with
  | 1 => some (4, 3)
  | 2 => some (5, 2)
  | 5 => some (6, (w.grains.map (fun x => entryDelay s (curCycle s) (committed s x.1).data)).foldl max 1)
  | _ => none

/-- A store word read with an uncorrectable error: reported and counted; found again at its location after a rewrite, it fails the
bank (13 R357; 15 R403). -/
def badWord (w : BadWord) (s : State) : State :=
  let s := eccUncorr w.store w.addr w.after s
  let here (x : Nat × Nat × Nat × Nat) : Bool := x.1 == w.store && x.2.1 == w.bank && x.2.2.1 == w.addr
  let note (s : State) : State :=
    { s with mem := { s.mem with seen := (w.store, w.bank, w.addr, s.clk.ticks) :: s.mem.seen.filter (fun x => !here x) } }
  match storePool w s, s.mem.seen.find? here with
  | some (p, n), some x => if x.2.2.2 + n ≤ s.clk.ticks then monitorFinds p w.bank (note s) else s
  | some _, none => note s
  | none, _ => s

/-- The check-bit results of a pass: `corrected` names the store of each single-bit error (06 R163; 13 R357). -/
def passErrors (badEntries : List Nat) (badWords : List BadWord) (corrected : List Nat) (s : State) : State :=
  let s := corrected.foldl (fun s st => tapInc tapEccCorr st 1 s) s
  badWords.foldl (fun s x => badWord x s) (badEntries.foldl (fun s g => badEntry g s) s)

/-- CROSSOVER_PASS (02 R43): from W after the tick on. -/
def execCrossoverPass (badEntries : List Nat) (w : WordErrors) (s : State) : Host.Outcome State Fault Refusal :=
  if badEntries.all gaOk && w.bad.all badWordWf && w.corrected.all (fun x => decide (1 ≤ x) && decide (x ≤ 6)) then
    if running s && passPending s && decide (3907 ≤ nsOf s.clk) then
      .next (passErrors badEntries w.bad w.corrected (crossPass (curCycle s - 1) (w.bad.flatMap (·.grains)) s))
    else .next s
  else .refused (.illFormed "CROSSOVER_PASS")

/-! ## The egress cycle (05 R134 to R142; 07 R199; 11 R287, R288, R295) -/

/-- The overhead of a tributary whose lane is outside the window in data cycle `n`: undefined (07 Table 7.1; log 2). -/
def skewRec (c src n : Nat) : TaCyc :=
  let f (i : Nat) : Nat := Config.freeAt c (0x071890000000 + 0x100 * src + i)
  { n, lc := 0, d := f 0 % 129, ftag := f 1 % 65536, fresh := false, lat := 0, chk := 0, bad := true, gr := none
    mfs := (List.range 8).map (fun i => (i, (List.range 4).map (fun j => BitVec.ofNat 8 (f (8 + 4 * i + j))))) }

/-- The record of a source tributary for data cycle `n`. -/
def srcRec (s : State) (src n : Nat) : Option TaCyc :=
  if (lane s (src / 1024)).rx.skews.contains n then some (skewRec s.clk.free src n) else (inTa s src).cycs.find? (fun x => x.n == n)

/-- The multiframe bytes of its most recent lane cycle number `c`, as of data cycle `n` (05 R139). -/
def srcMf (s : State) (src n c : Nat) : List Byte :=
  match (srcRec s src n).orElse (fun _ => (inTa s src).cycs.find? (fun x => decide (x.n ≤ n))) with
  | some x => padTo 4 0 (tget (fun _ => []) x.mfs c)
  | none => [0, 0, 0, 0]

/-- An internal verdict on the last egress cycle (07 Table 7.5, R135). -/
def internalVerdict (ta : Nat) (i : EgInfo) (s : State) : State :=
  let s := modEg ta (fun x => { x with hist := true }) (tapInc 0x13 (taIndex true ta) 1 s)
  let s := modTd true ta (fun d => { d with intAt := some (s.clk.now, i.src, i.delayed) }) s
  if (egTa s ta).df.decl.getLsbD 3 then s else taDefect true ta 3 true s.clk.now s

/-- The verdict on the last egress cycle of a FORWARD tributary, whose tag the next cycle carries: none when no tag was
forwarded (07 R199). -/
def egVerdict (ta : Nat) (tag : Option Nat) (s : State) : State :=
  let x := egTa s ta
  match x.info, x.crc with
  | some i, some crc =>
    if !i.fwd then s
    else
      let chk := ((srcRec s i.src i.nd).map (·.chk)).getD 0
      match tag with
      | none => tapInc 0x15 (taIndex true ta) 1 s
      | some t =>
        if i.none_ || chk = 0 then tapInc 0x15 (taIndex true ta) 1 s
        else if crc.toNat = t then (if chk = 2 then internalVerdict ta i s else s)
        else if chk = 2 then tapInc 0x14 (taIndex true ta) 1 s
        else internalVerdict ta i s
  | _, _ => s

/-- What an egress tributary's overhead is made from. -/
structure EgFrom where
  /-- egress cycle and its cycle number -/
  m     : Nat
  cyc   : Nat
  e     : EgSet
  /-- data cycle that the first grain carries -/
  nd    : Nat
  /-- sealed here, opened here, tag forwarded unchanged -/
  tx    : Option TxSeal
  opened : Bool
  fwd   : Bool

/-- The source has a name (05 R475). -/
def hasSrc (f : EgFrom) : Bool := f.e.src != noTa

/-- The `SEALED` bit that the source's most recent frame carries. -/
def srcSealed (s : State) (f : EgFrom) : Bool := hasSrc f && ((srcMf s f.e.src f.nd 2).getD 0 0).getLsbD 4

/-- The member label sent in this cycle (05 R141, R142). -/
def egLabel (s : State) (f : EgFrom) : Word :=
  match f.e.acc with
  | 1 => match (inTa s f.e.src).labAt with
    | some (l, n) => l + wdI ((f.nd : Int) - n)
    | none => wd (Config.freeAt s.clk.free (0x051420000000 + f.e.src))
  | 2 => wd (absIdx s f.m)
  | _ => 0

/-- The status byte of cycle 2 (05 R139; 03 Table 3.8). -/
def egStatus (s : State) (f : EgFrom) : Byte :=
  let st : Byte :=
    if f.e.stat then BitVec.ofNat 8 (128 * b2n f.e.rdi + 64 * b2n f.e.fsf + f.e.ql)
    else if hasSrc f then (srcMf s f.e.src f.nd 2).getD 0 0 &&& 0xCF else 0
  let generated := !f.fwd || ((srcRec s f.e.src f.nd).map (·.chk)).getD 0 == 3
  let sealed_ := f.tx.isSome || (!f.opened && srcSealed s f)
  st ||| (if generated then 0x20 else 0) ||| (if sealed_ then 0x10 else 0)

/-- Bytes 4 to 7 of an egress tributary's overhead (03 Table 3.8; 05 R139 to R142; 11 R287, R288); zero in cycles 3 to 7 of the
-NE part (00 R4). -/
def egMf (s : State) (f : EgFrom) : List Byte :=
  match f.cyc with
  | 0 => match f.e.acc with
    | 1 => let b := srcMf s f.e.src f.nd 0; b.take 3 ++ [(b.getD 3 0) &&& 0xC0]
    | 2 => beBytes 2 f.e.accId ++ [BitVec.ofNat 8 f.e.seq, BitVec.ofNat 8 (128 + 64 * b2n f.e.last)]
    | _ => [0, 0, 0, 0]
  | 1 =>
    if f.e.acc = 0 || (f.e.acc = 1 && !((srcMf s f.e.src f.nd 0).getD 3 0).getLsbD 7) then [0, 0, 0, 0]
    else beBytes 4 (egLabel s f).toNat
  | 2 => [egStatus s f, 0, 0, 0]
  | c => match f.tx with
    | some b => sealMf b c
    | none =>
      if f.opened || !hasSrc f || s.dev.ne then [0, 0, 0, 0]
      else
        let b := srcMf s f.e.src f.nd c
        if c = 7 then [(b.getD 0 0) &&& 0x80] ++ b.drop 1 else b

/-- r of R295 for a sealed tributary that is forwarded, and `SEAL_FRAME_SPLIT`. -/
def splitCheck (ta a l : Nat) (s : State) : State :=
  let r := (3 + a + 8 - (lane s l).al.diff % 8) % 8
  let x := egTa s ta
  if r = 0 then (if x.split then modEg ta (fun x => { x with split := false }) s else s)
  else if x.split then s
  else pulse 0x08 0x02 (taIndex true ta) (wd r) false (modEg ta (fun x => { x with split := true, splitH := true }) s)

/-- One egress tributary in the egress cycle `m` that begins: its line grains and overhead (05 R134 to R139). -/
def egressTa (c m ta : Nat) (o : OutCycle) (s : State) : OutCycle × State :=
  let base := laneGrains * (ta / 1024)
  let pos := taGrains s true ta m
  let g := pos.length
  let raw := pos.map (fun q => if stepSpans s m then undefGrain c (base + q) else tget noGrain (released s m) (base + q))
  let n := m - 3
  let first := (inForce s n (base + pos.headD 0)).data
  let a := entryDelay s n first
  let e := egSet s ta m
  let has := e.src != noTa
  let tx := match txSeal s ta with | some b => if b.begun then some b else none | none => none
  let opened := has && (rxSeal s e.src).isSome
  let fwd := e.jct == 0 && tx.isNone && !opened
  let f : EgFrom := { m, cyc := (fcOf s m).2, e, nd := n - a, tx, opened, fwd }
  let rec_ := if m < 3 + a then none else srcRec s e.src (n - a)
  let d := if g < 8 || e.jct = 2 then 64 else match rec_ with
    | some r => r.d
    | none => Config.freeAt c (0x051340000000 + ta) % 129
  let fresh := taNew s true ta m
  let fwdTag := match rec_ with | some r => r.ftag | none => Config.freeAt c (0x051350000000 + ta) % 65536
  let tag := if fresh then 0 else if fwd then fwdTag else (((egTa s ta).crc).getD 0).toNat
  let s := egVerdict ta (if fresh || !fwd || (match rec_ with | some r => r.fresh | none => false) then none else some fwdTag) s
  let mf := egMf s f
  let s := if has && !opened && tx.isNone && srcSealed s f then splitCheck ta a (entrySrc first / laneGrains) s else s
  let (line, s) := txCycle ta m raw s
  let none_ := stepSpans s m || pos.any (fun q => !isSource (inForce s n (base + q)).data)
    || (match rec_ with | some r => r.bad | none => true)
  let s := modEg ta (fun x => { x with
    crc := some (clientCrc line d), info := some { fwd, none_, src := e.src, nd := n - a, delayed := decide (a ≠ 0) }, d
    label := if f.cyc = 1 then wd (beNat mf) else x.label }) s
  let gr := if tx.isNone && !stepSpans s m then o.gr else (pos.zip line).foldl (fun t x => tset noGrain (base + x.1) x.2 t) o.gr
  let oh : List Byte := [BitVec.ofNat 8 d, BitVec.ofNat 8 d ^^^ 0xFF, BitVec.ofNat 8 (tag / 256), BitVec.ofNat 8 tag] ++ mf
  ({ o with gr, oh := tput ta oh o.oh }, s)

/-- An egress tributary that has ceased to exist: its last cycle has no tag, so no verdict. -/
def egressGone (ta : Nat) (s : State) : State :=
  if (egTa s ta).info.isSome then modEg ta (fun x => { x with crc := none, info := none }) (egVerdict ta none s) else s

/-- The egress cycle that begins is put together (02 R43, Table 1.4): grains, seals, overhead and verdicts. -/
def egressCycle (s : State) : State :=
  let m := curCycle s
  let c := s.clk.free
  let s := { s with clk := { s.clk with free := c + 1 } }
  let s := (s.trib.egTa.filter (fun x => x.2.info.isSome && taSize s true x.1 m == 0)).foldl (fun s x => egressGone x.1 s) s
  let tas := s.trib.egMap.flatMap (fun x => (tribIds (mapAt s true x.1 m)).map (fun t => 1024 * x.1 + t))
  let (o, s) := tas.foldl (fun (o, s) ta => egressTa c m ta o s) (({ m, gr := released s m, oh := [] } : OutCycle), s)
  { s with data := { s.data with out := some o } }

/-! ## Connection commands that read the table -/

/-- `FOLLOW_TA` at the commit for cycle `k`: the egress tributary and its new source, none when R179 refuses it. -/
def followTa (g d28 k : Nat) (s : State) : Option (Nat × Nat) :=
  let src := d28 % 2 ^ 24
  let l := g / laneGrains
  let eg := (mapAt s true l (k + 3)).ents.find? (fun x => x.1 == g % laneGrains)
  match eg, taOfGrain s (src / laneGrains) (src % laneGrains) k with
  | some (_, t), some sta =>
    let ta := 1024 * l + t
    let eGr := taGrains s true ta (k + 3)
    let sGr := taGrains s false sta k
    if eGr.headD 0 = g % laneGrains && sGr.headD 0 = src % laneGrains
        && !((egSet s ta (k + 3)).jct != 2 && sizesClash eGr.length sGr.length) then some (ta, sta)
    else none
  | _, _ => none

/-- The source of an egress tributary follows its first grain (06 R179). -/
def followCommit (ta sta k : Nat) (s : State) : State := putEg ta k { egSet s ta (k + 3) with src := sta } s

/-- Form of `CONN_GET`. -/
def formConnGet (ws : List Word) : Bool := gaOk (pf ws 0 23 0) && rsv0 ws 0 31 24

/-- `CONN_GET` (06 Table 6.9). -/
def bodyConnGet (p : Packet) (s : State) : Res :=
  let g := pf p.params 0 23 0
  let n := curCycle s
  let c := committed s g
  let r := inForce s n g
  let eqd := if !entryEq r.data then 0
    else match taOfGrain s (entrySrc r.data / laneGrains) (entrySrc r.data % laneGrains) n with
      | some ta => delayE s ta n
      | none => 0
  .reply .ok [c.data, r.data, c.effFc, wd (c.effCyc + 8 * b2n (decide (n < c.eff)) + 16 * (if isSource r.data then r.slot else noSlot)),
    wd (eqd + 128 * fanOut s (entrySrc r.data)), wd (physBlock s g)] s

end Sys2Proof.Machine
end

