-- ==== Sys2Proof/Machine/Prot.lean ====
section
/-! DEFINITION. Protection groups and their rules (chapter 8). -/

namespace Sys2Proof.Machine

/-- A group at start-up: disabled (08 R211; defaults of Table 8.4). -/
def groupReset (_ : Nat) : PGroup :=
  { en := false, typ := 0, revertive := true, prio := 0, eqUse := false, requireEq := false, trig := 0b001, eta := 0, nrm := 0,
    alt := 0, wtrS := 300, holdOff := 0, eqBind := 0, link := 0, xta := 0, xfill := 1, xtaEn := false, reqTa := 0, side := false,
    req := 0, ext := 0, rev := 0, wtrAt := 0, held := false, inRev := false, since := [], ok := 0, rr := false, rrCnt := 0,
    rrBad := false, due := false, run := none, failed := false, failSeen := false, fcDone := 0, cycDone := 0, switches := 0, hist := 0 }

def group (s : State) (n : Nat) : PGroup := tget groupReset s.prot n
def setGroup (n : Nat) (g : PGroup) (s : State) : State := { s with prot := tset groupReset n g s.prot }
def modGroup (n : Nat) (f : PGroup → PGroup) (s : State) : State := setGroup n (f (group s n)) s

/-- The rules run: in the active processor, outside a failover gap (08 R210, R218; 15 R399). -/
def rulesRun (s : State) : Bool := running s && !s.dev.failover && !s.cp.none_

/-- Enabled groups, rising. -/
def enGroups (s : State) : List Nat := (s.prot.filter (fun x => x.2.en)).map (·.1)

/-- The link set of an enabled group, rising; the group alone without a link (08 R224). -/
def linkSet (s : State) (n : Nat) : List Nat :=
  let k := (group s n).link
  if k = 0 then [n] else (enGroups s).filter (fun m => (group s m).link == k)

/-- The lowest-numbered group of the set, whose settings the set uses. -/
def setHead (s : State) (n : Nat) : Nat := (linkSet s n).headD n

/-- Changes every group of the set. -/
def modSet (n : Nat) (f : PGroup → PGroup) (s : State) : State := (linkSet s n).foldl (fun s m => modGroup m f s) s

/-! ## Requests (08 R212 to R215) -/

/-- `MEMBER_LOST` is declared for the accord of a tributary. -/
def taMlost (s : State) (ta : Nat) : Bool := match memberOf s ta with | some (a, _) => (accord s a).lost | none => false

/-- Trigger `i` of a group is declared (08 Table 8.1). -/
def trigOn (s : State) (g : PGroup) (i : Nat) : Bool :=
  let ta := if i % 2 = 0 then g.nrm else g.alt
  match i / 2 with
  | 0 => (inTa s ta).df.decl.getLsbD 0
  | 1 => (inTa s ta).df.decl.getLsbD 1
  | _ => taMlost s ta

/-- Elapsed time at which trigger `i` of a group was declared (08 R213). -/
def trigAt (s : State) (g : PGroup) (i : Nat) : Nat :=
  let ta := if i % 2 = 0 then g.nrm else g.alt
  match i / 2 with
  | 0 => tget zeroN (inTa s ta).df.declAt 0
  | 1 => tget zeroN (inTa s ta).df.declAt 1
  | _ => match memberOf s ta with | some (a, _) => (accord s a).lostAt | none => s.clk.now

/-- A trigger declared since `t` has stayed so for `HOLD_OFF` (08 R213). -/
def heldOff (g : PGroup) (now t : Nat) : Bool := decide (t + g.holdOff * 100000000 ≤ now)

/-- Follows one trigger of a group: it is a request once it has stayed declared for `HOLD_OFF`, and no longer one when it clears (08 R213). -/
def trackOne (s : State) (g : PGroup) (i : Nat) : PGroup :=
  let on := trigOn s g i
  match tget noTime g.since i with
  | none =>
    let t := trigAt s g i
    if on then { g with since := tset noTime i (some t) g.since, ok := if heldOff g s.clk.now t then g.ok ||| (1#6 <<< i) else g.ok } else g
  | some _ => if on then g else { g with since := tset noTime i none g.since, ok := g.ok &&& ~~~(1#6 <<< i) }

/-- Follows every trigger of every enabled group. -/
def protTrack (s : State) : State := (enGroups s).foldl (fun s n => setGroup n ((List.range 6).foldl (trackOne s) (group s n)) s) s

/-- Requests that one group contributes, but for the external one. -/
def groupReqs (g : PGroup) : List Nat :=
  if g.typ = 2 then (if g.rr then [0xB] else [])
  else
    let on (b i : Nat) : Bool := g.trig.getLsbD b && g.ok.getLsbD i
    (if on 0 1 || on 2 5 then [8] else []) ++ (if on 0 0 || on 2 4 then [7] else []) ++ (if on 1 3 then [6] else [])
      ++ (if on 1 2 then [5] else [])

/-- Requests of priority 1 to 8, highest first (08 Table 8.1). -/
def reqOrder : List Nat := [0xA, 0x8, 0x9, 0x7, 0xB, 0x6, 0x5, 0x4, 0x3]

/-- The request selects ALT (08 Table 8.1). -/
def reqAlt (c : Nat) : Bool := [0x9, 0x7, 0xB, 0x5, 0x4, 0x2, 0x1].contains c

/-- The requests present in a group's set. -/
def present (s : State) (n : Nat) : List Nat :=
  let e := (group s (setHead s n)).ext
  (if e = 0 then [] else [e]) ++ (linkSet s n).flatMap (fun m => groupReqs (group s m))

/-- A request of priority 1 to 7 is present. -/
def highReq (ps : List Nat) : Option Nat := (reqOrder.take 7).find? (fun c => ps.contains c)

/-- The binding of a group is equalised (08 R221). -/
def equalised (s : State) (g : PGroup) : Bool :=
  g.eqUse && (let x := eqForce s g.eqBind; x.st == 3 || (x.st == 1 && x.fromLock))

/-- Every binding of the set is equalised. -/
def setEqualised (s : State) (n : Nat) : Bool := (linkSet s n).all (fun m => equalised s (group s m))

/-- The wait-to-restore timer of a set has run out: it reverts, or holds the revert (08 R215, R221). -/
def wtrOut (s : State) (n : Nat) (g : PGroup) : PGroup × Bool :=
  if g.requireEq && g.req == 2 && !setEqualised s n then ({ g with held := true }, true) else ({ g with rev := 0, held := false }, false)

/-- `WTR`, `DNR` or `NR` once no request of priority 1 to 8 remains (08 R215, R223); whether the timer starts. -/
def restAfter (g : PGroup) (clear : Bool) (now : Nat) : PGroup × Bool :=
  let g1 := { g with inRev := false }
  if g.typ = 2 then ({ g1 with rev := 0, held := false }, false)
  else if [0x9, 0x7, 0x5, 0x4].contains g.req then
    if clear && (g.req == 9 || g.req == 4) && !g.inRev then ({ g1 with rev := if g.revertive then 0 else 2, held := false }, false)
    else if g.revertive then ({ g1 with rev := 1, wtrAt := now, held := false }, true)
    else ({ g1 with rev := 2, held := false }, false)
  else if clear && g.rev == 1 then ({ g1 with rev := 0, held := false }, false)
  else (g1, false)

/-- Governing request of a set with requests `ps` and the rest state `rev`. -/
def governing (ps : List Nat) (rev : Nat) : Nat :=
  match reqOrder.find? (fun c => ps.contains c) with
  | some c => c
  | none => if rev = 1 then 2 else if rev = 2 then 1 else 0

/-! ## Carrying out a switch (08 R216 to R222) -/

/-- Grains of a tributary as committed. -/
def grainsNow (s : State) (eg : Bool) (ta : Nat) : List Nat := taGrains s eg ta (s.clk.ticks + 16)

/-- GA of grain `q` of a tributary's lane. -/
def gaIn (ta q : Nat) : Nat := laneGrains * (ta / 1024) + q

/-- The entry selects a source grain. -/
def selects (s : State) (ga src : Nat) : Bool := let d := (committed s ga).data; isSource d && entrySrc d == src

/-- `EQ` of an entry that reads `src` (08 R221). -/
def groupEq (s : State) (g : PGroup) (src : Nat) : Bool := g.eqUse && (eqBind s g.eqBind).ta == src

/-- Rotates the first element to the end: grain 0 last. -/
def firstLast {α : Type} : List α → List α
  | [] => []
  | x :: t => t ++ [x]

/-- The writes that make `dst` read `src` in tributary bit order, grain 0 last (08 R209, R216): every entry, or only those that do
not. -/
def readWrites (s : State) (g : PGroup) (dst src : Nat) (follow every : Bool) : List PortWrite :=
  let ps := (grainsNow s true dst).zip (grainsNow s false src)
  let fst := (ps.head?.map (·.1)).getD 0
  (firstLast ps).filterMap (fun x =>
    let ga := gaIn dst x.1
    let sg := gaIn src x.2
    if !every && selects s ga sg then none
    else some (.conn ga (sg + 2 ^ 27 * b2n (groupEq s g src)) (follow && x.1 == fst)))

/-- The writes that give entries of `XTA` the fill value: every entry (08 R222), or only those that do not have it. -/
def fillWrites (s : State) (g : PGroup) (every : Bool) : List PortWrite :=
  (grainsNow s true g.xta).filterMap (fun q =>
    let ga := gaIn g.xta q
    let d := (committed s ga).data
    if !every && entryFill d = g.xfill then none else some (.conn ga (entrySrc d + 2 ^ 24 * g.xfill + 2 ^ 27 * b2n (entryEq d)) false))

/-- `T_RDI` of `REQ_TA`, when it differs. -/
def rdiWrite (s : State) (g : PGroup) (on : Bool) : List PortWrite :=
  if (egSet s g.reqTa (s.clk.ticks + 16)).rdi = on then [] else [.rdi g.reqTa on]

/-- The writes of a switch to a side, in order (08 R216, R222). A switch that begins again writes only what does not select the side
(08 R219). -/
def switchWrites (s : State) (g : PGroup) (alt again : Bool) : List PortWrite :=
  let eta := readWrites s g g.eta (if alt then g.alt else g.nrm) ((egSet s g.eta (s.clk.ticks + 16)).jct != 2) false
  if g.typ ≠ 1 then eta
  else if alt then rdiWrite s g true ++ (if g.xtaEn then fillWrites s g !again else []) ++ eta
  else eta ++ rdiWrite s g false ++ (if g.xtaEn then readWrites s g g.xta g.alt false !again else [])

/-- A switch of a group begins, or begins again, to its selected side. -/
def startRun (again : Bool) (n : Nat) (s : State) : State :=
  let g := group s n
  let ws := switchWrites s g g.side again
  setGroup n { g with
    due := false, run := if ws.isEmpty then none else some { alt := g.side, left := ws, started := false, chain := false, written := 0 } } s

/-- A group's switch waits or runs. -/
def hasRun (s : State) (n : Nat) : Bool := (group s n).run.isSome

/-- The selected side of a set has become `alt`: a running switch stops, and the set starts anew, every group of it (08 R219, R224);
otherwise a switch is decided (R218). -/
def wantSide (n : Nat) (alt : Bool) (s : State) : State :=
  let ms := linkSet s n
  let on := ms.any (hasRun s)
  let ch := ms.filter (fun m => (group s m).side != alt)
  let s := ch.foldl (fun s m => modGroup m (fun g => { g with side := alt, due := !on }) s) s
  if on then ch.foldl (fun s m => startRun true m s) s else s

/-- A set is evaluated (08 R212, R214, R215, R224). -/
def protEval (n : Nat) (clear : Bool) (s : State) : State :=
  let h := setHead s n
  let g := group s h
  let ps := present s n
  let hist : BitVec 5 := (if ps.contains 7 then 0b01000 else 0) ||| (if ps.contains 8 then 0b10000 else 0)
  let drop := (highReq ps).isSome && (g.ext == 4 || g.ext == 3)
  let ps := if drop then ps.filter (fun c => c != g.ext) else ps
  let s := if drop then raise 0x06 0x06 h (wd ((highReq ps).getD 0)) false s else s
  let g := if drop then { g with ext := 0 } else g
  let (g, start) := match reqOrder.find? (fun c => ps.contains c) with
    | some 4 => (g, false)
    | some c => ({ g with inRev := reqAlt c && (g.inRev || g.rev != 0), rev := 0, held := false }, false)
    | none => restAfter g clear s.clk.now
  let s := if start then raise 0x06 0x04 h (wd g.wtrS) false s else s
  let (g, hold) := if start && g.wtrS == 0 then wtrOut s n { g with req := 2 } else (g, false)
  let s := if hold then raise 0x06 0x05 h 0 false s else s
  let req := governing ps g.rev
  let s := modSet n (fun x => { x with
    ext := g.ext, rev := g.rev, wtrAt := g.wtrAt, held := g.held, inRev := g.inRev, req
    hist := x.hist ||| hist ||| (if hold then 0b00100 else 0) }) s
  wantSide n (reqAlt req) s

/-- Every set, once: by its lowest-numbered group. -/
def protEvalAll (s : State) : State := (enGroups s).foldl (fun s n => if setHead s n = n then protEval n false s else s) s

/-- A held revert goes on as soon as the binding is equalised (08 R221). -/
def protHeld (s : State) : State :=
  (enGroups s).foldl (fun s n =>
    let g := group s n
    if setHead s n = n && g.held && g.rev = 1 && setEqualised s n then
      protEval n false (modSet n (fun x => { x with rev := 0, held := false }) s)
    else s) s

/-- A change in protection-rule state goes into the journal (15 R393). -/
def ruleJrnl (s t : State) : State := if t.prot = s.prot then t else jrnl 3 4 0 t

/-- After a change of declared defects or of bindings: triggers are followed, and the rules of the active processor evaluate,
except in a failover gap (08 R210, R213, R221, R227). -/
def protSync (s : State) : State :=
  let t := protTrack s
  ruleJrnl s (if rulesRun s then protHeld (protEvalAll t) else t)

/-! ## Commit of rule writes (08 R216 to R220) -/

/-- Set `m` switches ahead of set `n`, both named by their lowest group (08 R217). -/
def ahead (s : State) (m n : Nat) : Bool :=
  decide ((group s n).prio < (group s m).prio) || (decide ((group s n).prio = (group s m).prio) && decide (m < n))

/-- The group whose write the port takes next: the run in progress, else by priority and number (08 R217, R224). -/
def nextGroup (s : State) : Option Nat :=
  let sets := (enGroups s).filter (fun n => setHead s n == n && (linkSet s n).any (hasRun s))
  let going (n : Nat) : Bool := (linkSet s n).any (fun m => match (group s m).run with | some r => r.started || r.chain | none => false)
  let best := match sets.find? going with
    | some n => some n
    | none => sets.foldl (fun b n => match b with
      | none => some n
      | some m => if ahead s n m then some n else some m) none
  match best with
  | none => none
  | some n =>
    let ms := (linkSet s n).filter (hasRun s)
    match ms.find? (fun m => match (group s m).run with | some r => r.started | none => false) with
    | some m => some m
    | none => ms.head?

/-- PROT_SWITCH at the first commit of a switch. -/
def runBegin (n : Nat) (s : State) : State :=
  let g := group s n
  match g.run with
  | some r =>
    if r.started then s
    else raise 0x06 0x01 n (wd (b2n r.alt + 2 * g.req)) false (setGroup n { g with run := some { r with started := true }, hist := g.hist ||| 1 } s)
  | none => s

/-- A write of a switch has been committed for cycle `k`: the rest, or `PROT_SWITCH_DONE`. -/
def runNext (n k : Nat) (w : PortWrite) (s : State) : State :=
  let g := group s n
  match g.run with
  | some r =>
    let written := r.written + (match w with | .conn ga _ _ => b2n ((grainsNow s true g.eta).any (fun q => gaIn g.eta q == ga)) | _ => 0)
    match r.left.drop 1 with
    | [] =>
      let (fc, cy) := fcOf s k
      let s := match (linkSet s n).find? (fun m => m != n && hasRun s m) with
        | some m => modGroup m (fun x => { x with run := x.run.map (fun y => { y with chain := true }) }) s
        | none => s
      raise 0x06 0x02 n (wd written) false (setGroup n { g with
        run := none, failed := false, failSeen := false, fcDone := fc, cycDone := cy, switches := (g.switches + 1) % 2 ^ 32 } s)
    | l => setGroup n { g with run := some { r with left := l, written } } s
  | none => s

/-- A write of a switch is refused: the switch stops and is tried again at each later frame tick (08 R220). -/
def runFail (n why : Nat) (s : State) : State :=
  let g := group s n
  let written := (g.run.map (·.written)).getD 0
  let s := setGroup n { g with run := none, failed := true, failSeen := true, hist := if g.failSeen then g.hist else g.hist ||| 2 } s
  if g.failSeen then s else raise 0x06 0x03 n (wd (why + 4 * written)) false s

/-- The next write of a group's switch goes through the port; it is in the journal before it is checked (15 R393). -/
def protWrite (n : Nat) (s : State) : State :=
  let k := effTick s
  let s := jrnl 2 4 0 s
  match (group s n).run with
  | some r => match r.left with
    | [] => s
    | .conn ga d follow :: _ =>
      let f := if follow then followTa ga d k s else none
      if follow && f.isNone then runFail n 0 s
      else
        let b := blockReason s ga (wd d)
        if b ≠ 0 then runFail n b s
        else if s.conn.bad.contains (ga / 4096) then runFail n 3 s
        else
          let s := commitEntry ga d (runBegin n s)
          let s := match f with | some (ta, sta) => followCommit ta sta k s | none => s
          runNext n k (.conn ga d follow) s
    | .rdi ta on :: _ => runNext n k (.rdi ta on) (putEg ta k { egSet s ta (k + 3) with rdi := on } (runBegin n s))
    | w :: _ => runNext n k w s
  | none => s

/-- The same, with the change of the rule's state in the journal too. -/
def protCommit (n : Nat) (s : State) : State := ruleJrnl s (protWrite n s)

/-- Refused switches are tried again at a frame tick (08 R220). -/
def protFrame (s : State) : State :=
  if !rulesRun s then s else ruleJrnl s ((enGroups s).foldl (fun s n =>
    if (group s n).failed && !hasRun s n then
      let s := startRun true n s
      if hasRun s n then s else modGroup n (fun g => { g with failed := false }) s
    else s) s)

/-! ## Rows of the rules -/

/-- Group numbers 0 to 65,535. -/
def groupOk (n : Nat) : Bool := decide (n < 65536)

/-- Every due group of a set starts its switch (08 R218). -/
def startSet (n : Nat) (s : State) : State := (linkSet s n).foldl (fun s m => if (group s m).due then startRun false m s else s) s

/-- PROT_SWITCH_START (08 R218): the set of a group starts, and with it every set that is due and goes ahead of it (08 R217). -/
def execProtSwitchStart (n : Nat) (s : State) : Host.Outcome State Fault Refusal :=
  if !groupOk n then .refused (.illFormed "PROT_SWITCH_START")
  else if rulesRun s && (group s n).en then
    let h := setHead s n
    .next (ruleJrnl s ((enGroups s).foldl (fun s m => if setHead s m = m && (m = h || ahead s m h) then startSet m s else s) s))
  else .next s

/-- PROT_HOLD_OFF_EXPIRY (08 R213). -/
def holdOffExpiry (n : Nat) (s : State) : State :=
  let g := group s n
  let ok : BitVec 6 := (List.range 6).foldl (fun b i =>
    match tget noTime g.since i with
    | some t => if heldOff g s.clk.now t then b ||| (1#6 <<< i) else b
    | none => b) g.ok
  if ok = g.ok then s else protEval n false (setGroup n { g with ok } s)

/-- PROT_HOLD_OFF_EXPIRY. -/
def execProtHoldOffExpiry (n : Nat) (s : State) : Host.Outcome State Fault Refusal :=
  if !groupOk n then .refused (.illFormed "PROT_HOLD_OFF_EXPIRY")
  else if rulesRun s && (group s n).en then .next (ruleJrnl s (holdOffExpiry n s)) else .next s

/-- The wait-to-restore timer of a set has run out (08 R215, R221). -/
def wtrExpiry (n : Nat) (s : State) : State :=
  let g := group s (setHead s n)
  if g.rev = 1 && !g.held && decide (g.wtrAt + g.wtrS * 1000000000 ≤ s.clk.now) then
    let (g1, hold) := wtrOut s n g
    let s := modSet n (fun x => { x with rev := g1.rev, held := g1.held, hist := if hold then x.hist ||| 0b00100 else x.hist }) s
    if hold then raise 0x06 0x05 (setHead s n) 0 false s else protEval n false s
  else s

/-- PROT_WTR_EXPIRY. -/
def execProtWtrExpiry (n : Nat) (s : State) : Host.Outcome State Fault Refusal :=
  if !groupOk n then .refused (.illFormed "PROT_WTR_EXPIRY")
  else if rulesRun s && (group s n).en then .next (ruleJrnl s (wtrExpiry n s)) else .next s

/-- CONN_EQ_LOCKED (06 R175), with the held reverts that wait for it. -/
def execConnEqLocked (b : Nat) (s : State) : Host.Outcome State Fault Refusal :=
  if b < 8192 then .next (if running s then protSync (eqLocked b s) else s) else .refused (.illFormed "CONN_EQ_LOCKED")

/-- A defect's object and bit exist (07 Tables 7.2, 7.3). -/
def defectOk (o : DefectObj) (b : Nat) : Bool :=
  match o with
  | .lane l => laneOk l && decide (b < 6)
  | .ingress ta => taOk ta && decide (b < 3)
  | .egress ta => taOk ta && b == 3

/-- DEFECT_DECLARE (07 R191; 08 R213). -/
def execDefectDeclare (o : DefectObj) (b : Nat) (s : State) : Host.Outcome State Fault Refusal :=
  if defectOk o b then .next (protSync (defectDeclare o b s)) else .refused (.illFormed "DEFECT_DECLARE")

/-- DEFECT_CLEAR (07 R191; 08 R213). -/
def execDefectClear (o : DefectObj) (b : Nat) (s : State) : Host.Outcome State Fault Refusal :=
  if defectOk o b then .next (protSync (defectClear o b s)) else .refused (.illFormed "DEFECT_CLEAR")

/-- DEG_WINDOW_END (07 R198). -/
def execDegWindowEnd (ta : Nat) (s : State) : Host.Outcome State Fault Refusal :=
  if !taOk ta then .refused (.illFormed "DEG_WINDOW_END")
  else if degDue s ta then .next (protSync (degEnd ta s)) else .next s

/-- One frame of `REQ_TA` has ended with `T_RDI` = `v` (08 R223): a request arises, or ends, with the second frame in a row. -/
def rrFrame (n : Nat) (v : Bool) (s : State) : State :=
  let g := group s n
  if v = g.rr then setGroup n { g with rrCnt := 0 } s
  else if g.rrCnt = 0 then setGroup n { g with rrCnt := 1 } s
  else
    let s := setGroup n { g with rr := v, rrCnt := 0 } s
    if rulesRun s then protEval n false s else s

/-- A section of a HEAD group's `REQ_TA` lane has been processed (08 R223): a frame counts at its end, and not when the lane has had
loss of frame in it. -/
def rrSection (n : Nat) (s : State) : State :=
  let g := group s n
  let x := lane s (g.reqTa / 1024)
  let start := x.rx.pSec = 0 && x.rx.pCyc = 0
  let lof := !isAligned x || x.rx.lofIn || (x.rx.newAl && decide (x.rx.pCyc ≠ 0))
  let bad := lof || (g.rrBad && !start)
  let s := setGroup n { g with rrBad := bad } s
  if bad || x.rx.pSec ≠ 7 || x.rx.pCyc ≠ 7 then s
  else rrFrame n (((tget (fun _ => []) (inTa s g.reqTa).mf 2).getD 0 0).getLsbD 7) s

/-- The HEAD groups that watch lane `l`, after a SECTION_DECODED that processed a section. -/
def rrHook (l : Nat) (s0 s : State) : State :=
  let a := (lane s0 l).rx
  let b := (lane s l).rx
  if (a.due && !b.due) || (a.pSec, a.pCyc) != (b.pSec, b.pCyc) then
    (enGroups s).foldl (fun s n => if (group s n).typ = 2 && (group s n).reqTa / 1024 = l then rrSection n s else s) s
  else s

/-- SECTION_DECODED (03 R80). -/
def execSectionDecoded (l : Nat) (ws : List (List (BitVec 10))) (s : State) : Host.Outcome State Fault Refusal :=
  if sectionOk l ws then .next (protSync (rrHook l s (sectionDecoded l ws s))) else .refused (.illFormed "SECTION_DECODED")

/-! ## Objects owned by a group (08 R226) -/

/-- Destination `ga` lies in `ETA` or `XTA` of an enabled group. -/
def protOwns (s : State) (ga : Nat) : Bool :=
  match (mapAt s true (ga / laneGrains) (s.clk.ticks + 16)).ents.find? (fun x => x.1 == ga % laneGrains) with
  | some (_, t) =>
    let ta := 1024 * (ga / laneGrains) + t
    s.prot.any (fun x => x.2.en && (x.2.eta == ta || (x.2.typ == 1 && x.2.xta == ta)))
  | none => false

/-- A `TRIB_SET` changes what a rule owns. -/
def protTribSet (s : State) (ws : List Word) : Bool :=
  let ta := pf ws 0 17 0
  let e := egSetOf ws
  let c := egSet s ta (s.clk.ticks + 16)
  pb ws 0 18 && s.prot.any (fun x => x.2.en &&
    ((x.2.eta == ta && e.src != c.src) || (x.2.typ == 1 && x.2.reqTa == ta && (e.stat != c.stat || e.rdi != c.rdi))))

/-- Tributaries of enabled groups whose grains a new map would change. -/
def protMapBad (ws : List Word) (m : TMap) (s : State) : List Nat :=
  let l := pf ws 0 7 0
  let eg := pb ws 0 8
  let tas := (s.prot.filter (fun x => x.2.en)).flatMap (fun x =>
    let g := x.2
    if eg then [g.eta] ++ (if g.typ = 1 then [g.xta, g.reqTa] else [])
    else [g.nrm, g.alt] ++ (if g.typ = 2 then [g.reqTa] else []))
  tas.filter (fun ta => ta / 1024 == l && tribGrains m (ta % 1024) != grainsNow s eg ta)

/-! ## Commands (08 R228 to R230) -/

/-- Form of `PROT_GROUP_SET` (08 Table 8.4; 12 R472). -/
def formProtGroupSet (ws : List Word) : Bool :=
  rsv0 ws 0 31 28 && rsv0 ws 1 31 18 && rsv0 ws 2 31 18 && rsv0 ws 3 31 18 && rsv0 ws 4 31 19 && rsv0 ws 5 31 27 && rsv0 ws 6 31 22
    && rsv0 ws 7 31 18 &&
  (!pb ws 0 16 ||
    (decide (pf ws 0 18 17 ≠ 3) && taOk (pf ws 1 17 0) && taOk (pf ws 2 17 0) && taOk (pf ws 3 17 0) && decide (pf ws 4 11 0 ≤ 3600)
      && decide (pf ws 4 18 12 ≤ 100)
      && (if pf ws 0 18 17 = 1 then inR (pf ws 6 20 18) 1 3 && taOk (pf ws 6 17 0) else wAt ws 6 == 0)
      && (if pf ws 0 18 17 = 0 then pf ws 7 17 0 == 0 else taOk (pf ws 7 17 0))))

/-- The group settings that a command names, over a group. -/
def groupOf (ws : List Word) (g : PGroup) : PGroup :=
  { g with
    en := true, typ := pf ws 0 18 17, revertive := pb ws 0 19, prio := pf ws 0 22 20, eqUse := pb ws 0 23, requireEq := pb ws 0 24
    trig := BitVec.ofNat 3 (pf ws 0 27 25), eta := pf ws 1 17 0, nrm := pf ws 2 17 0, alt := pf ws 3 17 0, wtrS := pf ws 4 11 0
    holdOff := pf ws 4 18 12, eqBind := pf ws 5 12 0, link := pf ws 5 26 13, xta := pf ws 6 17 0, xfill := pf ws 6 20 18
    xtaEn := pb ws 6 21, reqTa := pf ws 7 17 0 }

/-- The binding of a group meets R221. -/
def bindingOk (s : State) (g : PGroup) : Bool :=
  let x := eqBind s g.eqBind
  decide (x.st ≠ 0) && ((x.ta == g.nrm && x.taRef == g.alt) || (x.ta == g.alt && x.taRef == g.nrm)) && (x.st == 1 || x.refDelay == 0)

/-- The egress tributaries that belong to a group (08 R209, R222). -/
def egObjs (g : PGroup) : List Nat := [g.eta] ++ (if g.typ = 1 then [g.xta, g.reqTa] else [])

/-- The checks on enabling a group (08 R228); an egress tributary belongs to at most one enabled group (08 R209). -/
def enableOk (s : State) (n : Nat) (g : PGroup) : Bool :=
  let k := curCycle s
  let sz := taSize s true g.eta k
  decide (0 < sz) && taSize s false g.nrm k == sz && taSize s false g.alt k == sz &&
  !(s.prot.any (fun x => x.1 != n && x.2.en && (egObjs x.2).any (fun ta => (egObjs g).contains ta))) &&
  (match g.typ with
   | 1 => taSize s true g.xta k == sz && decide (0 < taSize s true g.reqTa k) && (egSet s g.reqTa (s.clk.ticks + 16)).stat
   | 2 => decide (0 < taSize s false g.reqTa k) && g.trig == 0 && !g.requireEq
   | _ => true) &&
  (!g.eqUse || bindingOk s g) && (!g.requireEq || g.eqUse) &&
  (g.link == 0 || s.prot.all (fun x => x.1 == n || !x.2.en || x.2.link != g.link ||
    (x.2.typ == g.typ && x.2.revertive == g.revertive && x.2.wtrS == g.wtrS && x.2.holdOff == g.holdOff && x.2.requireEq == g.requireEq)))

/-- A change that an enabled group admits (08 R228). -/
def changeOk (g h : PGroup) : Bool :=
  h == { g with prio := h.prio, trig := h.trig, revertive := h.revertive, wtrS := h.wtrS, holdOff := h.holdOff }

/-- Reply word 0 of the protection commands. -/
def protWord (g : PGroup) (ext : Nat) : Word := wd (b2n g.side + 2 * g.req + 32 * ext)

/-- A group is enabled: it joins its set, and the set is evaluated (08 R228). -/
def groupEnable (n : Nat) (g : PGroup) (s : State) : State :=
  let old := group s n
  let peer := if g.link = 0 then none else (s.prot.find? (fun x => x.1 != n && x.2.en && x.2.link == g.link)).map (·.2)
  let base : PGroup := { g with
    side := false, req := 0, ext := 0, rev := 0, wtrAt := 0, held := false, inRev := false, since := [], ok := 0, rr := false, rrCnt := 0
    rrBad := false, due := false, run := none, failed := false, failSeen := false, fcDone := old.fcDone, cycDone := old.cycDone
    switches := old.switches, hist := old.hist }
  let base := match peer with
    | some p => { base with side := p.side, req := p.req, ext := p.ext, rev := p.rev, wtrAt := p.wtrAt, held := p.held, inRev := p.inRev }
    | none => base
  let s := protEval n false (protTrack (setGroup n base s))
  modGroup n (fun g => { g with due := g.run.isNone && !(switchWrites s g g.side true).isEmpty }) s

/-- New settings of an enabled group take effect at once (08 R228). -/
def groupChange (n : Nat) (h : PGroup) (s : State) : State :=
  let ok : BitVec 6 := (List.range 6).foldl (fun b i =>
    match tget noTime h.since i with
    | some t => if heldOff h s.clk.now t then b ||| (1#6 <<< i) else b
    | none => b) h.ok
  protEval n false (setGroup n { h with ok } s)

/-- A group is disabled: its request and timer end, its entries stand (08 R228). -/
def groupDisable (n : Nat) (s : State) : State :=
  let g := group s n
  let peers := (linkSet s n).filter (fun m => m != n)
  let s := setGroup n { groupReset n with
    side := g.side, fcDone := g.fcDone, cycDone := g.cycDone, switches := g.switches, hist := g.hist, failed := g.failed } s
  match peers with
  | m :: _ => protHeld (protEval m false s)
  | [] => s

/-- `PROT_GROUP_SET` (08 R228). -/
def bodyProtGroupSet (p : Packet) (s : State) : Res :=
  let ws := p.params
  let n := pf ws 0 15 0
  let old := group s n
  if !pb ws 0 16 then
    let s := if old.en then groupDisable n s else s
    .reply .ok [protWord (group s n) 0] s
  else
    let h := groupOf ws old
    if old.en then
      if !changeOk old h then refuse .notInMode s
      else let s := groupChange n h s; .reply .ok [protWord (group s n) 0] s
    else if !enableOk s n h then refuse .badParam s
    else let s := groupEnable n h s; .reply .ok [protWord (group s n) 0] s

/-- Form of `PROT_CMD` (08 R229). -/
def formProtCmd (ws : List Word) : Bool := rsv0 ws 0 31 19 && decide (pf ws 0 18 16 ≤ 4)

/-- The external request of a `REQ` code. -/
def extCode : Nat → Nat
  | 1 => 0xA | 2 => 9 | 3 => 4 | 4 => 3 | _ => 0

/-- `PROT_CMD` is accepted (08 R214, R221, R229). -/
def protAccept (s : State) (n r : Nat) : Bool :=
  let g := group s n
  let needEq := g.requireEq && !setEqualised s n
  g.en && match r with
  | 0 => true
  | 1 => true
  | 2 => g.ext != 0xA && !needEq
  | _ => g.typ != 2 && (highReq (present s n)).isNone && !needEq

/-- `PROT_CMD` (08 R229). A stored manual request that a lockout or a forced switch displaces has been removed by it (08 R214). -/
def bodyProtCmd (p : Packet) (s : State) : Res :=
  let n := pf p.params 0 15 0
  let r := pf p.params 0 18 16
  if !protAccept s n r then refuse .notInMode s
  else
    let g := group s n
    let s := if (g.ext == 4 || g.ext == 3) && (r == 1 || r == 2) then raise 0x06 0x06 (setHead s n) (wd (extCode r)) false s else s
    let s := protEval n (r == 0) (modSet n (fun g => { g with ext := extCode r }) s)
    .reply .ok [protWord (group s n) (group s n).ext] s

/-- Form of `PROT_GET` (08 R230). -/
def formProtGet (ws : List Word) : Bool := rsv0 ws 0 31 17

/-- Entries of `ETA` committed to ALT. -/
def altEntries (s : State) (g : PGroup) : Nat :=
  ((grainsNow s true g.eta).zip (grainsNow s false g.alt)).countP (fun x => selects s (gaIn g.eta x.1) (gaIn g.alt x.2))

/-- `PROT_GET` (08 Table 8.5). -/
def bodyProtGet (p : Packet) (s : State) : Res :=
  let n := pf p.params 0 15 0
  let g := group s n
  let left := if g.en && g.rev = 1 then (g.wtrAt + g.wtrS * 1000000000 - s.clk.now) / 1000000000 else 0
  .reply .ok [wd (b2n g.side + 2 * g.req + 32 * g.ext + 2 ^ 9 * b2n (g.run.isSome || g.due) + 2 ^ 10 * b2n g.held + 2 ^ 11 * b2n g.failed
      + 2 ^ 12 * b2n (g.en && equalised s g)),
      wd left, wd (if g.en then altEntries s g else 0), g.fcDone, wd g.cycDone, wd g.switches, wd g.hist.toNat]
    (if pb p.params 0 16 then setGroup n { g with hist := 0 } s else s)

end Sys2Proof.Machine
end

