-- ==== Sys2Proof/Machine/Matrix.lean ====
section
/-! DEFINITION. The Bus Matrix: grants, locks, address map (13 R365 to R368). -/

namespace Sys2Proof.Machine

/-- Target of an address; 8 for an unmapped range (13 Table 13.5). -/
def targetOf (a : Nat) : Nat :=
  if a < 0x00800000 then 0 else if a < 0x01000000 then 8 else if a < 0x03000000 then 1 else if a < 0x04000000 then 8
  else if a < 0x08000000 then 2 else if a < 0x08800000 then 3 else if a < 0x0C000000 then 8 else if a < 0x0D000000 then 4
  else if a < 0x0E000000 then 5 else if a < 0x0F000000 then 6 else if a < 0x0F010000 then 7 else 8

/-- Targets that a master addresses (13 Table 13.4). -/
def addresses : Nat → List Nat
  | 0 | 1 => [0, 1, 2, 3, 4, 5, 6, 7]
  | 2 => [0, 7]
  | 3 => [0, 1, 2, 3]
  | 4 => [0, 4]
  | 5 => [1, 3, 7]
  | 6 => [0, 1, 3, 5]
  | _ => [0, 3, 7]

/-- Fixed priority of the masters (13 R366): the active processor's port second, the other one last. -/
def priorities (s : State) : List Nat :=
  let a := match activeCp s with | some c => cpPort c s | none => 0
  [6, a, 4, 7, 2, 3, 5, 1 - a]

/-- The burst that a target grants next: while a lock holds, only its holder is served (13 R365, R366). -/
def granted (s : State) (t : Nat) (reqs : List Burst) : Option Burst :=
  (priorities s).findSome? (fun m => if lockAllows s t m then reqs.find? (fun b => b.master == m) else none)

/-- A burst (13 R365): 1 to 8 beats of 8 bytes within one 64-byte-aligned block. -/
def burstOk (t : Nat) (b : Burst) : Bool :=
  decide (b.master < 8) && inR b.beats 1 8 && b.addr % 8 == 0 && decide (b.addr < 2 ^ 32)
    && decide (b.addr / 64 = (b.addr + 8 * b.beats - 1) / 64) && (!b.write || b.data.length == b.beats) && targetOf b.addr == t

/-- Locks (13 R365): a locked read takes the target, and the holder's write of the same word releases it. -/
def burstLock (t : Nat) (b : Burst) (s : State) : State :=
  let put (h : Option Nat) : State :=
    { s with mem := { s.mem with locks := tset noLock t h s.mem.locks, lockAddr := tset zeroN t (if h.isSome then b.addr else 0) s.mem.lockAddr } }
  if b.write then (if (tget noLock s.mem.locks t).isSome && tget zeroN s.mem.lockAddr t == b.addr then put none else s)
  else if b.lock then put (some b.master)
  else s

/-- What a read returns, and the response. -/
def burstRead (bs : List Byte) (err : Bool) (s : State) : State := { s with mem := { s.mem with readI := bs, errI := err } }

/-- An access refused by the address map (13 R367): reads 0, writes ignored, an error response, `MATRIX_DECODE_ERR`. -/
def burstError (b : Burst) (s : State) : State :=
  raise 0x0A 0x11 b.master (wd b.addr) false (burstRead (List.replicate (if b.write then 0 else 8 * b.beats) 0) true s)

/-- The bytes of a burst's beats. -/
def burstBytes (b : Burst) : List Byte := b.data.flatMap (fun d => leBytes 8 d.toNat)

/-- Free bytes: what the spec does not give (log 2). -/
def freeBytes (k n : Nat) (s : State) : List Byte × State :=
  let c := s.clk.free
  ((List.range n).map (fun i => BitVec.ofNat 8 (Config.freeAt c (k * 0x10000 + i))), { s with clk := { s.clk with free := c + 1 } })

/-- Writes of a burst to the aperture reach the Route Allocator entry by entry (06 R160). -/
def burstAperture (m a : Nat) : List Byte → Nat → State → State
  | _, 0, s => s
  | bs, n + 1, s => burstAperture m (a + 4) (bs.drop 4) n (apertureQueue m a (wd (leNat (bs.take 4))) s)

/-- A lock held beyond 16 clocks (13 Table 13.10): released, the held write refused with an error response (log 27). -/
def lockTimeout (t m : Nat) (s : State) : State := abandonLock m t { s with mem := { s.mem with errI := true } }

/-- MATRIX_LOCK_TIMEOUT (13 R365). -/
def execMatrixLockTimeout (t : Nat) (s : State) : Host.Outcome State Fault Refusal :=
  if 8 ≤ t then .refused (.illFormed "MATRIX_LOCK_TIMEOUT")
  else match tget noLock s.mem.locks t with
    | some m => .next (lockTimeout t m s)
    | none => .next s

end Sys2Proof.Machine
end

