-- ==== Sys2Proof/Machine/Cipher.lean ====
section
/-! DEFINITION. The Key Store commands, the alarm, and the Command Cipher Engine (chapter 11). -/

namespace Sys2Proof.Machine

/-! ## Channels and operations -/

/-- A channel at start-up (11 Table 11.12, R315): GCM, no IV generation, wrapped contexts, 16 MiB, no area. -/
def chanReset (_ : Nat) : Chan := { mode := 3, ivGen := false, wrapped := true, maxLen := 16777216, ctx := 0, fixed := 0 }

def chan (s : State) (c : Nat) : Chan := tget chanReset s.keys.chans c

/-- Privileged channels (11 R306). -/
def privileged (c : Nat) : Bool := decide (c < 2)

/-- Key slot, direction, mode, length and tag length of an operation (11 Table 11.13), or of the record that it was restored from
(11 Table 11.4). -/
def opSlot (o : CceOp) : Nat := match o.ctx with | some x => x.slot | none => pf o.job.params 0 12 7
def opDec (o : CceOp) : Bool := match o.ctx with | some x => x.dec | none => pb o.job.params 0 4
def opMode (s : State) (o : CceOp) : Nat := match o.ctx with | some x => x.mode | none => (chan s o.chan).mode
def opLen (o : CceOp) : Nat := pf o.job.params 3 24 0
def opTagLen (o : CceOp) : Nat := match o.ctx with | some x => x.tagLen | none => pf o.job.params 0 17 13

/-- The operation with an identifier, and its replacement. -/
def findOp (s : State) (i : Nat) : Option CceOp := s.keys.ops.find? (fun o => o.id == i)
def putOp (o : CceOp) (s : State) : State :=
  { s with keys := { s.keys with ops := s.keys.ops.map (fun x => if x.id = o.id then o else x) } }
def dropOp (i : Nat) (s : State) : State := { s with keys := { s.keys with ops := s.keys.ops.filter (fun x => x.id != i) } }

/-- A command slot is named by an operation (11 R302). -/
def cmdInUse (s : State) (n : Nat) : Bool := s.keys.ops.any (fun o => opSlot o == n)

/-- A cipher operation is queued, running or suspended (16 R439). -/
def cipherBusy (s : State) : Bool := !s.keys.ops.isEmpty

/-! ## The modes (11 R306) -/

/-- The round keys of an operation's slot. -/
def opKeys (s : State) (o : CceOp) : List (List Byte) := roundKeys (cmdSlot s (opSlot o)).key

/-- Input bytes before the position that an operation started or was restored at. -/
def opBase (o : CceOp) : Nat := match o.ctx with | some x => x.base | none => 0

/-- The block that the mode starts from there: the IV or the next counter block. -/
def opChain (s : State) (o : CceOp) : List Byte :=
  match o.ctx with | some x => x.chain | none => if opMode s o = 3 then o.iv ++ beBytes 4 2 else o.iv

/-- What a mode makes of the text from block `c` on. -/
def modeOut (mode : Nat) (dec : Bool) (rk : List (List Byte)) (c text : List Byte) : List Byte :=
  match mode with
  | 0 => if dec then cbcDec rk c (blocks16 text) else cbcEnc rk c (blocks16 text)
  | 1 => ctr rk c text
  | 2 => if dec then cfbDec rk c (blocks16 text) else cfbEnc rk c (blocks16 text)
  | _ => ctrWith inc32 rk c (blocks16 text)

/-- The output of an operation for the input taken so far: whole blocks, and the last part once all of it is there. -/
def opOutput (s : State) (o : CceOp) : List Byte :=
  let text := o.inp.drop (opBase o)
  let text := if o.inp.length == opLen o then text else text.take (text.length / 16 * 16)
  (match o.ctx with | some x => x.pre | none => []) ++ modeOut (opMode s o) (opDec o) (opKeys s o) (opChain s o) text

/-- The hash subkey of an operation's slot. -/
def opH (s : State) (o : CceOp) : BitVec 128 := BitVec.ofNat 128 (beNat (aesEncRk (opKeys s o) (List.replicate 16 0)))

/-- The GCM hash accumulator over the AAD and `n` bytes of ciphertext. -/
def opHash (s : State) (o : CceOp) (n : Nat) : BitVec 128 :=
  let ct := ((if opDec o then o.inp else opOutput s o).take n).drop (opBase o)
  ghash (opH s o) (match o.ctx with | some x => BitVec.ofNat 128 x.hash | none => ghash (opH s o) 0 (blocks16 o.aad)) (blocks16 ct)

/-- AAD bytes of an operation. -/
def opAadLen (o : CceOp) : Nat := match o.ctx with | some x => x.aadLen | none => o.aad.length

/-- The tag of a GCM operation whose text is whole (SP 800-38D). -/
def opTag (s : State) (o : CceOp) : List Byte :=
  let y := ghash (opH s o) (opHash s o (opLen o)) [beBytes 8 (8 * opAadLen o) ++ beBytes 8 (8 * opLen o)]
  (xorBytes (beBytes 16 y.toNat) (aesEncRk (opKeys s o) (o.iv ++ [0, 0, 0, 1]))).take (opTagLen o)

/-! ## Output buffers (11 R308) -/

/-- Writes output into the chain of an operation, handing back each buffer that is full; answers the status that ends the
operation when a descriptor is malformed or the chain is too short. -/
def fillOut : Nat → List Byte → CceOp → State → Option Status × CceOp × State
  | 0, _, o, s => (none, o, s)
  | k + 1, bs, o, s =>
    if bs.isEmpty then (none, o, s)
    else
      let d := readDesc s o.dst
      if !o.held && !d.own then (none, o, s)
      else if !o.held && d.bad then (some .badParam, o, handBack o.dst s)
      else
        let n := min (d.len - o.fill) bs.length
        let s := wmPut (d.addr + o.fill) (bs.take n) s
        let fill := o.fill + n
        let wrote := o.wrote + n
        if fill < d.len then (none, { o with held := true, fill, wrote }, s)
        else
          let s := handBackOut o.dst fill s
          if d.last then (if (bs.drop n).isEmpty then none else some .lenLimit, { o with held := false, fill := 0, wrote }, s)
          else fillOut k (bs.drop n) { o with held := false, fill := 0, wrote, dst := d.next } s

/-- Descriptors that one operation can reach at a time. -/
def chainMax : Nat := 524288

/-- The output buffers not yet handed back are filled with zeros, given a valid CRC and handed back (11 R308): the buffer in hand, or of
a GCM decryption that has begun all those that its `LEN` bytes fill. -/
def zeroOut (o : CceOp) (s : State) : State :=
  if o.begun && opMode s o == 3 && opDec o then
    let (_, o2, s2) := fillOut chainMax (List.replicate (opLen o) 0) o s
    if o2.held then handBackOut o2.dst o2.fill s2 else s2
  else if !o.held then s
  else
    let d := readDesc s o.dst
    handBackOut o.dst o.fill (wmPut d.addr (List.replicate o.fill 0) s)

/-- An operation ends (11 R308, R312); its spill record, restored or not, is zeroed when it is aborted. -/
def endOp (st : Status) (ws : List Word) (o : CceOp) (s : State) : State :=
  let s := if st = .aborted && (o.st = 3 || o.ctx.isSome) then wmPut ((chan s o.chan).ctx + 128 * o.prio) (List.replicate 128 0) s else s
  let s := dropOp o.id (if st = .ok then s else zeroOut o s)
  answerAborts 4 true o.id (writeReply (jobEcho o.job) st ws s)

/-! ## Input and progress -/

/-- Bytes that the output buffers owned by the device can hold, from descriptor `a` on (11 R308). -/
def ownedRoom (s : State) (a : Nat) : Nat → Nat
  | 0 => 0
  | k + 1 =>
    let d := readDesc s a
    if !d.own then 0 else d.len + (if d.last then 0 else ownedRoom s d.next k)

/-- The descriptors of a chain that the device owns are handed back as found (12 R341). -/
def handBackChain : Nat → Nat → State → State
  | 0, _, s => s
  | k + 1, a, s =>
    let d := readDesc s a
    if !d.own then s else if d.last then handBack a s else handBackChain k d.next (handBack a s)

/-- An operation goes on with the input and output buffers now handed over (11 R308; 12 R341). -/
def pumpOp : Nat → CceOp → State → State
  | 0, o, s => putOp o s
  | k + 1, o, s =>
    let gcmDec := opMode s o == 3 && opDec o
    let (st, o, s) := if gcmDec then (none, o, s) else fillOut chainMax ((opOutput s o).drop o.wrote) o s
    match st with
    | some st => endOp st [] o s
    | none =>
      if opLen o ≤ o.inp.length then putOp o s
      else
        let d := readDesc s o.src
        if !d.own then putOp o s
        else if d.bad then endOp .badParam [] o (handBack o.src s)
        else
          let data := wmGet s d.addr d.len
          let s := handBack o.src s
          if (crc32c data).toNat ≠ d.dcrc then endOp .badCrc [] o s
          else
            let inp := o.inp ++ data.take (opLen o - o.inp.length)
            if d.last && decide (inp.length < opLen o) then endOp .badParam [] { o with inp } s
            else pumpOp k { o with inp, src := if d.last then o.src else d.next } s

/-- The IV of an operation at its start (11 R306, R307). -/
def opIv (s : State) (o : CceOp) : List Byte × Nat :=
  let c := chan s o.chan
  let n := (cmdSlot s (opSlot o)).count
  if c.mode = 3 then
    if c.ivGen && !opDec o then (beBytes 4 c.fixed.toNat ++ beBytes 8 n, n) else (wmGet s (pf o.job.params 6 22 0) 12, 0)
  else (wmGet s (pf o.job.params 6 22 0) 16, 0)

/-- An operation that ends as it begins hands back the descriptor of its input, and with `ST_LEN_LIMIT` the output chain that has been
judged (12 R341). -/
def refuseOp (st : Status) (o : CceOp) (s : State) : State :=
  let s := if opLen o = 0 then s else handBack o.src s
  endOp st [] o (if st = .lenLimit then handBackChain chainMax o.dst s else s)

/-- An operation begins once its first input descriptor is handed over: key, count and buffers are checked, the invocation is
counted (11 R303, R308, R311). -/
def beginOp (o : CceOp) (s : State) : State :=
  let k := cmdSlot s (opSlot o)
  let gcm := (chan s o.chan).mode == 3
  if opLen o ≠ 0 && !(readDesc s o.src).own then putOp o s
  else if !k.loaded then refuseOp .keyErased o s
  else if !slotLeft k 1 then refuseOp .keyExhausted o s
  else if gcm && opDec o && decide (ownedRoom s o.dst chainMax < opLen o) then refuseOp .lenLimit o s
  else
    let (iv, inv) := opIv s o
    let aad := if gcm then wmGet s (pf o.job.params 4 22 0) (pf o.job.params 5 16 0) else []
    pumpOp chainMax { o with begun := true, gen := k.gen, iv, inv, aad } (setCmdSlot (opSlot o) { k with count := k.count + 1 } s)

/-- An operation that runs goes on, or begins. -/
def advanceOp (o : CceOp) (s : State) : State := if o.begun then pumpOp chainMax o s else beginOp o s

/-- The operation has all its input and has written all its output, or can. -/
def opReady (s : State) (o : CceOp) : Bool :=
  o.st == 1 && o.begun && o.inp.length == opLen o && (o.wrote == opLen o || (opMode s o == 3 && opDec o))

/-- An operation completes (11 R307, R308). -/
def completeOp (o : CceOp) (s : State) : State :=
  let gcm := opMode s o == 3
  let tagA := pf o.job.params 7 22 0
  let ws := [wd (opLen o), wd o.inv, wd (o.inv / 2 ^ 32)]
  let close (o : CceOp) (s : State) : State := if o.held then handBackOut o.dst o.fill s else s
  if gcm && opDec o then
    let pass := wmGet s tagA (opTagLen o) == opTag s o
    let text := if pass then opOutput s o else List.replicate (opLen o) 0
    let (st, o2, s2) := fillOut chainMax text o s
    match st with
    | some st => endOp st [] { o2 with begun := false } s2
    | none => if pass then endOp .ok ws o2 (close o2 s2) else endOp .authFail [] { o2 with held := false, begun := false } (close o2 s2)
  else
    let s2 := close o s
    endOp .ok ws o (if gcm then wmPut tagA (opTag s o) s2 else s2)

/-! ## Order of service (11 R310) -/

/-- The first operation of a channel in command order. -/
def headOp (s : State) (c : Nat) : Option CceOp := s.keys.ops.find? (fun o => o.chan == c)

/-- A privileged operation that runs. -/
def privRunning (s : State) : Option CceOp := s.keys.ops.find? (fun o => o.st == 1 && privileged o.chan)

/-- Suspended operations, the most recently suspended first. -/
def suspended (s : State) : List CceOp :=
  (s.keys.ops.filter (fun o => 2 ≤ o.st)).foldr (fun o l =>
    (l.takeWhile (fun x => decide (o.sAt < x.sAt))) ++ o :: l.dropWhile (fun x => decide (o.sAt < x.sAt))) []

/-- The privileged operation to start: of those queued the one of the highest `PRIO`, in command order among those alike, so that
a request of a higher `PRIO` also goes before earlier ones of its own channel (log 67). -/
def privNext (s : State) : Option CceOp :=
  (s.keys.ops.filter (fun o => o.st == 0 && privileged o.chan)).foldl (fun b o =>
    match b with
    | none => some o
    | some x => if x.prio < o.prio || (x.prio = o.prio && o.id < x.id) then some o else some x) none

/-- The ordinary operation to start: round-robin from the channel served last. -/
def ordNext (s : State) : Option CceOp :=
  ((List.range 14).map (fun i => 2 + (s.keys.turn - 2 + 1 + i) % 14)).findSome? (fun c =>
    match headOp s c with | some o => if o.st = 0 then some o else none | none => none)

/-- Input bytes processed at the last block boundary. -/
def opTaken (o : CceOp) : Nat := opBase o + (o.inp.length - opBase o) / 16 * 16

/-- A spill record (11 Table 11.4). -/
def spillRecord (s : State) (o : CceOp) : List Byte :=
  let c := chan s o.chan
  let mode := opMode s o
  let n := opTaken o
  let k := (n - opBase o) / 16
  let from_ := opChain s o
  let chain := match mode with
    | 1 => beBytes 16 (beNat from_ + k)
    | 3 => from_.take 12 ++ beBytes 4 (beNat (from_.drop 12) + k)
    | _ => if k = 0 then from_ else ((if opDec o then o.inp else opOutput s o).take n).drop (n - 16)
  let gh := if mode = 3 then beBytes 16 (opHash s o n).toNat else List.replicate 16 0
  let st := leBytes 4 n ++ leBytes 4 (opAadLen o) ++ leBytes 1 (opSlot o) ++ leBytes 1 o.gen ++ leBytes 1 (mode + 4 * b2n (opDec o))
    ++ leBytes 1 (if mode = 3 then opTagLen o else 0) ++ chain ++ gh ++ (if mode = 3 then o.iv else List.replicate 12 0)
    ++ leBytes 4 o.src ++ leBytes 4 o.dst ++ List.replicate 48 0
  let body := if c.wrapped then kwWrap (beBytes 32 s.keys.kek) st else st ++ List.replicate 8 0
  leBytes 2 0x0B11 ++ leBytes 1 (o.chan + 16 * o.prio + 64 * b2n c.wrapped) ++ [0] ++ leBytes 4 o.job.tag.toNat ++ body

/-- Address of an operation's spill record. -/
def spillAddr (s : State) (o : CceOp) : Nat := (chan s o.chan).ctx + 128 * o.prio

/-- Suspends the running privileged operation; a third context spills the oldest one. None when that one has no area. -/
def suspendOp (r : CceOp) (s : State) : Option State :=
  let inner := (suspended s).filter (fun o => o.st == 2)
  let mark (s : State) : State :=
    let n := s.keys.nextS
    putOp { r with st := 2, sAt := n } { s with keys := { s.keys with nextS := n + 1 } }
  if inner.length < 2 then some (mark s)
  else match inner.getLast? with
    | none => some (mark s)
    | some o => if (chan s o.chan).ctx = 0 then none else some (mark (putOp { o with st := 3 } (wmPut (spillAddr s o) (spillRecord s o) s)))

/-- A queued operation runs. -/
def runOp (o : CceOp) (s : State) : State :=
  let o := { o with st := 1 }
  let s := putOp o s
  advanceOp o (if privileged o.chan then s else { s with keys := { s.keys with turn := o.chan } })

/-- CIPH_OP_START (11 R310). -/
def cceStart (s : State) : State :=
  let ord (s : State) : State := match ordNext s with | some o => runOp o s | none => s
  match privNext s, privRunning s with
  | some o, some r =>
    if o.prio ≤ r.prio then s else (match suspendOp r s with | some s1 => runOp o s1 | none => s)
  | some o, none => if (suspended s).any (fun x => decide (o.prio ≤ x.prio)) then s else runOp o s
  | none, some _ => s
  | none, none => if (suspended s).isEmpty then ord s else s

/-- The engines run (16 Table 16.1). -/
def cceOpen (s : State) : Bool := running s

/-- What the engines do now, in a failover gap too: a reply that falls due there waits it out (11 R312; 01 R28). -/
def cceRun (f : State → State) (s : State) : State := if cceOpen s then f s else s

/-- CIPH_OP_START. -/
def execCiphOpStart (s : State) : Host.Outcome State Fault Refusal := .next (cceRun cceStart s)

/-- The state bytes of a spill record that pass the checks of a restore (11 R311): `FORMAT`, the wrap, and the slot's `GEN`. -/
def spillState (s : State) (o : CceOp) : Option (List Byte) :=
  let rec_ := wmGet s (spillAddr s o) 128
  let st := if (chan s o.chan).wrapped then kwUnwrap (beBytes 32 s.keys.kek) (rec_.drop 8) else some ((rec_.drop 8).take 112)
  match st with
  | some st =>
    let slot := leNat ((st.drop 8).take 1)
    if leNat (rec_.take 2) == 0x0B11 && decide (slot < 64) && leNat ((st.drop 9).take 1) == (cmdSlot s slot).gen then some st else none
  | none => none

/-- An operation goes on from the state bytes of its record (11 Table 11.4); output that has found no room yet stands. -/
def restoredOp (s : State) (o : CceOp) (st : List Byte) : CceOp :=
  let f (a n : Nat) : Nat := leNat ((st.drop a).take n)
  let n := opTaken o
  let base := min (f 0 4) (opLen o)
  let due := ((opOutput s o).take n).drop o.wrote
  let dst := f 60 4 % 2 ^ 23
  { o with
    st := 1, iv := if f 10 1 % 4 = 3 then (st.drop 44).take 12 else o.iv, src := f 56 4 % 2 ^ 23, dst
    held := o.held && dst == o.dst, fill := if dst = o.dst then o.fill else 0, wrote := base - due.length
    inp := List.replicate base 0 ++ (o.inp.drop n).take (opLen o - base)
    ctx := some {
      slot := f 8 1, mode := f 10 1 % 4, dec := (f 10 1).testBit 2, tagLen := f 11 1, base, aadLen := f 4 4
      pre := List.replicate (base - due.length) 0 ++ due, chain := (st.drop 12).take 16, hash := beNat ((st.drop 28).take 16) } }

/-- A spilled context comes back (11 R311): a failed check ends the operation with `ST_KEY_ERASED`. -/
def restoreOp (o : CceOp) (s : State) : State :=
  match spillState s o with
  | none => endOp .keyErased [] { o with st := 1 } s
  | some st => let r := restoredOp s o st; advanceOp r (putOp r s)

/-- CIPH_OP_RESUME (11 R310). -/
def cceResume (s : State) : State :=
  match privRunning s, suspended s with
  | none, o :: _ =>
    if (match privNext s with | some n => decide (o.prio < n.prio) | none => false) then s
    else if o.st = 3 then restoreOp o s
    else advanceOp { o with st := 1 } (putOp { o with st := 1 } s)
  | _, _ => s

/-- CIPH_OP_RESUME. -/
def execCiphOpResume (s : State) : Host.Outcome State Fault Refusal := .next (cceRun cceResume s)

/-- Rounds of 4,096 bytes that an ordinary operation takes. -/
def opRounds (o : CceOp) : Nat := (opLen o + 4095) / 4096

/-- The operation that completes next: the privileged one, else the ordinary one with the fewest rounds. -/
def opDone (s : State) : Option CceOp :=
  match s.keys.ops.find? (fun o => privileged o.chan && opReady s o) with
  | some o => some o
  | none => (s.keys.ops.filter (fun o => opReady s o)).foldl (fun b o => match b with
      | none => some o
      | some x => if opRounds o < opRounds x then some o else some x) none

/-- The next operation completes. -/
def cceComplete (s : State) : State := match opDone s with | some o => completeOp o s | none => s

/-- CIPH_OP_COMPLETE (11 R308). -/
def execCiphOpComplete (s : State) : Host.Outcome State Fault Refusal := .next (cceRun cceComplete s)

/-- The CCE waits for a descriptor of an operation of a channel (12 R341). -/
def opRecheck (c : Nat) (s : State) : State :=
  match s.keys.ops.find? (fun o => o.chan == c && o.st == 1) with
  | some o => advanceOp o s
  | none => s

/-- CCE_FAULT (11 R316; 13 R368): the running operations end, the engine's master is reset. -/
def cceFault (s : State) : State :=
  masterReset 4 ((s.keys.ops.filter (fun o => o.st == 1 && o.begun)).foldl (fun s o => endOp .hwFault [] o s) s)

/-- CCE_FAULT. -/
def execCceFault (s : State) : Host.Outcome State Fault Refusal := .next (if cceOpen s then cceFault s else s)

/-! ## Key Store commands (11 R301 to R305) -/

/-- Form of `CIPH_KEY_LOAD` (11 Table 11.10; 12 R473). -/
def formCiphKeyLoad (ws : List Word) : Bool :=
  rsv0 ws 0 31 22 && (!pb ws 0 0 || decide (pf ws 0 13 1 < 64)) && (decide (pf ws 0 21 15 < 64) || pf ws 0 21 15 == 0x7F)
    && rsv0 ws 1 31 23 && areaOk (pf ws 1 22 0) 32 8 && rsv0 ws 3 31 16 && (pb ws 0 0 || pf ws 3 15 0 == 0)

/-- Unwraps the key at an address: 32 bytes hold a 128-bit key, 48 bytes a 256-bit key (11 R301). -/
def unwrapAt (s : State) (key : List Byte) (a : Nat) : Option (List Byte) :=
  match kwUnwrap key (wmGet s a 32) with
  | some p => some p
  | none => if areaOk a 48 8 then kwUnwrap key (wmGet s a 48) else none

/-- The header of an unwrapped key agrees with its target (11 Table 11.3). -/
def headerOk (cmd : Bool) (p : List Byte) : Bool :=
  let b (i : Nat) : Nat := (p.getD i 0).toNat
  b 0 == 1 && ((b 1 == 1 && p.length == 24) || (b 1 == 2 && p.length == 40)) && b 3 + b 4 + b 5 + b 6 + b 7 == 0 &&
    (if cmd then b 2 == 1 || b 2 == 2 else b 2 == 0 && b 1 == 2)

/-- A slot as loaded. -/
def slotLoaded (k : KeySlot) (p : List Byte) (mask lim : Nat) : KeySlot :=
  { loaded := true, use := (p.getD 2 0).toNat, len256 := p.length == 40, gen := (k.gen + 1) % 256, mask, count := 0, limM1 := lim, key := p.drop 8 }

/-- `CIPH_KEY_LOAD` (11 R301, R302, R305). A load takes no time here, so no alarm or erase falls within one (11 Table 11.5; DESIGN CHOICE,
log 72). -/
def bodyCiphKeyLoad (p : Packet) (s : State) : Res :=
  let ws := p.params
  let cmd := pb ws 0 0
  let n := pf ws 0 13 1
  let u := pf ws 0 21 15
  let k := cmdSlot s u
  if s.keys.alarm ≠ 0 then refuse .notInMode s
  else if u ≠ 0x7F && (k.use != 2 || !(k.mask.testBit (pf ws 0 14 14))) then refuse .badParam s
  else if u ≠ 0x7F && !k.loaded then refuse .keyErased s
  else if (if cmd then cmdInUse s n || u == n else sealInUse s n) then refuse .slotInUse s
  else match unwrapAt s (if u = 0x7F then beBytes 32 Config.dik else k.key) (pf ws 1 22 0) with
    | none => refuse .authFail s
    | some t =>
      if !headerOk cmd t then refuse .badParam s
      else
        let old := if cmd then cmdSlot s n else sealSlot s n
        let new := slotLoaded old t (if cmd then pf ws 3 15 0 else 0) (wAt ws 2).toNat
        .reply .ok [wd new.gen] (if cmd then setCmdSlot n new s else setSealSlot n new s)

/-- A command slot is erased: its operations end, and authentication under it (11 R304; 12 R339). -/
def eraseCmd (n : Nat) (s : State) : State :=
  let s := setCmdSlot n (slotErased (cmdSlot s n)) s
  let s := (s.keys.ops.filter (fun o => opSlot o == n && o.st != 0 && o.begun)).foldl (fun s o => endOp .keyErased [] o s) s
  if s.io.authSlot = some n then raise 0x01 0x02 n 0 false { s with io := { s.io with require := false } } else s

/-- Form of `CIPH_KEY_ERASE` (11 Table 11.11). -/
def formCiphKeyErase (ws : List Word) : Bool :=
  let i := pf ws 0 15 3
  rsv0 ws 0 31 16 && (match pf ws 0 1 0 with
    | 0 => decide (i < if pb ws 0 2 then 64 else 8192)
    | 1 => !pb ws 0 2 && decide (i < 4096)
    | 2 => true
    | _ => false)

/-- Erases every slot. -/
def eraseAll (s : State) : State :=
  (List.range 64).foldl (fun s n => eraseCmd n s) ((List.range 8192).foldl (fun s n => eraseSeal n s) s)

/-- `CIPH_KEY_ERASE` (11 R304). -/
def bodyCiphKeyErase (p : Packet) (s : State) : Res :=
  let i := pf p.params 0 15 3
  done (match pf p.params 0 1 0 with
    | 0 => if pb p.params 0 2 then eraseCmd i s else eraseSeal i s
    | 1 => eraseSeal (2 * i + 1) (eraseSeal (2 * i) s)
    | _ => eraseAll s)

/-- Form of `CIPH_KEY_GET`. -/
def formCiphKeyGet (ws : List Word) : Bool := rsv0 ws 0 31 14 && (!pb ws 0 0 || decide (pf ws 0 13 1 < 64))

/-- `CIPH_KEY_GET` (11 Table 11.2). -/
def bodyCiphKeyGet (p : Packet) (s : State) : Res :=
  let cmd := pb p.params 0 0
  let n := pf p.params 0 13 1
  let k := if cmd then cmdSlot s n else sealSlot s n
  let use_ := if cmd then cmdInUse s n else sealInUse s n
  .reply .ok [wd (b2n k.loaded + 2 * k.use + 8 * b2n k.len256 + 16 * b2n use_ + 32 * b2n (k.loaded && !slotLeft k 1) + 256 * k.gen
      + 65536 * (if cmd then k.mask else 0)), wd k.count, wd k.limM1] s

/-- Form of `CIPH_CHAN_SET` (11 Table 11.12): fields of the other kind of channel are reserved. -/
def formCiphChanSet (ws : List Word) : Bool :=
  let c := pf ws 0 3 0
  let gcm := pf ws 0 5 4 == 3
  rsv0 ws 0 31 8 && rsv0 ws 1 31 25 && (gcm || !pb ws 0 6) &&
  (if privileged c then rsv0 ws 1 24 23 && (pf ws 1 22 0 == 0 || areaOk (pf ws 1 22 0) 384 128) && !(gcm && !pb ws 0 7)
   else !pb ws 0 7 && inR (pf ws 1 24 0) 16 16777216)

/-- `CIPH_CHAN_SET` (11 R313). -/
def bodyCiphChanSet (p : Packet) (s : State) : Res :=
  let ws := p.params
  let c := pf ws 0 3 0
  if (headOp s c).isSome then refuse .busy s
  else
    let x : Chan := { mode := pf ws 0 5 4, ivGen := pb ws 0 6, wrapped := if privileged c then pb ws 0 7 else true
                      maxLen := if privileged c then 16777216 else pf ws 1 24 0, ctx := if privileged c then pf ws 1 22 0 else 0, fixed := wAt ws 2 }
    done { s with keys := { s.keys with chans := tset chanReset c x s.keys.chans } }

/-- Form of `CIPH_OP` under the channel's mode (11 Table 11.13; 12 R340, R473); outside GCM the fields of GCM alone are not used. -/
def formCiphOp (s : State) (ws : List Word) : Bool :=
  let c := pf ws 0 3 0
  let x := chan s c
  let gcm := x.mode == 3
  let len := pf ws 3 24 0
  rsv0 ws 0 31 18 && rsv0 ws 1 31 23 && rsv0 ws 2 31 23 && rsv0 ws 3 31 25 && rsv0 ws 4 31 23 && rsv0 ws 5 31 17 && rsv0 ws 6 31 23
    && rsv0 ws 7 31 23 && (privileged c || rsv0 ws 0 6 5) && (if gcm then inR (pf ws 0 17 13) 12 16 else rsv0 ws 0 17 13)
    && areaOk (pf ws 1 22 0) 16 16 && areaOk (pf ws 2 22 0) 16 16
    && (x.mode != 0 || len % 16 == 0)
    && (!gcm || (decide (pf ws 5 16 0 ≤ 65536) && areaOk (pf ws 4 22 0) (pf ws 5 16 0) 1 && areaOk (pf ws 7 22 0) 16 1))
    && ((gcm && x.ivGen && !pb ws 0 4) || areaOk (pf ws 6 22 0) (if gcm then 12 else 16) 1)

/-- Operations queued on a channel (12 R329). -/
def queuedOn (s : State) (c : Nat) : Nat := s.keys.ops.countP (fun o => o.chan == c && o.st == 0)

/-- The checks of `CIPH_OP` at decode (11 R306, R309; 12 R329). -/
def ciphOpCheck (r : Nat) (ws : List Word) (s : State) : Option Status :=
  let c := pf ws 0 3 0
  let k := cmdSlot s (pf ws 0 12 7)
  let len := pf ws 3 24 0
  if r ≠ 3 then some .notInMode
  else if k.use != 1 || !(k.mask.testBit c) then some .badParam
  else if 16777216 < len || (!privileged c && decide ((chan s c).maxLen < len)) then some .lenLimit
  else none

/-- `CIPH_OP` enters its channel's queue (12 R329). -/
def queueOp (j : Job) (s : State) : State :=
  let ws := j.params
  let o : CceOp := {
    id := s.keys.nextId, job := j, chan := pf ws 0 3 0, prio := if privileged (pf ws 0 3 0) then pf ws 0 6 5 else 0, st := 0, begun := false,
    sAt := 0, gen := 0, iv := [], inv := 0, aad := [], src := pf ws 1 22 0, inp := [], dst := pf ws 2 22 0, held := false, fill := 0, wrote := 0
    ctx := none }
  { s with keys := { s.keys with ops := s.keys.ops ++ [o], nextId := o.id + 1 } }

/-! ## Alarm (11 R305) -/

/-- An alarm erases every slot, and the device KEK is drawn anew. -/
def alarmErase (causes : BitVec 5) (s : State) : State :=
  let s := eraseAll s
  let (k, s) := draw 0x0B0305 s
  raise 0x09 0x01 0 (wd causes.toNat) false
    { s with keys := { s.keys with kek := k % 2 ^ 256, alarm := s.keys.alarm ||| causes } }

/-- KEY_STORE_ALARM: the detectors are armed whenever the Key Store is powered, in reset too (11 R305; 16 R450; 17 R457). -/
def execKeyStoreAlarm (causes : BitVec 5) (s : State) : Host.Outcome State Fault Refusal :=
  if causes = 0 then .refused (.illFormed "KEY_STORE_ALARM")
  else if s.dev.powered then .next (alarmErase causes s)
  else .next s

/-- ALARM_CAUSE_ENDED (11 R305). -/
def execAlarmCauseEnded (causes : BitVec 5) (s : State) : Host.Outcome State Fault Refusal :=
  .next { s with keys := { s.keys with alarm := s.keys.alarm &&& ~~~causes } }

end Sys2Proof.Machine
end

