-- ==== Sys2Proof/Machine/Image.lean ====
section
/-! DEFINITION. Firmware images: the header, SHA-384 and ECDSA P-384 (16 R433). -/

namespace Sys2Proof.Machine

/-- Initial value of SHA-384. -/
def shaInit : List (BitVec 64) :=
  [0xCBBB9D5DC1059ED8, 0x629A292A367CD507, 0x9159015A3070DD17, 0x152FECD8F70E5939,
   0x67332667FFC00B31, 0x8EB44A8768581511, 0xDB0C2E0D64F98FA7, 0x47B5481DBEFA4FA4]

/-- Round constants 0 to 39. -/
def shaKA : List (BitVec 64) :=
  [0x428A2F98D728AE22, 0x7137449123EF65CD, 0xB5C0FBCFEC4D3B2F, 0xE9B5DBA58189DBBC,
   0x3956C25BF348B538, 0x59F111F1B605D019, 0x923F82A4AF194F9B, 0xAB1C5ED5DA6D8118,
   0xD807AA98A3030242, 0x12835B0145706FBE, 0x243185BE4EE4B28C, 0x550C7DC3D5FFB4E2,
   0x72BE5D74F27B896F, 0x80DEB1FE3B1696B1, 0x9BDC06A725C71235, 0xC19BF174CF692694,
   0xE49B69C19EF14AD2, 0xEFBE4786384F25E3, 0x0FC19DC68B8CD5B5, 0x240CA1CC77AC9C65,
   0x2DE92C6F592B0275, 0x4A7484AA6EA6E483, 0x5CB0A9DCBD41FBD4, 0x76F988DA831153B5,
   0x983E5152EE66DFAB, 0xA831C66D2DB43210, 0xB00327C898FB213F, 0xBF597FC7BEEF0EE4,
   0xC6E00BF33DA88FC2, 0xD5A79147930AA725, 0x06CA6351E003826F, 0x142929670A0E6E70,
   0x27B70A8546D22FFC, 0x2E1B21385C26C926, 0x4D2C6DFC5AC42AED, 0x53380D139D95B3DF,
   0x650A73548BAF63DE, 0x766A0ABB3C77B2A8, 0x81C2C92E47EDAEE6, 0x92722C851482353B]

/-- Round constants 40 to 79. -/
def shaKB : List (BitVec 64) :=
  [0xA2BFE8A14CF10364, 0xA81A664BBC423001, 0xC24B8B70D0F89791, 0xC76C51A30654BE30,
   0xD192E819D6EF5218, 0xD69906245565A910, 0xF40E35855771202A, 0x106AA07032BBD1B8,
   0x19A4C116B8D2D0C8, 0x1E376C085141AB53, 0x2748774CDF8EEB99, 0x34B0BCB5E19B48A8,
   0x391C0CB3C5C95A63, 0x4ED8AA4AE3418ACB, 0x5B9CCA4F7763E373, 0x682E6FF3D6B2B8A3,
   0x748F82EE5DEFB2FC, 0x78A5636F43172F60, 0x84C87814A1F0AB72, 0x8CC702081A6439EC,
   0x90BEFFFA23631E28, 0xA4506CEBDE82BDE9, 0xBEF9A3F7B2C67915, 0xC67178F2E372532B,
   0xCA273ECEEA26619C, 0xD186B8C721C0C207, 0xEADA7DD6CDE0EB1E, 0xF57D4F7FEE6ED178,
   0x06F067AA72176FBA, 0x0A637DC5A2C898A6, 0x113F9804BEF90DAE, 0x1B710B35131C471B,
   0x28DB77F523047D84, 0x32CAAB7B40C72493, 0x3C9EBE0A15C9BEBC, 0x431D67C49C100D4C,
   0x4CC5D4BECB3E42B6, 0x597F299CFC657E2A, 0x5FCB6FAB3AD6FAEC, 0x6C44198C4A475817]

/-- Big-endian 64-bit words of bytes. -/
def shaWords : Nat → List Byte → List (BitVec 64)
  | 0, _ => []
  | k + 1, bs => BitVec.ofNat 64 (beNat (bs.take 8)) :: shaWords k (bs.drop 8)

/-- The message schedule, newest word first, extended by `k` words. -/
def shaExtend : Nat → List (BitVec 64) → List (BitVec 64)
  | 0, w => w
  | k + 1, w =>
    let x := w.getD 14 0
    let y := w.getD 1 0
    let s0 := x.rotateRight 1 ^^^ x.rotateRight 8 ^^^ (x >>> 7)
    let s1 := y.rotateRight 19 ^^^ y.rotateRight 61 ^^^ (y >>> 6)
    shaExtend k ((w.getD 15 0 + s0 + w.getD 6 0 + s1) :: w)

/-- One round over the eight working variables. -/
def shaRound (v : List (BitVec 64)) (kw : BitVec 64 × BitVec 64) : List (BitVec 64) :=
  match v with
  | [a, b, c, d, e, f, g, h] =>
    let t1 := h + (e.rotateRight 14 ^^^ e.rotateRight 18 ^^^ e.rotateRight 41) + ((e &&& f) ^^^ (~~~e &&& g)) + kw.1 + kw.2
    let t2 := (a.rotateRight 28 ^^^ a.rotateRight 34 ^^^ a.rotateRight 39) + ((a &&& b) ^^^ (a &&& c) ^^^ (b &&& c))
    [t1 + t2, a, b, c, d + t1, e, f, g]
  | _ => v

/-- One 128-byte block. -/
def shaBlock (h : List (BitVec 64)) (blk : List Byte) : List (BitVec 64) :=
  let w := (shaExtend 64 (shaWords 16 blk).reverse).reverse
  List.zipWith (· + ·) h (((shaKA ++ shaKB).zip w).foldl shaRound h)

/-- All blocks of a padded message. -/
def shaBlocks : Nat → List Byte → List (BitVec 64) → List (BitVec 64)
  | 0, _, h => h
  | k + 1, bs, h => shaBlocks k (bs.drop 128) (shaBlock h (bs.take 128))

/-- SHA-384, as a number of 384 bits. -/
def sha384 (m : List Byte) : Nat :=
  let z := (239 - m.length % 128) % 128
  let p := m ++ 0x80 :: List.replicate z 0 ++ beBytes 16 (8 * m.length)
  ((shaBlocks (p.length / 128) p shaInit).take 6).foldl (fun v x => v * 2 ^ 64 + x.toNat) 0

/-- P-384: field prime. -/
def ecP : Nat := 2 ^ 384 - 2 ^ 128 - 2 ^ 96 + 2 ^ 32 - 1

/-- P-384: group order. -/
def ecN : Nat :=
  0xffffffffffffffffffffffffffffffffffffffffffffffffc7634d81f4372ddf581a0db248b0a77aecec196accc52973

/-- P-384: base point. -/
def ecG : Nat × Nat :=
  (0xaa87ca22be8b05378eb1c71ef320ad746e1d3b628ba79b9859f741e082542a385502f25dbf55296c3a545e3872760ab7,
   0x3617de4a96262c6f5d9e98bf9292dc29f8f41dbd289a147ce9da3113b5f0b8c00a60b1ce1d7e819d7a431d7c90ea0e5f)

/-- `a` to the power that `bits` spell, most significant first, modulo `m`. -/
def powBits (a m : Nat) : List Bool → Nat → Nat
  | [], r => r
  | b :: t, r => powBits a m t (let q := r * r % m; if b then q * a % m else q)

/-- The 384 bits of a number, most significant first. -/
def bits384 (v : Nat) : List Bool := (List.range 384).map (fun i => v.testBit (383 - i))

/-- Inverse modulo a prime. -/
def modInv (a m : Nat) : Nat := powBits (a % m) m (bits384 (m - 2)) 1

/-- Point addition; `none` is the point at infinity. -/
def ecAdd (x y : Option (Nat × Nat)) : Option (Nat × Nat) :=
  match x, y with
  | none, q => q
  | p, none => p
  | some (x1, y1), some (x2, y2) =>
    if x1 = x2 && (y1 + y2) % ecP = 0 then none
    else
      let l := if x1 = x2 then (3 * x1 * x1 + (ecP - 3)) * modInv (2 * y1) ecP % ecP
        else (y2 + ecP - y1) * modInv (x2 + ecP - x1) ecP % ecP
      let x3 := (l * l + 2 * ecP - x1 - x2) % ecP
      some (x3, (l * (x1 + ecP - x3) + ecP - y1) % ecP)

/-- A multiple of a point. -/
def ecMul (p : Option (Nat × Nat)) : List Bool → Option (Nat × Nat) → Option (Nat × Nat)
  | [], r => r
  | b :: t, r => ecMul p t (let q := ecAdd r r; if b then ecAdd q p else q)

/-- ECDSA P-384 verification of digest `z` under public key `q`. -/
def ecdsaOk (q : Nat × Nat) (z r sg : Nat) : Bool :=
  if 0 < r && r < ecN && 0 < sg && sg < ecN then
    let w := modInv sg ecN
    match ecAdd (ecMul (some ecG) (bits384 (z * w % ecN)) none) (ecMul (some q) (bits384 (r * w % ecN)) none) with
    | some (x, _) => x % ecN == r
    | none => false
  else false

/-! ## The image (16 R433, Table 16.6) -/

/-- `VERSION`, `BODY_LEN`, `SVN`. -/
def imageVersion (i : List Byte) : Nat := leNat ((i.drop 4).take 4)
def imageBody (i : List Byte) : Nat := leNat ((i.drop 8).take 4)
def imageSvn (i : List Byte) : Nat := leNat ((i.drop 12).take 4)

/-- `KEY_INDEX`. -/
def imageKey (i : List Byte) : Nat := (i.getD 16 0).toNat

/-- The header is valid: `MAGIC`, `BODY_LEN`, the reserved bytes, and a key that is fused. -/
def imageHeaderOk (i : List Byte) : Bool :=
  leNat (i.take 4) == 0x5A46E71C && decide (65536 ≤ imageBody i) && decide (imageBody i ≤ 4194048) && imageBody i % 256 == 0
    && decide (imageVersion i < 2 ^ 24) && ((i.drop 17).take 47).all (· == 0) && ((i.drop 160).take 96).all (· == 0)
    && decide (imageKey i ≤ 3) && decide (256 + imageBody i ≤ i.length)

/-- What the ROM makes of an image: 0 accepted, else the code of Table 16.7. -/
def imageStatus (i : List Byte) : Nat :=
  if !imageHeaderOk i then 0x11
  else if Config.fwKeyRevoked (imageKey i) || decide (imageSvn i < Config.minSvn) then 0x13
  else if ecdsaOk (Config.fwKey (imageKey i)) (sha384 (i.take 64 ++ (i.drop 256).take (imageBody i)))
      (beNat ((i.drop 64).take 48)) (beNat ((i.drop 112).take 48)) then 0
  else 0x12

/-- The code of two refused images (log 21): that of the image that came further, image A's when both have a valid header. -/
def imageWorse (a b : Nat) : Nat := if a = 0x11 then b else a

end Sys2Proof.Machine
end

