-- ==== Sys2Proof/Machine/Time.lean ====
section
/-! DEFINITION. The Timing Subsystem: candidates, selection, DPLL, drydown, steering, outputs and time (chapter 10). -/

namespace Sys2Proof.Machine

/-! ## Candidates (10 R254 to R263) -/

/-- Defaults of a candidate (10 Table 10.14, R283). -/
def refReset (c : Nat) : RefC :=
  { en := false, lockout := false, prio := 8, recv := decide (8 ≤ c), qlFixed := 0b1011, evEn := 0b11111, lane := none,
    dnuRet := true, freq := 0, adj := if 8 ≤ c ∧ c < 24 then 1953125 else 0, st := 1, macAt := 0, qlEff := 0, qlRx := 0,
    qlRun := 0, cause := 0, goodAt := none, offset := none, slope := 0, means := [], upd := 0, hard := 0, drift := false,
    slew := false, phase := 0, hist := 0 }

/-- Candidate `c`. -/
def refC (s : State) (c : Nat) : RefC := tget refReset s.time.refs c

/-- Changes candidate `c`. -/
def setRef (c : Nat) (r : RefC) (s : State) : State := { s with time := { s.time with refs := tset refReset c r s.time.refs } }

/-- Changes candidate `c` by a function. -/
def modRef (c : Nat) (f : RefC → RefC) (s : State) : State := setRef c (f (refC s c)) s

/-- LREF candidates are 8 to 23 (10 Table 10.1). -/
def isLref (c : Nat) : Bool := decide (8 ≤ c) && decide (c < 24)

/-- A candidate's event: sticky bit `b`, and the record when its enable is 1 (10 R263, Table 10.17). -/
def refEvent (c b code : Nat) (data : Word) (on : Bool) (s : State) : State :=
  let r := refC s c
  let s := setRef c { r with hist := r.hist ||| (1#5 <<< b) } s
  if r.evEn.getLsbD b then pulse 0x07 code c data on s else s

/-- Rank of a level, 0 for one not selectable (10 Table 10.2). -/
def qlRank (q : Nat) : Nat := if q = 2 then 1 else if q = 4 then 2 else if q = 8 then 3 else if q = 11 then 4 else 0

/-- The effective level of a candidate (10 R257). -/
def effQl (r : RefC) : Nat := if r.recv then r.qlEff else r.qlFixed

/-- A received level (10 R257): effective once `n` in a row have carried it. -/
def qlSeen (c n q : Nat) (s : State) : State :=
  let r := refC s c
  if !r.recv then s
  else
    let run := if r.qlRun ≠ 0 && r.qlRx = q then min (r.qlRun + 1) n else 1
    let s := setRef c { r with qlRx := q, qlRun := run, qlEff := if n ≤ run then q else r.qlEff } s
    if n ≤ run && r.qlEff ≠ q then refEvent c 4 0x05 (wd q) false s else s

/-- The candidate that names a lane. -/
def lrefOf (s : State) (l : Nat) : Option Nat := (List.range 25).find? (fun c => (refC s c).lane == some l)

/-- A valid header of a lane carries a level (10 R257). -/
def laneQl (l q : Nat) (s : State) : State := match lrefOf s l with | some c => qlSeen c 24 q s | none => s

/-- A candidate's state follows its causes (10 R259, R262): a new failure, or the start of maceration. -/
def refSync (c : Nat) (s : State) : State :=
  let r := refC s c
  if !r.en then s
  else if r.cause ≠ 0 then
    if r.st = 1 then s else refEvent c 0 0x01 (r.cause.setWidth 32) false (setRef c { r with st := 1 } s)
  else if r.st = 1 then setRef c { r with st := 2, macAt := s.clk.now + 1000000000 * s.time.sel.macer } s
  else s

/-- Sets or ends cause `b` of an enabled candidate (10 Table 10.3). -/
def setCause (c b : Nat) (on : Bool) (s : State) : State :=
  let r := refC s c
  if !r.en || r.cause.getLsbD b = on then s
  else refSync c (setRef c { r with cause := if on then r.cause ||| (1#5 <<< b) else r.cause &&& ~~~(1#5 <<< b) } s)

/-- The lane of an LREF candidate is unfit (10 Table 10.3, R255; 16 R444). -/
def lrefBad (s : State) (c : Nat) : Bool :=
  match (refC s c).lane with
  | some l =>
    let x := lane s l
    x.ldef.cond &&& 0b010111 != 0 || plesioAt s l (curCycle s) || !x.sd.rxEn || laneFenced s l
  | none => true

/-- One LREF candidate follows its lane's conditions. -/
def lrefOne (s : State) (c : Nat) : State :=
  let r := refC s c
  if !r.en then s
  else if lrefBad s c then setCause c 2 true (if r.goodAt.isSome then setRef c { r with goodAt := none } s else s)
  else if r.goodAt.isNone then setRef c { r with goodAt := some s.clk.now } s
  else s

/-- Every LREF candidate follows its lane's conditions (10 Table 10.3). -/
def lrefWatch (s : State) : State := ((List.range 16).map (· + 8)).foldl lrefOne s

/-- The pins of a candidate are reported open or shorted (10 Table 10.3; 15 Table 15.7). -/
def guardBad (s : State) (c : Nat) : Bool :=
  if c < 8 then (guardPin s c).kind ≠ 0 else if c = 24 then (guardPin s 8).kind ≠ 0 || (guardPin s 9).kind ≠ 0 else false

/-- Every candidate with guarded pins follows the Field I/O Guard. -/
def guardWatch (s : State) : State :=
  [0, 1, 2, 3, 4, 5, 6, 7, 24].foldl (fun s c => setCause c 4 (guardBad s c) s) s

/-- REF_ACTIVITY_LOSS (10 Table 10.3). -/
def execRefActivityLoss (c : Nat) (s : State) : Host.Outcome State Fault Refusal :=
  if 8 ≤ c then .refused (.illFormed "REF_ACTIVITY_LOSS")
  else if running s && (refC s c).en then .next (setCause c 0 true (modRef c (fun r => { r with means := [], upd := 0 }) s))
  else .next s

/-! ## Frequency monitor (10 R260, R261) -/

/-- The hard threshold of a candidate, ppt (10 R261). -/
def hardPpt (s : State) (c : Nat) : Nat := 100000 * (if isLref c then s.time.sel.hardLane else s.time.sel.hard)

/-- Magnitude below 90 % of a threshold. -/
def below90 (v : Int) (t : Nat) : Bool := decide (10 * v.natAbs < 9 * t)

/-- A condition with a threshold (10 R261): begins beyond it, ends below 90 % of it. -/
def condNext (cur : Bool) (v : Int) (t : Nat) : Bool := if cur then !below90 v t else decide (t < v.natAbs)

/-- Drift condition at an update (10 R261). -/
def driftStep (c : Nat) (o : Int) (s : State) : State :=
  let r := refC s c
  let n := condNext r.drift o (100000 * s.time.sel.soft)
  if n = r.drift then s else refEvent c 2 0x03 (wdI (o.tdiv 1000)) n (setRef c { r with drift := n } s)

/-- Slope and slew condition, each 1 s (10 R260, R261). -/
def slopeStep (c : Nat) (o : Int) (s : State) : State :=
  let r := refC s c
  if r.upd < 9 then setRef c { r with upd := r.upd + 1 } s
  else
    let v := match r.means[9]? with | some o10 => (o - o10).tdiv 10 | none => r.slope
    let n := condNext r.slew v (100 * s.time.sel.slew)
    let s := setRef c { r with upd := 0, means := (o :: r.means).take 10, slope := v, slew := n } s
    if n = r.slew then s else refEvent c 3 0x04 (wdI v) n s

/-- The hard threshold and the ends of causes at an update with a complete gate (10 R261, Table 10.3). -/
def gateStep (c : Nat) (edges : Bool) (o : Int) (s : State) : State :=
  let r := refC s c
  let t := hardPpt s c
  let h := if t < o.natAbs then min (r.hard + 1) 3 else 0
  let inside := below90 o t
  let cause := if 3 ≤ h then r.cause ||| 0b00010 else if inside then r.cause &&& ~~~(0b00010#5) else r.cause
  let cause := if inside && edges then cause &&& ~~~(0b00001#5) else cause
  let laneOk := !lrefBad s c && (match r.goodAt with | some t => decide (t + 1000000000 ≤ s.clk.now) | none => false)
  let cause := if inside && laneOk then cause &&& ~~~(0b00100#5) else cause
  refSync c (setRef c { r with hard := h, cause } s)

/-- The offset a complete gate gives, ppt (10 R260, R233): an LREF candidate's is the recovered frequency that its lane's CDR
reports, in ppb, refined below 1 ppb by the lane-cycle phase (log 65). -/
def gateOffset (s : State) (c : Nat) (o : Int) : Int :=
  match (refC s c).lane with
  | some l => if isLref c then 1000 * (lane s l).sd.offset + o % 1000 else o
  | none => o

/-- One candidate's values at a monitor update (10 R260); the phase of a disabled one is measured too (10 R266). -/
def refMeasure (s : State) (m : RefMeas) : State :=
  let r := { refC s m.ref with phase := m.phase }
  if !r.en then setRef m.ref r s
  else
    match m.gate with
    | none => setRef m.ref { r with means := [], upd := 0 } s
    | some g =>
      let o := gateOffset s m.ref g
      gateStep m.ref m.edges o (slopeStep m.ref o (driftStep m.ref o (setRef m.ref { r with offset := some o } s)))

/-- FREQ_MONITOR_UPDATE (10 R260): every 100 ms. -/
def execFreqMonitorUpdate (ms : List RefMeas) (s : State) : Host.Outcome State Fault Refusal :=
  if ms.all (fun m => decide (m.ref < 25)) then
    if running s then .next (lrefWatch (ms.foldl refMeasure (lrefWatch s))) else .next s
  else .refused (.illFormed "FREQ_MONITOR_UPDATE")

/-- MACERATION_EXPIRY (10 R262, R260): a candidate without an offset cannot become available. -/
def execMacerationExpiry (c : Nat) (s : State) : Host.Outcome State Fault Refusal :=
  if 25 ≤ c then .refused (.illFormed "MACERATION_EXPIRY")
  else
    let r := refC s c
    if running s && r.en && r.st = 2 && decide (r.macAt ≤ s.clk.now) && r.offset.isSome then
      .next (refEvent c 1 0x02 0 false (setRef c { r with st := 3 } s))
    else .next s

/-! ## Phase (10 R266) -/

/-- Reduces a phase of `x` ps modulo a span of `num / den` ps into the interval from minus half to just under plus half. -/
def reducePhase (x : Int) (num den : Nat) : Int :=
  let k := (2 * x * den + num).fdiv (2 * num)
  (x * den - k * num).fdiv den

/-- A measured phase of candidate `c` less its `PHASE_ADJ`, reduced modulo the span of Table 10.1, ps (10 R266). -/
def candPhase (r : RefC) (c : Nat) (x : Int) : Int :=
  if isLref c then reducePhase (x - r.adj) 15625000 1
  else if c = 24 || r.freq ≤ 8000 then reducePhase (x - r.adj) 125000000 1
  else reducePhase (x - r.adj) 1000000000000 r.freq

/-- The step that selecting a candidate would cause, ps (10 R266). -/
def phaseStep (s : State) (c : Nat) : Int :=
  let r := refC s c
  if isLref c then
    match r.lane with
    | some l => candPhase r c (lane s l).al.sil
    | none => 0
  else candPhase r c r.phase

/-- The loop's phase error: the measured phase of the selected candidate as R266 reduces it; with none selected, as measured. -/
def loopPhase (s : State) (x : Int) : Int :=
  match s.time.dpll.sel with
  | some c => candPhase (refC s c) c x
  | none => x

/-! ## DPLL states (10 R269) -/

/-- Changes the DPLL. -/
def modDpll (f : Dpll → Dpll) (s : State) : State := { s with time := { s.time with dpll := f s.time.dpll } }

/-- Codes of Table 10.11. -/
def dpllCode : DpllState → Nat
  | .freerun => 0 | .acquire => 1 | .locked => 2 | .drydown => 3 | .steered => 4

/-- LOCKED time since BOOT or `MODEL_CLEAR`, ns (10 R269). -/
def lockedNs (s : State) : Nat :=
  let d := s.time.dpll
  d.lockNs + (match d.lockFrom with | some t => s.clk.now - t | none => 0)

/-- The drydown model is valid (10 R272): 6 h of LOCKED operation, or 60 s after a restore. -/
def modelValid (s : State) : Bool :=
  decide (21600000000000 ≤ lockedNs s) || (s.time.restored && decide (60000000000 ≤ lockedNs s))

/-- Holdover data exists (10 R269). -/
def holdData (s : State) : Bool := modelValid s || decide (60000000000 ≤ lockedNs s)

/-- A is in use: the learning span exceeds 48 h (10 R272). -/
def ageingUsed (m : Model) : Bool := decide (172800000000000 < m.span)

/-- B1 and B2 are in use: the temperatures seen span at least 3 °C (10 R272). -/
def tempUsed (m : Model) : Bool := match m.temps with | some (lo, hi) => decide (300 ≤ hi - lo) | none => false

/-- θ in use, 0.01 °C (10 R272): a host value older than 10 s is replaced by the die reading. -/
def theta (s : State) : Int :=
  match s.time.hostT with
  | some (v, t) => if s.time.sel.host && decide (s.clk.now ≤ t + 10000000000) then v else s.time.die
  | none => s.time.die

/-- The word that the drydown model predicts (10 R271), rounded down to 10^-15. -/
def predict (s : State) : Int :=
  let t := s.time
  let m := t.model
  let dt : Int := (s.clk.now - t.tA : Nat)
  let dth := theta s - t.thA
  let a := if ageingUsed m then m.a * dt * 10000 else 0
  let b := if tempUsed m then (m.b1 * dth * 100 + m.b2 * dth * dth) * dayNs else 0
  t.f0 + (a + b).fdiv (dayNs * 10000)

/-- The mean word over the 60 s of LOCKED operation that ended 2 s before the selection was lost (10 R271); a free value when there
was none. -/
def holdMean (s : State) : Int × State :=
  let t := s.time.dpll.lostAt.getD s.clk.now
  let l := ((s.time.dpll.words.filter (fun x => decide (x.1 + 2000000000 ≤ t))).take 60000).map (·.2)
  if l.isEmpty then
    let (v, s) := draw 0x10271 s
    (((v % 200000000001 : Nat) : Int) - 100000000000, s)
  else (l.sum.fdiv l.length, s)

/-- The DPLL enters a state: `DPLL_STATE` (10 R269, Table 10.17). -/
def dpllEnter (n : DpllState) (s : State) : State :=
  let d := s.time.dpll
  if d.st = n then s
  else
    let s := modDpll (fun d => { d with
      st := n, far := 0, lockNs := lockedNs s, lockFrom := if n = .locked then some s.clk.now else none }) s
    pulse 0x07 0x11 d.active (wd (dpllCode n + 8 * dpllCode d.st)) false s

/-- No candidate is selected: DRYDOWN with holdover data, otherwise FREERUN (10 Table 10.5). -/
def dpllHold (s : State) : State :=
  if holdData s then
    let (h, s) := holdMean s
    let w := if modelValid s then predict s else h
    dpllEnter .drydown (modDpll (fun d => { d with hold := h, word := w }) s)
  else dpllEnter .freerun (modDpll (fun d => { d with word := 0 }) s)

/-- Holds a word within the pull limit of the selected candidate's measured frequency (10 R267). -/
def pullClamp (s : State) (w : Int) : Int :=
  match s.time.dpll.sel with
  | some c => match (refC s c).offset with
    | some o =>
      let lim : Int := 100000000 * s.time.sel.pull
      max (1000 * o - lim) (min (1000 * o + lim) w)
    | none => w
  | none => w

/-- Units of the loop's integrator in one unit of the frequency word. -/
def integUnit : Int := 1000000000000

/-- Loads the word in force and the loop's integrator with it, so that the frequency is continuous (10 R267, R273). -/
def loadLoop (w : Int) (s : State) : State := modDpll (fun d => { d with word := w, integ := w * integUnit }) s

/-! ## Selection (10 R264, R265) -/

/-- State of a candidate as reported: 0 disabled (10 Table 10.15). -/
def refState (s : State) (c : Nat) : Nat := let r := refC s c; if r.en then r.st else 0

/-- Candidate `c` may be chosen by AUTO. -/
def pickable (s : State) (c : Nat) : Bool :=
  let r := refC s c
  refState s c == 3 && !r.lockout && qlRank (effQl r) != 0

/-- Candidate `c` is better than `b` (10 R264). -/
def better (s : State) (c b : Nat) : Bool :=
  let q (x : Nat) := qlRank (effQl (refC s x))
  decide (q c < q b) || (q c == q b && decide ((refC s c).prio < (refC s b).prio))

/-- The choice of AUTO (10 R264). -/
def pickAuto (s : State) : Option Nat :=
  let best := (List.range 25).foldl (fun b c =>
    if !pickable s c then b
    else match b with
      | none => some c
      | some x => if better s c x then some c else b) none
  match best, s.time.dpll.sel with
  | some b, some x =>
    if !s.time.sel.revertive && refState s x == 3 && !(refC s x).lockout
        && qlRank (effQl (refC s x)) == qlRank (effQl (refC s b)) then some x
    else some b
  | b, _ => b

/-- The selector's rule (10 R264): a candidate that is locked out is not chosen by MANUAL either (10 Table 10.14; log 66). -/
def selectRef (s : State) : Option Nat :=
  let k := s.time.sel
  let st := refState s k.ref
  if k.mode = 2 then (if st = 0 || st = 1 then none else some k.ref)
  else if k.mode = 1 && st = 3 && !(refC s k.ref).lockout && qlRank (effQl (refC s k.ref)) ≠ 0 then some k.ref
  else pickAuto s

/-- Bandwidth index for the selected candidate (10 Table 10.4). -/
def bwIndex (s : State) : Nat :=
  let k := s.time.sel
  match s.time.dpll.sel with
  | some c => if isLref c then k.bwLane else if c = 24 then k.bwTin else if (refC s c).freq ≤ 25000000 then k.bwLow else k.bwHigh
  | none => s.time.dpll.bw

/-- A change of selection (10 R265, Table 10.5): `DPLL_SWITCH`, and the DPLL follows unless it is steered. The loop takes the bandwidth
of the new candidate at once and starts from the word in force, so the step drives it from the next update on (10 R267). -/
def selChange (n : Option Nat) (s : State) : State :=
  let step := match n with | some c => phaseStep s c | none => 0
  let s := pulse 0x07 0x10 (n.getD 0x1F) (wdI step) false s
  let s := modDpll (fun d => { d with
    sel := n, swAt := n.map (fun _ => s.clk.now), okAt := none, far := 0, perr := step
    lostAt := if n.isSome then none else some s.clk.now }) s
  let s := modDpll (fun d => { d with bw := bwIndex s }) s
  if s.time.dpll.st = .steered then s
  else match n with
    | none => dpllHold s
    | some _ => dpllEnter .acquire (loadLoop (pullClamp s s.time.dpll.word) s)

/-- One evaluation of the selector (10 R264, R265): during a switch the selection changes only when the selected candidate
has failed or a command has changed the selector's settings. -/
def evaluate (s : State) : State :=
  let d := s.time.dpll
  let n := selectRef s
  let held := d.swAt.isSome && !d.selCmd && (match d.sel with | some c => decide (2 ≤ refState s c) | none => false)
  let s := modDpll (fun d => { d with selCmd := false }) s
  if n = d.sel || held then s else selChange n s

/-- SELECTOR_EVALUATION (10 R264). -/
def execSelectorEvaluation (s : State) : Host.Outcome State Fault Refusal :=
  if running s then .next (evaluate (lrefWatch s)) else .next s

/-- DPLL_SWITCH_TIMEOUT (10 R265): the switch ends after 60 s, and the selector is evaluated. -/
def execDpllSwitchTimeout (s : State) : Host.Outcome State Fault Refusal :=
  match s.time.dpll.swAt with
  | some t =>
    if running s && decide (t + 60000000000 ≤ s.clk.now) then .next (evaluate (modDpll (fun d => { d with swAt := none }) s)) else .next s
  | none => .next s

/-! ## The loop (10 R268 to R270) -/

/-- A bandwidth index in mHz (10 Table 10.8). -/
def bwMilli (i : Nat) : Nat := (if i % 3 = 0 then 1 else if i % 3 = 1 then 2 else 5) * 10 ^ (i / 3)

/-- `LOCK_TIME`, ns (10 R270). -/
def lockTime (s : State) : Nat := max 1000000000 (2000000000000 / bwMilli s.time.dpll.bw)

/-- The proportional part of the loop at bandwidth index `i`, 10^-27 (10 R268; log 64): a phase that lies late by `phase` ps
lowers the frequency. With a damping factor of 5 and a 3 dB bandwidth of 1 Hz the gain is 6.22098 per second. -/
def loopProp (i : Nat) (phase : Int) : Int := -(phase * bwMilli i * 6220980000000)

/-- What one update of 1 ms adds to the loop's integrator, 10^-27: a damping factor of 5 makes its gain a hundredth of the
square of the proportional gain (10 R268). -/
def loopInteg (i : Nat) (phase : Int) : Int := -(phase * bwMilli i ^ 2 * 387006)

/-- The loop's integrator and word after an update (10 Table 10.5, R267, R268, R273). A new bandwidth starts from the word in
force, and the integrator too is held within the pull limit (log 64). -/
def loopNext (phase : Int) (s : State) : Int × Int :=
  let d := s.time.dpll
  match d.st with
  | .acquire | .locked =>
    let i := bwIndex s
    let g := if i = d.bw then d.integ else d.word * integUnit - loopProp i d.perr
    let g := integUnit * pullClamp s (g.fdiv integUnit) + g % integUnit + loopInteg i phase
    (g, pullClamp s ((g + loopProp i phase).fdiv integUnit))
  | .steered => (d.integ, d.steer.getD d.word)
  | _ => (d.integ, d.word)

/-- DPLL_UPDATE, every 1 ms (10 R266, R268 to R270): `raw` is the phase of the selected candidate as measured against the DPLL's own
output, in ps, which is where the time of this model runs (log 64); `freqErr` is in ppt. -/
def dpllUpdate (raw freqErr : Int) (s : State) : State :=
  let d := s.time.dpll
  let phase := loopPhase s raw
  let (g, w) := loopNext phase s
  let sel := d.sel.isSome
  let ok := sel && decide (phase.natAbs < 10000) && decide (freqErr.natAbs < 10000)
  let far := if sel && decide (100000 < phase.natAbs) then d.far + 1 else 0
  let s := modDpll (fun d => { d with
    word := w, integ := g, steer := none, bw := bwIndex s, perr := if sel then phase else d.perr, far := min far 3
    okAt := if ok then some (d.okAt.getD s.clk.now) else none
    words := if d.st = .locked then ((s.clk.now, w) :: d.words).take 62000 else d.words }) s
  if d.st = .locked then
    let s := { s with time := { s.time with tA := s.clk.now, thA := theta s } }
    if 3 ≤ far then dpllEnter .acquire s else s
  else s

/-- DPLL_UPDATE of DPLL `n`. The standby runs on the samples and the integrator of the active one (10 R284), so its own update
changes nothing. -/
def execDpllUpdate (phase freqErr : Int) (n : Nat) (s : State) : Host.Outcome State Fault Refusal :=
  if 2 ≤ n then .refused (.illFormed "DPLL_UPDATE")
  else if running s && n == s.time.dpll.active then .next (dpllUpdate phase freqErr s)
  else .next s

/-- Number of the frame tick in force since BOOT; an ALIGN makes it differ from the cycles counted (02 R61). -/
def frameNo (s : State) : Nat := s.time.tod.count

/-- Changes the time counter. -/
def modTod (f : Tod → Tod) (s : State) : State := { s with time := { s.time with tod := f s.time.tod } }

/-- Seconds that the time counter gives the edge of the last valid message; none when its boundary lies elsewhere (10 R277). -/
def todAtEdge (s : State) : Option Int :=
  let bnd : Int := (frameNo s : Int) - s.time.tod.frames
  let d := (s.time.tin.secFrame : Int) - bnd
  if d % 8000 = 0 then some (s.time.tod.sec + d / 8000) else none

/-- The second boundary moves to the frame tick that coincides with the compensated edge, and the seconds are loaded (10 R277). -/
def todLoad (s : State) : State :=
  match s.time.tin.sec with
  | some v =>
    let d : Int := (frameNo s : Int) - s.time.tin.secFrame
    modTod (fun t => { t with
      frames := (d % 8000).toNat, sec := ((v + d / 8000) % 281474976710656).toNat, valid := true, load := none, fix := false }) s
  | none => s

/-- `TOD_STEP` with the change of seconds (10 R277, Table 10.17). -/
def todStep (d : Int) (s : State) : State := pulse 0x07 0x12 24 (wdI d) false s

/-- The first time the DPLL reaches LOCKED on TIN with `FOLLOW_TIN` = 1 (10 R277). -/
def followTin (s : State) : State :=
  if s.time.dpll.sel = some 24 && s.time.tod.follow && !s.time.tin.followed && s.time.tin.sec.isSome then
    let old := s.time.tod.sec
    let same := todAtEdge s == s.time.tin.sec.map (fun (v : Nat) => (v : Int))
    let s := todLoad { s with time := { s.time with tin := { s.time.tin with followed := true } } }
    if same then s else todStep ((s.time.tod.sec : Int) - old) s
  else s

/-- DPLL_LOCK (10 R270, R265): LOCKED, the switch ends, and the selector is evaluated. -/
def dpllLock (s : State) : State :=
  evaluate (followTin (modDpll (fun d => { d with swAt := none }) (dpllEnter .locked s)))

/-- DPLL_LOCK. -/
def execDpllLock (s : State) : Host.Outcome State Fault Refusal :=
  let d := s.time.dpll
  match d.okAt with
  | some t => if running s && d.st = .acquire && d.sel.isSome && decide (t + lockTime s ≤ s.clk.now) then .next (dpllLock s) else .next s
  | none => .next s

/-! ## Drydown (10 R271, R272) -/

/-- DRYDOWN_UPDATE, every 1 s (10 R271). -/
def execDrydownUpdate (dieTemp : Int) (s : State) : Host.Outcome State Fault Refusal :=
  if running s then
    let s := { s with time := { s.time with die := dieTemp } }
    if s.time.dpll.st = .drydown then
      .next (modDpll (fun d => { d with word := if modelValid s then predict s else d.hold }) s)
    else .next s
  else .next s

/-- A signed 48-bit free value. -/
def drawInt (k : Nat) (s : State) : Int × State :=
  let (v, s) := draw k s
  (((v % 2 ^ 48 : Nat) : Int) - 2 ^ 47, s)

/-- The forgetting time of 30 days, in updates of 1 s (10 R272). -/
def forgetting : Int := 2592000

/-- The regressors 1, t in s, θ and θ² in 0.01 °C, counted from the fit's first update. -/
def regressors (t d : Int) : List Int := [1, t, d, d * d]

/-- One sum of the fit: the old sum forgets a 2,592,000th, and the new product is added in units of 2^-32 (log 64). -/
def forget (old new_ : Int) : Int := old - old.tdiv forgetting + new_ * 4294967296

/-- The fit takes one word at `t` seconds and `d` hundredths of a degree from its start (10 R272). -/
def fitFeed (t d word : Int) (f : Fit) : Fit :=
  let x := regressors t d
  { f with
    info := List.zipWith (fun row a => List.zipWith (fun o b => forget o (a * b)) row x) f.info x
    vec := List.zipWith (fun o a => forget o (a * word)) f.vec x }

/-- Determinant of an `n` by `n` matrix, along its first row. -/
def detOf : Nat → List (List Int) → Int
  | 0, _ => 1
  | n + 1, m =>
    let rest := m.drop 1
    ((List.range (n + 1)).map (fun j =>
      (if j % 2 = 0 then 1 else -1) * (m.headD []).getD j 0 * detOf n (rest.map (fun r => r.eraseIdx j)))).sum

/-- The solution of a square system by Cramer's rule, as numerators over one denominator. -/
def cramer (m : List (List Int)) (b : List Int) : List Int × Int :=
  let n := b.length
  ((List.range n).map (fun j => detOf n (List.zipWith (fun r v => r.set j v) m b)), detOf n m)

/-- The common denominator of the regressors' units against those of the model terms. -/
def fitScale : Int := 864000000

/-- The terms in use of the fit (10 R272): F0 always, A after a span of 48 h, B1 and B2 after temperatures 3 °C apart. -/
def fitActive (f : Fit) (now : Nat) : List Nat :=
  let aged := match f.from_ with | some (t, _) => decide (172800000000000 < now - t) | none => false
  [0] ++ (if aged then [1] else []) ++ (if 300 ≤ f.hi - f.lo then [2, 3] else [])

/-- The model terms as coefficients of the regressors, times `fitScale`; `d` is the temperature of the fit's start less θ_a. -/
def fitHeld (m : Model) (d : Int) : List Int := [0, m.a * 10000, m.b1 * 8640000 - 2 * m.b2 * 86400 * d, m.b2 * 86400]

/-- The coefficients that fit the sums best with the terms not in use held, over `fitScale` times the denominator; none when
the sums do not determine them. -/
def fitSolve (f : Fit) (act : List Nat) (held : List Int) : Option (List Int × Int) :=
  let row (i : Nat) := f.info.getD i []
  let off (i : Nat) := ((List.range 4).map (fun j => if act.contains j then 0 else (row i).getD j 0 * held.getD j 0)).sum
  let (p, den) := cramer (act.map (fun i => act.map (fun j => (row i).getD j 0))) (act.map (fun i => fitScale * f.vec.getD i 0 - off i))
  if den = 0 then none
  else some ((List.range 4).map (fun j => match act.findIdx? (· == j) with
    | some k => p.getD k 0
    | none => held.getD j 0 * den), den)

/-- The coefficients over their denominator, with the terms in use that the sums do not determine as free values (log 2): B1 and B2,
then A. F0 is always determined. -/
def fitTerms (f : Fit) (act : List Nat) (held : List Int) (s : State) : Option (List Int × Int) × State :=
  match fitSolve f act held with
  | some r => (some r, s)
  | none =>
    let (b1, s) := drawInt 0x102722 s
    let (b2, s) := drawInt 0x102723 s
    let held := if act.contains 2 then (held.set 2 b1).set 3 b2 else held
    match fitSolve f (act.filter (fun i => i < 2)) held with
    | some r => (some r, s)
    | none =>
      let (a, s) := drawInt 0x102721 s
      (fitSolve f [0] (if act.contains 1 then held.set 1 a else held), s)

/-- One learning update (10 R272): the fit takes the word in force and the temperature, and F0 and the terms in use follow it; a term
not in use keeps its value, 0 or restored. -/
def learn (s : State) : State :=
  let th := theta s
  let t := s.time
  let (t0, th0) := t.fit.from_.getD (s.clk.now, th)
  let f : Fit := { t.fit with
    from_ := some (t0, th0)
    lo := if t.fit.from_.isSome then min t.fit.lo th else th
    hi := if t.fit.from_.isSome then max t.fit.hi th else th }
  let x : Int := ((s.clk.now - t0) / 1000000000 : Nat)
  let d := th - th0
  let f := fitFeed x d t.dpll.word f
  let act := fitActive f s.clk.now
  let span := t.model.span + (match t.learnAt with | some x => s.clk.now - x | none => 0)
  let temps := match t.model.temps with | some (lo, hi) => some (min lo th, max hi th) | none => some (th, th)
  let s := { s with time := { t with fit := f, learnAt := some s.clk.now, model := { t.model with span, temps } } }
  let (r, s) := fitTerms f act (fitHeld t.model d) s
  match r with
  | some (p, den) =>
    let q (k : Nat) : Int := p.getD k 0
    let l := fitScale * den
    { s with time := { s.time with
      f0 := (q 0 + q 1 * x + q 2 * d + q 3 * d * d).fdiv l
      model := { s.time.model with
        a := if act.contains 1 then (q 1 * 86400).fdiv l else t.model.a
        b1 := if act.contains 2 then (100 * (q 2 + 2 * q 3 * d)).fdiv l else t.model.b1
        b2 := if act.contains 3 then (10000 * q 3).fdiv l else t.model.b2 } } }
  | none => s

/-- MODEL_LEARN_UPDATE (10 R272): each second, only while LOCKED. -/
def execModelLearnUpdate (dieTemp : Int) (s : State) : Host.Outcome State Fault Refusal :=
  if running s then
    let s := { s with time := { s.time with die := dieTemp } }
    if s.time.dpll.st = .locked then .next (learn s) else .next s
  else .next s

/-- `MODEL_CLEAR` (10 R269, R272). -/
def modelClear (s : State) : State :=
  let s := { s with time := { s.time with model := Model.reset, fit := Fit.reset, f0 := 0, restored := false, learnAt := none } }
  modDpll (fun d => { d with lockNs := 0, lockFrom := d.lockFrom.map (fun _ => s.clk.now) }) s

/-! ## Time inputs (10 R276, R277) -/

/-- Changes the TIN input. -/
def modTin (f : Tin → Tin) (s : State) : State := { s with time := { s.time with tin := f s.time.tin } }

/-- Number of the frame tick that coincides with the compensated edge that arrives now (10 R277). -/
def edgeFrameNo (phase : Int) (s : State) : Nat :=
  let adj := (refC s 24).adj
  let p := reducePhase (phase - adj) 125000000 1
  let o : Int := ((s.clk.cyc * cycleNs + nsOf s.clk) * 1000 : Nat)
  ((frameNo s : Int) + (o - adj - p + 62500000).fdiv 125000000).toNat

/-- PPS_IN_EDGE (10 R277). -/
def ppsInEdge (phase : Int) (s : State) : State :=
  let t := s.time.tin
  let onTime := match t.edge with
    | some e => decide (e + 1000000000 ≤ s.clk.now + 20000) && decide (s.clk.now ≤ e + 1000020000)
    | none => true
  let quiet := if t.edge.isNone || t.got then 0 else min (t.quiet + 1) 3
  let run := if onTime && t.got then t.run else 0
  let s := modTin (fun t => { t with edge := some s.clk.now, edgeFrame := edgeFrameNo phase s, got := false, run, quiet }) s
  let s := modRef 24 (fun r => { r with phase }) s
  if !onTime || decide (3 ≤ quiet) then setCause 24 3 true s else s

/-- PPS_IN_EDGE. -/
def execPpsInEdge (phase : Int) (s : State) : Host.Outcome State Fault Refusal :=
  if running s then .next (ppsInEdge phase s) else .next s

/-- PPS_IN_EDGE_MISSING (10 R277): no edge within 20 µs of 1 s after the previous one. -/
def execPpsInEdgeMissing (s : State) : Host.Outcome State Fault Refusal :=
  match s.time.tin.edge with
  | some e =>
    if running s && decide (e + 1000020000 < s.clk.now) then
      .next (setCause 24 3 true (modTin (fun t => { t with edge := none, got := false, run := 0 }) s))
    else .next s
  | none => .next s

/-- Time of a 16-byte message at 115,200 bit/s, ns (10 R276). -/
def messageNs : Nat := 1388889

/-- A received message is valid (10 R276); it begins `messageNs` before this moment, when its last bit arrives. -/
def todValid (bs : List Byte) (s : State) : Bool :=
  bs.length == 16 && bs.take 3 == [0xC7, 0x3E, 0x01] && (hcrc (bs.take 14)).toNat == beNat (bs.drop 14) &&
  (match s.time.tin.edge with
    | some e => decide (e + 1000000 + messageNs ≤ s.clk.now) && decide (s.clk.now ≤ e + 900000000 + messageNs)
    | none => false)

/-- The counter disagrees with `TOD_IN` after the first load (10 R277). -/
def todCheck (s : State) : State :=
  if s.time.tod.follow && s.time.tin.followed && !s.time.tod.fix then
    match s.time.tin.sec with
    | some v =>
      if todAtEdge s = some (v : Int) then s
      else
        let d := (frameNo s : Int) - s.time.tin.secFrame
        todStep ((v : Int) + d / 8000 - s.time.tod.sec) (modTod (fun t => { t with fix := true }) s)
    | none => s
  else s

/-- TOD_IN_MESSAGE (10 R276, R277). -/
def todIn (bs : List Byte) (s : State) : State :=
  if !todValid bs s then s
  else
    let t := s.time.tin
    let v := beNat ((bs.drop 4).take 6)
    let next := match t.sec with | some p => decide (v = (p + 1) % 2 ^ 48) | none => true
    let run := if next && t.run ≠ 0 then min (t.run + 1) 3 else 1
    let s := modTin (fun t => { t with got := true, quiet := 0, run, sec := some v, secFrame := t.edgeFrame }) s
    let s := if !next then setCause 24 3 true s else if 3 ≤ run then setCause 24 3 false s else s
    todCheck (qlSeen 24 3 ((bs.getD 3 0).toNat % 16) s)

/-- TOD_IN_MESSAGE. -/
def execTodInMessage (bs : List Byte) (s : State) : Host.Outcome State Fault Refusal :=
  if running s then .next (todIn bs s) else .next s

/-! ## Levels, frame ticks and outputs (10 R258, R274, R275) -/

/-- `DEV_QL` (10 R258). -/
def devQl (s : State) : Nat :=
  match s.time.dpll.st with
  | .acquire | .locked => match s.time.dpll.sel with | some c => effQl (refC s c) | none => s.time.sel.qlHold
  | .drydown | .steered => s.time.sel.qlHold
  | .freerun => s.time.sel.qlFree

/-- The lane whose transmitter sends 0b1111 (10 R258). -/
def dnuLane (s : State) : Option Nat :=
  match s.time.dpll.sel with
  | some c => if isLref c && (refC s c).dnuRet then (refC s c).lane else none
  | none => none

/-- The levels that the egress cycle which begins now carries (10 R258). -/
def timeTick (s : State) : State := { s with time := { s.time with txQl := devQl s, txDnu := dnuLane s } }

/-- `QL` that a lane's headers carry in the egress cycle in progress (10 R258). -/
def txLevel (s : State) (l : Nat) : Nat := if s.time.txDnu = some l then 0b1111 else s.time.txQl

/-- A phase record (10 Table 10.7): bytes 8 to 15, then bytes 0 to 7. -/
def phaseRecord (perr : Int) (s : State) : State :=
  let t := s.time
  let d := t.dpll
  let valid := match d.sel with | some c => decide (2 ≤ refState s c) | none => false
  let a := t.ringAddr + 16 * t.ringIdx
  let head := leBytes 4 s.clk.fc.toNat ++ [BitVec.ofNat 8 (dpllCode d.st + 8 * b2n valid), BitVec.ofNat 8 (d.sel.getD 0x1F)]
    ++ leBytes 2 t.ringSeq
  let s := wmPut a head (wmPut (a + 8) (leBytes 4 (wdI perr).toNat ++ [0, 0, 0, 0]) s)
  { s with time := { s.time with ringIdx := (t.ringIdx + 1) % t.ringLen, ringSeq := (t.ringSeq + 1) % 65536 } }

/-- The phase error is sampled (10 R274); with no candidate selected its value is free. -/
def phaseSample (raw : Int) (s : State) : State :=
  let (v, s) := if s.time.dpll.sel.isSome then (loopPhase s raw, s) else drawInt 0x10274 s
  let s := modDpll (fun d => { d with perr := v }) s
  if s.time.ringLen = 0 then s else phaseRecord v s

/-- A second boundary (10 R275, R277, R281). -/
def secondBoundary (s : State) : State :=
  let s := modTod (fun t => { t with
    frames := 0, sec := t.load.getD ((t.sec + 1) % 2 ^ 48), load := none, bndAt := some s.clk.now, sent := false }) s
  if s.time.tod.fix then todLoad s else s

/-- What a frame tick does to the Timing Subsystem (10 R274, R275). -/
def timeFrame (phase : Int) (s : State) : State :=
  let s := if s.clk.ticks = 1 then s else modTod (fun t => { t with count := t.count + 1 }) s
  let s := if s.clk.ticks = 1 then modTod (fun t => { t with bndAt := some s.clk.now, sent := false }) s
    else if s.time.tod.frames + 1 = 8000 then secondBoundary s
    else modTod (fun t => { t with frames := t.frames + 1 }) s
  if s.clk.fc.toNat % 8 = 0 then phaseSample phase s else s

/-- Default of an output (10 R280). -/
def outReset (_ : Nat) : TOut := { en := false, squelch := 1, mult := 1250 }

/-- Output `o`. -/
def tOut (s : State) (o : Nat) : TOut := tget outReset s.time.outs o

/-- An output is disabled or squelched (10 R275, R280). -/
def outLow (s : State) (o : Nat) : Bool :=
  let x := tOut s o
  !x.en || (x.squelch != 0 && s.time.dpll.st == .freerun) || (x.squelch == 2 && s.time.dpll.st == .drydown)

/-- Time left until the next second boundary, ps, in the last frame before it. -/
def ppsAhead (s : State) : Option Nat :=
  if s.time.tod.frames = 7999 then some (1000 * (8 * cycleNs - (s.clk.cyc * cycleNs + nsOf s.clk))) else none

/-- `PPS_OUT` is high (10 R275): from `PPS_ADV` before a second boundary, for `PPS_WIDTH`. -/
def ppsHigh (s : State) : Bool :=
  !outLow s 4 &&
  ((match s.time.tod.bndAt with
    | some t => decide (1000 * (s.clk.now - t) + s.time.ppsAdv < 1000000000 * s.time.ppsWidth)
    | none => false) ||
  (match ppsAhead s with | some x => decide (x ≤ s.time.ppsAdv) | none => false))

/-- The time message (10 Table 10.9). -/
def todMessage (s : State) : List Byte :=
  let t := s.time.tod
  let b := [0xC7, 0x3E, 0x01, BitVec.ofNat 8 (devQl s + 16 * b2n t.valid)] ++ beBytes 6 t.sec ++ beBytes 2 (wdI t.utc).toNat ++ [0, 0]
  b ++ beBytes 2 (hcrc b).toNat

/-- `REFOUT` output `o` is high: 8 kHz × `MULT`, a rising edge at every frame tick (10 R275). That it is high for the first half of its
period is DESIGN CHOICE (log 76). -/
def refoutHigh (s : State) (o : Nat) : Bool :=
  !outLow s o && decide (2 * ((s.clk.cyc * cycleNs + nsOf s.clk) * (tOut s o).mult % 125000) < 125000)

/-- A byte on the serial line (10 R276): one start bit, eight data bits least significant first, one stop bit. -/
def serialByte (b : Byte) : List Bool := false :: (List.range 8).map (fun i => b.getLsbD i) ++ [true]

/-- A message on the serial line. -/
def serialBits (bs : List Byte) : List Bool := bs.flatMap serialByte

/-- `TOD_OUT` is high (10 R275, R276, R280): disabled it is low; it idles high, also while squelched, and carries its message at
115,200 bit/s. -/
def todOutHigh (s : State) : Bool :=
  if !(tOut s 5).en then false
  else if outLow s 5 then true
  else match s.time.tod.outAt with
    | some t => (serialBits s.time.tod.out).getD ((s.clk.now - t) * 115200 / 1000000000) true
    | none => true

/-- TOD_OUT_MESSAGE (10 R275): 10 ms after each `PPS_OUT` edge; a squelched or disabled output sends nothing. -/
def execTodOutMessage (s : State) : Host.Outcome State Fault Refusal :=
  match s.time.tod.bndAt with
  | some t =>
    if running s && !s.time.tod.sent && decide (t + 10000000 ≤ s.clk.now + s.time.ppsAdv / 1000) then
      .next (modTod (fun x => if outLow s 5 then { x with sent := true } else
        { x with sent := true, out := todMessage s, outAt := some s.clk.now }) s)
    else .next s
  | none => .next s

/-! ## Commands (10 R279 to R281) -/

/-- Form of `TIME_REF_SET` (10 Table 10.14). -/
def formTimeRefSet (ws : List Word) : Bool :=
  let c := pf ws 0 4 0
  rsv0 ws 0 31 30 && rsv0 ws 1 31 30 && decide (c < 25) && inR (pf ws 0 10 7) 1 15 && (!pb ws 0 11 || decide (8 ≤ c))
    && [2, 4, 8, 11, 15].contains (pf ws 0 15 12)
    && (if c < 8 then inR (pf ws 1 29 0) 1 800000000 else wAt ws 1 == 0)
    && (!isLref c || (laneOk (pf ws 0 28 21) && decide (pf ws 2 31 0 ≤ 3906249)))

/-- The settings a `TIME_REF_SET` gives a candidate. -/
def refSettings (ws : List Word) (r : RefC) : RefC :=
  let c := pf ws 0 4 0
  { r with
    lockout := pb ws 0 6, prio := pf ws 0 10 7, recv := pb ws 0 11, qlFixed := pf ws 0 15 12
    evEn := BitVec.ofNat 5 (pf ws 0 20 16)
    lane := if isLref c then some (pf ws 0 28 21) else none
    dnuRet := pb ws 0 29, freq := pf ws 1 29 0
    adj := if isLref c then pf ws 2 31 0 else pfI ws 2 31 0
    qlRun := if pb ws 0 11 && r.recv && (!isLref c || r.lane = some (pf ws 0 28 21)) then r.qlRun else 0 }

/-- A candidate is enabled: it starts as FAILED, under the cause of its kind (10 R262; log 20). -/
def refEnable (c : Nat) (r : RefC) : RefC :=
  { r with
    en := true, st := 1, cause := if c < 8 then 1 else if c < 24 then 4 else 8, goodAt := none, offset := none, slope := 0
    means := [], upd := 0, hard := 0, drift := false, slew := false }

/-- `TIME_REF_SET` (10 R279). -/
def bodyTimeRefSet (p : Packet) (s : State) : Res :=
  let ws := p.params
  let c := pf ws 0 4 0
  let r := refC s c
  let n := refSettings ws r
  if isLref c && (List.range 25).any (fun k => k != c && (refC s k).lane == n.lane) then refuse .badParam s
  else if r.en && (n.lane ≠ r.lane || n.freq ≠ r.freq) then refuse .notInMode s
  else
    let on := pb ws 0 5
    let n' := if on then (if r.en then n else refEnable c n) else { n with en := false }
    let s := if n.lockout = r.lockout then s else modDpll (fun d => { d with selCmd := true }) s
    let s := setRef c n' s
    let s := if effQl n = effQl r then s else refEvent c 4 0x05 (wd (effQl n)) false s
    done (if on then (if isLref c then lrefOne s c else setCause c 4 (guardBad s c) s) else s)

/-- Form of `TIME_REF_GET` (10 Table 10.15). -/
def formTimeRefGet (ws : List Word) : Bool := rsv0 ws 0 31 6 && decide (pf ws 0 4 0 < 25)

/-- `TIME_REF_GET` (10 Table 10.15). -/
def bodyTimeRefGet (p : Packet) (s : State) : Res :=
  let c := pf p.params 0 4 0
  let r := refC s c
  let st := refState s c
  .reply .ok
    [wd (st + 4 * b2n (s.time.dpll.sel == some c) + 8 * effQl r + 128 * r.qlRx + 2048 * r.cause.toNat + 65536 * b2n r.drift
        + 2 ^ 17 * b2n r.slew + 2 ^ 18 * r.hist.toNat),
      wdI (r.offset.getD 0), wdI r.slope, wd (if st = 2 then (r.macAt - s.clk.now) / 1000000000 else 0), wdI (phaseStep s c)]
    (if pb p.params 0 5 then setRef c { r with hist := 0 } s else s)

/-- Form of `TIME_SEL_SET` (10 Table 10.8). -/
def formTimeSelSet (ws : List Word) : Bool :=
  rsv0 ws 0 31 29 && rsv0 ws 1 31 26 && rsv0 ws 2 31 24 && rsv0 ws 3 31 17 && decide (pf ws 0 1 0 ≠ 3)
    && decide (pf ws 0 6 2 < 25) && decide (pf ws 0 19 8 ≤ 3600) && inR (pf ws 1 9 0) 1 100 && inR (pf ws 1 17 10) 1 200
    && inR (pf ws 1 25 18) 1 200 && inR (pf ws 2 15 0) 1 10000 && inR (pf ws 2 23 16) 1 200 && inR (pf ws 3 3 0) 6 12
    && decide (pf ws 3 7 4 ≤ 9) && inR (pf ws 3 11 8) 9 15 && decide (pf ws 3 15 12 ≤ 6)

/-- The settings of a `TIME_SEL_SET`. -/
def selSettings (ws : List Word) : SelSet :=
  { mode := pf ws 0 1 0, ref := pf ws 0 6 2, revertive := pb ws 0 7, macer := pf ws 0 19 8, qlHold := pf ws 0 23 20,
    qlFree := pf ws 0 27 24, soft := pf ws 1 9 0, hard := pf ws 1 17 10, hardLane := pf ws 1 25 18, slew := pf ws 2 15 0,
    pull := pf ws 2 23 16, bwLane := pf ws 3 3 0, bwLow := pf ws 3 7 4, bwHigh := pf ws 3 11 8, bwTin := pf ws 3 15 12,
    host := pb ws 3 16 }

/-- `TIME_SEL_SET` (10 R279). -/
def bodyTimeSelSet (p : Packet) (s : State) : Res :=
  let k := selSettings p.params
  let ch := k.mode ≠ s.time.sel.mode || k.ref ≠ s.time.sel.ref
  let s := { s with time := { s.time with sel := k } }
  let s := if ch then modDpll (fun d => { d with selCmd := true }) s else s
  done (if pb p.params 0 28 then modelClear s else s)

/-- Bits [47:32] of a signed 48-bit word. -/
def wordHi (w : Int) : Word := wd ((w.fdiv 4294967296) % 65536).toNat

/-- `TIME_DPLL_GET` (10 Table 10.11). -/
def bodyTimeDpllGet (_ : Packet) (s : State) : Res :=
  let t := s.time
  let d := t.dpll
  .reply .ok
    [wd (dpllCode d.st + 8 * d.sel.getD 0x1F + 256 * d.active + 512 * b2n (modelValid s) + 1024 * b2n (ageingUsed t.model)
        + 2048 * b2n (tempUsed t.model) + 4096 * b2n (holdData s) + 8192 * devQl s + 2 ^ 17 * b2n d.swAt.isSome),
      wdI d.word, wordHi d.word, wdI d.perr, wd (lockedNs s / 1000000000), wd (theta s % 65536).toNat] s

/-- The word that `WRITE_FREQ` names (10 Table 10.16). -/
def steerWord (ws : List Word) : Int :=
  let n := pf ws 1 31 0 + 4294967296 * pf ws 2 15 0
  if n < 2 ^ 47 then (n : Int) else (n : Int) - 2 ^ 48

/-- Form of `TIME_DPLL_STEER` (10 Table 10.16, R273; 12 R473). -/
def formTimeDpllSteer (ws : List Word) : Bool :=
  rsv0 ws 0 31 3 &&
  match pf ws 0 2 0 with
  | 0 | 2 => wAt ws 1 == 0 && wAt ws 2 == 0
  | 1 => rsv0 ws 2 31 16 && inRI (steerWord ws) (-100000000000) 100000000000
  | 3 => rsv0 ws 1 31 16 && wAt ws 2 == 0
  | 4 => rsv0 ws 1 31 23 && rsv0 ws 2 31 13 && decide (pf ws 2 12 0 ≤ 4096) && areaOk (pf ws 1 22 0) (16 * pf ws 2 12 0) 16
  | _ => false

/-- The reply of `TIME_DPLL_STEER`: words 1 and 2 carry the word in force. -/
def steerReply (s : State) : Res := .reply .ok [0, wdI s.time.dpll.word, wordHi s.time.dpll.word] s

/-- CLOSE (10 R273, Table 10.5): the word is handed to the loop. -/
def steerClose (s : State) : State :=
  if s.time.dpll.sel.isSome then dpllEnter .acquire (loadLoop s.time.dpll.word s)
  else if holdData s then
    let (h, s) := holdMean s
    dpllEnter .drydown (modDpll (fun d => { d with hold := h }) s)
  else dpllEnter .freerun (modDpll (fun d => { d with word := 0 }) s)

/-- `TIME_DPLL_STEER` (10 R273, R274). -/
def bodyTimeDpllSteer (p : Packet) (s : State) : Res :=
  let ws := p.params
  match pf ws 0 2 0 with
  | 0 => steerReply (dpllEnter .steered s)
  | 1 => if s.time.dpll.st = .steered then steerReply (modDpll (fun d => { d with steer := some (steerWord ws) }) s) else refuse .notInMode s
  | 2 => if s.time.dpll.st = .steered then steerReply (steerClose (modDpll (fun d => { d with steer := none }) s)) else refuse .notInMode s
  | 3 => if s.time.sel.host then steerReply { s with time := { s.time with hostT := some (pfI ws 1 15 0, s.clk.now) } }
    else refuse .notInMode s
  | _ => steerReply { s with time := { s.time with ringAddr := pf ws 1 22 0, ringLen := pf ws 2 12 0, ringIdx := 0, ringSeq := 0 } }

/-- Form of `TIME_OUT_SET` (10 R280). -/
def formTimeOutSet (ws : List Word) : Bool :=
  let o := pf ws 0 2 0
  rsv0 ws 0 31 23 && decide (o ≤ 5) && decide (pf ws 0 5 4 ≠ 3) && (decide (4 ≤ o) || inR (pf ws 0 22 6) 1 100000)
    && (if o = 4 then rsv0 ws 1 31 30 && decide (pf ws 1 19 0 ≤ 1000000) && inR (pf ws 1 29 20) 1 500 else wAt ws 1 == 0)

/-- `TIME_OUT_SET` (10 R280). -/
def bodyTimeOutSet (p : Packet) (s : State) : Res :=
  let ws := p.params
  let o := pf ws 0 2 0
  let x : TOut := { en := pb ws 0 3, squelch := pf ws 0 5 4, mult := if o < 4 then pf ws 0 22 6 else 1250 }
  let t := { s.time with outs := tset outReset o x s.time.outs }
  let t := if o = 4 then { t with ppsAdv := pf ws 1 19 0, ppsWidth := pf ws 1 29 20 } else t
  done { s with time := t }

/-- Form of `TIME_TOD_SET` (10 R281). -/
def formTimeTodSet (ws : List Word) : Bool := rsv0 ws 0 31 2

/-- `TIME_TOD_SET` (10 R281). -/
def bodyTimeTodSet (p : Packet) (s : State) : Res :=
  let ws := p.params
  let s := modTod (fun t => { t with follow := pb ws 0 0 }) s
  let t := s.time.tod
  if pb ws 0 1 then
    .reply .ok [s.clk.fc + wd (8000 - t.frames)]
      (modTod (fun t => { t with load := some (pf ws 1 31 0 + 4294967296 * pf ws 2 15 0), utc := pfI ws 2 31 16, valid := true }) s)
  else
    .reply .ok [s.clk.fc - wd t.frames, wd t.sec, wd (t.sec / 4294967296 + 65536 * ((t.utc % 65536).toNat))] s

end Sys2Proof.Machine
end

