-- ==== Sys2Proof/Machine/Modes.lean ====
section
/-! DEFINITION. Device modes, boot, wake, reset, retention, fences and the save sequence (chapter 16; 15 R415). -/

namespace Sys2Proof.Machine

/-! ## Mode changes and fences -/

/-- The device changes mode (16 R425, R447): `SYS_MODE_CHANGE`, and `STATE_CHANGE` in `IRQ_STATUS`. -/
def changeMode (m : Mode) (s : State) : State :=
  let old := modeCode s.dev.mode
  let s := { s with dev := { s.dev with mode := m, prevMode := old, fcMode := s.clk.fc, cycMode := s.clk.cyc } }
  stateChange (raise 0x01 0x10 0 (wd (modeCode m + 16 * old)) false s)

/-- A change among COMMISSIONING, SERVICE, MAINTENANCE and CONTAINED reaches the lanes as an ingress setting (16 R426; 04 R108). -/
def changeRunning (m : Mode) (s : State) : State := lanesModeChange (changeMode m s)

/-- A failure fence: every cause but 1 (16 R443). -/
def failFence (s : State) (e : Nat) : Bool := decide (1 < fenceCause s e)

/-- A failure fence stands (16 R445). -/
def failFences (s : State) : Bool := (List.range 4).any (failFence s)

/-- The first fence leads to CONTAINED (16 R443). -/
def contain (s : State) : State :=
  match s.dev.mode with
  | .commissioning | .service | .maintenance => changeRunning .contained { s with dev := { s.dev with cameFrom := s.dev.mode } }
  | _ => s

/-- Die `e` is marked as fenced with a cause. -/
def setFence (e cause : Nat) (s : State) : State := { s with dev := { s.dev with fence := tset zeroN e cause s.dev.fence } }

/-- Fences die `e` with a cause (16 R443). -/
def fenceDie (e cause : Nat) (s : State) : State :=
  if fenceCause s e = cause || (cause = 1 && fenceCause s e ≠ 0) then s
  else contain (raise 0x01 0x11 e (wd (1 + 2 * cause)) false (fenceLanes e (setFence e cause s)))

/-- A tributary of a restarting die ceases to exist, with a clearance for each declared defect and its timers restarted (07 R200),
and takes its start-up state; its defect settings and history stand (16 R445). -/
def restartTa (s : State) (ta : Nat) : State :=
  let s := taRestart true ta (taRestart false ta s)
  let s := modIn ta (fun x => { inTaReset ta with df := x.df }) (modEg ta (fun x => { egTaReset ta with df := x.df }) s)
  let u := tget zeroN s.trib.unitC ta
  let s := returnUnits (curCycle s) 2 u (setRx ta none (setTx ta none s))
  { s with trib := { s.trib with unitC := tset zeroN ta 0 s.trib.unitC, delC := tset noVer ta [] s.trib.delC } }

/-- Every table entry that belongs to die `e`, `n` keys to a lane, goes back to its default. -/
def dropDie {α : Type} (e n : Nat) (t : Tbl α) : Tbl α := t.filter (fun x => decide (x.1 / n / 36 ≠ e))

/-- A released die restarts under the start-up state of chapters 3, 4, 5, 9 and 11 (16 R445). -/
def restartDie (e : Nat) (s : State) : State :=
  let tas := (s.trib.inTa.map (·.1) ++ s.trib.egTa.map (·.1) ++ s.trib.unitC.map (·.1) ++ s.keys.tx.map (·.1) ++ s.keys.rx.map (·.1)).filter
    (fun ta => ta / 1024 / 36 = e)
  let s := tas.foldl restartTa (restartLanes e s)
  { s with
    trib := { s.trib with inMap := dropDie e 1 s.trib.inMap, egMap := dropDie e 1 s.trib.egMap, raLane := dropDie e 1 s.trib.raLane }
    data := { s.data with cap := dropDie e 1 s.data.cap } }

/-- Releases a command fence: the die restarts under its start-up state (16 R445). -/
def releaseDie (e : Nat) (s : State) : State :=
  if fenceCause s e = 1 then
    restartDie e (raise 0x01 0x11 e 2 false (setFence e 0 s))
  else s

/-- When the last fence is released the device returns to the mode it came from (16 R445). -/
def leaveContained (s : State) : State :=
  if s.dev.mode = .contained && (List.range 4).all (fun e => fenceCause s e == 0) then changeRunning s.dev.cameFrom s else s

/-- `SYS_FENCE_SET` at its effective cycle: fences and releases together (16 R448). -/
def fenceApply (ws : List Word) (s : State) : State :=
  let s := (List.range 4).foldl (fun s e => if pb ws 0 e then fenceDie e 1 s else s) s
  leaveContained ((List.range 4).foldl (fun s e => if pb ws 0 (4 + e) then releaseDie e s else s) s)

/-- Failure fences take hold at the cycle boundary after the failure is found (16 R443). -/
def fencesDue (s : State) : State :=
  let l := s.dev.fenceDue
  l.foldl (fun s x => fenceDie x.1 x.2 s) { s with dev := { s.dev with fenceDue := [] } }

/-- Asks for a failure fence of each die at the next cycle boundary. -/
def askFence (dies : List Nat) (cause : Nat) (s : State) : State :=
  { s with dev := { s.dev with fenceDue := s.dev.fenceDue ++ dies.map (fun e => (e, cause)) } }

/-- `SYS_MODE_SET` at its effective cycle (16 R426). A failure fence that came first has made the mode CONTAINED, which the command
does not leave (16 Tables 16.2, 16.11). -/
def modeApply (ws : List Word) (s : State) : State :=
  match pf ws 0 3 0, s.dev.mode with
  | 4, .commissioning | 4, .maintenance => changeRunning .service s
  | 5, .service => changeRunning .maintenance s
  | _, _ => s

/-- The preconditions of Table 16.2 for SERVICE and MAINTENANCE, checked at commit (16 R426, R445). -/
def modeCommitOk (ws : List Word) (s : State) : Bool :=
  !failFences s &&
  match pf ws 0 3 0, committedMode s with
  | 4, .commissioning | 4, .maintenance => !loopGenActive s && !alignPending s
  | 5, .service => true
  | _, _ => false

/-- A die named for release is under a failure fence (16 R448). -/
def releasesFailed (ws : List Word) (s : State) : Bool := (List.range 4).any (fun e => pb ws 0 (4 + e) && failFence s e)

/-! ## Failures that fence (16 Table 16.8) -/

/-- EDGE_LINK_CLOCK_LOSS (16 R443, cause 2). -/
def execEdgeLinkClockLoss (e : Nat) (s : State) : Host.Outcome State Fault Refusal :=
  if e < 4 then .next (askFence [e] 2 { s with spare := { s.spare with clkLost := e :: s.spare.clkLost } })
  else .refused (.illFormed "EDGE_LINK_CLOCK_LOSS")

/-- EDGE_DIE_FAILURE (16 R443, cause 3). -/
def execEdgeDieFailure (e : Nat) (s : State) : Host.Outcome State Fault Refusal :=
  if e < 4 then .next (askFence [e] 3 s) else .refused (.illFormed "EDGE_DIE_FAILURE")

/-- All four dies. -/
def allDies : List Nat := [0, 1, 2, 3]

/-- The active tick generator fails (02 R65): the SVA selects the standby, which takes over at the next tick; when both have failed every
lane is fenced at once, since no further cycle boundary comes. With the roles frozen (15 R401) the spec says only that no failover
happens: DESIGN CHOICE, the dies are fenced as if both had failed, and ticks end (log 71). -/
def tickFailure (s : State) : State :=
  let t := s.tick
  if t.failed = 0 && s.cp.svaOk then { s with tick := { t with genNext := some (1 - t.gen), failed := 1 } }
  else if 2 ≤ t.failed then s
  else fencesDue (askFence allDies 4 { s with tick := { t with failed := 2 } })

/-- XO_FAIL (10 R284): every lane is fenced. -/
def execXoFail (s : State) : Host.Outcome State Fault Refusal :=
  if running s then .next (askFence allDies 6 (pulse 0x07 0x13 0 0 false s)) else .next s

/-- The active DPLL fails (10 R284): the SVA selects the standby; when both have failed, or the roles are frozen (15 R401),
every lane is fenced. -/
def dpllFailure (s : State) : State :=
  let d := s.time.dpll
  if d.failed = 0 && s.cp.svaOk then modDpll (fun d => { d with active := 1 - d.active, failed := 1 }) s
  else if 2 ≤ d.failed then s
  else askFence allDies 5 (modDpll (fun d => { d with failed := 2 }) s)

/-- DPLL_FAILURE (10 R284). -/
def execDpllFailure (s : State) : Host.Outcome State Fault Refusal := if running s then .next (dpllFailure s) else .next s

/-! ## Commands (16 R446 to R448) -/

/-- Form of `SYS_MODE_SET` (16 R446). -/
def formSysModeSet (ws : List Word) : Bool :=
  let m := pf ws 0 3 0
  rsv0 ws 0 31 4 && (m == 4 || m == 5 || m == 2 || m == 8)

/-- The reply of a mode change that completes now (16 R446). -/
def nowWords (s : State) : List Word := [s.clk.fc, wd s.clk.cyc]

/-- No other ring has a command in progress (16 R439). -/
def otherRingsIdle (r : Nat) (s : State) : Bool := [0, 1, 2, 3].all (fun q => q == r || (job s q).isNone)

/-- When HALT or RETENTION is reached after the reply: within 1 ms, a free value (16 R438, R439; log 2). -/
def haltIn (m : Mode) (s : State) : State :=
  let (v, s) := draw 0x1638 s
  { s with save := { s.save with haltAt := some (s.clk.now + v % 1000001, m) } }

/-- The retention record and flag (16 R439). -/
def retain (s : State) : State :=
  { s with dev := { s.dev with retFlag := true, retRecord := some (mkFlacon 0 s.clk.fc s.clk.cyc s) } }

/-- `SYS_MODE_SET` (16 R446). -/
def bodySysModeSet (p : Packet) (s : State) : Res :=
  let m := pf p.params 0 3 0
  if modeCode s.dev.mode = m then .reply .ok [s.dev.fcMode, wd s.dev.cycMode] s
  else if m = 8 then .reply .ok (nowWords s) (haltIn .halt s)
  else if failFences s then refuse .notInMode s
  else if m = 2 then
    if (s.dev.mode == .commissioning || s.dev.mode == .maintenance) && committedMode s == s.dev.mode && allSquelched s && !cipherBusy s && !onRequest s
        && otherRingsIdle p.ring s then
      .reply .ok (nowWords s) (haltIn .retention (retain s))
    else refuse .notInMode s
  else toPort s

/-- `SYS_MODE_GET` (16 Table 16.9). -/
def bodySysModeGet (_ : Packet) (s : State) : Res :=
  let d := s.dev
  let mask (f : Nat → Bool) : Nat := (List.range 4).foldl (fun v e => v + 2 ^ e * b2n (f e)) 0
  .reply .ok [wd (modeCode d.mode + 16 * d.prevMode + 256 * mask (fun e => fenceCause s e != 0) + 4096 * mask (failFence s)
      + 65536 * d.bootErr + 2 ^ 24 * b2n d.woke + 2 ^ 25 * b2n d.restored + 2 ^ 26 * d.bootSrc), d.fcMode, wd d.cycMode] s

/-- Form of `SYS_FENCE_SET` (16 R448). -/
def formSysFenceSet (ws : List Word) : Bool :=
  rsv0 ws 0 31 8 && (List.range 4).all (fun e => !(pb ws 0 e && pb ws 0 (4 + e)))

/-- `SYS_FENCE_SET` (16 R448). -/
def bodySysFenceSet (p : Packet) (s : State) : Res := if releasesFailed p.params s then refuse .notInMode s else toPort s

/-! ## HALT, RETENTION and the save sequence -/

/-- Entry to HALT (16 R438): `MODE` 8, `READY` 0. Commands in progress go no further, since only the host register page is left of the
control plane. -/
def enterHalt (s : State) : State :=
  let fromSave := s.dev.mode == .save
  let s := if fromSave then
      stateChange { s with dev := { s.dev with mode := .halt, prevMode := 7, fcMode := s.clk.fc, cycMode := s.clk.cyc } }
    else changeMode .halt s
  { s with dev := { s.dev with ready := false }, io := { s.io with irqHeld := none, jobs := [], late := [] } }

/-- Entry to RETENTION (16 R439): `MODE` 2, `READY` 0; a stripe that the march engine has borrowed goes back, and the glitch detectors
erase the keys (17 R457). -/
def enterRetention (s : State) : State :=
  let s := alarmErase 0b00010 (changeMode .retention (borrowDrop s))
  { s with dev := { s.dev with ready := false } }

/-- RETENTION is reached from the mode it was accepted in (16 Table 16.2). A fence that has come between leaves the device CONTAINED, from
which no RETENTION is entered: DESIGN CHOICE, the flag and the record are dropped (log 71). -/
def retentionDue (s : State) : State :=
  if s.dev.mode = .commissioning || s.dev.mode = .maintenance then enterRetention s
  else { s with dev := { s.dev with retFlag := false, retRecord := none } }

/-- HALT or RETENTION asked for by a command is reached (16 R438, R439). -/
def haltDue (s : State) : State :=
  match s.save.haltAt with
  | some (t, m) =>
    if t ≤ s.clk.now then
      let s := { s with save := { s.save with haltAt := none } }
      if m = .retention then retentionDue s else enterHalt s
    else s
  | none => s

/-- A trigger is acted on now (15 R415; 16 Table 16.11). -/
def triggerActs (pwr vin : Bool) (s : State) : Bool :=
  ((pwr && s.save.pfnEn) || (vin && s.save.vinEn)) && (running s || (s.dev.mode == .boot && s.dev.bootPhase == 2))

/-- The start of the save sequence (15 Table 15.8): mode SAVE, which squelches every transmitter and stops the update port;
outputs hold; a checkpoint in progress is abandoned, and every swap stops (15 R419, R423). -/
def saveTrigger (pwr vin : Bool) (s : State) : State :=
  let cause := b2n (pwr && s.save.pfnEn) + 2 * b2n (vin && s.save.vinEn)
  let pin := irqPin s
  let s := match findJob s (fun j => j.work = .saveTest 1) with
    | some j => endJob j.ring .aborted [] (tornWrite s)
    | none => s
  let s := { s with
    io := { s.io with irqHeld := some pin }
    save := { s.save with saving := some (s.clk.now, cause, s.save.armed, s.clk.fc, s.clk.cyc), haltAt := none }
    spare := { s.spare with swap := [], wait := [] } }
  changeMode .save s

/-- SAVE_TRIGGER (15 R415). -/
def execSaveTrigger (pwr vin : Bool) (s : State) : Host.Outcome State Fault Refusal :=
  if triggerActs pwr vin s then .next (saveTrigger pwr vin s) else .next s

/-- The flacon of a save: assembled by the active processor, else the staged copy with `CAUSE` bit 3, each with FC and cycle of the trigger
(15 R415, R417). -/
def saveImage (cause : Nat) (fc : Word) (cyc : Nat) (s : State) : Option Flacon :=
  if (activeCp s).isSome && !s.cp.none_ then some (mkFlacon cause fc cyc s)
  else s.save.stagedF.map (fun f => flaconSeal { f with cause := cause + 8, gen := nextGen s.save, fc, cyc })

/-! ## Reset, boot and wake -/

/-- The block map and all that belongs to it, which is retained (13 R364). -/
def connRetained (c : Conn) : Conn :=
  { Conn.reset with
    com := c.com, blocks := c.blocks, spares := c.spares, total := c.total, freed := c.freed, outBlk := c.outBlk, bad := c.bad, worn := c.worn }

/-- What `RESET_N` leaves (16 R430): every plane reset; the save store, the retention flag and its record, and with the flag the retained
stores and in RETENTION the mode, stand (13 R364; 16 R440, R441), and so do the causes of an alarm that have not ended (11 R305). -/
def resetAll (s : State) : State :=
  { State.reset with
    pending := s.pending
    wm := if s.dev.retFlag then s.wm else []
    clk := { Clk.reset with now := s.clk.now, free := s.clk.free }
    dev := { Dev.reset with
      ne := s.dev.ne, retFlag := s.dev.retFlag, retRecord := s.dev.retRecord, jtag := s.dev.jtag, railsOff := s.dev.railsOff
      mode := if s.dev.retFlag && s.dev.mode == .retention then .retention else .boot }
    save := { Save.reset with slot0 := s.save.slot0, slot1 := s.save.slot1 }
    keys := { Keys.reset with alarm := s.keys.alarm }
    mem := if s.dev.retFlag then { Mem.reset with repairs := s.mem.repairs } else Mem.reset
    conn := if s.dev.retFlag then connRetained s.conn else Conn.reset }

/-- The instruction that a loaded one selects (17 R466): the EXTEST instructions only while `RESET_N` is low. -/
def jtagSelect (low : Bool) (i : JtagInstr) : JtagInstr :=
  match i with
  | .extest => if low then .extest else .bypass
  | .extestPulse => if low then .extestPulse else .bypass
  | .extestTrain => if low then .extestTrain else .bypass
  | .bypass => .bypass
  | .idcode => .idcode
  | .samplePreload => .samplePreload

/-- RESET_ASSERT (16 R430): in SAVE it is acted on only once HALT has been reached; a checkpoint in progress is cut short. -/
def execResetAssert (s : State) : Host.Outcome State Fault Refusal :=
  if s.dev.mode = .save then .next { s with dev := { s.dev with resetDue := true } } else .next (resetAll (storeTorn s))

/-- SAVE_COMPLETE (15 Table 15.8): the flacon is written when armed, and the device halts. -/
def saveComplete (cause : Nat) (armed : Bool) (fc : Word) (cyc : Nat) (s : State) : State :=
  let s := if armed then (match saveImage cause fc cyc s with | some f => writeFlacon f s | none => s) else s
  let s := enterHalt { s with save := { s.save with saving := none } }
  if s.dev.resetDue then resetAll s else s

/-- SAVE_COMPLETE. -/
def execSaveComplete (s : State) : Host.Outcome State Fault Refusal :=
  match s.save.saving with
  | some (_, cause, armed, fc, cyc) => .next (saveComplete cause armed fc cyc s)
  | none => .next s

/-- BOOT ends in HALT with a code (16 R436). -/
def bootFail (code : Nat) (s : State) : State :=
  enterHalt { s with dev := { s.dev with bootErr := code, bootPhase := 0 } }

/-- The processor that runs the ROM (16 R436). -/
def romCp (i : BootInputs) : Nat := if i.cpAOk then 0 else if i.cpBOk then 1 else 2

/-- Roles at step 6 (15 R422; 16 R436): the ROM's processor is active; one that failed its self-test, or that the restored
state marks failed, is failed, and CP-S then takes its port. -/
def bootRoles (i : BootInputs) (failed : List Nat) (s : State) : State :=
  let act := romCp i
  let bad (c : Nat) := (c == 0 && !i.cpAOk) || (c == 1 && !i.cpBOk) || (c == 2 && !i.cpSOk) || failed.contains c
  let r (c : Nat) : Role := if c = act then .active else if bad c then .failed else if c = 2 then .cold else .restarting
  let s := setRole 2 (r 2) (setRole 1 (r 1) (setRole 0 (r 0) s))
  let s := if s.dev.activeCp = act then s else stateChange { s with dev := { s.dev with activeCp := act } }
  if role s 2 = .cold && (r 0 == .failed || r 1 == .failed) then
    let s := setRole 2 .restarting s
    { s with cp := { s.cp with m0 := if r 0 == .failed then 2 else 0, m1 := if r 0 != .failed then 2 else 1 } }
  else if act = 2 then { s with cp := { s.cp with m0 := 2 } }
  else s

/-- A spare stands in for a unit that is out of service. -/
def standIn (p u x : Nat) (s : State) : State :=
  takeOut p u { s with spare := { s.spare with used := s.spare.used ++ [(p, x, u)] } }

/-- A hard-failed unit stays out of service, with a spare in its place (15 R418). -/
def restoreUnit (p u : Nat) (s : State) : State :=
  let s := markHard p u s
  match pickSpare p u s with
  | some x =>
    let s := standIn p u x (reserve p s)
    if p = 7 then
      { s with conn := { s.conn with
          outBlk := tset noTime u (some (tget blockReset s.conn.blocks u)) s.conn.outBlk, blocks := tset blockReset u x s.conn.blocks } }
    else s
  | none => takeOut p u (if p = 7 then { s with conn := { s.conn with bad := u :: s.conn.bad } } else s)

/-- A logical block that the retained map holds as out of service stays so, with the block that serves in its place (13 R364; 16
R441). -/
def keepBlock (u : Nat) (s : State) : State :=
  if s.conn.bad.contains u then takeOut 7 u s else standIn 7 u (tget blockReset s.conn.blocks u) s

/-- The units of the restored state: in a wake the block map is as it was (16 R441). -/
def restoreUnits (l : List (Nat × Nat)) (s : State) : State :=
  if s.dev.woke then
    let us := ((s.conn.outBlk.filter (fun x => x.2.isSome)).map (·.1) ++ s.conn.bad).eraseDups
    us.foldl (fun s u => keepBlock u s) ((l.filter (fun x => x.1 = 7)).foldl (fun s x => markHard 7 x.2 s)
      ((l.filter (fun x => x.1 ≠ 7)).foldl (fun s x => restoreUnit x.1 x.2 s) s))
  else l.foldl (fun s x => restoreUnit x.1 x.2 s) s

/-- Step 7: the flacon or the retention record is restored (16 R435, R441; 15 R418). -/
def restore (f : Flacon) (s : State) : State :=
  let s := { s with
    dev := { s.dev with restored := true }
    cp := { s.cp with holdoff := f.holdoff }
    spare := { s.spare with dead := f.dead }
    time := { s.time with model := f.model, restored := true }
    health := { f.health with failed := false }
    mem := { s.mem with repairs := f.repairs }
    evt := { s.evt with log := (f.log ++ s.evt.log).drop (f.log.length + s.evt.log.length - 256) } }
  restoreUnits f.out s

/-- The newest valid flacon of a store that answers (15 R418). -/
def storeFlacon (i : BootInputs) (s : State) : Option Flacon := if i.storeOk then (newestFlacon s.save).map (·.2) else none

/-- What step 7 restores: the retention record in a wake, else the flacon, which must pass its second check (16 R435). -/
def restoreSource (i : BootInputs) (s : State) : Option Flacon :=
  if s.dev.woke then s.dev.retRecord else if i.flaconOk then storeFlacon i s else none

/-- Step 2: the repair map of the flacon is applied (16 R435). -/
def bootRepairs (i : BootInputs) (s : State) : State :=
  match if s.dev.woke then none else storeFlacon i s with
  | some f => { s with mem := { s.mem with repairs := f.repairs } }
  | none => s

/-- Steps 6 to 8 with an accepted image (16 Table 16.5); `BOOT_ERR` keeps the code of an image refused before it (R436). -/
def bootRun (i : BootInputs) (src version : Nat) (s : State) : State :=
  let s := { s with
    dev := { s.dev with bootSrc := src, fwVersion := wd (version % 2 ^ 24), bootPhase := if s.dev.woke then 3 else 2 }
    save := { s.save with storeOk := i.storeOk, storeKb := if i.storeOk then i.storeKb else 0 } }
  let s := if i.storeOk && (s.dev.woke || i.flaconOk || (storeFlacon i s).isNone) then s else raise 0x0D 0x03 0 i.storeId false s
  match restoreSource i s with
  | some f => bootRoles i f.failed (restore f s)
  | none => bootRoles i [] s

/-- A refused image is recorded in the fault history (16 R433). The rule gives the record no code or fields: they are free
values (log 2). -/
def imageRefused (s : State) : State :=
  let (c, s) := draw 0x164330 s
  let (i, s) := draw 0x164331 s
  let (v, s) := draw 0x164332 s
  let r : Rec := { cls := c % 256, code := c / 256 % 256, idx := i % 2 ^ 24, data := wd v, set := false, fc := 0, cyc := 0, ns := 0 }
  { s with evt := { s.evt with log := pushLast 256 s.evt.log r } }

/-- The refusals among the two images of the boot SPI device (16 R433). -/
def recordRefusals (i : BootInputs) (s : State) : State :=
  let s := if imageStatus i.imageA = 0 then s else imageRefused s
  if imageStatus i.imageB = 0 then s else imageRefused s

/-- Step 5 from the boot SPI device (16 R433): the accepted image, or the code of the refusal. -/
def spiImage (i : BootInputs) : Sum (Nat × Nat) Nat :=
  if !i.spiOk then .inr 0x10
  else
    let a := imageStatus i.imageA
    let b := imageStatus i.imageB
    if a = 0 && (b ≠ 0 || imageSvn i.imageB ≤ imageSvn i.imageA) then .inl (0, imageVersion i.imageA)
    else if b = 0 then .inl (1, imageVersion i.imageB)
    else .inr (imageWorse a b)

/-- The ROM polls for an image over PCIe (16 R434). -/
def bootPoll (code : Nat) (s : State) : State :=
  { s with dev := { s.dev with bootPhase := 1, bootErr := code, pollAt := s.clk.now } }

/-- Step 5 (16 Table 16.4, R433, R434). -/
def bootImage (i : BootInputs) (s : State) : State :=
  let s := if i.spiOk && i.bootMode.toNat % 2 = 0 then recordRefusals i s else s
  match i.bootMode.toNat % 4 with
  | 0 => match spiImage i with
    | .inl (src, v) => bootRun i src v s
    | .inr c => bootFail c s
  | 1 => bootPoll 0 s
  | 2 => match spiImage i with
    | .inl (src, v) => bootRun i src v s
    | .inr c => bootPoll c s
  | _ => bootFail 0x04 s

/-- BOOT's steps in order, or those of a wake (16 Table 16.5, R436, R441). -/
def bootSteps (i : BootInputs) (s : State) : State :=
  if !i.cpAOk && !i.cpBOk && !i.cpSOk then bootFail 0x20 s
  else if !i.fuseOk then bootFail 0x01 s
  else if !i.xoOk then bootFail 0x02 s
  else if !i.coreOk then bootFail 0x03 s
  else bootImage i ((List.range 4).foldl (fun s e => if i.badDies.getLsbD e then fenceDie e 7 s else s) (bootRepairs i s))

/-- A block of the Connection Table that the start-up march finds faulty: where a logical block lies in it, the next good spare takes its
place (06 R159, R186). -/
def blockRepair (x : Nat) (s : State) : State :=
  let u := Config.initialPlace x
  if 3456 ≤ u then s
  else match pickSpare 7 u s with
    | some y => let s := poolTake s; { s with conn := { s.conn with blocks := tset blockReset u y s.conn.blocks } }
    | none => { s with conn := { s.conn with bad := u :: s.conn.bad } }

/-- The Connection Table after the start-up march (06 R186): the pool holds the blocks left over. -/
def connMarch (bad : List Nat) (s : State) : State :=
  let bad := (bad.map (· % 4096)).eraseDups
  let s := bad.foldl (fun s x => blockRepair x s) { s with conn := { Conn.reset with worn := bad } }
  { s with conn := { s.conn with total := poolFree s } }

/-- `RESET_N` is released: BOOT begins, or a wake (16 R425, R427, R441, R442). The `EXTEST` instructions end with it (17 R466). -/
def start (wake : Bool) (i : BootInputs) (s : State) : State :=
  let m := if wake then Mode.retention else Mode.boot
  let s := { s with
    dev := { s.dev with
      mode := m, resetLow := false, bootInp := some i, bootAt := s.clk.now, woke := wake, prevMode := 0
      retFlag := wake && s.dev.retFlag, railsOff := false, powered := true, jtag := jtagSelect false s.dev.jtag }
    mem := if wake then s.mem else Mem.reset
    wm := if wake then s.wm else [] }
  let s := if wake then s else connMarch i.connBad s
  let (k, s) := draw 0x0B0300 s
  bootSteps i (raise 0x01 0x10 0 (wd (modeCode m)) false { s with keys := { s.keys with kek := k % 2 ^ 256 } })

/-- BOOT_START (16 R427): a set retention flag is discarded only when `BOOT_MODE[2]` = 1 (16 R442). -/
def execBootStart (i : BootInputs) (s : State) : Host.Outcome State Fault Refusal :=
  if s.dev.resetLow && (!s.dev.retFlag || i.bootMode.getLsbD 2) then .next (start false i s)
  else .next s

/-- WAKE_START (16 R441, R442): a record that fails its check makes it a boot. That such a start raises `SYS_MODE_CHANGE` for the
boot alone is a DESIGN CHOICE (log 70). -/
def execWakeStart (i : BootInputs) (s : State) : Host.Outcome State Fault Refusal :=
  if s.dev.resetLow && s.dev.retFlag then
    .next (start (!i.bootMode.getLsbD 2 && s.dev.retRecord.isSome && i.recOk) i s)
  else .next s

/-- The image offered through the descriptor at 0x006F_FFF0 (16 R434). -/
def pollImage (i : BootInputs) (s : State) : State :=
  let a := 0x6FFFF0
  let d := readDesc s a
  let s := { s with dev := { s.dev with pollAt := s.clk.now } }
  if !d.own then s
  else
    let img := wmGet s d.addr d.len
    let ok := !d.bad && d.last && (crc32c img).toNat == d.dcrc
    let code := if ok then imageStatus img else 0x11
    let s := handBack a s
    if code = 0 then bootRun i 2 (imageVersion img) s else { s with dev := { s.dev with bootErr := code } }

/-- BOOT_IMAGE_POLL (16 R434): every 10 µs. -/
def execBootImagePoll (s : State) : Host.Outcome State Fault Refusal :=
  match s.dev.bootInp with
  | some i => if s.dev.bootPhase = 1 && s.dev.pollAt + 10000 ≤ s.clk.now then .next (pollImage i s) else .next s
  | none => .next s

/-- Queues a restored record: it enters the queue, not the fault history again (15 R418). -/
def requeue (r : Rec) (s : State) : State :=
  let log := s.evt.log
  let s := enqueue r s
  { s with evt := { s.evt with log } }

/-- Every retained entry counts as in force from cycle 0 of FC 0 (16 R441). -/
def retainedConn (c : Conn) : Conn :=
  { c with com := c.com.map (fun (g, r) => (g, { r with eff := 0, effFc := 0, effCyc := 0, since := 0 })), old := [] }

/-- BOOT or the wake ends (16 R437; 12 R325, R348). The lanes take the alignment mode of the mode entered (04 Table 4.1), and every
key slot starts empty with `GEN` 0, whatever an alarm erased meanwhile (11 R315); the march engine and the Bus Matrix start anew but for the
repairs (13 R371), no synchroniser holds a record and the taps have been sampled (14 R390). -/
def bootEnd (s : State) : State :=
  let d := s.dev
  let fenced := (List.range 4).any (fun e => fenceCause s e != 0)
  let m := if d.woke then Mode.maintenance else if fenced then Mode.contained else Mode.commissioning
  let rec_ := match d.bootInp with | some i => if d.restored then restoreSource i s else none | none => none
  let s := { s with
    wm := []
    keys := { Keys.reset with kek := s.keys.kek, alarm := s.keys.alarm }
    io := { Io.reset with msix := s.io.msix, pcie := s.io.pcie }
    mem := { Mem.reset with repairs := s.mem.repairs, passAt := s.clk.now, bgAt := s.clk.now }
    evt := { s.evt with syncs := [] }
    conn := if d.woke then retainedConn s.conn else s.conn
    clk := { s.clk with tickAt := s.clk.now + 125000 - cycleNs }
    dev := { d with
      ready := true, bootPhase := 4, cameFrom := .commissioning, retFlag := false, retRecord := none, upAt := s.clk.now } }
  let s := changeRunning m s
  let ms := (s.clk.now - d.bootAt) / 1000000
  let s := raise 0x01 0x12 0 (wd (d.bootSrc + 4 * b2n d.woke + 65536 * (min ms 65535))) false (sampleTaps s)
  match rec_ with
  | some f => f.tail.foldl (fun s r => requeue r s) (raise 0x0D 0x02 f.tail.length (wd f.gen) false s)
  | none => s

/-- BOOT_COMPLETE (16 R437, R441). -/
def execBootComplete (s : State) : Host.Outcome State Fault Refusal :=
  if (s.dev.bootPhase = 2 || s.dev.bootPhase = 3) && (s.dev.mode == .boot || s.dev.mode == .retention) then .next (bootEnd s) else .next s

/-- `PERST_N` resets the PCIe endpoint and its Bus Matrix port (16 R430, R434; 13 R368). -/
def perst (s : State) : State :=
  let s := masterReset 2 { s with io := { s.io with msix := [], pcie := Io.reset.pcie } }
  if s.dev.bootPhase = 1 then { s with dev := { s.dev with pollAt := s.clk.now } } else s

/-- PERST_ASSERT. -/
def execPerstAssert (s : State) : Host.Outcome State Fault Refusal := .next (perst s)

/-- PCIE_LINK_DOWN (13 R368): the PCIe master is reset. -/
def execPcieLinkDown (s : State) : Host.Outcome State Fault Refusal := .next (masterReset 2 s)

/-- The device is OFF (16 R425, Table 16.2): nothing holds but the save store, and the retention flag while `VDD_RET` stands. -/
def powerOff (keep : Bool) (s : State) : State :=
  let s := storeTorn s
  let s := resetAll (if keep then s else { s with dev := { s.dev with retFlag := false, retRecord := none } })
  { s with dev := { s.dev with powered := false, jtag := Dev.reset.jtag }, keys := Keys.reset }

/-- The data rails go in RETENTION (16 R440): the mode, the flag and the retained stores stand. -/
def dataRailsOff (s : State) : State :=
  let s := resetAll s
  { s with dev := { s.dev with railsOff := true, jtag := Dev.reset.jtag }, keys := Keys.reset }

/-- RAIL_LOSS (16 R425, R427, R440, Table 16.11): in RETENTION the data rails may go; `VDD_RET` takes the retention flag with it, and holds
the device in reset until BOOT. A save runs to HALT from the hold-up supply whatever rail falls (15 R415; 17 R458; DEDUCED, log 71). -/
def railLoss (r : Rail) (s : State) : State :=
  match s.dev.mode, r with
  | .retention, .vddCore | .retention, .vddEdge | .retention, .vddaLn | .retention, .vddhLn => dataRailsOff s
  | .save, _ => s
  | _, .vddRet => powerOff false s
  | _, _ => powerOff true s

/-- RAIL_LOSS. -/
def execRailLoss (r : Rail) (s : State) : Host.Outcome State Fault Refusal := .next (railLoss r s)

/-! ## Field I/O Guard and JTAG -/

/-- One measurement of the Field I/O Guard (15 R408, R409, Table 15.7): faults, their consequences, the `GUARD` cause of
reference candidates, and the alarm erase of a cut or forced tamper loop. -/
def guardMeasure (ms : List GuardMeas) (s : State) : State :=
  let was := tamperFault s
  let s := guardWatch (ms.foldl (fun s m => guardOne m s) s)
  let is := tamperFault s
  if is && !was then alarmErase 0b00001 s
  else if was && (guardPin s 30).kind = 0 then { s with keys := { s.keys with alarm := s.keys.alarm &&& 0b11110 } }
  else s

/-- A measurement that the guard can make (15 Tables 15.7, 15.18). -/
def guardOk (m : GuardMeas) : Bool := decide (m.pin < 32) && decide (m.kind ≤ 5) && (decide (m.kind ≠ 4) || m.pin == 31)

/-- The guard measures: powered, out of reset, and not in RETENTION, the one mode that 16 R440 excepts. That it measures in BOOT and HALT
too is DEDUCED from that (log 71). -/
def guardRuns (d : Dev) : Bool := d.powered && !d.resetLow && d.mode != .retention

/-- GUARD_MEASUREMENT (15 R408): every 1 ms, in a save too (15 R423). -/
def execGuardMeasurement (ms : List GuardMeas) (s : State) : Host.Outcome State Fault Refusal :=
  if ms.all guardOk then (if guardRuns s.dev then .next (guardMeasure ms s) else .next s) else .refused (.illFormed "GUARD_MEASUREMENT")

/-- JTAG_INSTRUCTION (17 R466): it reaches no memory, register or key. -/
def execJtagInstruction (i : JtagInstr) (s : State) : Host.Outcome State Fault Refusal :=
  .next { s with dev := { s.dev with jtag := jtagSelect (s.dev.resetLow || s.dev.resetDue) i } }

end Sys2Proof.Machine
end

