-- ==== Sys2Proof/Machine/Command.lean ====
section
/-! DEFINITION. Command packets: the checks of R334, authenticators, the opcode table, and one meaning per command (chapter 12). -/

namespace Sys2Proof.Machine

/-- One opcode of Table 12.10: its parameter word counts, whether it never needs an authenticator, the form of its parameters
and its effect. -/
structure Op where
  cls   : Nat
  act   : Nat
  words : List Nat
  get   : Bool
  form  : State → List Word → Bool
  body  : Packet → State → Res

/-! ## Commands that other chapters check together -/

/-- What follows from a change of lane alignment and conditions: members lose their multiframe (05 R143), reference candidates gain
or lose the LANE cause (10 R259). -/
def laneWatch (s0 s : State) : State := lrefWatch (alignHook s0 s)

/-- After a command that can change a lane's alignment or conditions. -/
def laneHooks (s0 : State) : Res → Res
  | .reply st ws s => .reply st ws (laneWatch s0 s)
  | r => r

/-- `LANE_RX_SET` and `LANE_LOOP_SET` with what follows from lost alignment (05 R143; 10 R259). -/
def bodyRxSetWatched (p : Packet) (s : State) : Res := laneHooks s (bodyLaneRxSet p s)
def bodyLoopSetWatched (p : Packet) (s : State) : Res := laneHooks s (bodyLaneLoopSet p s)

/-- A Lane Engine swap that has just begun: its lane's timers hold (07 R195), its seal frames in progress end (11 Table 11.5). -/
def engineSwap (s0 s : State) : State :=
  match swapOf s0 0, swapOf s 0 with
  | none, some w => sealSwap w.unit (swapBegun s0 s)
  | _, _ => s

/-- `TRIB_DEFECT_SET`: a `DEG` that it clears is a request no longer (08 R213). -/
def bodyTribDefectSetRules (p : Packet) (s : State) : Res :=
  match bodyTribDefectSet p s with
  | .reply st ws s1 => .reply st ws (protSync s1)
  | r => r

/-- `HEALTH_SPARE_SWAP`, with what the beginning of a Lane Engine swap does. -/
def bodySpareSwapHeld (p : Packet) (s : State) : Res :=
  match bodyHealthSpareSwap p s with
  | .wait w i t s1 => .wait w i t (engineSwap s s1)
  | r => r

/-- `CONN_SET` naming a destination that a protection group owns is refused (08 R226). -/
def bodyConnSetOwned (p : Packet) (s : State) : Res :=
  if (List.range (pf p.params 0 2 0)).any (fun r => protOwns s (pf p.params (1 + 2 * r) 23 0)) then refuse .notInMode s
  else bodyConnSet p s

/-- Destinations that protection groups own (08 R226). -/
def protGas (s : State) : List Nat :=
  (s.prot.filter (fun x => x.2.en)).flatMap (fun x =>
    (([x.2.eta] ++ if x.2.typ = 1 then [x.2.xta] else []).flatMap (fun ta => (grainsNow s true ta).map (gaIn ta))))

/-- An image covers such a destination. -/
def imageOwned (img : List Byte) (s : State) : Bool :=
  let rs := imageRecs img
  (protGas s).any (fun g => rs.any (fun x => decide (x % 2 ^ 24 ≤ g) && decide (g < x % 2 ^ 24 + recRun x)))

/-- `CONN_LOAD` reaches its descriptor (06 R182; 08 R226). -/
def bodyConnLoad (p : Packet) (s : State) : Res :=
  let a := pf p.params 0 22 0
  match takeBuffer (fun _ => true) a s with
  | none => .wait (.desc a) [] [] s
  | some (some st, _, s) => refuse st s
  | some (none, img, s) =>
    if imageOk img img.length && imageOwned img s then refuse .notInMode s else connLoadTaken p.params img s

/-- `TRIB_SET` that would change what a protection group owns is refused (08 R226). -/
def bodyTribSetOwned (p : Packet) (s : State) : Res := if protTribSet s p.params then refuse .notInMode s else bodyTribSet p s

/-- `CIPH_OP` at its decode (11 R306, R309; 12 R329). -/
def bodyCiphOp (p : Packet) (s : State) : Res :=
  match ciphOpCheck p.ring p.params s with
  | some st => refuse st s
  | none => .queued (queueOp {
      ring := p.ring, cls := 0x09, act := 0x14, tag := p.tag, abortable := p.abortable, authed := p.auth.isSome, params := p.params
      image := [], taken := [], accepted := 0, work := .port } s)

/-! ## Commands of chapter 12 -/

/-- `SYS_NOP` (12 R345): FC, cycle number and nanosecond offset at decode. -/
def bodySysNop (_ : Packet) (s : State) : Res := .reply .ok [s.clk.fc, wd (s.clk.cyc + 8 * nsOf s.clk)] s

/-- `EVT_MARK` (12 R346): the record is queued, then the reply written. -/
def bodyEvtMark (p : Packet) (s : State) : Res := done (raise 0x0C 0x02 0 (wAt p.params 0) false s)

/-- Form of `SYS_AUTH_SET`. -/
def formSysAuthSet (ws : List Word) : Bool := rsv0 ws 0 31 7

/-- `SYS_AUTH_SET` (12 R338, R345). -/
def bodySysAuthSet (p : Packet) (s : State) : Res :=
  done { s with io := { s.io with require := pb p.params 0 0, authSlot := some (pf p.params 0 6 1) } }

/-- Opcodes marked A (12 Table 12.10). -/
def abortMarked (cls act : Nat) : Bool :=
  [(0x05, 0x10), (0x05, 0x12), (0x09, 0x14), (0x0A, 0x10), (0x0B, 0x12), (0x0E, 0x12)].contains (cls, act)

/-- An on-request memory test ends at its stripe boundary (13 R369): the stripe is returned. How far a destructive test has
come is a free value (log 2). -/
def memTestAbort (j : Job) (first dn rep unrep skip : Nat) (s : State) : State :=
  let s := fenceDone (borrowDrop (masterReset 5 { s with mem := { s.mem with testing := none } }))
  if pf j.params 0 5 4 = 1 then
    let (v, s) := draw 0x1369 s
    let n := v % (pf j.params 2 16 0 + 1)
    let s := if pf j.params 0 3 0 = 0 then
        { s with wm := s.wm.filter (fun c => !(decide (first ≤ c.1 / 4096) && decide (c.1 / 4096 < first + n))) }
      else s
    let (c, s) := draw 0x1370 s
    endJob j.ring .aborted [wd n, wd c, 0] s
  else endJob j.ring .aborted [wd dn, wd (rep % 65536 + 65536 * (unrep % 65536)), wd skip] s

/-- A command in progress on a ring is aborted, or the abort waits for its reply (12 R337, Table 12.8). The abort of a command
of the bulk DMA, `CONN_LOAD` and `CNT_DUMP`, resets its master M3, that of a test the march engine's, M5 (13 R368). -/
def abortJob (j : Job) (s : State) : Res :=
  let yes (s : State) : Res := done s
  let r := j.ring
  match j.work with
  | .desc _ => yes (endJob r .aborted [] (masterReset 3 s))
  | .dumpWait 0 _ => yes (endJob r .aborted [] (masterReset 3 s))
  | w =>
    if !(j.abortable && abortMarked j.cls j.act) then .wait (.abort false r) [] [] s
    else match w with
      | .conn n f l g => yes (endJob r .aborted (connWords j n f l g false 0) (masterReset 3 s))
      | .dumpWait n _ => yes (endJob r .aborted [wd n] (masterReset 3 s))
      | .dump n a _ fill => yes (endJob r .aborted [wd n] (setJob r (some { j with taken := [] }) (handBackOut a fill (masterReset 3 s))))
      | .eye l => yes (endJob r .aborted [] (eyeAbort l j s))
      | .memTest _ _ dn rep unrep skip => yes (memTestAbort j (pf j.params 1 16 0) dn rep unrep skip s)
      | _ => .wait (.abort false r) [] [] s

/-- A cipher operation is aborted (11 R312; 12 Table 12.8). -/
def abortOp (o : CceOp) (s : State) : Res :=
  if o.st = 0 || !o.begun || o.job.abortable then done (endOp .aborted [] o s) else .wait (.abort true o.id) [] [] s

/-- Form of `SYS_ABORT`. -/
def formSysAbort (ws : List Word) : Bool := rsv0 ws 0 31 2

/-- `SYS_ABORT` (12 R337): the earliest outstanding command with the tag, on ring 3 the queued operations first. -/
def bodySysAbort (p : Packet) (s : State) : Res :=
  let r := pf p.params 0 1 0
  let t := wAt p.params 1
  let o := if r = 3 then s.keys.ops.find? (fun o => o.job.tag == t) else none
  match o with
  | some o => abortOp o s
  | none =>
    match (job s r).filter (fun j => j.tag == t) with
    | some j => abortJob j s
    | none => if (tget noTags s.io.done r).contains t then refuse .alreadyDone s else refuse .noSuchTag s

/-! ## The opcode table -/

/-- `SYS_NOP` (R345). -/
def opSysNop : Op :=
  { cls := 0x01, act := 0x00, words := [0], get := true, form := fun _ _ => true, body := bodySysNop }

/-- `SYS_ABORT` (R337). -/
def opSysAbort : Op :=
  { cls := 0x01, act := 0x10, words := [2], get := false, form := fun _ ws => formSysAbort ws, body := bodySysAbort }

/-- `SYS_MODE_SET` (R446). -/
def opSysModeSet : Op :=
  { cls := 0x01, act := 0x20, words := [1], get := false, form := fun _ ws => formSysModeSet ws, body := bodySysModeSet }

/-- `SYS_MODE_GET` (R447). -/
def opSysModeGet : Op :=
  { cls := 0x01, act := 0x21, words := [0], get := true, form := fun _ _ => true, body := bodySysModeGet }

/-- `SYS_FENCE_SET` (R448). -/
def opSysFenceSet : Op :=
  { cls := 0x01, act := 0x22, words := [1], get := false, form := fun _ ws => formSysFenceSet ws, body := bodySysFenceSet }

/-- `SYS_AUTH_SET` (R346). -/
def opSysAuthSet : Op :=
  { cls := 0x01, act := 0x30, words := [1], get := false, form := fun _ ws => formSysAuthSet ws, body := bodySysAuthSet }

/-- `SYS_IO_SET` (R410). -/
def opSysIoSet : Op :=
  { cls := 0x01, act := 0x40, words := [3], get := false, form := fun _ ws => formSysIoSet ws, body := bodySysIoSet }

/-- `SYS_IO_GET` (R411). -/
def opSysIoGet : Op :=
  { cls := 0x01, act := 0x41, words := [1], get := true, form := fun _ ws => formSysIoGet ws, body := bodySysIoGet }

/-- `LANE_FRAME_SET` (R93). -/
def opLaneFrameSet : Op :=
  { cls := 0x02, act := 0x10, words := [2], get := false, form := fun _ ws => formLaneFrameSet ws, body := bodyLaneFrameSet }

/-- `LANE_FRAME_GET` (R93). -/
def opLaneFrameGet : Op :=
  { cls := 0x02, act := 0x11, words := [1], get := true, form := fun _ ws => formLaneFrameGet ws, body := bodyLaneFrameGet }

/-- `LANE_SEED_SET` (R94). -/
def opLaneSeedSet : Op :=
  { cls := 0x02, act := 0x12, words := [2], get := false, form := fun _ ws => formLaneSeedSet ws, body := bodyLaneSeedSet }

/-- `LANE_MSG_SEND` (R95). -/
def opLaneMsgSend : Op :=
  { cls := 0x02, act := 0x13, words := [2], get := false, form := fun _ ws => formLaneMsgSend ws, body := bodyLaneMsgSend }

/-- `LANE_MSG_READ` (R96). -/
def opLaneMsgRead : Op :=
  { cls := 0x02, act := 0x14, words := [2], get := false, form := fun _ ws => formLaneMsgRead ws, body := bodyLaneMsgRead }

/-- `LANE_ALIGN_SET` (R115). -/
def opLaneAlignSet : Op :=
  { cls := 0x02, act := 0x20, words := [2], get := false, form := fun _ ws => formLaneAlignSet ws, body := bodyLaneAlignSet }

/-- `LANE_ALIGN_GET` (R116). -/
def opLaneAlignGet : Op :=
  { cls := 0x02, act := 0x21, words := [1], get := true, form := fun _ ws => formLaneAlignGet ws, body := bodyLaneAlignGet }

/-- `LANE_DEFECT_SET` (R206). -/
def opLaneDefectSet : Op :=
  { cls := 0x02, act := 0x30, words := [2], get := false, form := fun _ ws => formLaneDefectSet ws, body := bodyLaneDefectSet }

/-- `LANE_DEFECT_GET` (R206). -/
def opLaneDefectGet : Op :=
  { cls := 0x02, act := 0x31, words := [1], get := true, form := fun _ ws => formLaneDefectGet ws, body := bodyLaneDefectGet }

/-- `LANE_TX_SET` (R239). -/
def opLaneTxSet : Op :=
  { cls := 0x02, act := 0x40, words := [3], get := false, form := fun _ ws => formLaneTxSet ws, body := bodyLaneTxSet }

/-- `LANE_RX_SET` (R250). -/
def opLaneRxSet : Op :=
  { cls := 0x02, act := 0x41, words := [1], get := false, form := fun _ ws => formLaneRxSet ws, body := bodyRxSetWatched }

/-- `LANE_SERDES_GET` (R250). -/
def opLaneSerdesGet : Op :=
  { cls := 0x02, act := 0x42, words := [2], get := true, form := fun _ ws => formLaneSerdesGet ws, body := bodyLaneSerdesGet }

/-- `LANE_LOOP_SET` (R241). -/
def opLaneLoopSet : Op :=
  { cls := 0x02, act := 0x43, words := [1], get := false, form := fun _ ws => formLaneLoopSet ws, body := bodyLoopSetWatched }

/-- `TRIB_MAP_LOAD` (R122). -/
def opTribMapLoad : Op :=
  { cls := 0x03, act := 0x10, words := [2], get := false, form := fun _ ws => formTribMapLoad ws, body := bodyTribMapLoad }

/-- `TRIB_SET` (R150). -/
def opTribSet : Op :=
  { cls := 0x03, act := 0x11, words := [3], get := false, form := fun _ ws => formTribSet ws, body := bodyTribSetOwned }

/-- `TRIB_GET` (R150). -/
def opTribGet : Op :=
  { cls := 0x03, act := 0x12, words := [1], get := true, form := fun _ ws => formTaGet ws, body := bodyTribGet }

/-- `TRIB_TIMING_SET` (R126). -/
def opTribTimingSet : Op :=
  { cls := 0x03, act := 0x13, words := [1], get := false, form := fun _ ws => formTribTimingSet ws, body := bodyTribTimingSet }

/-- `TRIB_DEFECT_PROFILE_SET` (R206). -/
def opTribDefectProfileSet : Op :=
  { cls := 0x03, act := 0x20, words := [2], get := false, form := fun _ ws => formTribDefectProfileSet ws, body := bodyTribDefectProfileSet }

/-- `TRIB_DEFECT_SET` (R206). -/
def opTribDefectSet : Op :=
  { cls := 0x03, act := 0x21, words := [2], get := false, form := fun _ ws => formTribDefectSet ws, body := bodyTribDefectSetRules }

/-- `TRIB_DEFECT_GET` (R206). -/
def opTribDefectGet : Op :=
  { cls := 0x03, act := 0x22, words := [1], get := true, form := fun _ ws => formTaGet ws, body := bodyTribDefectGet }

/-- `ACCORD_SET` (R152). -/
def opAccordSet : Op :=
  { cls := 0x04, act := 0x10, words := [3], get := false, form := fun _ ws => formAccordSet ws, body := bodyAccordSet }

/-- `ACCORD_MEMBER_SET` (R153). -/
def opAccordMemberSet : Op :=
  { cls := 0x04, act := 0x11, words := [2], get := false, form := fun _ ws => formAccordMemberSet ws, body := bodyAccordMemberSet }

/-- `ACCORD_GET` (R150). -/
def opAccordGet : Op :=
  { cls := 0x04, act := 0x12, words := [2], get := true, form := fun _ ws => formAccordGet ws, body := bodyAccordGet }

/-- `ACCORD_STORE_GET` (R154). -/
def opAccordStoreGet : Op :=
  { cls := 0x04, act := 0x13, words := [0], get := true, form := fun _ _ => true, body := bodyAccordStoreGet }

/-- `CONN_SET` (R181). -/
def opConnSet : Op :=
  { cls := 0x05, act := 0x10, words := [3, 5, 7, 9, 11], get := false, form := fun _ ws => formConnSet ws, body := bodyConnSetOwned }

/-- `CONN_GET` (R180). -/
def opConnGet : Op :=
  { cls := 0x05, act := 0x11, words := [1], get := true, form := fun _ ws => formConnGet ws, body := bodyConnGet }

/-- `CONN_LOAD` (R182). -/
def opConnLoad : Op :=
  { cls := 0x05, act := 0x12, words := [2], get := false, form := fun _ ws => formConnLoad ws, body := bodyConnLoad }

/-- `CONN_DELAY` (R183). -/
def opConnDelay : Op :=
  { cls := 0x05, act := 0x14, words := [1], get := false, form := fun _ ws => formConnDelay ws, body := bodyConnDelay }

/-- `CONN_EQ_SET` (R184). -/
def opConnEqSet : Op :=
  { cls := 0x05, act := 0x15, words := [3], get := false, form := fun _ ws => formConnEqSet ws, body := bodyConnEqSet }

/-- `CONN_EQ_GET` (R180). -/
def opConnEqGet : Op :=
  { cls := 0x05, act := 0x16, words := [1], get := true, form := fun _ ws => formConnEqGet ws, body := bodyConnEqGet }

/-- `CONN_OCCUPANCY_GET` (R185). -/
def opConnOccupancyGet : Op :=
  { cls := 0x05, act := 0x17, words := [1], get := true, form := fun _ ws => formConnOccupancyGet ws, body := bodyConnOccupancyGet }

/-- `PROT_GROUP_SET` (R228). -/
def opProtGroupSet : Op :=
  { cls := 0x06, act := 0x10, words := [8], get := false, form := fun _ ws => formProtGroupSet ws, body := bodyProtGroupSet }

/-- `PROT_CMD` (R229). -/
def opProtCmd : Op :=
  { cls := 0x06, act := 0x11, words := [1], get := false, form := fun _ ws => formProtCmd ws, body := bodyProtCmd }

/-- `PROT_GET` (R230). -/
def opProtGet : Op :=
  { cls := 0x06, act := 0x12, words := [1], get := true, form := fun _ ws => formProtGet ws, body := bodyProtGet }

/-- `TIME_REF_SET` (R279). -/
def opTimeRefSet : Op :=
  { cls := 0x07, act := 0x10, words := [3], get := false, form := fun _ ws => formTimeRefSet ws, body := bodyTimeRefSet }

/-- `TIME_REF_GET` (R279). -/
def opTimeRefGet : Op :=
  { cls := 0x07, act := 0x11, words := [1], get := true, form := fun _ ws => formTimeRefGet ws, body := bodyTimeRefGet }

/-- `TIME_SEL_SET` (R279). -/
def opTimeSelSet : Op :=
  { cls := 0x07, act := 0x12, words := [4], get := false, form := fun _ ws => formTimeSelSet ws, body := bodyTimeSelSet }

/-- `TIME_DPLL_GET` (R279). -/
def opTimeDpllGet : Op :=
  { cls := 0x07, act := 0x13, words := [0], get := true, form := fun _ _ => true, body := bodyTimeDpllGet }

/-- `TIME_DPLL_STEER` (R273). -/
def opTimeDpllSteer : Op :=
  { cls := 0x07, act := 0x14, words := [3], get := false, form := fun _ ws => formTimeDpllSteer ws, body := bodyTimeDpllSteer }

/-- `TIME_OUT_SET` (R280). -/
def opTimeOutSet : Op :=
  { cls := 0x07, act := 0x15, words := [2], get := false, form := fun _ ws => formTimeOutSet ws, body := bodyTimeOutSet }

/-- `TIME_TOD_SET` (R281). -/
def opTimeTodSet : Op :=
  { cls := 0x07, act := 0x16, words := [3], get := false, form := fun _ ws => formTimeTodSet ws, body := bodyTimeTodSet }

/-- `TIME_TICK_SET` (R62). -/
def opTimeTickSet : Op :=
  { cls := 0x07, act := 0x30, words := [4], get := false, form := fun _ ws => formTimeTickSet ws, body := bodyTimeTickSet }

/-- `TIME_TICK_GET` (R63). -/
def opTimeTickGet : Op :=
  { cls := 0x07, act := 0x31, words := [1], get := true, form := fun _ ws => formTimeTickGet ws, body := bodyTimeTickGet }

/-- `SEAL_TX_SET` (R313). -/
def opSealTxSet : Op :=
  { cls := 0x08, act := 0x10, words := [5], get := false, form := fun _ ws => formSealTxSet ws, body := bodySealTxSet }

/-- `SEAL_RX_SET` (R313). -/
def opSealRxSet : Op :=
  { cls := 0x08, act := 0x11, words := [5], get := false, form := fun _ ws => formSealRxSet ws, body := bodySealRxSet }

/-- `SEAL_FLIP` (R298). -/
def opSealFlip : Op :=
  { cls := 0x08, act := 0x12, words := [2], get := false, form := fun _ ws => formSealFlip ws, body := bodySealFlip }

/-- `SEAL_GET` (R313). -/
def opSealGet : Op :=
  { cls := 0x08, act := 0x13, words := [1], get := true, form := fun _ ws => formTaGet ws, body := bodySealGet }

/-- `CIPH_KEY_LOAD` (R301). -/
def opCiphKeyLoad : Op :=
  { cls := 0x09, act := 0x10, words := [4], get := false, form := fun _ ws => formCiphKeyLoad ws, body := bodyCiphKeyLoad }

/-- `CIPH_KEY_ERASE` (R304). -/
def opCiphKeyErase : Op :=
  { cls := 0x09, act := 0x11, words := [1], get := false, form := fun _ ws => formCiphKeyErase ws, body := bodyCiphKeyErase }

/-- `CIPH_KEY_GET` (R313). -/
def opCiphKeyGet : Op :=
  { cls := 0x09, act := 0x12, words := [1], get := true, form := fun _ ws => formCiphKeyGet ws, body := bodyCiphKeyGet }

/-- `CIPH_CHAN_SET` (R313). -/
def opCiphChanSet : Op :=
  { cls := 0x09, act := 0x13, words := [3], get := false, form := fun _ ws => formCiphChanSet ws, body := bodyCiphChanSet }

/-- `CIPH_OP` (R306). -/
def opCiphOp : Op :=
  { cls := 0x09, act := 0x14, words := [8], get := false, form := formCiphOp, body := bodyCiphOp }

/-- `MEM_TEST_START` (R369). -/
def opMemTestStart : Op :=
  { cls := 0x0A, act := 0x10, words := [3], get := false, form := fun _ ws => formMemTestStart ws, body := bodyMemTestStart }

/-- `MEM_TEST_GET` (R369). -/
def opMemTestGet : Op :=
  { cls := 0x0A, act := 0x11, words := [1], get := true, form := fun _ ws => formMemTestGet ws, body := bodyMemTestGet }

/-- `MEM_FENCE_SET` (R362). -/
def opMemFenceSet : Op :=
  { cls := 0x0A, act := 0x12, words := [3], get := false, form := fun _ ws => formMemFenceSet ws, body := bodyMemFenceSet }

/-- `CNT_SELECT` (R386). -/
def opCntSelect : Op :=
  { cls := 0x0B, act := 0x10, words := [2], get := false, form := fun _ ws => formCntSelect ws, body := bodyCntSelect }

/-- `CNT_READ` (R387). -/
def opCntRead : Op :=
  { cls := 0x0B, act := 0x11, words := [2], get := false, form := fun _ ws => formCntRead ws, body := bodyCntRead }

/-- `CNT_DUMP` (R388). -/
def opCntDump : Op :=
  { cls := 0x0B, act := 0x12, words := [2], get := false, form := fun _ ws => formCntDump ws, body := bodyCntDump }

/-- `EVT_MARK` (R346). -/
def opEvtMark : Op :=
  { cls := 0x0C, act := 0x10, words := [1], get := false, form := fun _ _ => true, body := bodyEvtMark }

/-- `EVT_LOG_READ` (R420). -/
def opEvtLogRead : Op :=
  { cls := 0x0C, act := 0x11, words := [1], get := false, form := fun _ ws => formEvtLogRead ws, body := bodyEvtLogRead }

/-- `SAVE_CONFIG_SET` (R419). -/
def opSaveConfigSet : Op :=
  { cls := 0x0D, act := 0x10, words := [2], get := false, form := fun _ ws => formSaveConfigSet ws, body := bodySaveConfigSet }

/-- `SAVE_GET` (R419). -/
def opSaveGet : Op :=
  { cls := 0x0D, act := 0x11, words := [0], get := true, form := fun _ _ => true, body := bodySaveGet }

/-- `SAVE_TEST` (R419). -/
def opSaveTest : Op :=
  { cls := 0x0D, act := 0x12, words := [1], get := false, form := fun _ ws => formSaveTest ws, body := bodySaveTest }

/-- `TEST_PRBS_SET` (R245). -/
def opTestPrbsSet : Op :=
  { cls := 0x0E, act := 0x10, words := [1], get := false, form := fun _ ws => formTestPrbsSet ws, body := bodyTestPrbsSet }

/-- `TEST_PRBS_GET` (R247). -/
def opTestPrbsGet : Op :=
  { cls := 0x0E, act := 0x11, words := [1], get := true, form := fun _ ws => formTestPrbsGet ws, body := bodyTestPrbsGet }

/-- `TEST_EYE_SCAN` (R248). -/
def opTestEyeScan : Op :=
  { cls := 0x0E, act := 0x12, words := [3], get := false, form := fun _ ws => formTestEyeScan ws, body := bodyTestEyeScan }

/-- `HEALTH_GET` (R419). -/
def opHealthGet : Op :=
  { cls := 0x0F, act := 0x10, words := [1], get := true, form := fun _ ws => formHealthGet ws, body := bodyHealthGet }

/-- `HEALTH_SPARE_SWAP` (R419). -/
def opHealthSpareSwap : Op :=
  { cls := 0x0F, act := 0x11, words := [2], get := false, form := fun _ ws => formHealthSpareSwap ws, body := bodySpareSwapHeld }

/-- `HEALTH_SPARE_GET` (R419). -/
def opHealthSpareGet : Op :=
  { cls := 0x0F, act := 0x12, words := [1], get := true, form := fun _ ws => formHealthSpareGet ws, body := bodyHealthSpareGet }

/-- `HEALTH_CP_GET` (R419). -/
def opHealthCpGet : Op :=
  { cls := 0x0F, act := 0x13, words := [0], get := true, form := fun _ _ => true, body := bodyHealthCpGet }

/-- The opcodes of Table 12.10. -/
def opcodes : List Op :=
  [opSysNop, opSysAbort, opSysModeSet, opSysModeGet, opSysFenceSet, opSysAuthSet, opSysIoSet, opSysIoGet] ++
  [opLaneFrameSet, opLaneFrameGet, opLaneSeedSet, opLaneMsgSend, opLaneMsgRead, opLaneAlignSet, opLaneAlignGet, opLaneDefectSet, opLaneDefectGet, opLaneTxSet, opLaneRxSet, opLaneSerdesGet, opLaneLoopSet] ++
  [opTribMapLoad, opTribSet, opTribGet, opTribTimingSet, opTribDefectProfileSet, opTribDefectSet, opTribDefectGet] ++
  [opAccordSet, opAccordMemberSet, opAccordGet, opAccordStoreGet] ++
  [opConnSet, opConnGet, opConnLoad, opConnDelay, opConnEqSet, opConnEqGet, opConnOccupancyGet] ++
  [opProtGroupSet, opProtCmd, opProtGet] ++
  [opTimeRefSet, opTimeRefGet, opTimeSelSet, opTimeDpllGet, opTimeDpllSteer, opTimeOutSet, opTimeTodSet, opTimeTickSet, opTimeTickGet] ++
  [opSealTxSet, opSealRxSet, opSealFlip, opSealGet] ++
  [opCiphKeyLoad, opCiphKeyErase, opCiphKeyGet, opCiphChanSet, opCiphOp] ++
  [opMemTestStart, opMemTestGet, opMemFenceSet] ++
  [opCntSelect, opCntRead, opCntDump] ++
  [opEvtMark, opEvtLogRead] ++
  [opSaveConfigSet, opSaveGet, opSaveTest] ++
  [opTestPrbsSet, opTestPrbsGet, opTestEyeScan] ++
  [opHealthGet, opHealthSpareSwap, opHealthSpareGet, opHealthCpGet]

/-- The opcode that a packet names. -/
def opOf (cls act : Nat) : Option Op := opcodes.find? (fun o => o.cls == cls && o.act == act)

/-! ## The checks of a packet (12 R334) -/

/-- Present on this ordering code (00 R4): the EZY-16144-NE has neither sealing nor the cipher engine. -/
def present_ (cls : Nat) (s : State) : Bool := !(s.dev.ne && (cls == 0x08 || cls == 0x09))

/-- Bytes 0 to 39 of a packet, with `OWN` 0 (12 R326, R339). -/
def packetHead (o : Op) (p : Packet) : List Byte :=
  [BitVec.ofNat 8 o.cls, BitVec.ofNat 8 o.act, BitVec.ofNat 8 (64 * b2n p.abortable + 32 * b2n p.auth.isSome + p.rsv), BitVec.ofNat 8 p.params.length]
    ++ leBytes 4 p.tag.toNat ++ padTo 32 0 ((p.params ++ p.extra).flatMap (fun w => leBytes 4 w.toNat))

/-- The tag of a packet under a key, with the slot's count in the IV (12 R339). -/
def authTag (k : KeySlot) (head : List Byte) : List Byte :=
  gcmTag (roundKeys k.key) ([0x43, 0x4D, 0x44, 0x41] ++ beBytes 8 k.count) head []

/-- One check of an authenticator: it counts one invocation, whether it passes or fails (12 R339). -/
def authVerify (n : Nat) (head tag : List Byte) (s : State) : Option Status × State :=
  let k := cmdSlot s n
  if !k.loaded || k.use != 1 || !slotLeft k 1 then (some .authFail, s)
  else (if authTag k head == tag then none else some .authFail, setCmdSlot n { k with count := k.count + 1 } s)

/-- Stage 3 (12 R338, R339, R346). -/
def authStage (o : Op) (p : Packet) (s : State) : Option Status × State :=
  let set := o.cls == 0x01 && o.act == 0x30
  if s.dev.ne then (if p.auth.isSome || set then some .notInMode else none, s)
  else if set && pb p.params 0 0 then
    match p.auth with
    | none => (some .authFail, s)
    | some t =>
      let n := pf p.params 0 6 1
      if (cmdSlot s n).loaded && (cmdSlot s n).use == 1 then authVerify n (packetHead o p) t s else (some .badParam, s)
  else
    match p.auth with
    | none => (if s.io.require && !o.get then some .authFail else none, s)
    | some t => match s.io.authSlot with
      | some n => authVerify n (packetHead o p) t s
      | none => (some .authFail, s)

/-- Stage 4 (12 R326, R334): `WORDS`, byte 2 bits [4:0], and the form of the parameters. -/
def formStage (o : Op) (p : Packet) (s : State) : Bool :=
  o.words.contains p.params.length && p.rsv == 0 && (p.auth.isNone || decide (p.params.length ≤ 8)) && o.form s p.params

/-- Stages 2 to 4. -/
def packetChecks (o : Op) (p : Packet) (s : State) : Option Status × State :=
  if !present_ o.cls s then (some .badOpcode, s)
  else match authStage o p s with
    | (some st, s) => (some st, s)
    | (none, s) => (if formStage o p s then none else some .badParam, s)

/-! ## Decoding and running -/

/-- Commands decoded and not yet answered (12 R332). -/
def outstanding (s : State) : Nat := ([0, 1, 2, 3].filter (fun r => (job s r).isSome)).length + s.keys.ops.length + s.io.late.length

/-- Commands can be decoded: `READY`, a mode in which the command plane runs, no failover gap, no HALT or RETENTION on its way,
and a reply slot free for the command (12 R332, R348; 15 R395; 16 R438). -/
def plansOpen (s : State) : Bool :=
  s.dev.ready && running s && !s.dev.failover && s.save.haltAt.isNone && decide (outstanding s < s.io.offered)

/-- Ring `r` is ready to decode its next slot (12 R329, R330). -/
def ringOpen (r : Nat) (s : State) : Bool := decide (r < 4) && (ring s r).en && !(ring s r).fault && (job s r).isNone

/-- `CIPH_OP` waits on ring 3 while its channel's queue holds 8 operations (12 R329). -/
def queueFull (o : Op) (p : Packet) (s : State) : Bool :=
  o.cls == 0x09 && o.act == 0x14 && p.ring == 3 && decide (8 ≤ queuedOn s (pf p.params 0 3 0)) && formStage o p s

/-- The device decodes this packet now. -/
def canDecode (o : Op) (p : Packet) (s : State) : Bool := plansOpen s && ringOpen p.ring s && !queueFull o p s

/-- What the reply to a packet echoes. -/
def packetEcho (o : Op) (p : Packet) : Echo :=
  { ring := p.ring, cls := o.cls, act := o.act, tag := p.tag, abortable := p.abortable, authed := p.auth.isSome }

/-- The job of a packet that goes on. -/
def packetJob (o : Op) (p : Packet) (w : Work) (image : List Byte) (taken : List Nat) : Job :=
  { ring := p.ring, cls := o.cls, act := o.act, tag := p.tag, abortable := p.abortable, authed := p.auth.isSome, params := p.params
    image, taken, accepted := 0, work := w }

/-- A decoded packet runs (12 R331, R334): a refusal, a reply, or work that goes on. -/
def decodeRun (o : Op) (p : Packet) (s : State) : State :=
  match packetChecks o p (jrnl 0 p.ring p.tag s) with
  | (some st, s) => writeReply (packetEcho o p) st [] s
  | (none, s) => match o.body p s with
    | .reply st ws s => writeReply (packetEcho o p) st ws s
    | .wait w image taken s => setJob p.ring (some (packetJob o p w image taken)) s
    | .queued s => s

/-- A command packet at the head of its ring: decoded when that is possible, else it waits and nothing changes. -/
def runCommand (o : Op) (p : Packet) (s : State) : State := if canDecode o p s then decodeRun o p s else s

/-! ## The commands -/

/-- SYS_NOP (R345). -/
def execSysNop (p : Packet) (s : State) : Host.Outcome State Fault Refusal := .next (runCommand opSysNop p s)

/-- SYS_ABORT (R337). -/
def execSysAbort (p : Packet) (s : State) : Host.Outcome State Fault Refusal := .next (runCommand opSysAbort p s)

/-- SYS_MODE_SET (R446). -/
def execSysModeSet (p : Packet) (s : State) : Host.Outcome State Fault Refusal := .next (runCommand opSysModeSet p s)

/-- SYS_MODE_GET (R447). -/
def execSysModeGet (p : Packet) (s : State) : Host.Outcome State Fault Refusal := .next (runCommand opSysModeGet p s)

/-- SYS_FENCE_SET (R448). -/
def execSysFenceSet (p : Packet) (s : State) : Host.Outcome State Fault Refusal := .next (runCommand opSysFenceSet p s)

/-- SYS_AUTH_SET (R346). -/
def execSysAuthSet (p : Packet) (s : State) : Host.Outcome State Fault Refusal := .next (runCommand opSysAuthSet p s)

/-- SYS_IO_SET (R410). -/
def execSysIoSet (p : Packet) (s : State) : Host.Outcome State Fault Refusal := .next (runCommand opSysIoSet p s)

/-- SYS_IO_GET (R411). -/
def execSysIoGet (p : Packet) (s : State) : Host.Outcome State Fault Refusal := .next (runCommand opSysIoGet p s)

/-- LANE_FRAME_SET (R93). -/
def execLaneFrameSet (p : Packet) (s : State) : Host.Outcome State Fault Refusal := .next (runCommand opLaneFrameSet p s)

/-- LANE_FRAME_GET (R93). -/
def execLaneFrameGet (p : Packet) (s : State) : Host.Outcome State Fault Refusal := .next (runCommand opLaneFrameGet p s)

/-- LANE_SEED_SET (R94). -/
def execLaneSeedSet (p : Packet) (s : State) : Host.Outcome State Fault Refusal := .next (runCommand opLaneSeedSet p s)

/-- LANE_MSG_SEND (R95). -/
def execLaneMsgSend (p : Packet) (s : State) : Host.Outcome State Fault Refusal := .next (runCommand opLaneMsgSend p s)

/-- LANE_MSG_READ (R96). -/
def execLaneMsgRead (p : Packet) (s : State) : Host.Outcome State Fault Refusal := .next (runCommand opLaneMsgRead p s)

/-- LANE_ALIGN_SET (R115). -/
def execLaneAlignSet (p : Packet) (s : State) : Host.Outcome State Fault Refusal := .next (runCommand opLaneAlignSet p s)

/-- LANE_ALIGN_GET (R116). -/
def execLaneAlignGet (p : Packet) (s : State) : Host.Outcome State Fault Refusal := .next (runCommand opLaneAlignGet p s)

/-- LANE_DEFECT_SET (R206). -/
def execLaneDefectSet (p : Packet) (s : State) : Host.Outcome State Fault Refusal := .next (runCommand opLaneDefectSet p s)

/-- LANE_DEFECT_GET (R206). -/
def execLaneDefectGet (p : Packet) (s : State) : Host.Outcome State Fault Refusal := .next (runCommand opLaneDefectGet p s)

/-- LANE_TX_SET (R239). -/
def execLaneTxSet (p : Packet) (s : State) : Host.Outcome State Fault Refusal := .next (runCommand opLaneTxSet p s)

/-- LANE_RX_SET (R250). -/
def execLaneRxSet (p : Packet) (s : State) : Host.Outcome State Fault Refusal := .next (runCommand opLaneRxSet p s)

/-- LANE_SERDES_GET (R250). -/
def execLaneSerdesGet (p : Packet) (s : State) : Host.Outcome State Fault Refusal := .next (runCommand opLaneSerdesGet p s)

/-- LANE_LOOP_SET (R241). -/
def execLaneLoopSet (p : Packet) (s : State) : Host.Outcome State Fault Refusal := .next (runCommand opLaneLoopSet p s)

/-- TRIB_MAP_LOAD (R122). -/
def execTribMapLoad (p : Packet) (s : State) : Host.Outcome State Fault Refusal := .next (runCommand opTribMapLoad p s)

/-- TRIB_SET (R150). -/
def execTribSet (p : Packet) (s : State) : Host.Outcome State Fault Refusal := .next (runCommand opTribSet p s)

/-- TRIB_GET (R150). -/
def execTribGet (p : Packet) (s : State) : Host.Outcome State Fault Refusal := .next (runCommand opTribGet p s)

/-- TRIB_TIMING_SET (R126). -/
def execTribTimingSet (p : Packet) (s : State) : Host.Outcome State Fault Refusal := .next (runCommand opTribTimingSet p s)

/-- TRIB_DEFECT_PROFILE_SET (R206). -/
def execTribDefectProfileSet (p : Packet) (s : State) : Host.Outcome State Fault Refusal := .next (runCommand opTribDefectProfileSet p s)

/-- TRIB_DEFECT_SET (R206). -/
def execTribDefectSet (p : Packet) (s : State) : Host.Outcome State Fault Refusal := .next (runCommand opTribDefectSet p s)

/-- TRIB_DEFECT_GET (R206). -/
def execTribDefectGet (p : Packet) (s : State) : Host.Outcome State Fault Refusal := .next (runCommand opTribDefectGet p s)

/-- ACCORD_SET (R152). -/
def execAccordSet (p : Packet) (s : State) : Host.Outcome State Fault Refusal := .next (runCommand opAccordSet p s)

/-- ACCORD_MEMBER_SET (R153). -/
def execAccordMemberSet (p : Packet) (s : State) : Host.Outcome State Fault Refusal := .next (runCommand opAccordMemberSet p s)

/-- ACCORD_GET (R150). -/
def execAccordGet (p : Packet) (s : State) : Host.Outcome State Fault Refusal := .next (runCommand opAccordGet p s)

/-- ACCORD_STORE_GET (R154). -/
def execAccordStoreGet (p : Packet) (s : State) : Host.Outcome State Fault Refusal := .next (runCommand opAccordStoreGet p s)

/-- CONN_SET (R181). -/
def execConnSet (p : Packet) (s : State) : Host.Outcome State Fault Refusal := .next (runCommand opConnSet p s)

/-- CONN_GET (R180). -/
def execConnGet (p : Packet) (s : State) : Host.Outcome State Fault Refusal := .next (runCommand opConnGet p s)

/-- CONN_LOAD (R182). -/
def execConnLoad (p : Packet) (s : State) : Host.Outcome State Fault Refusal := .next (runCommand opConnLoad p s)

/-- CONN_DELAY (R183). -/
def execConnDelay (p : Packet) (s : State) : Host.Outcome State Fault Refusal := .next (runCommand opConnDelay p s)

/-- CONN_EQ_SET (R184). -/
def execConnEqSet (p : Packet) (s : State) : Host.Outcome State Fault Refusal := .next (runCommand opConnEqSet p s)

/-- CONN_EQ_GET (R180). -/
def execConnEqGet (p : Packet) (s : State) : Host.Outcome State Fault Refusal := .next (runCommand opConnEqGet p s)

/-- CONN_OCCUPANCY_GET (R185). -/
def execConnOccupancyGet (p : Packet) (s : State) : Host.Outcome State Fault Refusal := .next (runCommand opConnOccupancyGet p s)

/-- PROT_GROUP_SET (R228). -/
def execProtGroupSet (p : Packet) (s : State) : Host.Outcome State Fault Refusal := .next (runCommand opProtGroupSet p s)

/-- PROT_CMD (R229). -/
def execProtCmd (p : Packet) (s : State) : Host.Outcome State Fault Refusal := .next (runCommand opProtCmd p s)

/-- PROT_GET (R230). -/
def execProtGet (p : Packet) (s : State) : Host.Outcome State Fault Refusal := .next (runCommand opProtGet p s)

/-- TIME_REF_SET (R279). -/
def execTimeRefSet (p : Packet) (s : State) : Host.Outcome State Fault Refusal := .next (runCommand opTimeRefSet p s)

/-- TIME_REF_GET (R279). -/
def execTimeRefGet (p : Packet) (s : State) : Host.Outcome State Fault Refusal := .next (runCommand opTimeRefGet p s)

/-- TIME_SEL_SET (R279). -/
def execTimeSelSet (p : Packet) (s : State) : Host.Outcome State Fault Refusal := .next (runCommand opTimeSelSet p s)

/-- TIME_DPLL_GET (R279). -/
def execTimeDpllGet (p : Packet) (s : State) : Host.Outcome State Fault Refusal := .next (runCommand opTimeDpllGet p s)

/-- TIME_DPLL_STEER (R273). -/
def execTimeDpllSteer (p : Packet) (s : State) : Host.Outcome State Fault Refusal := .next (runCommand opTimeDpllSteer p s)

/-- TIME_OUT_SET (R280). -/
def execTimeOutSet (p : Packet) (s : State) : Host.Outcome State Fault Refusal := .next (runCommand opTimeOutSet p s)

/-- TIME_TOD_SET (R281). -/
def execTimeTodSet (p : Packet) (s : State) : Host.Outcome State Fault Refusal := .next (runCommand opTimeTodSet p s)

/-- TIME_TICK_SET (R62). -/
def execTimeTickSet (p : Packet) (s : State) : Host.Outcome State Fault Refusal := .next (runCommand opTimeTickSet p s)

/-- TIME_TICK_GET (R63). -/
def execTimeTickGet (p : Packet) (s : State) : Host.Outcome State Fault Refusal := .next (runCommand opTimeTickGet p s)

/-- SEAL_TX_SET (R313). -/
def execSealTxSet (p : Packet) (s : State) : Host.Outcome State Fault Refusal := .next (runCommand opSealTxSet p s)

/-- SEAL_RX_SET (R313). -/
def execSealRxSet (p : Packet) (s : State) : Host.Outcome State Fault Refusal := .next (runCommand opSealRxSet p s)

/-- SEAL_FLIP (R298). -/
def execSealFlip (p : Packet) (s : State) : Host.Outcome State Fault Refusal := .next (runCommand opSealFlip p s)

/-- SEAL_GET (R313). -/
def execSealGet (p : Packet) (s : State) : Host.Outcome State Fault Refusal := .next (runCommand opSealGet p s)

/-- CIPH_KEY_LOAD (R301). -/
def execCiphKeyLoad (p : Packet) (s : State) : Host.Outcome State Fault Refusal := .next (runCommand opCiphKeyLoad p s)

/-- CIPH_KEY_ERASE (R304). -/
def execCiphKeyErase (p : Packet) (s : State) : Host.Outcome State Fault Refusal := .next (runCommand opCiphKeyErase p s)

/-- CIPH_KEY_GET (R313). -/
def execCiphKeyGet (p : Packet) (s : State) : Host.Outcome State Fault Refusal := .next (runCommand opCiphKeyGet p s)

/-- CIPH_CHAN_SET (R313). -/
def execCiphChanSet (p : Packet) (s : State) : Host.Outcome State Fault Refusal := .next (runCommand opCiphChanSet p s)

/-- CIPH_OP (R306). -/
def execCiphOp (p : Packet) (s : State) : Host.Outcome State Fault Refusal := .next (runCommand opCiphOp p s)

/-- MEM_TEST_START (R369). -/
def execMemTestStart (p : Packet) (s : State) : Host.Outcome State Fault Refusal := .next (runCommand opMemTestStart p s)

/-- MEM_TEST_GET (R369). -/
def execMemTestGet (p : Packet) (s : State) : Host.Outcome State Fault Refusal := .next (runCommand opMemTestGet p s)

/-- MEM_FENCE_SET (R362). -/
def execMemFenceSet (p : Packet) (s : State) : Host.Outcome State Fault Refusal := .next (runCommand opMemFenceSet p s)

/-- CNT_SELECT (R386). -/
def execCntSelect (p : Packet) (s : State) : Host.Outcome State Fault Refusal := .next (runCommand opCntSelect p s)

/-- CNT_READ (R387). -/
def execCntRead (p : Packet) (s : State) : Host.Outcome State Fault Refusal := .next (runCommand opCntRead p s)

/-- CNT_DUMP (R388). -/
def execCntDump (p : Packet) (s : State) : Host.Outcome State Fault Refusal := .next (runCommand opCntDump p s)

/-- EVT_MARK (R346). -/
def execEvtMark (p : Packet) (s : State) : Host.Outcome State Fault Refusal := .next (runCommand opEvtMark p s)

/-- EVT_LOG_READ (R420). -/
def execEvtLogRead (p : Packet) (s : State) : Host.Outcome State Fault Refusal := .next (runCommand opEvtLogRead p s)

/-- SAVE_CONFIG_SET (R419). -/
def execSaveConfigSet (p : Packet) (s : State) : Host.Outcome State Fault Refusal := .next (runCommand opSaveConfigSet p s)

/-- SAVE_GET (R419). -/
def execSaveGet (p : Packet) (s : State) : Host.Outcome State Fault Refusal := .next (runCommand opSaveGet p s)

/-- SAVE_TEST (R419). -/
def execSaveTest (p : Packet) (s : State) : Host.Outcome State Fault Refusal := .next (runCommand opSaveTest p s)

/-- TEST_PRBS_SET (R245). -/
def execTestPrbsSet (p : Packet) (s : State) : Host.Outcome State Fault Refusal := .next (runCommand opTestPrbsSet p s)

/-- TEST_PRBS_GET (R247). -/
def execTestPrbsGet (p : Packet) (s : State) : Host.Outcome State Fault Refusal := .next (runCommand opTestPrbsGet p s)

/-- TEST_EYE_SCAN (R248). -/
def execTestEyeScan (p : Packet) (s : State) : Host.Outcome State Fault Refusal := .next (runCommand opTestEyeScan p s)

/-- HEALTH_GET (R419). -/
def execHealthGet (p : Packet) (s : State) : Host.Outcome State Fault Refusal := .next (runCommand opHealthGet p s)

/-- HEALTH_SPARE_SWAP (R419). -/
def execHealthSpareSwap (p : Packet) (s : State) : Host.Outcome State Fault Refusal := .next (runCommand opHealthSpareSwap p s)

/-- HEALTH_SPARE_GET (R419). -/
def execHealthSpareGet (p : Packet) (s : State) : Host.Outcome State Fault Refusal := .next (runCommand opHealthSpareGet p s)

/-- HEALTH_CP_GET (R419). -/
def execHealthCpGet (p : Packet) (s : State) : Host.Outcome State Fault Refusal := .next (runCommand opHealthCpGet p s)

end Sys2Proof.Machine
end

