-- ==== Sys2Proof/Machine/Slot.lean ====
section
/-! DEFINITION. Command ring slots: doorbells, decoding a slot, and commands that wait for a descriptor (12 R326 to R330, R341). -/

namespace Sys2Proof.Machine

/-! ## A slot's packet -/

/-- Address of the slot at `DEV_INDEX` of a command ring. -/
def slotAddr (r : Nat) (s : State) : Nat := (ring s r).base + 64 * (ring s r).index

/-- The 32-bit words of bytes, little-endian. -/
def wordsOf : Nat → List Byte → List Word
  | 0, _ => []
  | n + 1, bs => wd (leNat (bs.take 4)) :: wordsOf n (bs.drop 4)

/-- The packet in 64 bytes (12 Table 12.6). `WORDS` beyond the parameter area names words of 0. -/
def packetOf (r : Nat) (bs : List Byte) : Packet :=
  let b2 := bs.getD 2 0
  let n := (bs.getD 3 0).toNat
  let auth := b2.getLsbD 5
  let ws := wordsOf (if auth then 8 else 12) (bs.drop 8)
  { ring := r, tag := wd (leNat ((bs.drop 4).take 4)), abortable := b2.getLsbD 6
    auth := if auth then some ((bs.drop 40).take 16) else none
    rsv := b2.toNat % 32, params := padTo n 0 ws, extra := ws.drop n }

/-- `PCRC` of a packet is right (07 R201; 12 Table 12.6). -/
def packetCrcOk (bs : List Byte) : Bool :=
  (crc32c ((bs.take 2 ++ [bs.getD 2 0 &&& 0x7F]) ++ (bs.drop 3).take 53)).toNat == leNat ((bs.drop 56).take 4)

/-- What the reply to a packet echoes, as received (12 R331). -/
def slotEcho (r : Nat) (bs : List Byte) : Echo :=
  let p := packetOf r bs
  { ring := r, cls := (bs.getD 0 0).toNat, act := (bs.getD 1 0).toNat, tag := p.tag, abortable := p.abortable, authed := p.auth.isSome }

/-- The slot is handed back and `DEV_INDEX` advances (12 R328). -/
def slotDone (r : Nat) (s : State) : State :=
  let g := ring s r
  let a := slotAddr r s
  setRing r { g with index := (g.index + 1) % slots g } (wmPut (a + 2) [memRead s.wm (a + 2) &&& 0x7F] s)

/-- A copied slot is acted on: the checks in order, and the command (12 R334). -/
def slotRun (r : Nat) (bs : List Byte) (s : State) : State :=
  if !packetCrcOk bs then writeReply (slotEcho r bs) .badCrc [] s
  else match opOf (bs.getD 0 0).toNat (bs.getD 1 0).toNat with
    | none => writeReply (slotEcho r bs) .badOpcode [] s
    | some o => decodeRun o (packetOf r bs) s

/-- `CIPH_OP` in the next slot waits for its channel's queue. -/
def slotWaits (r : Nat) (bs : List Byte) (s : State) : Bool :=
  packetCrcOk bs && match opOf (bs.getD 0 0).toNat (bs.getD 1 0).toNat with
  | some o => queueFull o (packetOf r bs) s
  | none => false

/-- The next slot of a ring is decoded (12 R328 to R330). -/
def slotDecode (r : Nat) (s : State) : State :=
  let bs := wmGet s (slotAddr r s) 64
  if !(bs.getD 2 0).getLsbD 7 then ringFault r s
  else if slotWaits r bs s then s
  else slotRun r bs (slotDone r s)

/-- COMMAND_DECODE (12 R328, R332). -/
def execCommandDecode (r : Nat) (s : State) : Host.Outcome State Fault Refusal :=
  if !decide (r < 4) then .refused (.illFormed "COMMAND_DECODE")
  else if plansOpen s && ringOpen r s && (ring s r).index != (ring s r).db then .next (slotDecode r s)
  else .next s

/-! ## Waiting for a descriptor (12 R341) -/

/-- A waiting command has reached its buffer: it ends, or goes on. -/
def resume (r : Nat) (j : Job) : Res → State
  | .reply st ws s => endJob r st ws s
  | .wait w image _ s => setJob r (some { j with work := w, image }) s
  | .queued s => s

/-- The packet that a job came from. -/
def jobPacket (j : Job) : Packet :=
  { ring := j.ring, tag := j.tag, abortable := j.abortable, auth := none, rsv := 0, params := j.params, extra := [] }

/-- The command in progress on a ring looks at its descriptor again. -/
def jobRecheck (r : Nat) (s : State) : State :=
  match job s r with
  | none => s
  | some j => match j.work with
    | .desc _ => resume r j (if j.cls = 0x03 then tribMapReach (jobPacket j) s else bodyConnLoad (jobPacket j) s)
    | .dumpWait n a => dumpRecheck r j n a s
    | _ => s

/-- Descriptors are looked at while the command plane runs (15 R395). -/
def planeRuns (s : State) : Bool := running s && !s.dev.failover

/-- DESCRIPTOR_RECHECK (12 R341): the command on a ring, and on ring 3 the operation of a channel. -/
def execDescriptorRecheck (r c : Nat) (s : State) : Host.Outcome State Fault Refusal :=
  if !(decide (r < 4) && decide (c < 16)) then .refused (.illFormed "DESCRIPTOR_RECHECK")
  else if planeRuns s then .next (let s := jobRecheck r s; if r = 3 then opRecheck c s else s)
  else .next s

/-- A producer index is written (12 R327, R330, R341). -/
def commandDoorbell (r v : Nat) (s : State) : State :=
  let g := ring s r
  if !ringsOpen s || !g.en then s
  else
    let s := if g.fault then s else if slots g ≤ v then ringFault r s else setRing r { g with db := v } s
    if planeRuns s then
      let s := jobRecheck r s
      if r = 3 then (List.range 16).foldl (fun s c => opRecheck c s) s else s
    else s

/-- COMMAND_DOORBELL. -/
def execCommandDoorbell (r : Nat) (v : Word) (s : State) : Host.Outcome State Fault Refusal :=
  if r < 4 then .next (commandDoorbell r (fld v 15 0) s) else .refused (.illFormed "COMMAND_DOORBELL")

end Sys2Proof.Machine
end

