-- ==== Sys2Proof/Machine/PortCommit.lean ====
section
/-! DEFINITION. The update port: the Route Allocator commits the next write (01 R23, R24; 02 R52 to R54; 06 R169, R170; 12 R336). -/

namespace Sys2Proof.Machine

/-- The dies that a `SYS_FENCE_SET` fences or releases, as bits 0 to 3. -/
def fenceNamed (ws : List Word) : Nat := pf ws 0 3 0 ||| pf ws 0 7 4

/-- What is left of a staged write that a later one for the same tick supersedes (01 R24): of a `SYS_FENCE_SET` the dies that the later
one does not name; nothing of a `TRIB_TIMING_SET` or a seal setting of the same lane or tributary and direction. Two mode changes at
one tick are made one after the other, so that each is one of 16 Table 16.2 and the earlier governs no cycle (DESIGN CHOICE, log 71).
Of the other settings the later write covers the earlier. -/
def supersede (tick : Nat) (j : Job) (x : Staged) : Option Staged :=
  if x.tick ≠ tick then some x
  else match x.w with
    | .cmd c a ws img =>
      if c ≠ j.cls || a ≠ j.act then some x
      else if c = 0x01 && a = 0x22 then
        let m := fenceNamed j.params
        some { x with w := .cmd c a [wAt ws 0 &&& ~~~(wd (m + 16 * m))] img }
      else if c = 0x03 && a ≠ 0x10 && a ≠ 0x11 && pf ws 0 7 0 = pf j.params 0 7 0 then none
      else if c = 0x08 && pf ws 0 17 0 = pf j.params 0 17 0 then none
      else some x
    | _ => some x

/-- Stages the tick effect of a command's settings (02 R53). -/
def stage (tick : Nat) (egress : Bool) (j : Job) (s : State) : State :=
  { s with port := { s.port with
      staged := s.port.staged.filterMap (supersede tick j) ++ [{ tick, egress, w := .cmd j.cls j.act j.params j.image }] } }

/-- What a commit of one command's settings gives: a refusal with its reply words, or the words before the effective cycle. -/
inductive Commit where
  | refuse (st : Status) (ws : List Word)
  | ok (ws : List Word) (s : State)

/-- A check that may refuse. -/
def checked (o : Option Status) (c : Commit) : Commit := match o with | some st => .refuse st [] | none => c

/-- Lowest of the tributaries that refuse a map, 0 when there is none (05 Table 5.6). -/
def lowest : List Nat → Nat
  | [] => 0
  | x :: t => t.foldl min x

/-- `TRIB_MAP_LOAD` at its commit (05 R122, R137, R149; 08 R226). -/
def mapLoadCommit (j : Job) (k : Nat) (s : State) : Commit :=
  let ws := j.params
  let m : TMap := { gen := pf ws 0 31 16, ents := (parseMap 0 j.image).getD [] }
  let bad := mapBad ws m k s ++ protMapBad ws m s
  let n := wd (tribIds m).length
  if !bad.isEmpty then .refuse .badParam [n, wd (lowest bad)]
  else .ok [n, 0] (stage (if pb ws 0 8 then k + 3 else k) (pb ws 0 8) j (mapCommit ws m k s))

/-- A command of the staged path at its commit for cycle `k` (02 R53, R54). Ingress lane settings and accord settings are kept with their
first cycle; the tick of that cycle does the rest. A `SEAL_TX_SET` acts at tick `k`, on the egress frame that begins there, and not
on egress cycles from tick `k` + 3 on: DESIGN CHOICE, R53 does not say which for a tick-aligned setting (log 63). -/
def cmdCommit (j : Job) (k : Nat) (s : State) : Commit :=
  let ws := j.params
  let no (st : Status) : Commit := .refuse st []
  match j.cls, j.act with
  | 0x01, 0x20 => if modeCommitOk ws s then .ok [] (stage k false j s) else no .notInMode
  | 0x01, _ => if releasesFailed ws s then no .notInMode else .ok [] (stage k false j s)
  | 0x02, 0x10 => .ok [] (stage (k + 3) true j (frameSetIn ws k s))
  | 0x02, 0x12 => checked (seedCommit ws s) (if pb ws 0 8 then .ok [] (stage (k + 3) true j s) else .ok [] (seedSetIn ws k s))
  | 0x02, _ => .ok [] (alignCommit ws k s)
  | 0x03, 0x10 => mapLoadCommit j k s
  | 0x03, 0x11 => if protTribSet s ws then no .notInMode
      else if pb ws 0 18 && setClash (pf ws 0 17 0) (egSetOf ws) k s then no .badParam else .ok [] (tribSetCommit ws k s)
  | 0x03, _ => .ok [] (stage k false j (timingCommit ws k s))
  | 0x04, 0x10 => if accordSetOk ws s then .ok [] (stage k false j (accordSetCommit ws k s)) else no .notInMode
  | 0x04, _ =>
    match memberSetCheck ws k s with
    | some st => .refuse st [wd (freeUnits s k)]
    | none => let s := stage k false j (memberSetCommit ws k s); .ok [wd (freeUnits s k)] s
  | 0x05, _ => checked (eqSetCheck ws k s) (.ok [] (eqSetCommit ws k s))
  | _, 0x10 => checked (sealSetCheck false ws k s) (.ok [] (stage k false j s))
  | _, _ => checked (sealSetCheck true ws k s) (.ok [] (stage k false j (sealReserve ws k s)))

/-- Commands with the tick-aligned attribute (02 R54; 12 Table 12.10): class SEAL's settings. -/
def tickAligned (j : Job) : Bool := j.cls == 0x08

/-- Commits the settings of a command in progress, and replies (12 R471). -/
def jobCommit (j : Job) (s : State) : State :=
  let s := jrnl 2 j.ring j.tag s
  let k := if tickAligned j then effTickAligned s else effTick s
  match cmdCommit j k s with
  | .refuse st ws => endJob j.ring st ws s
  | .ok ws s => endJob j.ring .ok (ws ++ effWords s k) s

/-- A committed entry of a connection command: it goes on, or replies after its last entry (06 R170). -/
def connDone (j : Job) (n : Nat) (first : Word × Nat) (gens : List Nat) (g k : Nat) (s : State) : State :=
  let e := fcOf s k
  let first := if n = 0 then e else first
  let gens := if j.act = 0x10 then gens ++ [entryGen (committed s g).data] else gens
  let j := { j with accepted := n + 1, work := .conn (n + 1) first e gens }
  let s := setJob j.ring (some j) s
  if (connNext j (n + 1)).isNone then endJob j.ring .ok (connWords j (n + 1) first e gens false 0) s else s

/-- The next entry of `CONN_SET` or `CONN_LOAD` (06 R166, R170, R179, R181; Table 6.15). Its journal record is written as it is handed to
the Route Allocator (15 R393). Which status an entry gets that is both blocked and in a failed block is not said: DESIGN CHOICE,
`FOLLOW_TA` and the routing are judged first (log 71). -/
def connCommit (j : Job) (n : Nat) (first last : Word × Nat) (gens : List Nat) (s : State) : State :=
  let k := effTick s
  let stop (st : Status) (why : Nat) (s : State) : State := endJob j.ring st (connWords j n first last gens true why) s
  match connNext j n with
  | some (.conn g d follow) =>
    let s := jrnl 2 j.ring j.tag s
    let f := if follow then followTa g d k s else none
    let why := blockReason s g (wd d)
    if follow && f.isNone then stop .badParam 0 s
    else if why ≠ 0 then stop .routeBlocked why s
    else if s.conn.bad.contains (g / 4096) then stop .hwFault 0 s
    else
      let s := commitEntry g d s
      connDone j n first gens g k (match f with | some (ta, src) => followCommit ta src k s | none => s)
  | _ => endJob j.ring .ok (connWords j n first last gens false 0) s

/-- The command in progress on a ring has a write for the port. -/
def wantsPort (j : Job) : Bool := match j.work with | .port => true | .conn .. => true | _ => false

/-- The next write: protection rules, then aperture writes that wait (log 3), then rings 0 to 3 (12 R336). -/
def portNext (s : State) : State :=
  match nextGroup s with
  | some g => protCommit g (takeSlot s)
  | none =>
    if !s.port.waiting.isEmpty then apertureServe s
    else match findJob s wantsPort with
      | some j => match j.work with
        | .conn n f l g => connCommit j n f l g (takeSlot s)
        | _ => jobCommit j (takeSlot s)
      | none => s

/-- UPDATE_PORT_COMMIT (02 R52, R56; 06 R169; 12 R336). -/
def execUpdatePortCommit (s : State) : Host.Outcome State Fault Refusal :=
  if portOpen s then .next (protSync (portNext s)) else .next s

end Sys2Proof.Machine
end

