-- ==== Sys2Proof/Machine/Tick.lean ====
section
/-! DEFINITION. The grain-cycle tick and the frame tick: everything that happens at a tick, in order (02 R39, R40, R43, R52, R53). -/

namespace Sys2Proof.Machine

/-- A staged setting takes effect at its tick (02 R53). -/
def stagedApply (x : Staged) (s : State) : State :=
  match x.w with
  | .cmd 0x01 0x20 ws _ => modeApply ws s
  | .cmd 0x01 _ ws _ => fenceApply ws s
  | .cmd 0x02 0x10 ws _ => frameSetEg ws s
  | .cmd 0x02 _ ws _ => seedSetEg ws s
  | .cmd 0x03 0x10 ws _ => mapEffect ws s
  | .cmd 0x03 _ ws _ => if pb ws 0 8 then eqTiming (pf ws 0 7 0) s else s
  | .cmd 0x04 _ ws _ => accordEffect (pf ws 0 13 0) s
  | .cmd 0x08 0x10 ws _ => sealTxApply ws s
  | .cmd 0x08 _ ws _ => sealRxApply ws s
  | _ => s

/-- Every staged setting whose tick has come, in commit order (01 R24). -/
def stagedDue (s : State) : State :=
  let due := s.port.staged.filter (fun x => decide (x.tick ≤ curCycle s))
  due.foldl (fun s x => stagedApply x s)
    { s with port := { s.port with staged := s.port.staged.filter (fun x => decide (curCycle s < x.tick)) } }

/-- The clock at the next tick (02 R39, R40, R52): the first tick after BOOT begins cycle 0 of FC 0. -/
def clkNext (c : Clk) : Clk :=
  let t := c.tickAt + cycleNs
  if c.ticks = 0 then { c with ticks := 1, fc := 0, cyc := 0, now := t, tickAt := t }
  else { c with
    ticks := c.ticks + 1, fc := if c.cyc = 7 then c.fc + 1 else c.fc, cyc := (c.cyc + 1) % 8, now := t, tickAt := t }

/-- The next tick is a frame tick (02 R40). -/
def frameNext (s : State) : Bool := s.clk.ticks == 0 || s.clk.cyc == 7

/-- What a frame tick adds to a tick (02 R55, R60; 05 R144; 08 R220; 10 R275; 11 R286, R298, Table 11.9). -/
def frameWork (m : TickMeas) (s : State) : State :=
  let s := tickFrame m.ftick (sealSample (sealFrameTick (curCycle s) s))
  let s := (s.trib.acc.map (·.1)).foldl (fun s a => accordSkew a s) s
  timeFrame m.phase (protFrame s)

/-- Tributaries that no longer need the Aligner store leave it. -/
def storeSweep (s : State) : State := (s.trib.store.map (·.1)).foldl (fun s ta => storeRelease ta s) s

/-- The data plane's and the timers' part of a tick. -/
def tickWork (frame : Bool) (m : TickMeas) (s : State) : State :=
  let s := connPrune (curCycle s - 4) (bindJobs (txEnables (alignTick (stagedDue (fencesDue s)))))
  let s := raTicks m.phases (storeSweep s)
  let s := if frame then frameWork m s else s
  let s := egressCycle (timeTick s)
  { s with lanes := s.lanes.map (fun x => (x.1, { x.2 with tx := { x.2.tx with sec := 0 } })) }

/-- Lanes that are back in their start-up state are not listed. -/
def lanesTrim (s : State) : State := { s with lanes := s.lanes.filter (fun x => x.2 != laneReset x.1) }

/-- One grain-cycle tick. A crossover pass that has not been served by a row of its own runs first, within the cycle that
ends (02 R43); HALT or RETENTION may come first (16 R438). -/
def doTick (m : TickMeas) (s : State) : State :=
  let frame := frameNext s
  let s := if passPending s then crossPass (curCycle s - 1) [] s else s
  let s := sampleTaps s
  let s := haltDue (genTake { s with clk := clkNext s.clk })
  if running s then protSync (laneWatch s (lanesTrim (tickWork frame m s))) else s

/-- Ticks come while the planes run and a tick generator works (02 R65; 16 Table 16.1). -/
def ticking (s : State) : Bool := running s && decide (s.tick.failed < 2)

/-- GRAIN_CYCLE_TICK (02 R40). -/
def execGrainCycleTick (m : TickMeas) (s : State) : Host.Outcome State Fault Refusal :=
  if ticking s then .next (doTick m s) else .next s

/-- FRAME_TICK (02 R40): the tick at which FC increments, when it is the next. -/
def execFrameTick (m : TickMeas) (s : State) : Host.Outcome State Fault Refusal :=
  if ticking s && frameNext s then .next (doTick m s) else .next s

end Sys2Proof.Machine
end

