-- ==== Sys2Proof/Machine/Transmit.lean ====
section
/-! DEFINITION. The transmit framer: one section of the Grain Transport Frame (chapter 3). -/

namespace Sys2Proof.Machine

/-- The transmit slot in use (03 R91). -/
def txSeed (t : Tx) : Seed := if t.act then t.b else t.a

/-- Header bytes of section `sec` of lane `l` (03 R69, R70). -/
def txHeader (s : State) (l sec : Nat) : List Byte :=
  let t := (lane s l).tx
  let h : List Byte := [BitVec.ofNat 8 (16 + sec), BitVec.ofNat 8 t.id, BitVec.ofNat 8 (32 * s.clk.cyc + 16 * b2n t.rdi + txLevel s l)]
    ++ beBytes 4 s.clk.fc.toNat ++ [BitVec.ofNat 8 (16 * (txSeed t).epoch)] ++ List.replicate 20 0
  h ++ beBytes 2 (hcrc h).toNat

/-- A lane message channel field (03 R74). -/
def channelBytes (typ seq : Nat) (data : List Byte) : List Byte :=
  let b := [BitVec.ofNat 8 typ, BitVec.ofNat 8 seq, BitVec.ofNat 8 data.length] ++ padTo 90 0 data
  b ++ beBytes 2 (hcrc b).toNat

/-- The message channel of the next marker block (03 R75): the message at the front of the queue, or the idle message. Its
`SEQ` before any message has been sent is a free value (log 2). A message that is being repeated counts among the 4 of the queue
until its last marker block: DESIGN CHOICE (log 61). -/
def txChannel (l : Nat) (s : State) : List Byte × State :=
  let t := (lane s l).tx
  match t.queue with
  | m :: q =>
    let q := if m.left ≤ 1 then q else { m with left := m.left - 1 } :: q
    (channelBytes m.typ m.seq m.data, modTx l (fun t => { t with queue := q, last := some m.seq }) s)
  | [] => match t.last with
    | some n => (channelBytes 0 n [], s)
    | none => let (v, s) := draw (0x0375000 + l) s; (channelBytes 0 (v % 256) [], s)

/-- The marker block: pattern field, then header, channel and reserved bits under the whitening (03 R66, R68, R71). -/
def markerBits (h c : List Byte) : List Bool :=
  patternN ++ xorBits (bitsOfBytes h ++ bitsOfBytes c ++ List.replicate 30 false) whitening

/-- The grains of section `sec` in the egress cycle in progress (02 R43; 06 R161). Across a step of ALIGN, those of no
tributary are free values (02 R61). -/
def txGrains (s : State) (l sec : Nat) : List Grain :=
  let base := laneGrains * l + 12288 * sec
  let out := match s.data.out with | some o => o.gr | none => []
  let mine := out.filter (fun x => decide (base ≤ x.1) && decide (x.1 < base + 12288))
  if stepSpans s (curCycle s) then
    let map := (mapAt s true l (curCycle s)).ents
    let blank := (List.range 12288).map (fun i =>
      if map.any (fun y => y.1 == 12288 * sec + i) then 0 else undefGrain s.clk.free (base + i))
    overlay base blank (mine.filter (fun x => map.any (fun y => y.1 + laneGrains * l == x.1)))
  else overlay base (List.replicate 12288 0) mine

/-- The overhead of the 128 tributaries of a section (03 R85). -/
def txOverhead (s : State) (l sec : Nat) : List Byte :=
  let oh := match s.data.out with | some o => o.oh | none => []
  (List.range 128).flatMap (fun j => tget (fun _ => List.replicate 8 0) oh (1024 * l + 128 * sec + j))

/-- The 25,700 information bytes of a section, before scrambling (03 R80, R82). -/
def txInfo (s : State) (l sec : Nat) : List Byte :=
  let x := lane s l
  let gen := (mapAt s true l (curCycle s)).gen
  let rei := if isAligned x then x.rx.bipErr else 0
  [x.tx.bip, BitVec.ofNat 8 rei] ++ beBytes 2 gen ++ List.replicate 96 0 ++ txOverhead s l sec ++ grainBytes (txGrains s l sec)

/-- Information bits as 40 codewords (03 R78). -/
def codewords (bits : List Bool) : List (List Sym) :=
  (groups 5140 40 bits).map (fun g => rsEncode ((groups 10 514 g).map (fun b => BitVec.ofNat 10 (natOf b))))

/-- What the transmitter drives: 0 nothing, 1 the frame, 2 a test pattern, 3 the received symbols (09 Tables 9.6, 9.7, R243, R246). -/
def padsOutput (s : State) (l : Nat) : Nat :=
  let d := (lane s l).sd
  if !txDrives s l then 0
  else if d.loop = 3 && !lineLol d then 3
  else if d.genEn then 2
  else 1

/-- What leaves at the ball: the same, squelched by `LINE_TX` in a near-end loop (09 Table 9.6). -/
def lineOutput (s : State) (l : Nat) : Nat := if txActive s l then padsOutput s l else 0

/-- What a near-end loop brings to the receiver of one section: the transmitter's own signal, or the frame ahead of it (09 R241). -/
def loopBits (loop : Nat) (t : TxSection) : List (List Bool) :=
  if loop = 2 then [sectionBits t] else if loop = 1 && decide (t.pads ≠ 0) then [outBits t.pads t] else []

/-- A section of undefined content, while the Lane Engine is being replaced (09 Table 9.8). -/
def undefSection (c l : Nat) : List Bool × List (List Sym) :=
  ((List.range 1150).map (fun i => decide (Config.freeAt c (0x098000000000 + 0x100000 * l + i) % 2 = 1)),
   (List.range 40).map (fun w => (List.range 544).map (fun i =>
     BitVec.ofNat 10 (Config.freeAt c (0x098000000000 + 0x100000 * l + 2048 + 544 * w + i)))))

/-- One section of the egress cycle in progress (03 R66). -/
def sectionTransmit (l : Nat) (s : State) : State :=
  let t := (lane s l).tx
  let sec := t.sec
  let (chan, s) := txChannel l s
  let mk := markerBits (txHeader s l sec) chan
  let bits := scramble sec s.clk.fc (txSeed t).seed (bitsOfBytes (txInfo s l sec))
  let down := engineDown s l
  let (umk, uws) := undefSection s.clk.free l
  let s := if down then (draw 0x098 s).2 else s
  let d := (lane s l).sd
  let sent : TxSection := {
    fc := s.clk.fc, cyc := s.clk.cyc, sec, marker := if down then umk else mk
    words := if down then uws else codewords bits, line := lineOutput s l, pads := padsOutput s l, pol := d.txPol
    echo := d.echo.take (d.echo.length - 2 * d.fill), prbs := (d.genPat, d.genReg) }
  let s := if d.loop = 3 then modSd l (fun d => { d with echo := d.echo.drop (d.echo.length - 2 * d.fill) }) s else s
  let s := if d.genEn then modSd l (fun d => { d with genReg := (prbsRun d.genPat d.genReg sectionLen).2 }) s else s
  modTx l (fun t => { t with
    sec := sec + 1, bip := bip8 ((bytesOfBits bits).drop 100), sent := some sent
    looped := let q := t.looped ++ loopBits d.loop sent; q.drop (q.length - 16) }) s

/-- The lane's framer sends: its transmitter is enabled, or its frames are looped (09 R241). -/
def framerRuns (s : State) (l : Nat) : Bool :=
  let d := (lane s l).sd
  running s && !laneFenced s l && decide (0 < s.clk.ticks) && (d.txEn || d.loop == 2)

/-- SECTION_TRANSMIT (03 R66): eight sections to an egress cycle. -/
def execSectionTransmit (l : Nat) (s : State) : Host.Outcome State Fault Refusal :=
  if laneOk l then
    if framerRuns s l && decide ((lane s l).tx.sec < 8) then .next (sectionTransmit l s) else .next s
  else .refused (.illFormed "SECTION_TRANSMIT")

end Sys2Proof.Machine
end

