-- ==== Sys2Proof/Machine/Late.lean ====
section
/-! DEFINITION. Lane, unit and failover rows with what follows from them in the other chapters (04, 09, 15). -/

namespace Sys2Proof.Machine

/-! ## Lanes -/

/-- LOS_WINDOW_END (09 R234). -/
def execLosWindowEnd (l a : Nat) (s : State) : Host.Outcome State Fault Refusal :=
  if laneOk l then .next (laneWatch s (losWindowEnd l a s)) else .refused (.illFormed "LOS_WINDOW_END")

/-- CDR_LOCK (09 R235). -/
def execCdrLock (l : Nat) (off : Int) (s : State) : Host.Outcome State Fault Refusal :=
  if laneOk l then .next (laneWatch s (cdrLock l off s)) else .refused (.illFormed "CDR_LOCK")

/-- CDR_LOSS_OF_LOCK (09 R235). -/
def execCdrLossOfLock (l : Nat) (s : State) : Host.Outcome State Fault Refusal :=
  if laneOk l then .next (laneWatch s (cdrLoss l s)) else .refused (.illFormed "CDR_LOSS_OF_LOCK")

/-- The received level of a valid header at the alignment position reaches the reference candidate of the lane (10 R257). -/
def markerQl (m : Marker) (s0 s : State) : State :=
  let x := lane s m.lane
  if running s0 && (lane s0 m.lane).sd.rxEn && !laneFenced s0 m.lane && x.al.pos == some m.pos && x.rx.hdrOk then laneQl m.lane x.rx.ql s
  else s

/-- MARKER_BLOCK_RECEIVED (04 R99 to R107). -/
def execMarkerBlockReceived (m : Marker) (s : State) : Host.Outcome State Fault Refusal :=
  if markerOk m then .next (laneWatch s (markerQl m s (markerStep m s))) else .refused (.illFormed "MARKER_BLOCK_RECEIVED")

/-- ALIGNMENT_LOSS (04 R102, R105). -/
def execAlignmentLoss (l : Nat) (s : State) : Host.Outcome State Fault Refusal :=
  if laneOk l then .next (laneWatch s (alignmentLoss l s)) else .refused (.illFormed "ALIGNMENT_LOSS")

/-! ## Port E -/

/-- A 32-bit write to the host register page, whichever its register (12 R320 to R324, R327, R330, R332, R342). -/
def pageWrite (off : Nat) (v : Word) (s : State) : State :=
  if 0x40 ≤ off && off < 0xA0 && off % 16 = 4 then ringCfgWrite ((off - 0x40) / 16) v s
  else if 0x40 ≤ off && off < 0x80 && off % 16 = 12 then commandDoorbell ((off - 0x40) / 16) (fld v 15 0) s
  else if off = 0x8C then replyDoorbell s
  else if off = 0x9C then consumerWrite (fld v 15 0) s
  else if off = 0x100 then irqClear v s
  else regWrite off v s

/-- A 32-bit read of the host register page: `EVT_LOST` is cleared by its read (12 R324). -/
def pageRead (off : Nat) (s : State) : Word × State :=
  (regRead off s, if off = 0x10C then { s with io := { s.io with lost := 0 } } else s)

/-- An access through the LWP with `LW_A[23]` = 1 (12 R319, R320): the doorbell page, bytes 0x000 to 0xFFF of the host register
page by `LW_A[11:2]`; any size but 32 bits reads 0 and writes nothing. -/
def doorbellPage (e : PortEAccess) (s : State) : State :=
  let off := e.addr % 4096
  if e.write then (if e.be = 0b1111 then pageWrite off e.data s else s)
  else
    let (v, s) := if e.be = 0b1111 then pageRead off s else (0, s)
    { s with mem := { s.mem with readE := v, warned := false } }

/-- The ports have their supplies: not OFF, nor RETENTION with its data rails removed (16 R424, R440). -/
def portsUp (d : Dev) : Bool := d.powered && !d.railsOff

/-- WINDOW_MEMORY_ACCESS (13 R352 to R356; 12 R319): an access with `LW_A[23]` = 1 takes no bank cycle of its own, and one of a master
that a lock of T0 holds off is not served in it (13 R365). -/
def execWindowMemoryAccess (e : Option PortEAccess) (i : Option PortIAccess) (ecc : Option EccHit) (s : State) :
    Host.Outcome State Fault Refusal :=
  if !portsUp s.dev then .next s else
  let i := i.filter (fun i => lockAllows s 0 i.master)
  match e with
  | some a =>
    if 0x800000 ≤ a.addr && a.addr % 4 = 0 && a.addr < 0x1000000 then
      match windowServe none i ecc s with
      | .next t => .next (doorbellPage a t)
      | o => o
    else windowServe e i ecc s
  | none => windowServe e i ecc s

/-! ## The Bus Matrix (13 R365 to R367) -/

/-- Writes of a burst to the host register page, register by register. -/
def burstPage (off : Nat) : List Byte → Nat → State → State
  | _, 0, s => s
  | bs, n + 1, s => burstPage (off + 4) (bs.drop 4) n (pageWrite off (wd (leNat (bs.take 4))) s)

/-- Reads of a burst from the host register page. -/
def burstPageRead (off : Nat) : Nat → State → List Byte × State
  | 0, s => ([], s)
  | n + 1, s =>
    let (v, s) := pageRead off s
    let (bs, s) := burstPageRead (off + 4) n s
    (leBytes 4 v.toNat ++ bs, s)

/-- A granted burst is served by its target (13 R365, R367, Table 13.5). Writes to T3 are ignored (14 R381), and so are writes
to T4 but those of M4; T7 is the host register page (12 R321). What M4 writes to T4 are the keys that CIPH_KEY_LOAD loads, and what is written to T1, T5 and T6 are the
settings and images of the commands on the immediate path (01 R21) and of the save: those rows give the effect, and the burst
that carries it has none of its own (log 52). -/
def burstServe (t : Nat) (b : Burst) (s : State) : Host.Outcome State Fault Refusal :=
  let s' := burstLock t b s
  let n := 8 * b.beats
  if t = 8 || !(addresses b.master).contains t then .next (burstError b s)
  else match t with
    | 0 => windowServe none (some { master := b.master, write := b.write, addr := b.addr, len := n, data := burstBytes b }) none s'
    | 2 =>
      if b.write then .next (burstRead [] false (apertureServe (burstAperture b.master b.addr (burstBytes b) (2 * b.beats) s')))
      else .next (burstRead ((List.range (2 * b.beats)).flatMap (fun i => leBytes 4 (apertureRead s (b.addr + 4 * i)).toNat)) false s')
    | 3 =>
      if b.write then .next (burstRead [] false s')
      else .next (burstRead ((List.range b.beats).flatMap (fun i => counterBytes (counter s ((b.addr - 0x08000000) / 8 + i)))) false s')
    | 4 =>
      if b.write then .next (burstRead [] false s')
      else if b.master = 4 || (priorities s)[1]? == some b.master then
        let (bs, s') := freeBytes 0x13674 n s'
        .next (burstRead bs false s')
      else .next (burstRead (List.replicate n 0) false s')
    | 7 =>
      if b.write then .next (burstRead [] false (burstPage (b.addr - 0x0F000000) (burstBytes b) (2 * b.beats) s'))
      else
        let (bs, s') := burstPageRead (b.addr - 0x0F000000) (2 * b.beats) s'
        .next (burstRead bs false s')
    | _ =>
      if b.write then .next (burstRead [] false s')
      else
        let (bs, s') := freeBytes (0x13670 + t) n s'
        .next (burstRead bs false s')

/-- BUS_MATRIX_BURST (13 R365 to R367): the target grants one of the bursts that wait at it. -/
def execBusMatrixBurst (reqs : List Burst) (t : Nat) (s : State) : Host.Outcome State Fault Refusal :=
  if !reqs.all (burstOk t) then .refused (.illFormed "BUS_MATRIX_BURST")
  else if !portsUp s.dev then .next s
  else match granted s t reqs with
    | some b => burstServe t b s
    | none => .next s

/-! ## Units -/

/-- TICK_GENERATOR_FAILURE (02 R65): where it fences the dies, the members of their lanes lose alignment at once (04 R114). -/
def execTickGeneratorFailure (s : State) : Host.Outcome State Fault Refusal :=
  if running s then .next (laneWatch s (tickFailure s)) else .next s

/-- The Health and Wear Monitor fails (15 R406, Table 15.6): reported by the active processor, with pool code 0xE. -/
def monitorFails (u : Nat) (s : State) : State :=
  if s.health.failed then s else unitFail 0xE (u % 8192) { s with health := { s.health with failed := true } }

/-- A pool-0 swap that ended without a cutover: the lane's timers go on. -/
def swapGone (s0 s : State) : State :=
  match swapOf s0 0, swapOf s 0 with
  | some w, none => laneResume w.unit s
  | _, _ => s

/-- UNIT_HARD_FAILURE: pools 0 to 7 (15 R403, R404), and with pool code 0xF a lane's SerDes (09 R253), judged by the monitor while it
works; pool code 0xE for the monitor itself (15 R406). -/
def execUnitHardFailure (p u : Nat) (ofSpare : Bool) (s : State) : Host.Outcome State Fault Refusal :=
  if p < 8 && u < poolUnits p then
    if s.health.failed then .next s else .next (swapGone s (engineSwap s (hardFailure p u ofSpare s)))
  else if p = 14 then .next (monitorFails u s)
  else if p = 15 && laneOk u then (if s.health.failed then .next s else .next (laneWatch s (serdesFail u s)))
  else .refused (.illFormed "UNIT_HARD_FAILURE")

/-- A cutover, with the lanes it brings back and the next swap of the pool. -/
def cutoverStep (p : Nat) (w : Swap) (s : State) : State :=
  let s := swapEnded p w.unit (cutover p w s)
  match if p = 0 then swapOf s 0 else none with
  | some x => sealSwap x.unit (laneHold x.unit s)
  | none => s

/-- SPARE_CUTOVER (15 R402): a mirrored pool cuts over at a cycle boundary once its mirror has lasted. -/
def execSpareCutover (p : Nat) (s : State) : Host.Outcome State Fault Refusal :=
  match swapOf s p with
  | none => .next s
  | some w => if 3 ≤ p && (nsOf s.clk ≠ 0 || s.clk.ticks < w.tick + mirrorCycles p) then .next s else .next (cutoverStep p w s)

/-! ## Failover -/

/-- FAILOVER_GAP_END (15 R395, R396, R421): the rules of protection are evaluated again (08 R227). -/
def execFailoverGapEnd (s : State) : Host.Outcome State Fault Refusal :=
  match s.cp.gap with
  | some (t0, cause, old, new) => .next (protSync (repliesDue (handoverReply new (gapEnd t0 cause old new s))))
  | none => .next s

end Sys2Proof.Machine
end

