-- ==== Sys2Proof/Machine/Dispatch.lean ====
section
/-! DEFINITION. The meaning of each command: one arm per constructor, one call per arm. -/

namespace Sys2Proof.Machine

def exec (i : Instr) (s : State) : Host.Outcome State Fault Refusal :=
  match i with
  | .sysNop p => Sys2Proof.Machine.execSysNop p s
  | .sysAbort p => Sys2Proof.Machine.execSysAbort p s
  | .sysModeSet p => Sys2Proof.Machine.execSysModeSet p s
  | .sysModeGet p => Sys2Proof.Machine.execSysModeGet p s
  | .sysFenceSet p => Sys2Proof.Machine.execSysFenceSet p s
  | .sysAuthSet p => Sys2Proof.Machine.execSysAuthSet p s
  | .sysIoSet p => Sys2Proof.Machine.execSysIoSet p s
  | .sysIoGet p => Sys2Proof.Machine.execSysIoGet p s
  | .laneFrameSet p => Sys2Proof.Machine.execLaneFrameSet p s
  | .laneFrameGet p => Sys2Proof.Machine.execLaneFrameGet p s
  | .laneSeedSet p => Sys2Proof.Machine.execLaneSeedSet p s
  | .laneMsgSend p => Sys2Proof.Machine.execLaneMsgSend p s
  | .laneMsgRead p => Sys2Proof.Machine.execLaneMsgRead p s
  | .laneAlignSet p => Sys2Proof.Machine.execLaneAlignSet p s
  | .laneAlignGet p => Sys2Proof.Machine.execLaneAlignGet p s
  | .laneDefectSet p => Sys2Proof.Machine.execLaneDefectSet p s
  | .laneDefectGet p => Sys2Proof.Machine.execLaneDefectGet p s
  | .laneTxSet p => Sys2Proof.Machine.execLaneTxSet p s
  | .laneRxSet p => Sys2Proof.Machine.execLaneRxSet p s
  | .laneSerdesGet p => Sys2Proof.Machine.execLaneSerdesGet p s
  | .laneLoopSet p => Sys2Proof.Machine.execLaneLoopSet p s
  | .tribMapLoad p => Sys2Proof.Machine.execTribMapLoad p s
  | .tribSet p => Sys2Proof.Machine.execTribSet p s
  | .tribGet p => Sys2Proof.Machine.execTribGet p s
  | .tribTimingSet p => Sys2Proof.Machine.execTribTimingSet p s
  | .tribDefectProfileSet p => Sys2Proof.Machine.execTribDefectProfileSet p s
  | .tribDefectSet p => Sys2Proof.Machine.execTribDefectSet p s
  | .tribDefectGet p => Sys2Proof.Machine.execTribDefectGet p s
  | .accordSet p => Sys2Proof.Machine.execAccordSet p s
  | .accordMemberSet p => Sys2Proof.Machine.execAccordMemberSet p s
  | .accordGet p => Sys2Proof.Machine.execAccordGet p s
  | .accordStoreGet p => Sys2Proof.Machine.execAccordStoreGet p s
  | .connSet p => Sys2Proof.Machine.execConnSet p s
  | .connGet p => Sys2Proof.Machine.execConnGet p s
  | .connLoad p => Sys2Proof.Machine.execConnLoad p s
  | .connDelay p => Sys2Proof.Machine.execConnDelay p s
  | .connEqSet p => Sys2Proof.Machine.execConnEqSet p s
  | .connEqGet p => Sys2Proof.Machine.execConnEqGet p s
  | .connOccupancyGet p => Sys2Proof.Machine.execConnOccupancyGet p s
  | .protGroupSet p => Sys2Proof.Machine.execProtGroupSet p s
  | .protCmd p => Sys2Proof.Machine.execProtCmd p s
  | .protGet p => Sys2Proof.Machine.execProtGet p s
  | .timeRefSet p => Sys2Proof.Machine.execTimeRefSet p s
  | .timeRefGet p => Sys2Proof.Machine.execTimeRefGet p s
  | .timeSelSet p => Sys2Proof.Machine.execTimeSelSet p s
  | .timeDpllGet p => Sys2Proof.Machine.execTimeDpllGet p s
  | .timeDpllSteer p => Sys2Proof.Machine.execTimeDpllSteer p s
  | .timeOutSet p => Sys2Proof.Machine.execTimeOutSet p s
  | .timeTodSet p => Sys2Proof.Machine.execTimeTodSet p s
  | .timeTickSet p => Sys2Proof.Machine.execTimeTickSet p s
  | .timeTickGet p => Sys2Proof.Machine.execTimeTickGet p s
  | .sealTxSet p => Sys2Proof.Machine.execSealTxSet p s
  | .sealRxSet p => Sys2Proof.Machine.execSealRxSet p s
  | .sealFlip p => Sys2Proof.Machine.execSealFlip p s
  | .sealGet p => Sys2Proof.Machine.execSealGet p s
  | .ciphKeyLoad p => Sys2Proof.Machine.execCiphKeyLoad p s
  | .ciphKeyErase p => Sys2Proof.Machine.execCiphKeyErase p s
  | .ciphKeyGet p => Sys2Proof.Machine.execCiphKeyGet p s
  | .ciphChanSet p => Sys2Proof.Machine.execCiphChanSet p s
  | .ciphOp p => Sys2Proof.Machine.execCiphOp p s
  | .memTestStart p => Sys2Proof.Machine.execMemTestStart p s
  | .memTestGet p => Sys2Proof.Machine.execMemTestGet p s
  | .memFenceSet p => Sys2Proof.Machine.execMemFenceSet p s
  | .cntSelect p => Sys2Proof.Machine.execCntSelect p s
  | .cntRead p => Sys2Proof.Machine.execCntRead p s
  | .cntDump p => Sys2Proof.Machine.execCntDump p s
  | .evtMark p => Sys2Proof.Machine.execEvtMark p s
  | .evtLogRead p => Sys2Proof.Machine.execEvtLogRead p s
  | .saveConfigSet p => Sys2Proof.Machine.execSaveConfigSet p s
  | .saveGet p => Sys2Proof.Machine.execSaveGet p s
  | .saveTest p => Sys2Proof.Machine.execSaveTest p s
  | .testPrbsSet p => Sys2Proof.Machine.execTestPrbsSet p s
  | .testPrbsGet p => Sys2Proof.Machine.execTestPrbsGet p s
  | .testEyeScan p => Sys2Proof.Machine.execTestEyeScan p s
  | .healthGet p => Sys2Proof.Machine.execHealthGet p s
  | .healthSpareSwap p => Sys2Proof.Machine.execHealthSpareSwap p s
  | .healthSpareGet p => Sys2Proof.Machine.execHealthSpareGet p s
  | .healthCpGet p => Sys2Proof.Machine.execHealthCpGet p s
  | .commandDoorbell ring value => Sys2Proof.Machine.execCommandDoorbell ring value s
  | .replyRingDoorbell value => Sys2Proof.Machine.execReplyRingDoorbell value s
  | .eventConsumerIndexWrite value => Sys2Proof.Machine.execEventConsumerIndexWrite value s
  | .ringEnable ring value => Sys2Proof.Machine.execRingEnable ring value s
  | .ringDisable ring value => Sys2Proof.Machine.execRingDisable ring value s
  | .irqStatusClear value => Sys2Proof.Machine.execIrqStatusClear value s
  | .evtLostRead => Sys2Proof.Machine.execEvtLostRead s
  | .registerWrite offset size value => Sys2Proof.Machine.execRegisterWrite offset size value s
  | .windowMemoryAccess e p ecc => Sys2Proof.Machine.execWindowMemoryAccess e p ecc s
  | .busMatrixBurst reqs target => Sys2Proof.Machine.execBusMatrixBurst reqs target s
  | .matrixLockTimeout target => Sys2Proof.Machine.execMatrixLockTimeout target s
  | .apertureWrite master addr data => Sys2Proof.Machine.execApertureWrite master addr data s
  | .commandDecode ring => Sys2Proof.Machine.execCommandDecode ring s
  | .descriptorRecheck ring chan => Sys2Proof.Machine.execDescriptorRecheck ring chan s
  | .ciphOpStart => Sys2Proof.Machine.execCiphOpStart s
  | .ciphOpResume => Sys2Proof.Machine.execCiphOpResume s
  | .ciphOpComplete => Sys2Proof.Machine.execCiphOpComplete s
  | .eyeScanComplete lane counts centres uv => Sys2Proof.Machine.execEyeScanComplete lane counts centres uv s
  | .memTestComplete repaired unrepaired => Sys2Proof.Machine.execMemTestComplete repaired unrepaired s
  | .grainCycleTick meas => Sys2Proof.Machine.execGrainCycleTick meas s
  | .frameTick meas => Sys2Proof.Machine.execFrameTick meas s
  | .crossoverPass badEntries words => Sys2Proof.Machine.execCrossoverPass badEntries words s
  | .sectionTransmit lane => Sys2Proof.Machine.execSectionTransmit lane s
  | .markerBlockReceived m => Sys2Proof.Machine.execMarkerBlockReceived m s
  | .alignmentLoss lane => Sys2Proof.Machine.execAlignmentLoss lane s
  | .decisionWindowEnd lane => Sys2Proof.Machine.execDecisionWindowEnd lane s
  | .laneAlignRecovery lane => Sys2Proof.Machine.execLaneAlignRecovery lane s
  | .sectionDecoded lane codewords => Sys2Proof.Machine.execSectionDecoded lane codewords s
  | .losWindowEnd lane amplitude => Sys2Proof.Machine.execLosWindowEnd lane amplitude s
  | .cdrLock lane offset => Sys2Proof.Machine.execCdrLock lane offset s
  | .cdrLossOfLock lane => Sys2Proof.Machine.execCdrLossOfLock lane s
  | .goodSetRefresh lane good => Sys2Proof.Machine.execGoodSetRefresh lane good s
  | .laneLoopSlip m => Sys2Proof.Machine.execLaneLoopSlip m s
  | .prbsCheckerLock lane bits => Sys2Proof.Machine.execPrbsCheckerLock lane bits s
  | .prbsCheckerLoss lane bits errors => Sys2Proof.Machine.execPrbsCheckerLoss lane bits errors s
  | .defectDeclare obj bit => Sys2Proof.Machine.execDefectDeclare obj bit s
  | .defectClear obj bit => Sys2Proof.Machine.execDefectClear obj bit s
  | .degWindowEnd ta => Sys2Proof.Machine.execDegWindowEnd ta s
  | .accordRealign accord => Sys2Proof.Machine.execAccordRealign accord s
  | .alignerUnitsReturn => Sys2Proof.Machine.execAlignerUnitsReturn s
  | .connEqLocked bind => Sys2Proof.Machine.execConnEqLocked bind s
  | .connEqLost bind => Sys2Proof.Machine.execConnEqLost bind s
  | .updatePortCommit => Sys2Proof.Machine.execUpdatePortCommit s
  | .protSwitchStart group => Sys2Proof.Machine.execProtSwitchStart group s
  | .protHoldOffExpiry group => Sys2Proof.Machine.execProtHoldOffExpiry group s
  | .protWtrExpiry group => Sys2Proof.Machine.execProtWtrExpiry group s
  | .ftickWordReceived widths => Sys2Proof.Machine.execFtickWordReceived widths s
  | .ppsInEdge phase => Sys2Proof.Machine.execPpsInEdge phase s
  | .todInMessage bytes => Sys2Proof.Machine.execTodInMessage bytes s
  | .todOutMessage => Sys2Proof.Machine.execTodOutMessage s
  | .refActivityLoss ref => Sys2Proof.Machine.execRefActivityLoss ref s
  | .freqMonitorUpdate meas => Sys2Proof.Machine.execFreqMonitorUpdate meas s
  | .macerationExpiry ref => Sys2Proof.Machine.execMacerationExpiry ref s
  | .selectorEvaluation => Sys2Proof.Machine.execSelectorEvaluation s
  | .dpllSwitchTimeout => Sys2Proof.Machine.execDpllSwitchTimeout s
  | .dpllUpdate phase freqErr dpll => Sys2Proof.Machine.execDpllUpdate phase freqErr dpll s
  | .dpllLock => Sys2Proof.Machine.execDpllLock s
  | .drydownUpdate dieTemp => Sys2Proof.Machine.execDrydownUpdate dieTemp s
  | .modelLearnUpdate dieTemp => Sys2Proof.Machine.execModelLearnUpdate dieTemp s
  | .xoFail => Sys2Proof.Machine.execXoFail s
  | .dpllFailure => Sys2Proof.Machine.execDpllFailure s
  | .tickGeneratorFailure => Sys2Proof.Machine.execTickGeneratorFailure s
  | .edgeLinkClockLoss die => Sys2Proof.Machine.execEdgeLinkClockLoss die s
  | .edgeDieFailure die => Sys2Proof.Machine.execEdgeDieFailure die s
  | .keyStoreAlarm causes => Sys2Proof.Machine.execKeyStoreAlarm causes s
  | .guardMeasurement meas => Sys2Proof.Machine.execGuardMeasurement meas s
  | .ioInputSample gpio alm => Sys2Proof.Machine.execIoInputSample gpio alm s
  | .eventAckPhaseEnd key => Sys2Proof.Machine.execEventAckPhaseEnd key s
  | .eventRingWrite => Sys2Proof.Machine.execEventRingWrite s
  | .eventHoldoffExpiry => Sys2Proof.Machine.execEventHoldoffExpiry s
  | .counterTapSample eccBad => Sys2Proof.Machine.execCounterTapSample eccBad s
  | .backgroundTestStripe => Sys2Proof.Machine.execBackgroundTestStripe s
  | .memRepair store kind location => Sys2Proof.Machine.execMemRepair store kind location s
  | .cpHeartbeatTimeout => Sys2Proof.Machine.execCpHeartbeatTimeout s
  | .cpMemoryError uncorrectable => Sys2Proof.Machine.execCpMemoryError uncorrectable s
  | .failoverGapEnd => Sys2Proof.Machine.execFailoverGapEnd s
  | .journalApply => Sys2Proof.Machine.execJournalApply s
  | .standbySelftestPass passed => Sys2Proof.Machine.execStandbySelftestPass passed s
  | .cpDigestExchange matched => Sys2Proof.Machine.execCpDigestExchange matched s
  | .cpRestartComplete cp => Sys2Proof.Machine.execCpRestartComplete cp s
  | .cpRevertHoldoffExpiry => Sys2Proof.Machine.execCpRevertHoldoffExpiry s
  | .svaHeartbeatTimeout => Sys2Proof.Machine.execSvaHeartbeatTimeout s
  | .unitHardFailure pool unit ofSpare => Sys2Proof.Machine.execUnitHardFailure pool unit ofSpare s
  | .spareCutover pool => Sys2Proof.Machine.execSpareCutover pool s
  | .healthWearSample meas => Sys2Proof.Machine.execHealthWearSample meas s
  | .serdesMarginScan lane height width => Sys2Proof.Machine.execSerdesMarginScan lane height width s
  | .capacitorMeasurement dropMv esrDropMv vholdMv => Sys2Proof.Machine.execCapacitorMeasurement dropMv esrDropMv vholdMv s
  | .saveStageRefresh => Sys2Proof.Machine.execSaveStageRefresh s
  | .saveTrigger pwrFail vinLow => Sys2Proof.Machine.execSaveTrigger pwrFail vinLow s
  | .saveComplete => Sys2Proof.Machine.execSaveComplete s
  | .bootStart inp => Sys2Proof.Machine.execBootStart inp s
  | .bootImagePoll => Sys2Proof.Machine.execBootImagePoll s
  | .bootComplete => Sys2Proof.Machine.execBootComplete s
  | .wakeStart inp => Sys2Proof.Machine.execWakeStart inp s
  | .resetAssert => Sys2Proof.Machine.execResetAssert s
  | .perstAssert => Sys2Proof.Machine.execPerstAssert s
  | .railLoss rail => Sys2Proof.Machine.execRailLoss rail s
  | .ppsInEdgeMissing => Sys2Proof.Machine.execPpsInEdgeMissing s
  | .pcieLinkDown => Sys2Proof.Machine.execPcieLinkDown s
  | .journalLag cp => Sys2Proof.Machine.execJournalLag cp s
  | .cceFault => Sys2Proof.Machine.execCceFault s
  | .stripeReturned faults repaired => Sys2Proof.Machine.execStripeReturned faults repaired s
  | .cntDumpBlock ring => Sys2Proof.Machine.execCntDumpBlock ring s
  | .checkpointComplete => Sys2Proof.Machine.execCheckpointComplete s
  | .unitRetestComplete passed => Sys2Proof.Machine.execUnitRetestComplete passed s
  | .adaptationConverged lane => Sys2Proof.Machine.execAdaptationConverged lane s
  | .alarmCauseEnded causes => Sys2Proof.Machine.execAlarmCauseEnded causes s
  | .jtagInstruction j => Sys2Proof.Machine.execJtagInstruction j s

end Sys2Proof.Machine
end

