-- ==== Sys2Proof/Machine/Step.lean ====
section
/-! DEFINITION. One step: the command at the front of the queue, or idling. -/

namespace Sys2Proof.Machine

/-- An empty queue: one nanosecond passes, up to the next tick while ticks come, and HALT or RETENTION asked for by a command
may be reached (16 R438, R439; log 1). -/
def idle (s : State) : State :=
  if ticking s && decide (s.clk.tickAt + cycleNs ≤ s.clk.now + 1) then s
  else haltDue { s with clk := { s.clk with now := s.clk.now + 1 } }

/-- One step of the block. -/
def step (s : State) : Host.Outcome State Fault Refusal :=
  match s.pending with
  | [] => .next (idle s)
  | c :: rest => exec c { s with pending := rest }

/-- The state with the command that a word spells at the front of its queue; no word spells one. -/
def State.withFetchWord (s : State) (nbits w : Nat) : State :=
  match decodeTableWord nbits w with
  | some c => { s with pending := c :: s.pending }
  | none => s

end Sys2Proof.Machine
end

