-- ==== Sys2Proof/Machine/Pins.lean ====
section
/-! DEFINITION. The pins: their states by mode, and the balls that carry them (chapter 17). -/

namespace Sys2Proof.Machine

/-! ## Pin states by mode (17 R458, R467, Table 17.13) -/

/-- State of a pin that is not a lane's. -/
inductive Pin where
  | unpowered | highZ | low | high | released
deriving DecidableEq, Repr

/-- A driven level. -/
def pinOf (b : Bool) : Pin := if b then .high else .low

/-- The mode columns of Table 17.13. -/
inductive PinMode where
  | off | reset | boot | run | retention | save | halt
deriving DecidableEq, Repr

/-- The column in force: OFF, reset, or by device mode; a wake has the states of RETENTION. -/
def pinMode (d : Dev) : PinMode :=
  if !d.powered then .off
  else if d.railsOff then .retention
  else if d.resetLow then .reset
  else match d.mode with
    | .boot => .boot
    | .retention => .retention
    | .save => .save
    | .halt => .halt
    | .commissioning | .service | .maintenance | .contained => .run

/-- `ALM_OUT_N` (15 R410, R412); in SAVE it holds what `SYS_IO_SET` set. -/
def almPin (s : State) : Pin :=
  match pinMode s.dev with
  | .off => .released
  | .reset | .boot | .retention | .halt => .low
  | .run | .save => if s.fio.alm then .low else .released

/-- `IRQ_N` (12 R324). -/
def irqNPin (s : State) : Pin :=
  match pinMode s.dev with
  | .off | .reset | .boot | .retention | .halt => .released
  | .run | .save => if irqPin s then .low else .released

/-- `GPIO` pin `n`: driven when it is an output whose driver the guard has not turned off (15 R410, Table 15.7). -/
def gpioPin (s : State) (n : Nat) : Pin :=
  match pinMode s.dev with
  | .off => .unpowered
  | .reset | .boot | .retention | .halt => .highZ
  | .run | .save => if s.fio.dir.getLsbD n && (tget noTime s.fio.offAt n).isNone then pinOf (s.fio.level.getLsbD n) else .highZ

/-- `REFOUT`, `PPS_OUT`, `TOD_OUT` and `FTICK_OUT`: low outside the running modes. -/
def outPin (s : State) (lvl : Bool) : Pin :=
  match pinMode s.dev with
  | .off => .unpowered
  | .run => pinOf lvl
  | .reset | .boot | .retention | .save | .halt => .low

/-- `PPS_OUT` (10 R275). -/
def ppsPin (s : State) : Pin := outPin s (ppsHigh s)

/-- `REFOUT` output `o` and `TOD_OUT` (10 R275, R276, R280). -/
def refoutPin (s : State) (o : Nat) : Pin := outPin s (refoutHigh s o)
def todOutPin (s : State) : Pin := outPin s (todOutHigh s)

/-- `FTICK_OUT` (02 R58, R64). -/
def ftickPin (s : State) : Pin := outPin s (ftickOut s)

/-- `WBUSY_N` while no access is in progress (17 R461). -/
def wbusyIdle (s : State) : Pin := if s.dev.powered then .high else .unpowered

/-- The LWP's control lines as sampled at an edge of `LW_CLK`. -/
structure LwpLines where
  csLow : Bool
  weLow : Bool
  oeLow : Bool
deriving DecidableEq, Repr

/-- An access starts at an edge (17 R461): `LW_CS_N` low, none in progress, `WBUSY_N` high at the edge before, and `LW_CS_N` not ignored,
as it is until the edge after a completion and the end of a warning period. -/
def lwpStarts (x : LwpLines) (busy busyHigh ignored : Bool) : Bool := x.csLow && !busy && busyHigh && !ignored

/-- The access that starts is a write, whatever the level of `LW_OE_N` (17 R461). -/
def lwpWrites (x : LwpLines) : Bool := x.weLow

/-- An `LW_D` line (17 R461, Table 17.13): driven only during a read while `LW_OE_N` is sampled low, in the modes that give the port its
accesses. -/
def lwdPin (s : State) (reading : Bool) (x : LwpLines) (b : Bool) : Pin :=
  match pinMode s.dev with
  | .off => .unpowered
  | .reset | .retention | .save => .highZ
  | .boot | .run | .halt => if reading && x.oeLow then pinOf b else .highZ

/-- A clock or data line of the boot SPI (17 Table 17.13): with the controller driving `b`, or nothing. What a line does while `CS_N` is
high outside reset is not given; the model leaves it undriven (DESIGN CHOICE, log 76). -/
def bspiLine (s : State) (b : Option Bool) : Pin :=
  match pinMode s.dev, b with
  | .off, _ => .unpowered
  | .boot, some b => pinOf b
  | _, _ => .highZ

/-- A clock or data line of the save SPI, whose controller reads in BOOT and writes in SAVE (17 R458, Table 17.13). -/
def sspiLine (s : State) (b : Option Bool) : Pin :=
  if !sspiPowered s.dev then .unpowered
  else match pinMode s.dev, b with
    | .boot, some b => pinOf b
    | .save, some b => pinOf b
    | .run, some b => pinOf b
    | _, _ => .highZ

/-- `BSPI_CS_N` and `SSPI_CS_N` while no access is in progress. -/
def bspiCs (s : State) : Pin := if s.dev.powered then .high else .unpowered
def sspiCs (s : State) : Pin := if sspiPowered s.dev then .high else .unpowered

/-- `VSAVE_OUT` is on (17 R458). -/
def vsaveOn (s : State) : Bool := vsaveSource s.dev != .off

/-- Default levels of the low-speed pins that have a weak pull (17 R459). -/
def weakPull (pin : String) : Option Bool :=
  if ["BOOT_MODE0", "BOOT_MODE1", "BOOT_MODE2", "TRST_N"].contains pin then some false
  else if ["TMS", "TDI", "PWR_FAIL_N", "BSPI_CS_N", "SSPI_CS_N"].contains pin then some true
  else none

/-- The JTAG identification code (17 R466). -/
def idcode : Word := 0x13F1054B

/-! ## The ball map (17 R451 to R453) -/

/-- What a ball carries. -/
inductive Ball where
  | vss | dnc | vddCore | vddEdge | vddaLn | vddhLn | vddIo18 | vdd3v3 | vddRet | vin12 | vhold
  /-- a leg of a lane's pair: transmit or receive, positive or negative -/
  | lane (l : Nat) (tx pos : Bool)
  /-- a low-speed signal -/
  | sig (name : String)
deriving DecidableEq, Repr

/-- The letters of row names, in index order (17 Table 17.1). -/
def rowLetters : List Char :=
  ['A', 'B', 'C', 'D', 'E', 'F', 'G', 'H', 'J', 'K', 'L', 'M', 'N', 'P', 'T', 'U', 'V', 'W', 'Y']

/-- Name of the row of index `r`, 1 to 68 (17 Table 17.1). -/
def rowName (r : Nat) : List Char :=
  let t := (r - 1) / 19
  let c := rowLetters.getD ((r - 1) % 19) 'A'
  if t = 0 then [c] else [rowLetters.getD (t - 1) 'A', c]

/-- A pair with legs P and N. -/
def pairSig (a : String) : List Ball := [.sig (a ++ "_P"), .sig (a ++ "_N")]

/-- Numbered signals from `i` up, or down. -/
def sigUp (a : String) (i n : Nat) : List Ball := (List.range n).map (fun k => .sig (a ++ toString (i + k)))
def sigDown (a : String) (i n : Nat) : List Ball := (List.range n).map (fun k => .sig (a ++ toString (i - k)))

/-- Four lanes of the PCIe port in one direction. -/
def peRow (d : String) : List Ball :=
  (List.range 4).flatMap (fun i => [.sig ("PE_" ++ d ++ "P" ++ toString i), .sig ("PE_" ++ d ++ "N" ++ toString i)])

/-- Quad SPI signals. -/
def spiRow (a : String) : List Ball := [.sig (a ++ "_CLK"), .sig (a ++ "_CS_N")] ++ sigUp (a ++ "_IO") 0 4

/-- The rows of the corner at row 1, column 1 (17 Table 17.3). -/
def cornerA : List (List Ball) :=
  [peRow "TX", peRow "RX",
   [.sig "PE_REFCLKP", .sig "PE_REFCLKN", .sig "PERST_N", .vss, .vss, .vss, .dnc, .dnc],
   [.sig "TCK", .sig "TMS", .sig "TDI", .sig "TDO", .sig "TRST_N", .dnc, .dnc, .dnc],
   spiRow "BSPI" ++ [.dnc, .dnc],
   spiRow "SSPI" ++ [.sig "VSAVE_OUT", .dnc]]

/-- The rows of the corner at row 1, column 63. -/
def cornerB : List (List Ball) :=
  (List.range 5).map (fun i => sigUp "LW_D" (6 * i) 6) ++
  [sigUp "LW_D" 30 2 ++ sigUp "LW_BE_N" 0 4,
   [.sig "LW_CLK", .sig "LW_CS_N", .sig "LW_WE_N", .sig "LW_OE_N", .sig "WBUSY_N", .sig "LW_A23"],
   sigDown "LW_A" 22 6]

/-- The rows of the corner at row 63 (`CF`), column 61. -/
def cornerC : List (List Ball) :=
  [sigDown "LW_A" 16 8, sigDown "LW_A" 8 7 ++ [.dnc],
   [.sig "RESET_N", .sig "PWR_FAIL_N"] ++ sigUp "BOOT_MODE" 0 3 ++ [.sig "IRQ_N", .sig "ALM_OUT_N", .sig "TAMPER_N"],
   sigUp "ALM_IN" 0 4 ++ List.replicate 4 .dnc,
   sigUp "GPIO" 0 8, sigUp "GPIO" 8 8]

/-- The rows of the corner at row 61 (`CD`), column 1. -/
def cornerD : List (List Ball) :=
  [pairSig "REFIN0" ++ pairSig "REFIN1" ++ pairSig "REFIN2",
   pairSig "REFIN3" ++ pairSig "REFIN4" ++ pairSig "REFIN5",
   pairSig "REFIN6" ++ pairSig "REFIN7" ++ [.vss, .vss],
   pairSig "XO_IN" ++ List.replicate 4 .vss,
   pairSig "REFOUT0" ++ pairSig "REFOUT1" ++ [.vss, .vss],
   pairSig "REFOUT2" ++ pairSig "REFOUT3" ++ [.vss, .vss],
   [.sig "PPS_IN", .sig "TOD_IN", .sig "PPS_OUT", .sig "TOD_OUT", .vss, .vss],
   [.sig "FTICK_IN", .sig "FTICK_OUT", .dnc, .dnc, .dnc, .vss]]

/-- A corner ball (17 Table 17.3), none outside the four regions. -/
def cornerBall (r c : Nat) : Option Ball :=
  let at_ (t : List (List Ball)) (r0 c0 : Nat) : Option Ball :=
    if r0 ≤ r && c0 ≤ c then (t[r - r0]?).bind (fun l => l[c - c0]?) else none
  (at_ cornerA 1 1).or ((at_ cornerB 1 63).or ((at_ cornerC 63 61).or (at_ cornerD 61 1)))

/-- The low-current supply balls of the central block (17 Table 17.4): rows `AT` (34) and `AV` (36), every other column. -/
def supplyBall (r c : Nat) : Option Ball :=
  if c % 2 = 1 || c < 16 || 42 < c then none
  else if r = 34 then some (if c ≤ 38 then .vddIo18 else .vdd3v3)
  else if r = 36 then some (if c ≤ 18 then .vdd3v3 else if c ≤ 34 then .vddRet else if c ≤ 38 then .vin12 else .vhold)
  else none

/-- A ball of the lane region of edge die `e`, at depth `d` and position `p` (17 R452). -/
def laneBall (e d p : Nat) : Ball :=
  let q := p - 9
  if d % 2 = 1 || q % 3 = 2 then .vss
  else .lane (36 * e + 18 * ((d - 2) / 4) + q / 3) (d == 2 || d == 6) (q % 3 == 0)

/-- A ball of the central block (17 R452). -/
def centreBall (r c : Nat) : Ball :=
  let k := min (min (r - 9) (60 - r)) (min (c - 9) (60 - c))
  if k = 0 || k = 5 then .vss
  else if k = 1 then .vddaLn
  else if k = 2 then (if (r + c) % 2 = 0 then .vddhLn else .vss)
  else if k = 3 || k = 4 then .vddEdge
  else match supplyBall r c with
    | some b => b
    | none => if (r + c) % 2 = 0 then .vddCore else .vss

/-- Function of the ball at row index `r` and column `c`, each 1 to 68 (17 R452). -/
def ballRole (r c : Nat) : Ball :=
  match cornerBall r c with
  | some b => b
  | none =>
    if r ≤ 8 && 9 ≤ c && c ≤ 62 then laneBall 0 r c
    else if 61 ≤ c && 9 ≤ r && r ≤ 62 then laneBall 1 (69 - c) r
    else if 61 ≤ r && 7 ≤ c && c ≤ 60 then laneBall 2 (69 - r) (69 - c)
    else if c ≤ 8 && 7 ≤ r && r ≤ 60 then laneBall 3 c (69 - r)
    else centreBall r c

end Sys2Proof.Machine
end

