-- ==== Sys2Proof/Safety.lean ====
section
/-! DEFINITION. What a safe state is, and the terms that claims are stated in: when a command packet is accepted and how it is
answered. -/

namespace Sys2Proof.Machine

/-! ## Safe states -/

/-- While a ring is enabled its `DEV_INDEX` names a slot of it (12 R323, R328). -/
def RingOk (g : Ring) : Prop := g.en = true → g.index < slots g

/-- Every ring that differs from its reset layout is as `RingOk` says; the reset layout is (12 Table 12.5). -/
def RingsOk (t : Tbl Ring) : Prop := ∀ x ∈ t, RingOk x.2

/-- The event queue and the tail hold at most 4,096 records (12 R342; 15 R417), the fault history 256 (15 R417). -/
def EvtOk (e : Evt) : Prop := e.queue.length ≤ 4096 ∧ e.tail.length ≤ 4096 ∧ e.log.length ≤ 256

/-- A key slot that is not loaded holds no key (11 R304), and no slot's count passes its limit (11 R303). -/
def SlotOk (k : KeySlot) : Prop := (k.loaded = false → k.key = []) ∧ k.count ≤ k.limM1 + 1

/-- Every seal and command key slot is as `SlotOk` says. -/
def KeysOk (k : Keys) : Prop := (∀ x ∈ k.sealS, SlotOk x.2) ∧ (∀ x ∈ k.cmdS, SlotOk x.2)

/-- The states that no command leaves: the Window Memory is in its canonical form, enabled rings point into their areas, the
event buffers are within their sizes, no key outlives its slot or its limit, and the cycle number is 0 to 7 (02 R40). -/
structure Inv (s : State) : Prop where
  wm    : Memory.wf s.wm = true
  rings : RingsOk s.io.rings
  evt   : EvtOk s.evt
  keys  : KeysOk s.keys
  cyc   : s.clk.cyc < 8

/-! ## Command packets -/

/-- Packet `p` of opcode `o` is decoded now and passes every check of 12 R334 before the command's own; `s1` is what the checks
leave: the journal record and, with an authenticator, one more count on the slot (12 R339). -/
def Accepted (o : Op) (p : Packet) (s s1 : State) : Prop :=
  canDecode o p s = true ∧ packetChecks o p (jrnl 0 p.ring p.tag s) = (none, s1)

/-- The command is answered with a status and reply words, and leaves `t` but for the reply (12 R331). -/
def answered (o : Op) (p : Packet) (st : Status) (ws : List Word) (t : State) : Host.Outcome State Fault Refusal :=
  .next (writeReply (packetEcho o p) st ws t)

/-- The command goes on, with `w` to wait for (12 R331). -/
def goesOn (o : Op) (p : Packet) (w : Work) (image : List Byte) (taken : List Nat) (t : State) : Host.Outcome State Fault Refusal :=
  .next (setJob p.ring (some (packetJob o p w image taken)) t)

/-- The command that a job came from was the next one for the update port in state `s`, and `s1` is `s` with this moment's
commit slot used (01 R23; 06 R169; 12 R336). -/
def PortTurn (j : Job) (s s1 : State) : Prop :=
  portOpen s = true ∧ nextGroup s = none ∧ s.port.waiting = [] ∧ findJob s wantsPort = some j ∧ s1 = takeSlot s

/-- The rows that move the clock: the ticks, and those that stop or restart the device (02 R40; 16 Table 16.1). -/
def movesClock : Instr → Bool
  | .grainCycleTick _ | .frameTick _ | .saveComplete | .bootComplete | .resetAssert | .railLoss _ => true
  | _ => false

/-- The opcode and packet of a host command (12 Table 12.10). -/
def hostOp : Instr → Option (Op × Packet)
  | .sysNop p => some (opSysNop, p)
  | .sysAbort p => some (opSysAbort, p)
  | .sysModeSet p => some (opSysModeSet, p)
  | .sysModeGet p => some (opSysModeGet, p)
  | .sysFenceSet p => some (opSysFenceSet, p)
  | .sysAuthSet p => some (opSysAuthSet, p)
  | .sysIoSet p => some (opSysIoSet, p)
  | .sysIoGet p => some (opSysIoGet, p)
  | .laneFrameSet p => some (opLaneFrameSet, p)
  | .laneFrameGet p => some (opLaneFrameGet, p)
  | .laneSeedSet p => some (opLaneSeedSet, p)
  | .laneMsgSend p => some (opLaneMsgSend, p)
  | .laneMsgRead p => some (opLaneMsgRead, p)
  | .laneAlignSet p => some (opLaneAlignSet, p)
  | .laneAlignGet p => some (opLaneAlignGet, p)
  | .laneDefectSet p => some (opLaneDefectSet, p)
  | .laneDefectGet p => some (opLaneDefectGet, p)
  | .laneTxSet p => some (opLaneTxSet, p)
  | .laneRxSet p => some (opLaneRxSet, p)
  | .laneSerdesGet p => some (opLaneSerdesGet, p)
  | .laneLoopSet p => some (opLaneLoopSet, p)
  | .tribMapLoad p => some (opTribMapLoad, p)
  | .tribSet p => some (opTribSet, p)
  | .tribGet p => some (opTribGet, p)
  | .tribTimingSet p => some (opTribTimingSet, p)
  | .tribDefectProfileSet p => some (opTribDefectProfileSet, p)
  | .tribDefectSet p => some (opTribDefectSet, p)
  | .tribDefectGet p => some (opTribDefectGet, p)
  | .accordSet p => some (opAccordSet, p)
  | .accordMemberSet p => some (opAccordMemberSet, p)
  | .accordGet p => some (opAccordGet, p)
  | .accordStoreGet p => some (opAccordStoreGet, p)
  | .connSet p => some (opConnSet, p)
  | .connGet p => some (opConnGet, p)
  | .connLoad p => some (opConnLoad, p)
  | .connDelay p => some (opConnDelay, p)
  | .connEqSet p => some (opConnEqSet, p)
  | .connEqGet p => some (opConnEqGet, p)
  | .connOccupancyGet p => some (opConnOccupancyGet, p)
  | .protGroupSet p => some (opProtGroupSet, p)
  | .protCmd p => some (opProtCmd, p)
  | .protGet p => some (opProtGet, p)
  | .timeRefSet p => some (opTimeRefSet, p)
  | .timeRefGet p => some (opTimeRefGet, p)
  | .timeSelSet p => some (opTimeSelSet, p)
  | .timeDpllGet p => some (opTimeDpllGet, p)
  | .timeDpllSteer p => some (opTimeDpllSteer, p)
  | .timeOutSet p => some (opTimeOutSet, p)
  | .timeTodSet p => some (opTimeTodSet, p)
  | .timeTickSet p => some (opTimeTickSet, p)
  | .timeTickGet p => some (opTimeTickGet, p)
  | .sealTxSet p => some (opSealTxSet, p)
  | .sealRxSet p => some (opSealRxSet, p)
  | .sealFlip p => some (opSealFlip, p)
  | .sealGet p => some (opSealGet, p)
  | .ciphKeyLoad p => some (opCiphKeyLoad, p)
  | .ciphKeyErase p => some (opCiphKeyErase, p)
  | .ciphKeyGet p => some (opCiphKeyGet, p)
  | .ciphChanSet p => some (opCiphChanSet, p)
  | .ciphOp p => some (opCiphOp, p)
  | .memTestStart p => some (opMemTestStart, p)
  | .memTestGet p => some (opMemTestGet, p)
  | .memFenceSet p => some (opMemFenceSet, p)
  | .cntSelect p => some (opCntSelect, p)
  | .cntRead p => some (opCntRead, p)
  | .cntDump p => some (opCntDump, p)
  | .evtMark p => some (opEvtMark, p)
  | .evtLogRead p => some (opEvtLogRead, p)
  | .saveConfigSet p => some (opSaveConfigSet, p)
  | .saveGet p => some (opSaveGet, p)
  | .saveTest p => some (opSaveTest, p)
  | .testPrbsSet p => some (opTestPrbsSet, p)
  | .testPrbsGet p => some (opTestPrbsGet, p)
  | .testEyeScan p => some (opTestEyeScan, p)
  | .healthGet p => some (opHealthGet, p)
  | .healthSpareSwap p => some (opHealthSpareSwap, p)
  | .healthSpareGet p => some (opHealthSpareGet, p)
  | .healthCpGet p => some (opHealthCpGet, p)
  | _ => none

end Sys2Proof.Machine
end

