-- ==== Sys2Proof/Certificates/Slice0/Obligations.lean ====
section
/-! DEFINITION. The statements for the provers. -/

open Sys2Proof Sys2Proof.Machine

/-- A step is the meaning of the command at the front of the queue, on the queue's rest. Rests on 12_command_plane.md R328, 00_scope.md. -/
def Obligations.StepRunsFront : Prop :=
  ∀ (c : Instr) (rest : List Instr) (s : State), s.pending = c :: rest → step s = exec c { s with pending := rest }

/-- On an empty queue one nanosecond passes, never past the next tick while ticks come. Rests on 02_grain_cycle.md R39, 16_modes_boot_power.md R438. -/
def Obligations.StepIdles : Prop :=
  ∀ s : State, s.pending = [] →
    step s = .next (if ticking s = true ∧ s.clk.tickAt + 15625 ≤ s.clk.now + 1 then s
      else haltDue { s with clk := { s.clk with now := s.clk.now + 1 } })

/-- No command touches the queue: a step takes its front element and nothing else. Rests on 12_command_plane.md R328, 12_command_plane.md R335. -/
def Obligations.QueueFirstInFirstOut : Prop :=
  ∀ (s t : State), step s = .next t → t.pending = s.pending.tail

/-- No step changes the identification record that the host reads. Rests on 12_command_plane.md R322, 00_scope.md R2, 00_scope.md R4. -/
def Obligations.IdentificationIsReadOnly : Prop :=
  ∀ (s t : State), step s = .next t → regRead 0x0 t = regRead 0x0 s ∧ regRead 0x4 t = regRead 0x4 s

/-- The state after reset is safe. Rests on 12_command_plane.md R325, 11_seal_and_cipher.md R315, 02_grain_cycle.md R40. -/
def Obligations.InvariantAtReset : Prop := Inv State.reset

/-- Every step keeps the safe states safe. Rests on 12_command_plane.md R323, 12_command_plane.md R328, 12_command_plane.md R342, 11_seal_and_cipher.md R303, 11_seal_and_cipher.md R304, 15_endurance_and_failover.md R417, 02_grain_cycle.md R40. -/
def Obligations.InvariantKeptByEveryStep : Prop :=
  ∀ (s t : State), Inv s → step s = .next t → Inv t

/-- A well-formed command answers a next state; only two kinds of access can stop. Rests on 00_scope.md R6, 12_command_plane.md R327, 13_window_memory_and_matrix.md R365. -/
def Obligations.WellFormedCommandsComplete : Prop :=
  (∀ (i : Instr) (s : State), i.wf = true → (∀ e p h, i ≠ .windowMemoryAccess e p h) → (∀ b n, i ≠ .busMatrixBurst b n) →
    ∃ t, exec i s = .next t) ∧
  (∀ e p h s, (Instr.windowMemoryAccess e p h).wf = true →
    (portsUp s.dev = false → exec (.windowMemoryAccess e p h) s = .next s) ∧
    (portsUp s.dev = true →
      (hostBreaks (e.filter (fun a => decide (a.addr < 0x800000))) (p.filter (fun i => lockAllows s 0 i.master)) s = true →
        exec (.windowMemoryAccess e p h) s = .fault (.obligationBroken "12 R327, R341")) ∧
      (hostBreaks (e.filter (fun a => decide (a.addr < 0x800000))) (p.filter (fun i => lockAllows s 0 i.master)) s = false →
        ∃ t, exec (.windowMemoryAccess e p h) s = .next t))) ∧
  (∀ b n s, (Instr.busMatrixBurst b n).wf = true →
    ((n ≠ 0 ∨ portsUp s.dev = false ∨ ∀ x, granted s 0 b = some x → (x.write && x.master == 2) = false) →
      ∃ t, exec (.busMatrixBurst b n) s = .next t) ∧
    ((∃ t, exec (.busMatrixBurst b n) s = .next t) ∨ exec (.busMatrixBurst b n) s = .fault (.obligationBroken "12 R327, R341")))

/-- A host command that is decoded now is refused by the first failing check, and a refusal changes nothing but the reply. Rests on 12_command_plane.md R334, 12_command_plane.md R331, 00_scope.md R4, 12_command_plane.md R348. -/
def Obligations.PacketCheckOrder : Prop :=
  ∀ (i : Instr) (o : Op) (p : Packet) (s : State), hostOp i = some (o, p) →
    (canDecode o p s = false → exec i s = .next s) ∧
    (canDecode o p s = true → present_ o.cls s = false → exec i s = answered o p .badOpcode [] (jrnl 0 p.ring p.tag s)) ∧
    (canDecode o p s = true → present_ o.cls s = true → ∀ st s1, authStage o p (jrnl 0 p.ring p.tag s) = (some st, s1) →
      exec i s = answered o p st [] s1) ∧
    (canDecode o p s = true → present_ o.cls s = true → ∀ s1, authStage o p (jrnl 0 p.ring p.tag s) = (none, s1) →
      formStage o p s1 = false → exec i s = answered o p .badParam [] s1)

/-- While REQUIRE is 1 every command but SYS_NOP and the _GET commands needs an authenticator; the NE has none. Formalises 12_command_plane.md R338. -/
def Obligations.AuthenticatorRequired : Prop :=
  let free (i : Instr) : Bool := match i with
    | .sysNop _ | .sysModeGet _ | .sysIoGet _ | .laneFrameGet _ | .laneAlignGet _ | .laneDefectGet _ | .laneSerdesGet _ | .tribGet _
    | .tribDefectGet _ | .accordGet _ | .accordStoreGet _ | .connGet _ | .connEqGet _ | .connOccupancyGet _ | .protGet _
    | .timeRefGet _ | .timeDpllGet _ | .timeTickGet _ | .sealGet _ | .ciphKeyGet _ | .memTestGet _ | .saveGet _ | .testPrbsGet _
    | .healthGet _ | .healthSpareGet _ | .healthCpGet _ => true
    | _ => false
  (∀ (p : Packet) (s s1 : State), Accepted opSysAuthSet p s s1 →
    exec (.sysAuthSet p) s = answered opSysAuthSet p .ok []
      { s1 with io := { s1.io with require := pb p.params 0 0, authSlot := some (pf p.params 0 6 1) } }) ∧
  ∀ (i : Instr) (o : Op) (p : Packet) (s : State), hostOp i = some (o, p) → canDecode o p s = true → present_ o.cls s = true →
    (s.dev.ne = false → s.io.require = true → p.auth = none →
      if free i then (authStage o p (jrnl 0 p.ring p.tag s)) = (none, jrnl 0 p.ring p.tag s)
      else exec i s = answered o p .authFail [] (jrnl 0 p.ring p.tag s)) ∧
    (s.dev.ne = false → ∀ tag n s1, p.auth = some tag → s.io.authSlot = some n →
      (o.cls = 1 ∧ o.act = 0x30 → pb p.params 0 0 = false) →
      authVerify n (packetHead o p) tag (jrnl 0 p.ring p.tag s) = (some .authFail, s1) → exec i s = answered o p .authFail [] s1) ∧
    (s.dev.ne = true → (p.auth.isSome ∨ (o.cls = 1 ∧ o.act = 0x30)) →
      exec i s = answered o p .notInMode [] (jrnl 0 p.ring p.tag s))

/-- Every check of an authenticator under a loaded, unexhausted cipher slot counts one invocation, pass or fail. Rests on 12_command_plane.md R339, 11_seal_and_cipher.md R303. -/
def Obligations.AuthenticatorCountsOnce : Prop :=
  ∀ (n : Nat) (head tag : List Byte) (s : State),
    ((cmdSlot s n).loaded = true → (cmdSlot s n).use = 1 → slotLeft (cmdSlot s n) 1 = true →
      authVerify n head tag s = (if authTag (cmdSlot s n) head = tag then none else some .authFail,
        setCmdSlot n { cmdSlot s n with count := (cmdSlot s n).count + 1 } s)) ∧
    ((cmdSlot s n).loaded = false ∨ (cmdSlot s n).use ≠ 1 ∨ slotLeft (cmdSlot s n) 1 = false →
      authVerify n head tag s = (some .authFail, s))

/-- A reply fills the slot at DEV_INDEX of ring 4 and changes no other byte, then DEV_INDEX advances and REPLY_READY is set. Rests on 12_command_plane.md R331, 12_command_plane.md R332, 12_command_plane.md R324, 00_scope.md R14. -/
def Obligations.ReplyWrittenWhole : Prop :=
  ∀ (o : Op) (p : Packet) (st : Status) (ws : List Word) (t u : State), Memory.wf t.wm = true → tblWf ringReset 0 t.io.rings = true →
    ws.length ≤ 12 → answered o p st ws t = .next u →
    (¬ (answers t = true ∧ replySlotOpen t = true ∧ t.io.late = []) →
      u = { t with io := { t.io with late := t.io.late ++ [{ echo := packetEcho o p, st := st, words := ws }] } }) ∧
    (answers t = true → replySlotOpen t = true → t.io.late = [] →
    let a := (ring t 4).base + 64 * (ring t 4).index
    let head := [BitVec.ofNat 8 o.cls, BitVec.ofNat 8 o.act, BitVec.ofNat 8 (64 * b2n p.abortable + 32 * b2n p.auth.isSome + ws.length),
      BitVec.ofNat 8 (statusCode st)] ++ leBytes 4 p.tag.toNat ++ padTo 48 0 (ws.flatMap (fun w => leBytes 4 w.toNat))
    (∀ i, i < 64 → testedAt t.mem.testing (a + i) = false) →
    readBytes u.wm a 64 = head ++ leBytes 4 (crc32c head).toNat ++ [0, 0, 0, 0] ∧
    (∀ b, b < a ∨ a + 64 ≤ b → memRead u.wm b = memRead t.wm b) ∧
    (∀ r, ring u r = if r = 4 then { ring t 4 with index := ((ring t 4).index + 1) % slots (ring t 4) } else ring t r) ∧
    u.io.irq = t.io.irq ||| 1#5 ∧ u.io.offered = t.io.offered - 1)

/-- CRC-32C by its parameters: generator 0x1EDC6F41, reflected input and output, initial value and final XOR all ones. Formalises 07_defects_and_integrity.md R201. -/
def Obligations.CrcIsThePolynomialsRemainder : Prop :=
  let step (c : BitVec 32) (b : Bool) : BitVec 32 := if c.msb != b then (c <<< 1) ^^^ 0x1EDC6F41 else c <<< 1
  let bits (b : Byte) : List Bool := (List.range 8).map b.getLsbD
  (∀ bs : List Byte, crc32c bs = ((bs.flatMap bits).foldl step 0xFFFFFFFF).reverse ^^^ 0xFFFFFFFF) ∧
  crc32c [0x31, 0x32, 0x33, 0x34, 0x35, 0x36, 0x37, 0x38, 0x39] = 0xE3069283 ∧
  (∀ (e : Echo) (st : Status) (ws : List Word), ws.length ≤ 12 →
    ((replyBytes e st ws).drop 56).take 4 = leBytes 4 (crc32c ((replyBytes e st ws).take 56)).toNat) ∧
  (∀ bs : List Byte, bs.length = 64 → (bs.getD 2 0).getLsbD 7 = false →
    packetCrcOk bs = decide ((bs.drop 56).take 4 = leBytes 4 (crc32c (bs.take 56)).toNat))

/-- Enabling a ring checks its size and area and restarts it; disabling stops it; both clear FAULT. Rests on 12_command_plane.md R323, 12_command_plane.md R330, 12_command_plane.md R348, 12_command_plane.md R332. -/
def Obligations.RingRegisterWrites : Prop :=
  ∀ (r : Nat) (v : Word) (s : State), r < 6 →
    let g := ring s r
    let size := v.toNat % 32
    let unit (q : Nat) := if q = 5 then 16 else 64
    let fits := 2 ≤ size ∧ size ≤ (if r = 5 then 16 else 12) ∧ g.base % unit r = 0 ∧ g.base + 2 ^ size * unit r ≤ 0x700000 ∧
      ∀ q, q < 6 → q ≠ r → (ring s q).en = true →
        (ring s q).base + 2 ^ (ring s q).size * unit q ≤ g.base ∨ g.base + 2 ^ size * unit r ≤ (ring s q).base
    let noOffer (t : State) : State := if r = 4 then { t with io := { t.io with offered := 0 } } else t
    let fresh (t : State) : State := if r = 5 then { t with evt := { t.evt with unread := [] } } else noOffer t
    (v.getLsbD 8 = true →
      (s.dev.ready = false ∨ g.en = true → exec (.ringEnable r v) s = .next s) ∧
      (s.dev.ready = true → g.en = false → fits → exec (.ringEnable r v) s =
        .next (fresh (setRing r { g with size, en := true, cfgErr := false, index := 0, fault := false, db := if r < 4 then 0 else g.db } s))) ∧
      (s.dev.ready = true → g.en = false → ¬ fits → exec (.ringEnable r v) s =
        .next (setRing r { g with size, cfgErr := true, fault := false } s))) ∧
    (v.getLsbD 8 = false →
      (s.dev.ready = false → exec (.ringDisable r v) s = .next s) ∧
      (s.dev.ready = true → g.en = true → exec (.ringDisable r v) s = .next (noOffer (setRing r { g with en := false, fault := false } s))) ∧
      (s.dev.ready = true → g.en = false → exec (.ringDisable r v) s = .next (noOffer (setRing r { g with size, fault := false } s))))

/-- Doorbells post a producer index, re-check reply slots and move the consumer index; an index out of range faults. Rests on 12_command_plane.md R327, 12_command_plane.md R330, 12_command_plane.md R332, 12_command_plane.md R342, 12_command_plane.md R348. -/
def Obligations.DoorbellWrites : Prop :=
  (∀ (r : Nat) (v : Word) (s : State), r < 4 → s.dev.ready = true →
    let g := ring s r
    let n := v.toNat % 65536
    let looked (t : State) : State := if running t = true ∧ t.dev.failover = false then
      (if r = 3 then (List.range 16).foldl (fun s c => opRecheck c s) (jobRecheck r t) else jobRecheck r t) else t
    (g.en = false → exec (.commandDoorbell r v) s = .next s) ∧
    (g.en = true → g.fault = true → exec (.commandDoorbell r v) s = .next (looked s)) ∧
    (g.en = true → g.fault = false → n < slots g → exec (.commandDoorbell r v) s = .next (looked (setRing r { g with db := n } s))) ∧
    (g.en = true → g.fault = false → slots g ≤ n →
      exec (.commandDoorbell r v) s = .next (looked (raise 0x01 0x01 r (wd g.index) false (irqRaise 3 (setRing r { g with fault := true } s)))))) ∧
  (∀ r s, job s r = none → jobRecheck r s = s) ∧ (∀ c s, s.keys.ops = [] → opRecheck c s = s) ∧
  (∀ (v : Word) (s : State), (ring s 4).en = false → exec (.replyRingDoorbell v) s = .next s) ∧
  (∀ (v : Word) (s : State), s.dev.ready = true → (ring s 4).en = true →
    exec (.replyRingDoorbell v) s = .next (sendLate s.io.late.length
      { s with io := { s.io with offered := countOffered s (ring s 4) (ring s 4).index (slots (ring s 4)) } })) ∧
  (∀ (n : Nat) (s : State), s.io.late = [] ∨ answers s = false ∨ replySlotOpen s = false → sendLate n s = s) ∧
  (∀ (n : Nat) (s : State) (x : LateReply) (l : List LateReply), s.io.late = x :: l → answers s = true → replySlotOpen s = true →
    sendLate (n + 1) s = sendLate n (putReply x.echo x.st x.words { s with io := { s.io with late := l } })) ∧
  (∀ (v : Word) (s : State), s.dev.ready = true →
    let n := v.toNat % 65536
    let g := ring s 5
    (n < slots g → exec (.eventConsumerIndexWrite v) s = .next { setRing 5 { g with db := n } s with
      evt := { s.evt with unread := s.evt.unread.drop (s.evt.unread.length - (g.index + slots g - n) % slots g) } }) ∧
    (slots g ≤ n → exec (.eventConsumerIndexWrite v) s = .next (raise 0x01 0x01 5 (wd n) false (irqRaise 3 s)))) ∧
  (∀ (r : Nat) (v : Word) (s : State), r < 4 → s.dev.ready = false →
    exec (.commandDoorbell r v) s = .next s ∧ exec (.replyRingDoorbell v) s = .next s ∧ exec (.eventConsumerIndexWrite v) s = .next s)

/-- Writing ones clears IRQ_STATUS bits whose cause is gone; EVT_LOST clears on reading; plain registers take aligned 32-bit writes. Rests on 12_command_plane.md R324, 12_command_plane.md R320, 00_scope.md R13, 12_command_plane.md R323. -/
def Obligations.InterruptRegisters : Prop :=
  (∀ (v : Word) (s : State), ∃ t, exec (.irqStatusClear v) s = .next t ∧ t.io.mask = s.io.mask ∧ t.io.rings = s.io.rings ∧
    (∀ b, b = 0 ∨ b = 2 ∨ b = 4 → t.io.irq.getLsbD b = (s.io.irq.getLsbD b && !v.getLsbD b)) ∧
    t.io.irq.getLsbD 1 = ((s.io.irq.getLsbD 1 && !v.getLsbD 1) || evtReady s) ∧
    t.io.irq.getLsbD 3 = ((s.io.irq.getLsbD 3 && !v.getLsbD 3) || (List.range 4).any (fun r => (ring s r).fault))) ∧
  (∀ s : State, exec .evtLostRead s = .next { s with io := { s.io with lost := 0 } }) ∧
  (∀ (v : Word) (s : State), exec (.registerWrite 0x104 4 v) s = .next { s with io := { s.io with mask := v.setWidth 5 } }) ∧
  (∀ (r : Nat) (v : Word) (s : State), r < 6 → s.dev.ready = true → (ring s r).en = false →
    exec (.registerWrite (0x40 + 16 * r) 4 v) s = .next (setRing r { ring s r with base := v.toNat % 2 ^ 23 } s)) ∧
  (∀ (off size : Nat) (v : Word) (s : State),
    size ≠ 4 ∨ off % 4 ≠ 0 ∨ (off ≠ 0x104 ∧ off ≠ 0x108 ∧ (off < 0x2000 ∨ 0x2040 ≤ off) ∧ ∀ r, r < 6 → off = 0x40 + 16 * r → (ring s r).en = true ∨ s.dev.ready = false) →
    exec (.registerWrite off size v) s = .next s) ∧
  (∀ (v : Word) (s : State),
    let t := { s with io := { s.io with thresh := v.toNat % 65536, holdoff := v.toNat / 65536 } }
    exec (.registerWrite 0x108 4 v) s = .next (if evtReady t then irqRaise 1 t else t)) ∧
  (∀ (k : Nat) (v : Word) (s : State), k < 4 →
    let m := tget msixReset s.io.msix k
    let put (m : Msix) : Host.Outcome State Fault Refusal := .next { s with io := { s.io with msix := tset msixReset k m s.io.msix } }
    let sends := v.getLsbD 0 = false ∧ m.pend = true ∧ s.io.pcie.msixOn = true ∧ s.io.pcie.msixMask = false ∧ irqSilent s.dev.mode = false
    exec (.registerWrite (0x2000 + 16 * k) 4 v) s = put { m with addr := m.addr / 2 ^ 32 * 2 ^ 32 + v.toNat / 4 * 4 } ∧
    exec (.registerWrite (0x2004 + 16 * k) 4 v) s = put { m with addr := m.addr % 2 ^ 32 + 2 ^ 32 * v.toNat } ∧
    exec (.registerWrite (0x2008 + 16 * k) 4 v) s = put { m with data := v } ∧
    (sends → exec (.registerWrite (0x200C + 16 * k) 4 v) s = put { m with masked := false, pend := false, sent := m.sent + 1 }) ∧
    (¬ sends → exec (.registerWrite (0x200C + 16 * k) 4 v) s = put { m with masked := v.getLsbD 0 }))

/-- COMMAND_DECODE copies the next slot, hands it back, advances and acts on the copy; an unowned slot faults the ring. Rests on 12_command_plane.md R328, 12_command_plane.md R330, 12_command_plane.md R332, 12_command_plane.md R334, 12_command_plane.md R348. -/
def Obligations.SlotDecode : Prop :=
  ∀ (r : Nat) (s : State), r < 4 →
    let open_ := s.dev.ready = true ∧ running s = true ∧ s.dev.failover = false ∧ s.save.haltAt = none ∧ outstanding s < s.io.offered ∧
      (ring s r).en = true ∧ (ring s r).fault = false ∧ job s r = none ∧ (ring s r).index ≠ (ring s r).db
    let a := (ring s r).base + 64 * (ring s r).index
    let bs := wmGet s a 64
    let t := setRing r { ring s r with index := ((ring s r).index + 1) % slots (ring s r) } (wmPut (a + 2) [memRead s.wm (a + 2) &&& 0x7F] s)
    let p := packetOf r bs
    (¬ open_ → exec (.commandDecode r) s = .next s) ∧
    (open_ → (bs.getD 2 0).getLsbD 7 = false → exec (.commandDecode r) s =
      .next (raise 0x01 0x01 r (wd (ring s r).index) false (irqRaise 3 (setRing r { ring s r with fault := true } s)))) ∧
    (open_ → (bs.getD 2 0).getLsbD 7 = true → slotWaits r bs s = false →
      (packetCrcOk bs = false → exec (.commandDecode r) s = .next (writeReply (slotEcho r bs) .badCrc [] t)) ∧
      (packetCrcOk bs = true → opOf (bs.getD 0 0).toNat (bs.getD 1 0).toNat = none →
        exec (.commandDecode r) s = .next (writeReply (slotEcho r bs) .badOpcode [] t)) ∧
      (packetCrcOk bs = true → ∀ o, opOf (bs.getD 0 0).toNat (bs.getD 1 0).toNat = some o →
        exec (.commandDecode r) s = .next (decodeRun o p t)))

/-- SYS_NOP, SYS_MODE_GET, SYS_IO_SET, SYS_IO_GET, EVT_MARK and EVT_LOG_READ complete with the effect and words of their tables. Rests on 12_command_plane.md R345, 12_command_plane.md R346, 16_modes_boot_power.md R447, 15_endurance_and_failover.md R410, 15_endurance_and_failover.md R411, 15_endurance_and_failover.md R420. -/
def Obligations.SystemCommandReplies : Prop :=
  (∀ p s s1, Accepted opSysNop p s s1 → exec (.sysNop p) s = answered opSysNop p .ok [s1.clk.fc, wd (s1.clk.cyc + 8 * nsOf s1.clk)] s1) ∧
  (∀ p s s1, Accepted opSysModeGet p s s1 →
    let mask (f : Nat → Bool) : Nat := b2n (f 0) + 2 * b2n (f 1) + 4 * b2n (f 2) + 8 * b2n (f 3)
    exec (.sysModeGet p) s = answered opSysModeGet p .ok
      [wd (modeCode s1.dev.mode + 2 ^ 4 * s1.dev.prevMode + 2 ^ 8 * mask (fun e => fenceCause s1 e != 0) + 2 ^ 12 * mask (failFence s1)
        + 2 ^ 16 * s1.dev.bootErr + 2 ^ 24 * b2n s1.dev.woke + 2 ^ 25 * b2n s1.dev.restored + 2 ^ 26 * s1.dev.bootSrc),
      s1.dev.fcMode, wd s1.dev.cycMode] s1) ∧
  (∀ p s s1, Accepted opSysIoSet p s s1 →
    let w (i : Nat) := wAt p.params i
    let pick (new old : BitVec 16) : BitVec 16 := (new &&& (w 0).setWidth 16) ||| (old &&& ~~~((w 0).setWidth 16))
    exec (.sysIoSet p) s = answered opSysIoSet p .ok [] ((List.range 16).foldl (fun s n => driverGuard n s) { s1 with fio := { s1.fio with
      dir := pick ((w 1).setWidth 16) s1.fio.dir
      level := pick ((w 1 >>> 16).setWidth 16) s1.fio.level
      alm := if (w 0).getLsbD 16 then (w 0).getLsbD 17 else s1.fio.alm
      gpioEvt := if (w 0).getLsbD 18 then (w 2).setWidth 16 else s1.fio.gpioEvt
      almEvt := if (w 0).getLsbD 18 then (w 2 >>> 16).setWidth 4 else s1.fio.almEvt } })) ∧
  (∀ n s, ∃ o, driverGuard n s = { s with fio := { s.fio with offAt := tset noTime n o s.fio.offAt } } ∧
    (s.fio.dir.getLsbD n = false → o = none) ∧
    (s.fio.dir.getLsbD n = true → o = if tget noTime s.fio.offAt n = none ∧ (guardPin s (n + 10)).kind ≠ 0 then some s.clk.now else tget noTime s.fio.offAt n)) ∧
  (∀ p s s1, Accepted opSysIoGet p s s1 →
    exec (.sysIoGet p) s = answered opSysIoGet p .ok
      [wd (gpioIn s1 + 2 ^ 16 * s1.fio.dir.toNat), wd (s1.fio.level.toNat + 2 ^ 16 * s1.fio.almIn.toNat + 2 ^ 20 * b2n s1.fio.alm + 2 ^ 21 * b2n (almOut s1)),
        wd (s1.fio.histG.toNat + 2 ^ 16 * s1.fio.histA.toNat)]
      (if (wAt p.params 0).getLsbD 0 then { s1 with fio := { s1.fio with histG := 0, histA := 0 } } else s1)) ∧
  (∀ p s s1, Accepted opEvtMark p s s1 →
    exec (.evtMark p) s = answered opEvtMark p .ok [] (raise 0x0C 0x02 0 (wAt p.params 0) false s1)) ∧
  (∀ p s s1, Accepted opEvtLogRead p s s1 →
    let t := wmPut (pf p.params 0 22 0) (padTo 4096 0 (s1.evt.log.flatMap recBytes)) s1
    exec (.evtLogRead p) s = answered opEvtLogRead p .ok [wd s1.evt.log.length]
      (if (wAt p.params 0).getLsbD 23 then { t with evt := { t.evt with log := [] } } else t))

/-- SYS_MODE_SET answers at once for the mode in force, HALT and RETENTION, and otherwise goes to the update port, as SYS_FENCE_SET does. Rests on 16_modes_boot_power.md R446, 16_modes_boot_power.md R448, 01_architecture.md R24, 16_modes_boot_power.md R438, 16_modes_boot_power.md R439, 16_modes_boot_power.md R426, 16_modes_boot_power.md R445. -/
def Obligations.ModeAndFenceCommands : Prop :=
  (∀ p s s1, Accepted opSysModeSet p s s1 →
    let m := pf p.params 0 3 0
    (m = modeCode s1.dev.mode → exec (.sysModeSet p) s = answered opSysModeSet p .ok [s1.dev.fcMode, wd s1.dev.cycMode] s1) ∧
    (m ≠ modeCode s1.dev.mode → m = 8 → ∃ n, n ≤ 1000000 ∧ exec (.sysModeSet p) s = answered opSysModeSet p .ok [s1.clk.fc, wd s1.clk.cyc]
      { s1 with clk := { s1.clk with free := s1.clk.free + 1 }, save := { s1.save with haltAt := some (s1.clk.now + n, .halt) } }) ∧
    (m ≠ modeCode s1.dev.mode → m ≠ 8 → failFences s1 = true → exec (.sysModeSet p) s = answered opSysModeSet p .notInMode [] s1) ∧
    (m ≠ modeCode s1.dev.mode → m = 2 → failFences s1 = false →
      let fits := (s1.dev.mode = .commissioning ∨ s1.dev.mode = .maintenance) ∧ committedMode s1 = s1.dev.mode ∧ allSquelched s1 = true ∧ s1.keys.ops = [] ∧ onRequest s1 = false ∧
        otherRingsIdle p.ring s1 = true
      (fits → ∃ n, n ≤ 1000000 ∧ exec (.sysModeSet p) s = answered opSysModeSet p .ok [s1.clk.fc, wd s1.clk.cyc]
        { retain s1 with clk := { s1.clk with free := s1.clk.free + 1 }, save := { s1.save with haltAt := some (s1.clk.now + n, .retention) } }) ∧
      (¬ fits → exec (.sysModeSet p) s = answered opSysModeSet p .notInMode [] s1)) ∧
    (m ≠ modeCode s1.dev.mode → m ≠ 2 → m ≠ 8 → failFences s1 = false → exec (.sysModeSet p) s = goesOn opSysModeSet p .port [] [] s1)) ∧
  (∀ p s s1, Accepted opSysFenceSet p s s1 →
    (releasesFailed p.params s1 = false → exec (.sysFenceSet p) s = goesOn opSysFenceSet p .port [] [] s1) ∧
    (releasesFailed p.params s1 = true → exec (.sysFenceSet p) s = answered opSysFenceSet p .notInMode [] s1)) ∧
  (∀ j s0 s1, PortTurn j s0 s1 → j.work = .port → j.cls = 0x01 →
    let s := jrnl 2 j.ring j.tag s1
    let fits := if j.act = 0x20 then failFences s = false ∧
        ((pf j.params 0 3 0 = 4 ∧ (committedMode s = .commissioning ∨ committedMode s = .maintenance) ∧ loopGenActive s = false ∧ alignPending s = false) ∨
          (pf j.params 0 3 0 = 5 ∧ committedMode s = .service))
      else releasesFailed j.params s = false
    (fits → exec .updatePortCommit s0 = .next (protSync (endJob j.ring .ok (effWords s (effTick s))
      ({ s with port := { s.port with staged := s.port.staged.filterMap (supersede (effTick s) j) ++ [{ tick := effTick s, egress := false, w := .cmd j.cls j.act j.params j.image }] } })))) ∧
    (¬ fits → exec .updatePortCommit s0 = .next (protSync (endJob j.ring .notInMode [] s))))

/-- SYS_ABORT answers as Table 12.8 says for its earliest target, which replies first. Rests on 12_command_plane.md R337, 11_seal_and_cipher.md R312, 13_window_memory_and_matrix.md R368, 13_window_memory_and_matrix.md R369, 14_crossings_and_counters.md R388. -/
def Obligations.AbortOutcomes : Prop :=
  (∀ (p : Packet) (s s1 : State), Accepted opSysAbort p s s1 →
    let r := pf p.params 0 1 0
    let tag := wAt p.params 1
    let ops := if r = 3 then s1.keys.ops.filter (fun o => o.job.tag == tag) else []
    (∀ o rest, ops = o :: rest →
      (o.st = 0 ∨ o.begun = false ∨ o.job.abortable = true → exec (.sysAbort p) s = answered opSysAbort p .ok [] (endOp .aborted [] o s1)) ∧
      (o.st ≠ 0 ∧ o.begun = true ∧ o.job.abortable = false → exec (.sysAbort p) s = goesOn opSysAbort p (.abort true o.id) [] [] s1)) ∧
    (ops = [] → ∀ j, job s1 r = some j → j.tag = tag → j.ring = r →
      ((∃ n, j.work = .desc n) → exec (.sysAbort p) s = answered opSysAbort p .ok [] (endJob r .aborted [] (masterReset 3 s1))) ∧
      (∀ n f l g, j.work = .conn n f l g → j.abortable = true → abortMarked j.cls j.act = true →
        exec (.sysAbort p) s = answered opSysAbort p .ok [] (endJob r .aborted (connWords j n f l g false 0) (masterReset 3 s1))) ∧
      (∀ a, j.work = .dumpWait 0 a → exec (.sysAbort p) s = answered opSysAbort p .ok [] (endJob r .aborted [] (masterReset 3 s1))) ∧
      (∀ n a, n ≠ 0 → j.work = .dumpWait n a → j.abortable = true → abortMarked j.cls j.act = true →
        exec (.sysAbort p) s = answered opSysAbort p .ok [] (endJob r .aborted [wd n] (masterReset 3 s1))) ∧
      (∀ n a c fill, j.work = .dump n a c fill → j.abortable = true → abortMarked j.cls j.act = true →
        exec (.sysAbort p) s = answered opSysAbort p .ok [] (endJob r .aborted [wd n]
          (setJob r (some { j with taken := [] }) (handBackOut a fill (masterReset 3 s1))))) ∧
      (∀ a b c d e f, j.work = .memTest a b c d e f → j.abortable = true → abortMarked j.cls j.act = true →
        exec (.sysAbort p) s = answered opSysAbort p .ok [] (memTestAbort j (pf j.params 1 16 0) c d e f s1)) ∧
      (∀ l, j.work = .eye l → j.abortable = true → abortMarked j.cls j.act = true →
        exec (.sysAbort p) s = answered opSysAbort p .ok [] (endJob r .aborted [] (eyeAbort l j s1))) ∧
      ((∀ n, j.work ≠ .desc n) → (∀ a, j.work ≠ .dumpWait 0 a) → (j.abortable && abortMarked j.cls j.act) = false →
        exec (.sysAbort p) s = goesOn opSysAbort p (.abort false r) [] [] s1)) ∧
    (ops = [] → (∀ j, job s1 r = some j → j.tag ≠ tag) →
      exec (.sysAbort p) s = answered opSysAbort p (if tag ∈ tget noTags s1.io.done r then .alreadyDone else .noSuchTag) [] s1)) ∧
  (∀ r st ws s, answers s = true → endJob r st ws s = answerAborts 4 false r (endJobOne r st ws s)) ∧
  (∀ st ws o s, ∃ t, endOp st ws o s = answerAborts 4 true o.id (writeReply (jobEcho o.job) st ws t)) ∧
  (∀ b n q a s, q < 4 → tblWf noJob 0 s.io.jobs = true → job s q = some a → a.work = .abort b n → a.taken = [] →
    (∀ q' a', q' < 4 → q' ≠ q → job s q' = some a' → a'.work ≠ .abort b n ∧ a'.work ≠ .abort false q) →
    answerAborts 4 b n s = writeReply (jobEcho a) .notInMode [] (setJob q none s)) ∧
  (∀ j first dn rep unrep skip s,
    let t := fenceDone (borrowDrop (masterReset 5 { s with mem := { s.mem with testing := none } }))
    (pf j.params 0 5 4 ≠ 1 → memTestAbort j first dn rep unrep skip s =
      endJob j.ring .aborted [wd dn, wd (rep % 65536 + 65536 * (unrep % 65536)), wd skip] t) ∧
    (pf j.params 0 5 4 = 1 → ∃ n c u, n ≤ pf j.params 2 16 0 ∧ memTestAbort j first dn rep unrep skip s = endJob j.ring .aborted [wd n, wd c, 0] u ∧
      u.wm = (if pf j.params 0 3 0 = 0 then t.wm.filter (fun x => !(decide (first ≤ x.1 / 4096) && decide (x.1 / 4096 < first + n))) else t.wm)))

/-- LANE_FRAME_SET, LANE_SEED_SET and LANE_ALIGN_SET go to the update port, reply their effective cycle and act at it. Rests on 03_lane_frame.md R93, 03_lane_frame.md R94, 04_frame_finding.md R115, 02_grain_cycle.md R53, 12_command_plane.md R471. -/
def Obligations.LaneSettings : Prop :=
  (∀ p s s1, Accepted opLaneFrameSet p s s1 → exec (.laneFrameSet p) s = goesOn opLaneFrameSet p .port [] [] s1) ∧
  (∀ p s s1, Accepted opLaneSeedSet p s s1 → exec (.laneSeedSet p) s = goesOn opLaneSeedSet p .port [] [] s1) ∧
  (∀ p s s1, Accepted opLaneAlignSet p s s1 → exec (.laneAlignSet p) s = goesOn opLaneAlignSet p .port [] [] s1) ∧
  (∀ j s0 s1, PortTurn j s0 s1 → j.work = .port → j.cls = 0x02 →
    let s := jrnl 2 j.ring j.tag s1
    let k := effTick s
    let w (t : Nat) (e : Bool) : Staged := { tick := t, egress := e, w := .cmd j.cls j.act j.params j.image }
    let put (l : List Staged) (t : State) : State := { t with port := { t.port with staged := t.port.staged ++ l } }
    let ok (t : State) : Host.Outcome State Fault Refusal := .next (protSync (endJob j.ring .ok [(fcOf t k).1, wd (fcOf t k).2] t))
    let no (st : Status) : Host.Outcome State Fault Refusal := .next (protSync (endJob j.ring st [] s))
    let l := pf j.params 0 7 0
    let dir := pb j.params 0 8
    let v := seedView s l dir
    (j.act = 0x10 → exec .updatePortCommit s0 = ok (put [w (k + 3) true] (setFrameIn l k (fun c => { c with
      expId := pf j.params 0 23 16, idChk := pb j.params 0 25, tmapChk := pb j.params 0 26, expGen := pf j.params 1 15 0 }) s))) ∧
    (j.act = 0x12 → (if pb j.params 0 9 then v.1 else v.2.1).epoch = pf j.params 0 13 10 → exec .updatePortCommit s0 = no .badParam) ∧
    (j.act = 0x12 → (if pb j.params 0 9 then v.1 else v.2.1).epoch ≠ pf j.params 0 13 10 →
      (dir = true → (pb j.params 0 9 = v.2.2 ∧ txActive s l = true → exec .updatePortCommit s0 = no .slotInUse) ∧
        (¬ (pb j.params 0 9 = v.2.2 ∧ txActive s l = true) → exec .updatePortCommit s0 = ok (put [w (k + 3) true] s))) ∧
      (dir = false → (pb j.params 0 9 = (lane s l).rx.slot ∧ isAligned (lane s l) = true → exec .updatePortCommit s0 = no .slotInUse) ∧
        (¬ (pb j.params 0 9 = (lane s l).rx.slot ∧ isAligned (lane s l) = true) → exec .updatePortCommit s0 = ok (setFrameIn l k (fun c =>
        if pb j.params 0 9 then { c with b := { seed := wAt j.params 1, epoch := pf j.params 0 13 10 } } else { c with a := { seed := wAt j.params 1, epoch := pf j.params 0 13 10 } }) s)))) ∧
    (j.act = 0x20 → exec .updatePortCommit s0 = ok (modAl l (fun a => { a with next := a.next.filter (fun x => x.1 != k) ++ [(k, alignSetOf j.params)] }) s))) ∧
  (∀ k ws img s, let l := pf ws 0 7 0
    stagedApply { tick := k, egress := true, w := .cmd 2 0x10 ws img } s = modTx l (fun t => { t with id := pf ws 0 15 8, rdi := pb ws 0 24 }) s ∧
    (tblWf laneReset 0 s.lanes = true → ∀ f n,
      (k ≤ n → verAt (frameInReset l) n (lane (setFrameIn l k f s) l).rx.cfg = f (verNew (frameInReset l) (lane s l).rx.cfg)) ∧
      (n < k → curCycle s ≤ n + 100 → verAt (frameInReset l) n (lane (setFrameIn l k f s) l).rx.cfg = verAt (frameInReset l) n (lane s l).rx.cfg)) ∧
    (pb ws 0 8 = true → stagedApply { tick := k, egress := true, w := .cmd 2 0x12 ws img } s = modTx l (fun t =>
      let t := if pb ws 0 9 then { t with b := { seed := wAt ws 1, epoch := pf ws 0 13 10 } } else { t with a := { seed := wAt ws 1, epoch := pf ws 0 13 10 } }
      if pb ws 0 14 then { t with act := pb ws 0 9 } else t) s))

/-- Lane status, defect settings and messages: each command completes with the words and the effect of its table. Rests on 03_lane_frame.md R93, 03_lane_frame.md R95, 03_lane_frame.md R96, 04_frame_finding.md R116, 07_defects_and_integrity.md R206, 09_serial_lanes.md R250. -/
def Obligations.LaneReports : Prop :=
  (∀ p s s1, Accepted opLaneFrameGet p s s1 → let x := lane s1 (pf p.params 0 7 0)
    exec (.laneFrameGet p) s = answered opLaneFrameGet p .ok
      [wd (x.rx.id + 2 ^ 8 * x.rx.ql + 2 ^ 12 * b2n x.rx.rdi + 2 ^ 13 * x.rx.epoch + 2 ^ 17 * b2n x.rx.slot + 2 ^ 18 * b2n x.tx.act + 2 ^ 31 * b2n (isAligned x)),
        x.rx.fc, wd (x.rx.gen + 2 ^ 16 * x.rx.rei)] s1) ∧
  (∀ p s s1, Accepted opLaneAlignGet p s s1 → let x := lane s1 (pf p.params 0 7 0)
    exec (.laneAlignGet p) s = answered opLaneAlignGet p .ok
      [wd (b2n x.al.header + 2 * (if isAligned x then 2 else if x.al.pos.isNone && x.al.trk.isEmpty then 0 else 1) + 8 * b2n x.al.inv + 16 * x.al.trk.length
        + 256 * x.al.trk.countP (fun t => t.qual) + 4096 * b2n (isAligned x && x.rx.loam) + 8192 * min x.al.err 31), wd (if plesioAt s1 (pf p.params 0 7 0) (curCycle s1) && x.al.ever then 1953125 else x.al.sil), wd x.al.diff,
        wd (x.al.diff / 2 ^ 32 % 8 + 8 * x.al.hist.toNat)]
      (if pb p.params 0 8 then modAl (pf p.params 0 7 0) (fun a => { a with hist := 0 }) s1 else s1)) ∧
  (∀ p s s1, Accepted opLaneDefectSet p s s1 →
    exec (.laneDefectSet p) s = answered opLaneDefectSet p .ok [] (modDef (pf p.params 0 7 0) (fun d => { d with
      en := BitVec.ofNat 6 (pf p.params 0 13 8), thresh := pf p.params 0 22 14, tset := pf p.params 1 13 0, tclear := pf p.params 1 27 14
      setFrom := if pf p.params 1 13 0 < d.tset then s1.clk.now else d.setFrom
      clrFrom := if pf p.params 1 27 14 < d.tclear then s1.clk.now else d.clrFrom }) s1)) ∧
  (∀ p s s1, Accepted opLaneDefectGet p s s1 → let d := (lane s1 (pf p.params 0 7 0)).ldef
    exec (.laneDefectGet p) s = answered opLaneDefectGet p .ok [wd (d.cond.toNat + 2 ^ 8 * d.decl.toNat + 2 ^ 16 * d.hist.toNat)]
      (if pb p.params 0 8 then modDef (pf p.params 0 7 0) (fun d => { d with hist := 0 }) s1 else s1)) ∧
  (∀ p s s1, Accepted opLaneMsgSend p s s1 → let l := pf p.params 0 7 0
    let t := (lane s1 l).tx
    (4 ≤ t.queue.length → exec (.laneMsgSend p) s = answered opLaneMsgSend p .busy [] s1) ∧
    (t.queue.length < 4 → exec (.laneMsgSend p) s = answered opLaneMsgSend p .ok [wd t.seq] (modTx l (fun t => { t with
      queue := t.queue ++ [{ typ := pf p.params 0 15 8, seq := t.seq, data := wmGet s1 (pf p.params 1 22 0) (pf p.params 0 22 16), left := pf p.params 0 27 24 }]
      seq := (t.seq + 1) % 256 }) s1))) ∧
  (∀ p s s1, Accepted opLaneMsgRead p s s1 → let l := pf p.params 0 7 0
    let out := (lane s1 l).rx.queue.take (pf p.params 0 12 8)
    exec (.laneMsgRead p) s = answered opLaneMsgRead p .ok [wd out.length] (modRx l (fun r => { r with
      queue := r.queue.drop out.length, ovf := if out = [] then r.ovf else false }) (wmPut (pf p.params 1 22 0) (out.flatMap rxMsgBytes) s1))) ∧
  (∀ p s s1, Accepted opLaneSerdesGet p s s1 → let l := pf p.params 0 7 0
    let d := (lane s1 l).sd
    let lol := d.rxEn && lineLol d
    let t := coefTake l s1
    (laneFenced s1 l = true → exec (.laneSerdesGet p) s = answered opLaneSerdesGet p .notInMode [] s1) ∧
    (laneFenced s1 l = false → exec (.laneSerdesGet p) s = answered opLaneSerdesGet p .ok
      [wd (b2n d.rxEn + 2 * b2n (txActive s1 l) + 4 * d.cls + 16 * b2n (d.rxEn && d.los) + 32 * b2n lol + 64 * adaptState d + 256 * d.loop
        + 1024 * b2n d.genEn + 2048 * b2n d.good.isSome + 4096 * b2n d.failed),
      wdI (if lol || !d.rxEn then 0 else d.offset), wd (d.ampl % 4096), wd (d.slips % 65536)]
      (if pb p.params 0 8 then wmPut (pf p.params 1 22 0) (coefBytes (lane t l).sd.coefs) t else s1)))

/-- LANE_TX_SET, LANE_RX_SET and LANE_LOOP_SET act on their lanes; an enable of a transmitter waits for the next tick. Rests on 09_serial_lanes.md R239, 09_serial_lanes.md R241, 09_serial_lanes.md R244, 09_serial_lanes.md R249, 09_serial_lanes.md R250, 16_modes_boot_power.md R444. -/
def Obligations.SerdesSettings : Prop :=
  (∀ p s s1, Accepted opLaneTxSet p s s1 →
    let n := pf p.params 0 7 0
    let ls := laneList s1 n
    let want (d : Serdes) : TxSet :=
      { pol := pb p.params 0 9, swing := pf p.params 0 11 10, taps := if pb p.params 0 12 then txTaps p.params else (d.txNext.map (·.taps)).getD d.taps }
    let each (f : Serdes → Serdes) : State := ls.foldl (fun s l => modSd l f s) s1
    (n ≠ 0xFF ∧ laneFenced s1 n = true → exec (.laneTxSet p) s = answered opLaneTxSet p .notInMode [] s1) ∧
    (¬ (n ≠ 0xFF ∧ laneFenced s1 n = true) →
      (pb p.params 0 8 = true → (∃ l ∈ ls, (lane s1 l).sd.txEn = false) →
        exec (.laneTxSet p) s = goesOn opLaneTxSet p .txOn [] [] (each (fun d => { d with txNext := some (want d) }))) ∧
      (pb p.params 0 8 = true → (∀ l ∈ ls, (lane s1 l).sd.txEn = true) →
        exec (.laneTxSet p) s = answered opLaneTxSet p .ok [] (each (fun d => { d with
          txEn := true, txPol := (want d).pol, swing := (want d).swing, taps := (want d).taps, txNext := none }))) ∧
      (pb p.params 0 8 = false → exec (.laneTxSet p) s = answered opLaneTxSet p .ok [] (each (fun d => { d with
          txEn := false, txPol := (want d).pol, swing := (want d).swing, taps := (want d).taps, txNext := none }))))) ∧
  (∀ p s s1, Accepted opLaneRxSet p s s1 → let n := pf p.params 0 7 0
    (n ≠ 0xFF ∧ laneFenced s1 n = true → exec (.laneRxSet p) s = answered opLaneRxSet p .notInMode [] (laneWatch s1 s1)) ∧
    (¬ (n ≠ 0xFF ∧ laneFenced s1 n = true) → exec (.laneRxSet p) s =
      answered opLaneRxSet p .ok [] (laneWatch s1 ((laneList s1 n).foldl (fun s l => rxSetLane p.params l s) s1)))) ∧
  (∀ p s s1, Accepted opLaneLoopSet p s s1 →
    let l := pf p.params 0 7 0
    let n := pf p.params 0 9 8
    let d := (lane s1 l).sd
    let blocked := laneFenced s1 l = true ∨ (n ≠ 0 ∧ n ≠ d.loop ∧ loopMode s1 = false) ∨ (n = 3 ∧ d.genEn = true)
    (blocked → exec (.laneLoopSet p) s = answered opLaneLoopSet p .notInMode [] (laneWatch s1 s1)) ∧
    (¬ blocked → n = d.loop → exec (.laneLoopSet p) s = answered opLaneLoopSet p .ok [] (laneWatch s1
      (laneSync l (modSd l (fun d => { d with loop := n, lineTx := pb p.params 0 10 }) s1)))) ∧
    (¬ blocked → n ≠ d.loop → ∃ v, v ≤ 10000 ∧ exec (.laneLoopSet p) s = answered opLaneLoopSet p .ok [] (laneWatch s1
      (laneSync l (modSd l (fun d => { d with loop := n, lineTx := pb p.params 0 10 })
        (modSd l (fun d => { d with fill := 64, fillAt := s1.clk.now, frac := 0, echo := [] }) (modTx l (fun t => { t with looped := [], seen := false })
          (modAl l (fun a => { a with loopS := 1720000 + v }) { s1 with clk := { s1.clk with free := s1.clk.free + 1 } }))))))))

/-- PRBS and eye commands and the checker's and scan's own events complete as chapter 9 says. Rests on 09_serial_lanes.md R244, 09_serial_lanes.md R245, 09_serial_lanes.md R246, 09_serial_lanes.md R247, 09_serial_lanes.md R248, 09_serial_lanes.md R249. -/
def Obligations.TestPatterns : Prop :=
  (∀ p s s1, Accepted opTestPrbsSet p s s1 →
    let l := pf p.params 0 7 0
    let d := (lane s1 l).sd
    let gen := pb p.params 0 8
    let blocked := laneFenced s1 l = true ∨ (gen = true ∧ d.genEn = false ∧ loopMode s1 = false) ∨ (gen = true ∧ d.loop = 3)
    (blocked → exec (.testPrbsSet p) s = answered opTestPrbsSet p .notInMode [] s1) ∧
    let fresh := gen = true ∧ (d.genEn = false ∨ pb p.params 0 9 ≠ d.genPat)
    let set (v : Nat) (t : State) : State := modSd l (fun d =>
      let d := { d with genEn := gen, genPat := pb p.params 0 9, genReg := v, chkEn := pb p.params 0 10, chkPat := pb p.params 0 11 }
      if pb p.params 0 12 then { d with bits := 0, errors := 0, chkHist := false, lockAt := s1.clk.now } else d) t
    (¬ blocked → ∃ t, exec (.testPrbsSet p) s = answered opTestPrbsSet p .ok [] t) ∧
    (¬ blocked → d.chkLock = false → ¬ fresh → exec (.testPrbsSet p) s = answered opTestPrbsSet p .ok [] (set d.genReg s1)) ∧
    (¬ blocked → d.chkLock = false → fresh → ∃ v, 0 < v ∧ v < (if pb p.params 0 9 then 2 ^ 31 else 2 ^ 13) ∧
      exec (.testPrbsSet p) s = answered opTestPrbsSet p .ok [] (set v { s1 with clk := { s1.clk with free := s1.clk.free + 1 } })) ∧
    let keeps := pb p.params 0 10 = true ∧ pb p.params 0 11 = d.chkPat
    let run := 112 * (s1.clk.now - d.lockAt)
    let drawn (n : Nat) : State := { s1 with clk := { s1.clk with free := s1.clk.free + n } }
    let stop (e n : Nat) : State := modSd l (fun d => { d with chkLock := false, okPrbs := none, bits := min (d.bits + run) cntMax, errors := min (d.errors + e) cntMax }) (drawn n)
    (¬ blocked → d.chkLock = true → ¬ fresh →
      (keeps → exec (.testPrbsSet p) s = answered opTestPrbsSet p .ok [] (set d.genReg s1)) ∧
      (¬ keeps → ∃ e, e ≤ run ∧ exec (.testPrbsSet p) s = answered opTestPrbsSet p .ok [] (set d.genReg (stop e 1)))) ∧
    (¬ blocked → d.chkLock = true → fresh → ∃ v, 0 < v ∧ v < (if pb p.params 0 9 then 2 ^ 31 else 2 ^ 13) ∧
      (keeps → exec (.testPrbsSet p) s = answered opTestPrbsSet p .ok [] (set v (drawn 1))) ∧
      (¬ keeps → ∃ e, e ≤ run ∧ exec (.testPrbsSet p) s = answered opTestPrbsSet p .ok [] (set v (stop e 2))))) ∧
  (∀ p s s1, Accepted opTestPrbsGet p s s1 →
    let l := pf p.params 0 7 0
    let d := (lane s1 l).sd
    (laneFenced s1 l = true → exec (.testPrbsGet p) s = answered opTestPrbsGet p .notInMode [] s1) ∧
    (laneFenced s1 l = false → ∃ ws t, exec (.testPrbsGet p) s = answered opTestPrbsGet p .ok ws t) ∧
    (laneFenced s1 l = false → d.chkLock = false → pb p.params 0 8 = true → d.bits ≤ cntMax → d.errors ≤ cntMax →
      exec (.testPrbsGet p) s = answered opTestPrbsGet p .ok
        [wd (b2n d.chkEn + 4 * b2n d.chkInv + 8 * b2n d.chkHist), wd d.bits, wd (d.bits / 2 ^ 32), wd d.errors, wd (d.errors / 2 ^ 32)]
        (modSd l (fun d => { d with bits := 0, errors := 0, chkHist := false, lockAt := s1.clk.now }) s1)) ∧
    (laneFenced s1 l = false →
      let run := if d.chkLock then 112 * (s1.clk.now - d.lockAt) else 0
      let t := if d.chkLock then { s1 with clk := { s1.clk with free := s1.clk.free + 1 } } else s1
      ∃ e, e ≤ run ∧
        let bs := min (d.bits + run) cntMax
        let es := min (d.errors + e) cntMax
        exec (.testPrbsGet p) s = answered opTestPrbsGet p .ok
          [wd (b2n d.chkEn + 2 * b2n d.chkLock + 4 * b2n d.chkInv + 8 * b2n d.chkHist), wd bs, wd (bs / 2 ^ 32), wd es, wd (es / 2 ^ 32)]
          (if pb p.params 0 8 then modSd l (fun d => { d with bits := 0, errors := 0, chkHist := false, lockAt := s1.clk.now }) t
           else modSd l (fun d => if d.chkLock then { d with bits := bs, errors := es, lockAt := s1.clk.now } else d) t))) ∧
  (∀ p s s1, Accepted opTestEyeScan p s s1 → let l := pf p.params 0 7 0
    (laneFenced s1 l = true → exec (.testEyeScan p) s = answered opTestEyeScan p .notInMode [] s1) ∧
    (laneFenced s1 l = false → (eyeJob s1 l).isSome = true → exec (.testEyeScan p) s = answered opTestEyeScan p .busy [] s1) ∧
    (laneFenced s1 l = false → eyeJob s1 l = none → exec (.testEyeScan p) s = goesOn opTestEyeScan p (.eye l) [] []
      (eyeSync l (modSd l (fun d => { d with eyeInt := false, eyeAt := s1.clk.now }) s1)))) ∧
  (∀ l counts c0 c1 c2 uv s, l < 144 → counts.length = 4096 → c0 < 64 → c1 < 64 → c2 < 64 →
    (eyeJob s l = none → exec (.eyeScanComplete l counts [c0, c1, c2] uv) s = .next s) ∧
    (∀ j, eyeJob s l = some j → counts.any (fun c => decide (2 ^ pf j.params 0 12 8 < c)) = true →
      exec (.eyeScanComplete l counts [c0, c1, c2] uv) s = .next s) ∧
    (∀ j, eyeJob s l = some j → counts.all (fun c => decide (c ≤ 2 ^ pf j.params 0 12 8)) = true →
      let e (c : Nat) := eyeSize counts (wAt j.params 2).toNat c
      exec (.eyeScanComplete l counts [c0, c1, c2] uv) s = .next (endJob j.ring .ok
        [wd ((e c0).1 + 2 ^ 7 * (e c0).2 + 2 ^ 14 * (e c1).1 + 2 ^ 21 * (e c1).2), wd ((e c2).1 + 2 ^ 7 * (e c2).2 + 2 ^ 14 * b2n (lane s l).sd.eyeInt),
          wd (uv % 65536)] (wmPut (pf j.params 1 22 0) (counts.flatMap (leBytes 4)) s)))) ∧
  (∀ l bits s, l < 144 → let d := (lane s l).sd
    let deg := if d.chkPat then 31 else 13
    let predicted (bs : List Bool) : Prop := bs.length = deg + 1024 ∧
      prbsFollows d.chkPat (natOf ((bs.take deg).map (· != d.chkPat))) (bs.drop deg) = true
    let lock (inv : Bool) : Host.Outcome State Fault Refusal :=
      .next (okSync l (modSd l (fun d => { d with chkLock := true, chkInv := inv, lockAt := s.clk.now }) s))
    let bits' := if d.loop = 1 then ((lane s l).tx.looped.getLastD []).take (deg + 1024) else bits
    (running s = true → laneFenced s l = false → d.chkEn = true → d.rxEn = true → d.chkLock = false →
      (predicted bits' → exec (.prbsCheckerLock l bits) s = lock false) ∧
      (¬ predicted bits' → predicted (compEven bits') → exec (.prbsCheckerLock l bits) s = lock true) ∧
      (¬ predicted bits' → ¬ predicted (compEven bits') → exec (.prbsCheckerLock l bits) s = .next s)) ∧
    (running s = false ∨ laneFenced s l = true ∨ d.chkEn = false ∨ d.rxEn = false ∨ d.chkLock = true → exec (.prbsCheckerLock l bits) s = .next s)) ∧
  (∀ l b e w s, l < 144 → let d := (lane s l).sd
    (d.chkLock = true → 512 ≤ w → w ≤ 8192 → e ≤ b → exec (.prbsCheckerLoss l b { count := e, window := w }) s = .next (modSd l (fun d => { d with
      chkLock := false, chkHist := true, okPrbs := none, bits := min (d.bits + b) cntMax, errors := min (d.errors + e) cntMax }) s)) ∧
    (d.chkLock = false ∨ w < 512 ∨ 8192 < w ∨ b < e → exec (.prbsCheckerLoss l b { count := e, window := w }) s = .next s))

/-- Signal detector, CDR and adaptation events change the receiver as R234 to R236 and R243 say. Rests on 09_serial_lanes.md R234, 09_serial_lanes.md R235, 09_serial_lanes.md R236, 09_serial_lanes.md R243, 09_serial_lanes.md R251. -/
def Obligations.SerdesEvents : Prop :=
  (∀ l b s, l < 144 → running s = true → (lane s l).sd.rxEn = true → laneFenced s l = false → (lane s l).sd.failed = false →
    let d := (lane s l).sd
    let a := if d.loop = 1 ∧ txDrives s l = false then min b 14 else b
    let lo := if d.cls = 1 then 45 else if d.cls = 2 then 60 else 35
    let hi := if d.cls = 1 then 70 else if d.cls = 2 then 90 else 55
    let d' := { d with ampl := min a 4095 }
    let then_ (d : Serdes) : Host.Outcome State Fault Refusal :=
      .next (laneWatch s (laneSync l (modSd l (fun _ => d) s)))
    (d.los = true → hi < a → 1 ≤ d.above → exec (.losWindowEnd l b) s = then_ { d' with los := false, above := 0 }) ∧
    (d.los = true → hi < a → d.above = 0 → exec (.losWindowEnd l b) s = then_ { d' with above := 1 }) ∧
    (d.los = true → a ≤ hi → exec (.losWindowEnd l b) s = then_ { d' with above := 0 }) ∧
    (d.los = false → a < lo → d.hold = true → exec (.losWindowEnd l b) s = then_ { d' with los := true, above := 0, locked := false }) ∧
    (d.los = false → a < lo → d.hold = false → exec (.losWindowEnd l b) s = then_ { d' with
      los := true, above := 0, locked := false, conv := false, coefs := d.good.getD (classCoefs d.cls) }) ∧
    (d.los = false → lo ≤ a → exec (.losWindowEnd l b) s = then_ d')) ∧
  (∀ l off s, l < 144 → running s = true → (lane s l).sd.rxEn = true → (lane s l).sd.los = false → laneFenced s l = false → (lane s l).sd.failed = false →
    exec (.cdrLock l off) s = .next (laneWatch s (laneSync l (modSd l (fun d => { d with locked := true, offset := off, fill := if lineLol d then 64 else (loopDrift s.clk.now d).fill, frac := if lineLol d then 0 else (loopDrift s.clk.now d).frac, fillAt := s.clk.now, echo := if lineLol d then [] else d.echo }) s)))) ∧
  (∀ l s, l < 144 → running s = true → laneFenced s l = false →
    exec (.cdrLossOfLock l) s = .next (laneWatch s (laneSync l (modSd l (fun d => { d with locked := false }) s)))) ∧
  (∀ l coefs clean s, l < 144 → coefs.length = 32 → let d := (lane s l).sd
    let held (t : Option Nat) : Prop := ∃ a, t = some a ∧ a + 1000000 ≤ s.clk.now
    let due := d.rxEn = true ∧ d.locked = true ∧ (held d.okFrame ∨ (clean = true ∧ held d.okPrbs)) ∧ d.goodAt + 1000000 ≤ s.clk.now
    let c := if d.hold = false ∧ d.los = false ∧ d.failed = false then coefs else d.coefs
    (due → exec (.goodSetRefresh l { coefs, clean }) s = .next (modSd l (fun d => { d with good := some c, coefs := c, goodAt := s.clk.now }) s)) ∧
    (¬ due → exec (.goodSetRefresh l { coefs, clean }) s = .next s)) ∧
  (∀ l w s, l < 144 → (lane s l).sd.loop = 3 → lineLol (lane s l).sd = false →
    let d := (lane s l).sd
    let ppm : Int := if 100000 < d.offset then d.offset - 100000 else if d.offset < -100000 then d.offset + 100000 else 0
    let moved := d.frac + ppm * 56 * (s.clk.now - d.fillAt : Nat)
    let n := (d.slips + 1) % 65536
    let f : Int := d.fill + w + moved / 1000000000
    let t := modSd l (fun d => { d with fillAt := s.clk.now, frac := moved % 1000000000 }) s
    (0 < f ∧ f < 128 → exec (.laneLoopSlip { lane := l, symbols := w }) s = .next (modSd l (fun d => { d with fill := f.toNat }) t)) ∧
    (¬ (0 < f ∧ f < 128) → exec (.laneLoopSlip { lane := l, symbols := w }) s = .next (pulse 0x02 0x20 l (wd n) false (modSd l (fun d => { d with
      slips := n, fill := 64, echo := if 0 < f then d.echo.drop 128 else d.echo.take 128 ++ d.echo }) t)))) ∧
  (∀ l s, l < 144 → (lane s l).sd.rxEn = true → (lane s l).sd.los = false → (lane s l).sd.hold = false →
    exec (.adaptationConverged l) s = .next (convergedBase l (modSd l (fun d => { d with conv := true }) s)))

/-- Marker blocks, alignment loss, decision windows and recovery act as R99 to R109 say. Rests on 04_frame_finding.md R99, 04_frame_finding.md R100, 04_frame_finding.md R101, 04_frame_finding.md R102, 04_frame_finding.md R103, 04_frame_finding.md R104, 04_frame_finding.md R106, 04_frame_finding.md R107, 04_frame_finding.md R109, 07_defects_and_integrity.md R194. -/
def Obligations.AlignmentEvents : Prop :=
  (∀ m s, markerOk m = true → running s = true → (lane s m.lane).sd.rxEn = true → laneFenced s m.lane = false →
    (nearLoop s m.lane = true → loopBlock m.lane m.pos s = none → exec (.markerBlockReceived m) s = .next (laneWatch s (markerQl m s s))) ∧
    let u := if m.pos = (lane s m.lane).al.fpos then loopEcho m.lane m.bits s else s
    let a := (lane s m.lane).al
    let bs := if a.inv then compEven m.bits else m.bits
    let answers (t : State) : Prop := exec (.markerBlockReceived m) s = .next (laneWatch s (markerQl m s (ambigAge m.lane t)))
    let started (t : Tracker) : State := modAl m.lane (fun a => { a with trk := a.trk ++ [t] }) u
    let read (cnt : Nat) (rev : Bool) (h : Hdr) : Tracker := { pos := m.pos, cnt, rev, qual := false, sec := h.sec, cyc := h.cyc, fc := h.fc, epoch := h.epoch }
    (tblWf laneReset 0 s.lanes = true → nearLoop s m.lane = false → a.pos = none → a.next = [] → a.window = none → lolCond s m.lane = false → a.trk.length < 8 →
      a.trk.find? (fun t => t.pos == m.pos) = none →
      (a.header = true → 0 < a.cfg.delta →
        ((headerOf bs).ok = true → answers (started (read 0 false (headerOf bs)))) ∧ ((headerOf bs).ok = false → answers u)) ∧
      (a.header = false → 1 < a.cfg.n →
        (hamming patternN (bs.take 120) ≤ 3 → answers (started (read 1 false (headerOf bs)))) ∧
        (3 < hamming patternN (bs.take 120) → a.cfg.pol = 0 → hamming patternR (bs.take 120) ≤ 3 → answers (started (read 1 true (headerOf (compEven bs))))) ∧
        (3 < hamming patternN (bs.take 120) → (a.cfg.pol ≠ 0 ∨ 3 < hamming patternR (bs.take 120)) → answers u))) ∧
    (tblWf laneReset 0 s.lanes = true → nearLoop s m.lane = false → a.pos = none → a.next = [] → a.window = none →
      ∀ t, a.trk.find? (fun t => t.pos == m.pos) = some t → (∀ u, u ∈ a.trk → u.pos = m.pos → u.qual = false) →
      let held (x : Tracker) : State := modAl m.lane (fun a => { a with trk := a.trk.map (fun u => if u.pos = m.pos then x else u) }) u
      let opened (x : Tracker) : State := modAl m.lane (fun a => { a with window := some m.pos }) (held x)
      let freed : State := modAl m.lane (fun a => { a with trk := a.trk.filter (fun u => !(u.pos == m.pos)) }) u
      let expected := nextPos t.sec t.cyc t.fc
      (lolCond s m.lane = true → answers freed) ∧
      (lolCond s m.lane = false → a.header = true →
        let g := headerOf bs
        let x (q : Bool) : Tracker := { t with cnt := t.cnt + 1, qual := q, sec := g.sec, cyc := g.cyc, fc := g.fc, epoch := g.epoch }
        (g.ok = true → (g.sec, g.cyc, g.fc) = expected →
          (t.cnt + 1 < a.cfg.delta → answers (held (x false))) ∧ (a.cfg.delta ≤ t.cnt + 1 → answers (opened (x true)))) ∧
        (g.ok = false ∨ (g.sec, g.cyc, g.fc) ≠ expected → answers freed)) ∧
      (lolCond s m.lane = false → a.header = false →
        let matched : Prop := if t.rev = true then 3 < hamming patternN (bs.take 120) ∧ a.cfg.pol = 0 ∧ hamming patternR (bs.take 120) ≤ 3 else hamming patternN (bs.take 120) ≤ 3
        let g := headerOf (if t.rev then compEven bs else bs)
        let at_ := if g.ok then (g.sec, g.cyc, g.fc) else expected
        let x (q : Bool) : Tracker := { t with cnt := t.cnt + 1, qual := q, sec := at_.1, cyc := at_.2.1, fc := at_.2.2, epoch := if g.ok then g.epoch else t.epoch }
        (matched → (a.cfg.n ≤ t.cnt + 1 ∧ g.ok = true → answers (opened (x true))) ∧ (t.cnt + 1 < a.cfg.n ∨ g.ok = false → answers (held (x false)))) ∧
        (¬ matched → answers freed))) ∧
    (tblWf laneReset 0 s.lanes = true → nearLoop s m.lane = false → a.pos = some m.pos → a.gain = false → a.err < errLimit a → a.window = none →
      answers (markerAligned m.lane m u))) ∧
  (∀ m s, markerOk m = true → (lane s m.lane).sd.rxEn = false → exec (.markerBlockReceived m) s = .next (laneWatch s s)) ∧
  (∀ l s, l < 144 → running s = true →
    ((lane s l).al.pos.isSome = true → (lane s l).al.gain = false → errLimit (lane s l).al ≤ (lane s l).al.err →
      exec (.alignmentLoss l) s = .next (laneWatch s (laneSync l (huntSync l (setLane l { lane s l with
        al := { (lane s l).al with pos := none, gain := false, won := none, trk := [], window := none, err := 0, hunt := none, hist := (lane s l).al.hist ||| 1 }
        rx := { (lane s l).rx with steady := false, lofIn := true, bip := none, bipErr := 0 } } s))))) ∧
    ((lane s l).al.err < errLimit (lane s l).al → exec (.alignmentLoss l) s = .next (laneWatch s s))) ∧
  (∀ l s, l < 144 → running s = false → exec (.alignmentLoss l) s = .next (laneWatch s s) ∧ exec (.decisionWindowEnd l) s = .next s ∧
    exec (.laneAlignRecovery l) s = .next s) ∧
  (∀ l s, l < 144 → running s = true → let a := (lane s l).al
    let closed := modAl l (fun a => { a with window := none }) s
    (a.window = none ∨ a.pos.isSome = true → exec (.decisionWindowEnd l) s = .next s) ∧
    (a.window.isSome = true → a.pos = none →
      (∀ t, a.trk.filter (fun t => t.qual) = [t] → exec (.decisionWindowEnd l) s = .next (adopt l t closed)) ∧
      (a.trk.filter (fun t => t.qual) = [] → exec (.decisionWindowEnd l) s = .next closed) ∧
      (2 ≤ (a.trk.filter (fun t => t.qual)).length → exec (.decisionWindowEnd l) s = .next (raiseAmbig l closed)))) ∧
  (∀ l s t, l < 144 → running s = true → let a := (lane s l).al
    a.hunt = some t → a.header = true → a.pos = none → a.cfg.recEn = true →
    (t + 1000000 * a.cfg.recMs ≤ s.clk.now → exec (.laneAlignRecovery l) s = .next (pulse 0x02 0x18 l 0 false
      (modAl l (fun a => { a with header := false, recov := true, trk := [], window := none, hunt := none, hist := a.hist ||| 8 }) s))) ∧
    (s.clk.now < t + 1000000 * a.cfg.recMs → exec (.laneAlignRecovery l) s = .next s))

/-- A transmitted section advances the framer and leaves as its chapter forms it; a received section that is due is processed. Rests on 03_lane_frame.md R66, 03_lane_frame.md R69, 03_lane_frame.md R71, 03_lane_frame.md R75, 03_lane_frame.md R78, 03_lane_frame.md R80, 03_lane_frame.md R82, 09_serial_lanes.md R241, 09_serial_lanes.md R244. -/
def Obligations.SectionEvents : Prop :=
  (∀ l s, l < 144 → framerRuns s l = true → (lane s l).tx.sec < 8 → tblWf laneReset 0 s.lanes = true →
    let sec := (lane s l).tx.sec
    let bitsOf (u : State) : List Bool := scramble sec u.clk.fc (txSeed (lane s l).tx).seed (bitsOfBytes (txInfo u l sec))
    let sends (u : State) (bits marker : List Bool) (words : List (List (BitVec 10))) : State :=
      let d := (lane s l).sd
      let sent : TxSection := {
        fc := u.clk.fc, cyc := u.clk.cyc, sec, words, marker, line := lineOutput u l, pads := padsOutput u l, pol := d.txPol
        echo := d.echo.take (d.echo.length - 2 * d.fill), prbs := (d.genPat, d.genReg) }
      let u := if d.loop = 3 then modSd l (fun d => { d with echo := d.echo.drop (d.echo.length - 2 * d.fill) }) u else u
      let u := if d.genEn then modSd l (fun d => { d with genReg := (prbsRun d.genPat d.genReg 218750).2 }) u else u
      modTx l (fun t => { t with
        sec := sec + 1
        bip := bip8 ((bytesOfBits bits).drop 100)
        sent := some sent
        looped := (t.looped ++ loopBits d.loop sent).drop ((t.looped ++ loopBits d.loop sent).length - 16) }) u
    let formed (u : State) (chan : List Byte) : State := sends u (bitsOf u) (markerBits (txHeader u l sec) chan) (codewords (bitsOf u))
    let drawn (u : State) : State := { u with clk := { u.clk with free := u.clk.free + 1 } }
    let used (m : Msg) (q : List Msg) : State := modTx l (fun t => { t with queue := if m.left ≤ 1 then q else { m with left := m.left - 1 } :: q, last := some m.seq }) s
    (engineDown s l = false →
      (∀ m q, (lane s l).tx.queue = m :: q → exec (.sectionTransmit l) s = .next (formed (used m q) (channelBytes m.typ m.seq m.data))) ∧
      (∀ n, (lane s l).tx.queue = [] → (lane s l).tx.last = some n → exec (.sectionTransmit l) s = .next (formed s (channelBytes 0 n []))) ∧
      ((lane s l).tx.queue = [] → (lane s l).tx.last = none → ∃ n < 256, exec (.sectionTransmit l) s = .next (formed (drawn s) (channelBytes 0 n [])))) ∧
    (engineDown s l = true → ∃ mk ws, mk.length = 1150 ∧ ws.length = 40 ∧ (∀ w ∈ ws, w.length = 544) ∧
      let swapped (u : State) : State := sends (drawn u) (bitsOf u) mk ws
      (∀ m q, (lane s l).tx.queue = m :: q → exec (.sectionTransmit l) s = .next (swapped (used m q))) ∧
      ((lane s l).tx.queue = [] → (lane s l).tx.last.isSome = true → exec (.sectionTransmit l) s = .next (swapped s)) ∧
      ((lane s l).tx.queue = [] → (lane s l).tx.last = none → exec (.sectionTransmit l) s = .next (swapped (drawn s))))) ∧
  (∀ l s, l < 144 → framerRuns s l = false ∨ 8 ≤ (lane s l).tx.sec → exec (.sectionTransmit l) s = .next s) ∧
  (∀ l ws s, l < 144 → ws.length = 40 → (∀ w ∈ ws, w.length = 544) → running s = true → (lane s l).sd.rxEn = true → laneFenced s l = false → 0 < s.clk.ticks →
    (nearLoop s l = true → loopWords l s = none → exec (.sectionDecoded l ws) s = .next (protSync (rrHook l s s))) ∧
    let bits := if (lane s l).al.inv then compEven (ws.flatMap symBits) else ws.flatMap symBits
    (nearLoop s l = false → (lane s l).rx.due = true → exec (.sectionDecoded l ws) s =
      .next (protSync (rrHook l s (sectionProcess l ws (modRx l (fun r => { r with due := false }) (loopEcho l bits s)))))) ∧
    (nearLoop s l = false → (lane s l).rx.due = false → isAligned (lane s l) = true → exec (.sectionDecoded l ws) s = .next (protSync (rrHook l s (loopEcho l bits s)))))

/-- A defect is declared or cleared when its timer has run out, with a record; a DEG window ends in a verdict. Rests on 07_defects_and_integrity.md R191, 07_defects_and_integrity.md R196, 07_defects_and_integrity.md R197, 07_defects_and_integrity.md R198, 07_defects_and_integrity.md R205, 08_protection_switching.md R213. -/
def Obligations.DefectEvents : Prop :=
  (∀ l b s, l < 144 → b < 6 → let d := (lane s l).ldef
    let since := max (tget zeroN d.since b) s.dev.upAt
    let declareAt := max (since + d.tset * 125000) d.setFrom
    let clearAt := max (since + d.tclear * 125000) d.clrFrom
    exec (.defectDeclare (.lane l) b) s = .next (protSync (
      if running s = true ∧ d.heldAt = none ∧ d.cond.getLsbD b = true ∧ d.decl.getLsbD b = false ∧ declareAt ≤ s.clk.now
      then laneTaSync l (laneDefect l b true declareAt s) else s)) ∧
    exec (.defectClear (.lane l) b) s = .next (protSync (
      if running s = true ∧ d.heldAt = none ∧ d.cond.getLsbD b = false ∧ d.decl.getLsbD b = true ∧ clearAt ≤ s.clk.now
      then laneTaSync l (laneDefect l b false clearAt s) else s))) ∧
  (∀ ta b s, ta < 147456 → b < 3 → let d := (inTa s ta).df
    let since := max (tget zeroN d.since b) s.dev.upAt
    exec (.defectDeclare (.ingress ta) b) s = .next (protSync (
      if running s = true ∧ b ≠ 1 ∧ d.cond.getLsbD b = true ∧ d.decl.getLsbD b = false ∧ since + (profile s d.prof).tset * 125000 ≤ s.clk.now
      then taDefect false ta b true (since + (profile s d.prof).tset * 125000) s else s)) ∧
    exec (.defectClear (.ingress ta) b) s = .next (protSync (
      if running s = true ∧ b ≠ 1 ∧ d.cond.getLsbD b = false ∧ d.decl.getLsbD b = true ∧ since + (profile s d.prof).tclear * 125000 ≤ s.clk.now
      then taDefect false ta b false (since + (profile s d.prof).tclear * 125000) s else s))) ∧
  (∀ ta s, ta < 147456 → let d := (egTa s ta).df
    exec (.defectDeclare (.egress ta) 3) s = .next (protSync s) ∧
    (running s = false ∨ d.decl.getLsbD 3 = false → exec (.defectClear (.egress ta) 3) s = .next (protSync s)) ∧
    (∀ t v, running s = true → d.decl.getLsbD 3 = true → d.intAt = some (t, v) →
      exec (.defectClear (.egress ta) 3) s = .next (protSync (
        if t + (profile s d.prof).tclear * 125000 ≤ s.clk.now then taDefect true ta 3 false (t + (profile s d.prof).tclear * 125000) s else s))) ∧
    (running s = true → d.decl.getLsbD 3 = true → d.intAt = none →
      exec (.defectClear (.egress ta) 3) s = .next (protSync (taDefect true ta 3 false s.clk.now s)))) ∧
  (∀ ta s, ta < 147456 → let d := (inTa s ta).df
    let n := (degN (taSize s false ta (curCycle s)) d.winExp d.winS).1
    let ends := degStart s ta + 64000 * d.winS
    let t := s.clk.tickAt - 15625 * (curCycle s - ends)
    let kept := modTd false ta (fun x => { x with lastE := d.errors, lastC := d.checked, clamp := (degN (taSize s false ta (curCycle s)) d.winExp d.winS).2 }) s
    let next (s : State) : Host.Outcome State Fault Refusal := .next (protSync (degRestart ta ends s))
    degDue s ta = true →
    (d.checked < 32000 * d.winS → exec (.degWindowEnd ta) s = next kept) ∧
    (32000 * d.winS ≤ d.checked → n ≤ d.errors → d.decl.getLsbD 1 = false → exec (.degWindowEnd ta) s = next (taDefect false ta 1 true t kept)) ∧
    (32000 * d.winS ≤ d.checked → d.errors < n → d.decl.getLsbD 1 = true → exec (.degWindowEnd ta) s = next (taDefect false ta 1 false t kept)) ∧
    (32000 * d.winS ≤ d.checked → (n ≤ d.errors ↔ d.decl.getLsbD 1 = true) → exec (.degWindowEnd ta) s = next kept)) ∧
  (∀ ta s, ta < 147456 → degDue s ta = false → exec (.degWindowEnd ta) s = .next s) ∧
  (∀ l b t s,
    let d := (lane s l).ldef
    let up := d.decl ||| (1#6 <<< b)
    let down := d.decl &&& ~~~(1#6 <<< b)
    let on := modDef l (fun d => { d with decl := up, hist := d.hist ||| (1#6 <<< b) }) s
    let off := modDef l (fun d => { d with decl := down }) s
    (d.en.getLsbD b = true → laneDefect l b true t s = enqueue (mkRecAt on t 0x02 (b + 1) l (wd up.toNat) true) on ∧
      laneDefect l b false t s = enqueue (mkRecAt off t 0x02 (b + 1) l (wd down.toNat) false) off) ∧
    (d.en.getLsbD b = false → laneDefect l b true t s = on ∧ laneDefect l b false t s = off)) ∧
  (∀ eg ta b t s, b ≠ 2 →
    let d := taDef s eg ta
    let up := d.decl ||| (1#4 <<< b)
    let down := d.decl &&& ~~~(1#4 <<< b)
    let on := modTd eg ta (fun d => { d with decl := up, hist := d.hist ||| (1#4 <<< b), declAt := tset zeroN b t d.declAt }) s
    let off := modTd eg ta (fun d => { d with decl := down }) s
    let extra := match b, d.intAt with | 3, some (_, src, dl) => 16 * src + 2 ^ 22 * b2n dl | _, _ => 0
    (d.en.getLsbD b = true → taDefect eg ta b true t s = enqueue (mkRecAt on t 0x03 (b + 1) (taIndex eg ta) (wd (up.toNat + extra)) true) on ∧
      taDefect eg ta b false t s = enqueue (mkRecAt off t 0x03 (b + 1) (taIndex eg ta) (wd (down.toNat + extra)) false) off) ∧
    (d.en.getLsbD b = false → taDefect eg ta b true t s = on ∧ taDefect eg ta b false t s = off))

/-- TRIB_MAP_LOAD, TRIB_SET and TRIB_TIMING_SET reach the update port, are checked there and take hold at their cycle. Rests on 01_architecture.md R24, 05_tributaries_and_accords.md R122, 05_tributaries_and_accords.md R126, 05_tributaries_and_accords.md R137, 05_tributaries_and_accords.md R149, 05_tributaries_and_accords.md R150, 05_tributaries_and_accords.md R151, 12_command_plane.md R341, 12_command_plane.md R471, 08_protection_switching.md R226. -/
def Obligations.TribSettings : Prop :=
  (∀ p s s1, Accepted opTribMapLoad p s s1 →
    let a := pf p.params 1 22 0
    let d := readDesc s1 a
    let data := wmGet s1 d.addr d.len
    let t := handBack a s1
    let no (st : Status) := answered opTribMapLoad p st [] t
    (mapBusy s1 p.params = true → exec (.tribMapLoad p) s = answered opTribMapLoad p .busy [] s1) ∧
    (mapBusy s1 p.params = false →
      (d.own = false → exec (.tribMapLoad p) s = goesOn opTribMapLoad p (.desc a) [] [] s1) ∧
      (d.own = true → d.bad = true ∨ d.last = false ∨ d.len ≠ 196608 → exec (.tribMapLoad p) s = no .badParam) ∧
      (d.own = true → d.bad = false → d.last = true → d.len = 196608 →
        ((crc32c data).toNat ≠ d.dcrc → exec (.tribMapLoad p) s = no .badCrc) ∧
        ((crc32c data).toNat = d.dcrc → parseMap 0 data = none → exec (.tribMapLoad p) s = no .badParam) ∧
        ((crc32c data).toNat = d.dcrc → (parseMap 0 data).isSome = true →
          exec (.tribMapLoad p) s = goesOn opTribMapLoad p .port data [] t)))) ∧
  (∀ p s s1, Accepted opTribSet p s s1 → exec (.tribSet p) s =
    if protTribSet s1 p.params then answered opTribSet p .notInMode [] s1 else goesOn opTribSet p .port [] [] s1) ∧
  (∀ p s s1, Accepted opTribTimingSet p s s1 → exec (.tribTimingSet p) s = goesOn opTribTimingSet p .port [] [] s1) ∧
  (∀ j s0 s1, PortTurn j s0 s1 → j.work = .port → j.cls = 0x03 →
    let s := jrnl 2 j.ring j.tag s1
    let k := effTick s
    let ws := j.params
    let m : TMap := { gen := pf ws 0 31 16, ents := (parseMap 0 j.image).getD [] }
    let bad := mapBad ws m k s ++ protMapBad ws m s
    let st (n : Nat) (e : Bool) (t : State) : State := { t with port := { t.port with staged := t.port.staged ++ [{ tick := n, egress := e, w := .cmd j.cls j.act ws j.image }] } }
    let ok (w : List Word) (t : State) : Host.Outcome State Fault Refusal :=
      .next (protSync (endJob j.ring .ok (w ++ [(fcOf t k).1, wd (fcOf t k).2]) t))
    let ta := pf ws 0 17 0
    let clash := pb ws 0 18 && setClash ta (egSetOf ws) k s
    (j.act = 0x10 → bad ≠ [] → exec .updatePortCommit s0 = .next (protSync (endJob j.ring .badParam [wd (tribIds m).length, wd (lowest bad)] s))) ∧
    (j.act = 0x10 → bad = [] → exec .updatePortCommit s0 =
      ok [wd (tribIds m).length, 0] (if pb ws 0 8 then st (k + 3) true (mapCommit ws m k s) else st k false (mapCommit ws m k s))) ∧
    (j.act = 0x11 → protTribSet s ws = true → exec .updatePortCommit s0 = .next (protSync (endJob j.ring .notInMode [] s))) ∧
    (j.act = 0x11 → protTribSet s ws = false → clash = true → exec .updatePortCommit s0 = .next (protSync (endJob j.ring .badParam [] s))) ∧
    (j.act = 0x11 → protTribSet s ws = false → clash = false → exec .updatePortCommit s0 = ok [] (if pb ws 0 18
      then modEg ta (fun x => { x with set := verPut (curCycle s) (k + 3) (egSetOf ws) x.set }) s
      else modIn ta (fun x => { x with tag := verPut (curCycle s) k (pb ws 1 0) x.tag }) s)) ∧
    let same (x : Staged) : Bool := x.tick == k && (match x.w with | .cmd 3 0x13 w _ => pf w 0 7 0 == pf ws 0 7 0 | _ => false)
    let t := timingCommit ws k s
    (j.act = 0x13 → exec .updatePortCommit s0 = ok [] (st k false { t with port := { t.port with staged := t.port.staged.filter (fun x => !same x) } })))

/-- TRIB_GET and the tributary defect commands complete with the words and the effect of their tables. Rests on 05_tributaries_and_accords.md R150, 07_defects_and_integrity.md R206, 07_defects_and_integrity.md R198. -/
def Obligations.TribReportsAndDefects : Prop :=
  (∀ p s s1, Accepted opTribGet p s s1 →
    let ta := pf p.params 0 17 0
    let n := curCycle s1
    let x := inTa s1 ta
    let y := egTa s1 ta
    let clear (f : State → State) : State := if pb p.params 0 19 then f s1 else s1
    (pb p.params 0 18 = true → 0 < taSize s1 true ta n → exec (.tribGet p) s = answered opTribGet p .ok
      [wd (taSize s1 true ta n + 2 ^ 17 * b2n (decide (8 ≤ taSize s1 true ta n)) + 2 ^ 18 * y.d), wdI 0,
        if (egSet s1 ta n).acc = 0 then 0 else y.label, wd (4 * b2n y.hist), wd noTa] (clear (modEg ta (fun y => { y with hist := false })))) ∧
    (pb p.params 0 18 = false → 0 < taSize s1 false ta n →
      let g := taSize s1 false ta n
      let ra := plesioAt s1 (ta / 1024) n
      let mem := memberOf s1 ta
      exec (.tribGet p) s = answered opTribGet p .ok
        [wd (g + 2 ^ 17 * b2n (decide (8 ≤ g)) + 2 ^ 18 * (if ra then x.ra.d else (x.cur.map (·.d)).getD 64) + 2 ^ 26 * b2n ra + 2 ^ 27 * b2n (lomfCond s1 ta)),
          wdI (if !ra then 0 else if 8 ≤ g then x.ra.e else (tget raLaneReset s1.trib.raLane (ta / 1024)).x),
          if mem.isSome then x.lab.getD 0 else 0, wd x.hist.toNat,
          wd ((mem.getD (noTa, 0)).1 + 2 ^ 18 * (mem.getD (noTa, 0)).2 + 2 ^ 24 * delayA s1 ta n)] (clear (modIn ta (fun x => { x with hist := 0 })))) ∧
    (∀ v t, draw 0x0512 s1 = (v, t) → taSize s1 (pb p.params 0 18) ta n = 0 →
      let clr (f : State → State) : State := if pb p.params 0 19 then f t else t
      (pb p.params 0 18 = true → exec (.tribGet p) s = answered opTribGet p .ok
        [wd (2 ^ 18 * (v % 256)), wdI 0, if (egSet t ta n).acc = 0 then 0 else y.label, wd (4 * b2n y.hist), wd noTa] (clr (modEg ta (fun y => { y with hist := false })))) ∧
      (pb p.params 0 18 = false →
        let ra := plesioAt s1 (ta / 1024) n
        let mem := memberOf t ta
        exec (.tribGet p) s = answered opTribGet p .ok
          [wd (2 ^ 18 * (v % 256) + 2 ^ 26 * b2n ra + 2 ^ 27 * b2n (lomfCond t ta)), wdI (if ra then (tget raLaneReset t.trib.raLane (ta / 1024)).x else 0),
            if mem.isSome then x.lab.getD 0 else 0, wd x.hist.toNat,
            wd ((mem.getD (noTa, 0)).1 + 2 ^ 18 * (mem.getD (noTa, 0)).2 + 2 ^ 24 * delayA t ta n)] (clr (modIn ta (fun x => { x with hist := 0 }))))) ) ∧
  (∀ p s s1, Accepted opTribDefectProfileSet p s s1 → exec (.tribDefectProfileSet p) s = answered opTribDefectProfileSet p .ok [] { s1 with trib := { s1.trib with
    prof := tset profReset (pf p.params 0 2 0) { exp := pf p.params 0 6 3, winS := pf p.params 0 10 7, tset := pf p.params 1 13 0, tclear := pf p.params 1 27 14 } s1.trib.prof } }) ∧
  (∀ p s s1, Accepted opTribDefectSet p s s1 →
    let ta := pf p.params 0 17 0
    let prof := pf p.params 0 21 19
    let en := BitVec.ofNat 4 (pf p.params 1 11 8)
    let d := (inTa s1 ta).df
    let deg := pb p.params 1 0
    let set (t : State) : State := modTd false ta (fun d => { d with prof, en, degEn := deg, sfSrc := BitVec.ofNat 3 (pf p.params 1 3 1), jcN := pf p.params 1 7 4 }) t
    (pb p.params 0 18 = true → exec (.tribDefectSet p) s = answered opTribDefectSet p .ok [] (protSync (modTd true ta (fun d => { d with prof, en }) s1))) ∧
    (pb p.params 0 18 = false →
      let counted (t : State) : State := modIn ta (fun x => { x with jcSf := x.jcSf || decide (pf p.params 1 7 4 ≤ x.jcRun) }) t
      let t1 := if d.decl.getLsbD 1 = true ∧ (deg = false ∨ prof ≠ d.prof) then taDefect false ta 1 false s1.clk.now s1 else s1
      exec (.tribDefectSet p) s = answered opTribDefectSet p .ok [] (protSync (taSync ta
        (if deg = true ∧ (d.degEn = false ∨ prof ≠ d.prof) then degRestart ta (counted (set t1)).clk.ticks (counted (set t1)) else counted (set t1)))))) ∧
  (∀ p s s1, Accepted opTribDefectGet p s s1 →
    let ta := pf p.params 0 17 0
    let eg := pb p.params 0 18
    let d := taDef s1 eg ta
    let g := taSize s1 eg ta (curCycle s1)
    let n := if eg || g = 0 then 0 else (degN g d.winExp d.winS).1
    let c := if eg then 8 * b2n (match d.intAt with | some (t, _, _) => decide (s1.clk.tickAt ≤ t) | none => false)
      else d.cond.toNat + 2 * b2n (d.degEn && decide (0 < n) && decide (n ≤ d.errors))
    exec (.tribDefectGet p) s = answered opTribDefectGet p .ok
      [wd (c + 2 ^ 4 * d.decl.toNat + 2 ^ 8 * d.hist.toNat + 2 ^ 12 * b2n d.clamp), wd d.lastE, wd d.lastC, wd n]
      (if pb p.params 0 19 then modTd eg ta (fun d => { d with hist := 0 }) s1 else s1))

/-- ACCORD_SET, ACCORD_MEMBER_SET and ACCORD_GET complete as chapter 5 says; units return after 64 cycles; members realign. Rests on 05_tributaries_and_accords.md R140, 05_tributaries_and_accords.md R145, 05_tributaries_and_accords.md R146, 05_tributaries_and_accords.md R148, 05_tributaries_and_accords.md R150, 05_tributaries_and_accords.md R152, 05_tributaries_and_accords.md R153, 12_command_plane.md R472. -/
def Obligations.AccordCommands : Prop :=
  (∀ p s s1, Accepted opAccordSet p s s1 → exec (.accordSet p) s = goesOn opAccordSet p .port [] [] s1) ∧
  (∀ p s s1, Accepted opAccordMemberSet p s s1 → exec (.accordMemberSet p) s = goesOn opAccordMemberSet p .port [] [] s1) ∧
  (∀ j s0 s1, PortTurn j s0 s1 → j.work = .port → j.cls = 0x04 →
    let s := jrnl 2 j.ring j.tag s1
    let k := effTick s
    let ws := j.params
    let ai := pf ws 0 13 0
    let c := accNew s ai
    let st (t : State) : State := { t with port := { t.port with staged := t.port.staged ++ [{ tick := k, egress := false, w := .cmd j.cls j.act ws j.image }] } }
    let ok (w : List Word) (t : State) : Host.Outcome State Fault Refusal :=
      .next (protSync (endJob j.ring .ok (w ++ [(fcOf t k).1, wd (fcOf t k).2]) t))
    let on := pb ws 0 14
    let changes := on = true ∧ c.en = true ∧ (c.aligned ≠ pb ws 0 15 ∨ c.depth ≠ pf ws 1 6 0)
    (j.act = 0x10 → changes → exec .updatePortCommit s0 = .next (protSync (endJob j.ring .notInMode [] s))) ∧
    (j.act = 0x10 → ¬ changes → on = true → exec .updatePortCommit s0 = ok [] (st (putAcc ai k { c with
      en := true, aligned := pb ws 0 15, id := pf ws 0 31 16, depth := pf ws 1 6 0, margin := pf ws 1 12 7, frames := pf ws 2 7 0 } s))) ∧
    (j.act = 0x10 → on = false → exec .updatePortCommit s0 = ok [] (st
      (putAcc ai k accSetReset ((c.mem.map (·.2)).foldl (fun s ta => returnUnits k 0 (memUnits s c ta) s) s)))) ∧
    (j.act = 0x11 → ∀ st, memberSetCheck ws k s = some st → exec .updatePortCommit s0 = .next (protSync (endJob j.ring st [wd (freeUnits s k)] s))) ∧
    (j.act = 0x11 → memberSetCheck ws k s = none → exec .updatePortCommit s0 = ok [wd (freeUnits (st (memberSetCommit ws k s)) k)] (st (memberSetCommit ws k s)))) ∧
  (∀ ws k s, let ai := pf ws 0 13 0
    let a := accNew s ai
    let old := tget noMember a.mem (pf ws 0 19 14)
    (a.en = false → memberSetCheck ws k s = some .notInMode) ∧
    (a.en = true → pb ws 0 20 = true → memberSetCheck ws k s = none ∧ memberSetCommit ws k s = if old = noTa then s
      else putAcc ai k { a with mem := tset noMember (pf ws 0 19 14) noTa a.mem } (returnUnits k 0 (memUnits s a old) s)) ∧
    (a.en = true → pb ws 0 20 = false → a.aligned = false → memberSetCommit ws k s = putAcc ai k { a with mem := tset noMember (pf ws 0 19 14) (pf ws 1 17 0) a.mem } s) ∧
    (a.en = true → pb ws 0 20 = false → taSize s false (pf ws 1 17 0) k = 0 ∨ (memberNew s (pf ws 1 17 0)).isSome = true ∨ old ≠ noTa →
      memberSetCheck ws k s = some .badParam) ∧
    (a.en = true → pb ws 0 20 = false → taSize s false (pf ws 1 17 0) k ≠ 0 → memberNew s (pf ws 1 17 0) = none → old = noTa →
      let ta := pf ws 1 17 0
      let bound := s.conn.eq.any (fun x => x.2.ta == ta && x.2.st != 0)
      let seals := 48 < a.depth ∧ checkedBound s ta = true
      let units := unitsFor (taSize s false ta k) a.depth
      (a.aligned = false → memberSetCheck ws k s = none) ∧
      (a.aligned = true → bound = true ∨ seals → memberSetCheck ws k s = some .badParam) ∧
      (a.aligned = true → bound = false → ¬ seals → freeUnits s k < units → memberSetCheck ws k s = some .busy) ∧
      (a.aligned = true → bound = false → ¬ seals → units ≤ freeUnits s k → memberSetCheck ws k s = none ∧
        memberSetCommit ws k s = storeFrom ta k (putAcc ai k { a with mem := tset noMember (pf ws 0 19 14) ta a.mem } s)))) ∧
  (∀ p s s1, Accepted opAccordGet p s s1 →
    let ai := pf p.params 0 13 0
    let a := accord s1 ai
    let c := accNow s1 ai
    let t := wmPut (pf p.params 1 22 0) ((List.range 64).flatMap (memberRecord s1 ai)) s1
    exec (.accordGet p) s = answered opAccordGet p .ok
      [wd (b2n c.en + 2 * b2n c.aligned + 4 * c.mem.length + 2 ^ 9 * b2n (c.mem.any (fun y => lomfCond s1 y.2)) + 2 ^ 10 * b2n !a.skew.isEmpty),
        if c.aligned then a.oref.getD 0 else 0, wd (accSkew s1 ai), wd a.hist.toNat]
      (if pb p.params 0 14 then modAcc ai (fun a => { a with hist := 0 }) t else t)) ∧
  (∀ s, exec .alignerUnitsReturn s = .next { s with trib := { s.trib with ret := s.trib.ret.filter (fun x => decide (curCycle s < x.1)) } }) ∧
  (∀ ai s, ai < 16384 →
    let c := accNow s ai
    let r := accordAct ai s
    let ch := (List.range 64).filter (fun p => r.2.contains p)
    (running s = false ∨ c.en = false ∨ c.aligned = false ∨ s.clk.cyc ≠ 0 → exec (.accordRealign ai) s = .next s) ∧
    (running s = true → c.en = true → c.aligned = true → s.clk.cyc = 0 →
      let t := modAcc ai (fun a => { a with owed := [] }) r.1
      (ch = [] → exec (.accordRealign ai) s = .next t) ∧
      (∀ p q, ch = p :: q → exec (.accordRealign ai) s = .next (pulse 0x04 0x11 ai (wd (p + 64 * ch.length)) false (modAcc ai (fun a => { a with hist := a.hist ||| 4 }) t)))))

/-- ACCORD_STORE_GET replies the five counts of the Aligner store, sampled together. Formalises 05_tributaries_and_accords.md R154. -/
def Obligations.StoreReport : Prop :=
  opAccordStoreGet.cls = 0x04 ∧ opAccordStoreGet.act = 0x13 ∧
  (∀ (p : Packet) (s : State), p.params ≠ [] → formStage opAccordStoreGet p s = false) ∧
  (∀ (p : Packet) (s s1 : State), Accepted opAccordStoreGet p s s1 →
    exec (.accordStoreGet p) s = answered opAccordStoreGet p .ok
      [65536, wd (freeUnits s1 (curCycle s1)), wd (accordUnits s1 (curCycle s1)), wd (eqUnits s1 (curCycle s1)), wd (checkedUnits s1 (curCycle s1))] s1) ∧
  (∀ (s : State) (n : Nat), accordUnits s n + eqUnits s n + checkedUnits s n ≤ 65536 →
    freeUnits s n + accordUnits s n + eqUnits s n + checkedUnits s n = 65536)

/-- The connection commands complete: CONN_SET and CONN_LOAD commit entry by entry, CONN_GET, CONN_DELAY and CONN_OCCUPANCY_GET report. Rests on 06_switching_core.md R165, 06_switching_core.md R170, 06_switching_core.md R180, 06_switching_core.md R181, 06_switching_core.md R182, 06_switching_core.md R183, 06_switching_core.md R185, 08_protection_switching.md R226. -/
def Obligations.ConnCommands : Prop :=
  (∀ p s s1, Accepted opConnSet p s s1 →
    let owned := ∃ r < pf p.params 0 2 0, protOwns s1 (pf p.params (1 + 2 * r) 23 0) = true
    (owned → exec (.connSet p) s = answered opConnSet p .notInMode [] s1) ∧
    (¬ owned → exec (.connSet p) s = goesOn opConnSet p (.conn 0 (0, 0) (0, 0) []) [] [] s1)) ∧
  (∀ p s s1, Accepted opConnLoad p s s1 →
    let a := pf p.params 0 22 0
    let d := readDesc s1 a
    let data := wmGet s1 d.addr d.len
    let t := handBack a s1
    (d.own = false → exec (.connLoad p) s = goesOn opConnLoad p (.desc a) [] [] s1) ∧
    (d.own = true → d.bad = true ∨ d.last = false → exec (.connLoad p) s = answered opConnLoad p .badParam [] t) ∧
    (d.own = true → d.bad = false → d.last = true →
      ((crc32c data).toNat ≠ d.dcrc → exec (.connLoad p) s = answered opConnLoad p .badCrc [] t) ∧
      ((crc32c data).toNat = d.dcrc → imageOk data data.length = false → exec (.connLoad p) s = answered opConnLoad p .badParam [] t) ∧
      ((crc32c data).toNat = d.dcrc → imageOk data data.length = true →
        (imageOwned data t = true → exec (.connLoad p) s = answered opConnLoad p .notInMode [] t) ∧
        (imageOwned data t = false → pb p.params 1 0 = true → exec (.connLoad p) s = answered opConnLoad p .ok [0, 0, 0, 0, 0, 0] t) ∧
        (imageOwned data t = false → pb p.params 1 0 = false → exec (.connLoad p) s = goesOn opConnLoad p (.conn 0 (0, 0) (0, 0) []) data [] t)))) ∧
  (∀ p s s1, Accepted opConnGet p s s1 →
    let g := pf p.params 0 23 0
    let c := committed s1 g
    let r := inForce s1 (curCycle s1) g
    let eqd := if entryEq r.data then (match taOfGrain s1 (entrySrc r.data / 98304) (entrySrc r.data % 98304) (curCycle s1) with
      | some ta => delayE s1 ta (curCycle s1) | none => 0) else 0
    exec (.connGet p) s = answered opConnGet p .ok [c.data, r.data, c.effFc, wd (c.effCyc + 8 * b2n (decide (curCycle s1 < c.eff)) + 16 * (if isSource r.data then r.slot else 0x3FFFF)),
      wd (eqd + 128 * fanOut s1 (entrySrc r.data)), wd (physBlock s1 g)] s1) ∧
  (∀ p s s1, Accepted opConnDelay p s s1 → exec (.connDelay p) s =
    goesOn opConnDelay p (.delay (if nsOf s1.clk < 3907 then curCycle s1 - 1 else curCycle s1)) [] [] s1) ∧
  (∀ p s s1, Accepted opConnOccupancyGet p s s1 → exec (.connOccupancyGet p) s = answered opConnOccupancyGet p .ok [wd (poolFree s1)]
    (wmPut (pf p.params 0 22 0) ((List.range 144).flatMap (fun i => leBytes 4 (loadK s1 i) ++ leBytes 4 (loadE s1 i))) s1)) ∧
  (∀ j s0 u n f l gens g d follow, PortTurn j s0 u → j.work = .conn n f l gens → connNext j n = some (.conn g d follow) →
    let s := jrnl 2 j.ring j.tag u
    let k := effTick s
    let fol := followTa g d k s
    let why := blockReason s g (wd d)
    let stop (st : Status) (why : Nat) : Host.Outcome State Fault Refusal := .next (protSync (endJob j.ring st (connWords j n f l gens true why) s))
    (follow = true → fol = none → exec .updatePortCommit s0 = stop .badParam 0) ∧
    ((follow = true → fol ≠ none) → why ≠ 0 → exec .updatePortCommit s0 = stop .routeBlocked why) ∧
    ((follow = true → fol ≠ none) → why = 0 → s.conn.bad.contains (g / 4096) = true → exec .updatePortCommit s0 = stop .hwFault 0) ∧
    ((follow = true → fol ≠ none) → why = 0 → s.conn.bad.contains (g / 4096) = false →
      let s1 := commitEntry g d s
      let t := if follow = true then (match fol with | some (ta, src) => followCommit ta src k s1 | none => s1) else s1
      let e := fcOf t k
      let first := if n = 0 then e else f
      let gens' := if j.act = 0x10 then gens ++ [entryGen (committed t g).data] else gens
      let t' := setJob j.ring (some { j with accepted := n + 1, work := .conn (n + 1) first e gens' }) t
      exec .updatePortCommit s0 = .next (protSync (if connNext j (n + 1) = none then endJob j.ring .ok (connWords j (n + 1) first e gens' false 0) t' else t'))))

/-- The Route Allocator refuses a write exactly when the source lane's load would exceed 196,608 or the fan-out 256. Formalises 06_switching_core.md R166. -/
def Obligations.BlockReasons : Prop :=
  ∀ j s0 u n f l gens g d follow, PortTurn j s0 u → j.work = .conn n f l gens → connNext j n = some (.conn g d follow) →
    let s := jrnl 2 j.ring j.tag u
    tblWf connReset 0 s.conn.com = true →
    (follow = true → followTa g d (effTick s) s ≠ none) →
    let w := putConn g { committed s g with data := nextData (committed s g).data d } s
    let src := entrySrc (wd d)
    let fresh := isSource (wd d) = true ∧ ¬ (isSource (committed s g).data = true ∧ entrySrc (committed s g).data = src)
    let stop (why : Nat) : Host.Outcome State Fault Refusal := .next (protSync (endJob j.ring .routeBlocked (connWords j n f l gens true why) s))
    let full := fresh ∧ 196608 < loadK w (src / 98304)
    let wide := fresh ∧ 256 < fanOut w src
    (full → exec .updatePortCommit s0 = stop 1) ∧
    (¬ full → wide → exec .updatePortCommit s0 = stop 2) ∧
    (¬ full → ¬ wide → s.conn.bad.contains (g / 4096) = false → exec .updatePortCommit s0 = .next (protSync (connDone j n f gens g (effTick s)
      (if follow = true then (match followTa g d (effTick s) s with | some (ta, x) => followCommit ta x (effTick s) (commitEntry g d s) | none => commitEntry g d s) else commitEntry g d s))))

/-- Commits of entries keep the Connection Table canonical, every source lane's load at most 196,608 and every fan-out at most 256. Rests on 06_switching_core.md R160, 06_switching_core.md R162, 06_switching_core.md R165, 06_switching_core.md R166, 06_switching_core.md R167. -/
def Obligations.RouteLimitsKept : Prop :=
  let Ok (s : State) : Prop := tblWf connReset 0 s.conn.com = true ∧ (∀ i, loadK s i ≤ 196608) ∧ (∀ src, fanOut s src ≤ 256)
  Ok State.reset ∧
  (∀ g d s, Ok s → blockReason s g (wd d) = 0 → Ok (commitEntry g d s)) ∧
  (∀ s, Ok s → Ok (apertureServe s)) ∧
  (∀ m a v s t, Ok s → exec (.apertureWrite m a v) s = .next t → Ok t)

/-- CONN_EQ_SET, CONN_EQ_GET and the Path Equaliser's lock and loss complete as chapter 6 says. Rests on 06_switching_core.md R173, 06_switching_core.md R174, 06_switching_core.md R175, 06_switching_core.md R176, 06_switching_core.md R177, 06_switching_core.md R180, 06_switching_core.md R184, 12_command_plane.md R471. -/
def Obligations.EqCommands : Prop :=
  (∀ p s s1, Accepted opConnEqSet p s s1 → exec (.connEqSet p) s = goesOn opConnEqSet p .port [] [] s1) ∧
  (∀ p s s1, Accepted opConnEqGet p s s1 →
    let b := pf p.params 0 12 0
    let x := eqBind s1 b
    let y := eqForce s1 b
    let om := if y.st = 2 then 0 else (wdI y.omega).toNat % 256
    exec (.connEqGet p) s = answered opConnEqGet p .ok [wd (y.st + 8 * y.s + 2 ^ 10 * om), y.fcLock, wd y.cycLock, wd x.hist.toNat]
      (if pb p.params 0 13 then setEq b { x with hist := 0 } s1 else s1)) ∧
  (∀ j s0 s1, PortTurn j s0 s1 → j.work = .port → j.cls = 0x05 →
    let s := jrnl 2 j.ring j.tag s1
    let k := effTick s
    let ws := j.params
    let b := pf ws 0 12 0
    let x := eqBind s b
    let ta := pf ws 1 17 0
    let depth := pf ws 1 24 18
    let on := pb ws 0 13
    let same := x.st ≠ 0 ∧ eqSame x ws = true
    let ok (t : State) : Host.Outcome State Fault Refusal := .next (protSync (endJob j.ring .ok [(fcOf t k).1, wd (fcOf t k).2] t))
    let no (st : Status) : Host.Outcome State Fault Refusal := .next (protSync (endJob j.ring st [] s))
    (on = false → exec .updatePortCommit s0 = ok (eqDisable b k s)) ∧
    (on = true → same → exec .updatePortCommit s0 = ok s) ∧
    (on = true → ¬ same → taSize s false ta k = 0 → exec .updatePortCommit s0 = no .badParam) ∧
    (on = true → ∀ st, eqSetCheck ws k s = some st → exec .updatePortCommit s0 = no st) ∧
    (on = true → ¬ same → x.st = 0 → pb ws 0 14 = true → eqSetCheck ws k s = none →
      unitsFor (taSize s false ta k) depth ≤ freeUnits s k ∧
      exec .updatePortCommit s0 = ok (storeFrom ta k (eqCommit b k { eqFresh x with
        st := 2, ta, depth, s := 0, taRef := pf ws 2 17 0, refDelay := pf ws 2 24 18, matchN := pf ws 2 31 25, c0 := k,
        units := unitsFor (taSize s false ta k) depth } s))) ∧
    (on = true → ¬ same → x.st = 0 → pb ws 0 14 = false → eqSetCheck ws k s = none →
      let v := pf ws 2 6 0
      let s1 := storeFrom ta k (eqCommit b k { eqFresh x with
        st := 1, ta, depth, s := v, taRef := noTa, units := unitsFor (taSize s false ta k) depth } s)
      exec .updatePortCommit s0 = ok (if delayE s ta k = v then s1 else putE ta k v s1))) ∧
  (∀ b k x s, tblWf eqReset 0 s.conn.eq = true → tblWf noEq 0 s.conn.eqOld = true → curCycle s < k →
    eqBind (eqCommit b k x s) b = { x with from_ := k } ∧ eqForce (eqCommit b k x s) b = eqForce s b) ∧
  (∀ b s, b < 8192 → running s = true → let x := eqForce s b
    (∀ k, x.st = 2 → x.lockAt = some k → (∀ t, eqUntil s b = some t → k < t) →
      let v := ((x.refDelay : Int) + x.omega).toNat
      exec (.connEqLocked b) s = .next (protSync (pulse 0x05 0x12 b (wd ((wdI x.omega).toNat % 256 + 256 * v)) false (putE x.ta k v (setForce b { x with
        st := 3, s := v, lockAt := none, fails := 0, ambigRaised := false, rangeRaised := false, fcLock := (fcOf s k).1, cycLock := (fcOf s k).2 } s))))) ∧
    (∀ k t, x.st = 2 → x.lockAt = some k → eqUntil s b = some t → t ≤ k → exec (.connEqLocked b) s = .next (protSync s)) ∧
    (x.st ≠ 2 ∨ x.lockAt = none → exec (.connEqLocked b) s = .next (protSync s)) ∧
    (x.st = 3 → x.matchN ≤ x.fails → exec (.connEqLost b) s = .next (pulse 0x05 0x15 b 0 false (eqHist b 4 (setForce b { x with st := 4 } s)))) ∧
    (x.st ≠ 3 ∨ x.fails < x.matchN → exec (.connEqLost b) s = .next s))

/-- The crossover pass of ingress cycle k writes egress cycle k + 3 by the entries in force, and reports the errors found. Rests on 02_grain_cycle.md R43, 06_switching_core.md R157, 06_switching_core.md R161, 06_switching_core.md R163, 06_switching_core.md R171, 13_window_memory_and_matrix.md R366. -/
def Obligations.CrossoverPassWrites : Prop :=
  (∀ n bad s, tblWf connReset 0 s.conn.com = true → relBuf s (n + 3) = none →
    let t := crossPass n bad s
    (∀ g v bad', bad = bad' ++ [(g, v)] → tget noGrain (released t (n + 3)) g = v) ∧
    ∀ g, (∀ x ∈ bad, x.1 ≠ g) → let d := (inForce s n g).data
      let x := tget noGrain (released t (n + 3)) g
      (entryFill d = 1 → x = 0x5A5A) ∧ (entryFill d = 2 → x = tget noGrain (released s (n + 2)) g) ∧ (entryFill d = 3 → x = 0) ∧
      (entryFill d = 0 → x = match sourceGrain s n d with | some v => v | none => BitVec.ofNat 16 (Config.freeAt s.clk.free (0x060000000000 + g)))) ∧
  (∀ n bad s, let b : RelBuf := { m := n + 3, gr := bad.foldl (fun t x => tset noGrain x.1 x.2 t) (s.conn.com.filterMap (fun x => let v := passGrain s.clk.free s n x.1; if v = 0 then none else some (x.1, v))) }
    crossPass n bad s = delayJobs n (eqPass n { s with
      clk := { s.clk with free := s.clk.free + 1 }
      data := if s.data.relNext = true then { s.data with rel1 := some b, relNext := false } else { s.data with rel0 := some b, relNext := true } })) ∧
  (∀ be bw co s, be.all gaOk = true → bw.all badWordWf = true → (∀ x ∈ co, 1 ≤ x ∧ x ≤ 6) →
    (running s = true → passPending s = true → 3907 ≤ nsOf s.clk → exec (.crossoverPass be { bad := bw, corrected := co }) s =
      .next (bw.foldl (fun s x => badWord x s) (be.foldl (fun s g => badEntry g s)
        (co.foldl (fun s x => tapInc 0x20 x 1 s) (crossPass (curCycle s - 1) (bw.flatMap (·.grains)) s))))) ∧
    (running s = false ∨ passPending s = false ∨ nsOf s.clk < 3907 → exec (.crossoverPass be { bad := bw, corrected := co }) s = .next s))

/-- A write of the Connection Table aperture commits an entry, or is ignored with its event. Rests on 06_switching_core.md R160, 06_switching_core.md R166, 13_window_memory_and_matrix.md R365, 13_window_memory_and_matrix.md R367. -/
def Obligations.ApertureWrites : Prop :=
  ∀ m g (v : Word) s0, m < 8 → g < 16777216 → tblWf connReset 0 s0.conn.com = true →
    let a := 0x4000000 + 4 * g
    let go := exec (.apertureWrite m a v) s0
    let s := takeSlot (if m ≤ 1 then jrnl 2 4 0 s0 else s0)
    let waits : Prop := ∃ t, go = .next t ∧ t = { s0 with port := t.port } ∧ t.port.waiting = s0.port.waiting ++ [(m, a, v)]
    let c : ConnRec := { data := wd (v.toNat % 2 ^ 28 + 2 ^ 28 * ((entryGen (committed s g).data + 1) % 16)), eff := effTick s
                         effFc := (fcOf s (effTick s)).1, effCyc := (fcOf s (effTick s)).2, since := effTick s, slot := 0 }
    (m ≠ 0 ∧ m ≠ 1 ∧ m ≠ 3 → go = .next (raise 0x0A 0x11 m (wd a) false { s0 with mem := { s0.mem with errI := true } })) ∧
    (m = 0 ∨ m = 1 ∨ m = 3 → portOpen s0 = false → waits) ∧
    (m = 0 ∨ m = 1 ∨ m = 3 → s0.port.waiting = [] → lockAllows s0 2 m = false → waits) ∧
    (m = 0 ∨ m = 1 ∨ m = 3 → portOpen s0 = true → s0.port.waiting = [] → lockAllows s0 2 m = true →
      (14155776 ≤ g → go = .next s ∧ apertureRead s a = 0) ∧
      (g < 14155776 →
        (3 < fld v 26 24 ∨ 14155776 ≤ fld v 23 0 → go = .next (pulse 0x05 0x11 g v false s)) ∧
        (fld v 26 24 ≤ 3 → fld v 23 0 < 14155776 →
          (s.conn.bad.contains (g / 4096) = true ∨ blockReason s g v ≠ 0 → go = .next s) ∧
          (s.conn.bad.contains (g / 4096) = false → blockReason s g v = 0 →
            ∃ t, go = .next t ∧ apertureRead t a = c.data ∧ { committed t g with slot := 0 } = c ∧
              (isSource v = false → ∀ h, h ≠ g → committed t h = committed s h)))))

/-- PROT_GROUP_SET, PROT_CMD and PROT_GET complete as chapter 8 says. Rests on 08_protection_switching.md R214, 08_protection_switching.md R221, 08_protection_switching.md R228, 08_protection_switching.md R229, 08_protection_switching.md R230. -/
def Obligations.ProtectionCommands : Prop :=
  (∀ p s s1, Accepted opProtGroupSet p s s1 →
    let n := pf p.params 0 15 0
    let old := group s1 n
    let h := groupOf p.params old
    let said (t : State) := answered opProtGroupSet p .ok [wd (b2n (group t n).side + 2 * (group t n).req)] t
    let on := pb p.params 0 16
    (on = false → exec (.protGroupSet p) s = said (if old.en then groupDisable n s1 else s1)) ∧
    (on = true → old.en = true →
      (changeOk old h = true → exec (.protGroupSet p) s = said (groupChange n h s1)) ∧
      (changeOk old h = false → exec (.protGroupSet p) s = answered opProtGroupSet p .notInMode [] s1)) ∧
    (on = true → old.en = false →
      (enableOk s1 n h = true → exec (.protGroupSet p) s = said (groupEnable n h s1)) ∧
      (enableOk s1 n h = false → exec (.protGroupSet p) s = answered opProtGroupSet p .badParam [] s1))) ∧
  (∀ g h : PGroup, changeOk g h = true ↔ h = { g with prio := h.prio, trig := h.trig, revertive := h.revertive, wtrS := h.wtrS, holdOff := h.holdOff }) ∧
  (∀ p s s1, Accepted opProtCmd p s s1 →
    let n := pf p.params 0 15 0
    let r := pf p.params 0 18 16
    let g := group s1 n
    let eq := g.requireEq = false ∨ setEqualised s1 n = true
    let may := g.en = true ∧ (r = 0 ∨ r = 1 ∨ (r = 2 ∧ g.ext ≠ 0xA ∧ eq) ∨ (3 ≤ r ∧ g.typ ≠ 2 ∧ highReq (present s1 n) = none ∧ eq))
    let ext := if r = 1 then 0xA else if r = 2 then 9 else if r = 3 then 4 else if r = 4 then 3 else 0
    let s2 := if (g.ext = 4 ∨ g.ext = 3) ∧ (r = 1 ∨ r = 2) then raise 0x06 0x06 (setHead s1 n) (wd ext) false s1 else s1
    let t := protEval n (r == 0) (modSet n (fun g => { g with ext }) s2)
    (may → exec (.protCmd p) s = answered opProtCmd p .ok [wd (b2n (group t n).side + 2 * (group t n).req + 32 * (group t n).ext)] t) ∧
    (¬ may → exec (.protCmd p) s = answered opProtCmd p .notInMode [] s1)) ∧
  (∀ p s s1, Accepted opProtGet p s s1 →
    let n := pf p.params 0 15 0
    let g := group s1 n
    let left := if g.en = true ∧ g.rev = 1 then (g.wtrAt + g.wtrS * 1000000000 - s1.clk.now) / 1000000000 else 0
    exec (.protGet p) s = answered opProtGet p .ok
      [wd (b2n g.side + 2 * g.req + 32 * g.ext + 2 ^ 9 * b2n (g.run.isSome || g.due) + 2 ^ 10 * b2n g.held + 2 ^ 11 * b2n g.failed + 2 ^ 12 * b2n (g.en && equalised s1 g)),
        wd left, wd (if g.en = true then altEntries s1 g else 0), g.fcDone, wd g.cycDone, wd g.switches, wd g.hist.toNat]
      (if pb p.params 0 16 then setGroup n { g with hist := 0 } s1 else s1))

/-- Switches start, hold-off and wait-to-restore run out, and the rules' writes commit as chapter 8 says. Rests on 08_protection_switching.md R213, 08_protection_switching.md R215, 08_protection_switching.md R216, 08_protection_switching.md R217, 08_protection_switching.md R218, 08_protection_switching.md R219, 08_protection_switching.md R220, 08_protection_switching.md R221. -/
def Obligations.ProtectionRows : Prop :=
  (∀ n s, n < 65536 → running s = false ∨ s.dev.failover = true ∨ s.cp.none_ = true ∨ (group s n).en = false →
    exec (.protSwitchStart n) s = .next s ∧ exec (.protHoldOffExpiry n) s = .next s ∧ exec (.protWtrExpiry n) s = .next s) ∧
  (∀ n s, n < 65536 → running s = true → s.dev.failover = false → s.cp.none_ = false → (group s n).en = true →
    let kept (t : State) : Host.Outcome State Fault Refusal := .next (if t.prot = s.prot then t else jrnl 3 4 0 t)
    let h0 := setHead s n
    exec (.protSwitchStart n) s = kept ((enGroups s).foldl (fun s m =>
      if setHead s m = m ∧ (m = h0 ∨ (group s h0).prio < (group s m).prio ∨ ((group s h0).prio = (group s m).prio ∧ m < h0))
      then (linkSet s m).foldl (fun s i => if (group s i).due then startRun false i s else s) s else s) s) ∧
    (let g := group s n
     ((∀ i < 6, ∀ t, tget noTime g.since i = some t → s.clk.now < t + g.holdOff * 100000000) → exec (.protHoldOffExpiry n) s = .next s) ∧
     (∃ ok, (ok = g.ok → exec (.protHoldOffExpiry n) s = .next s) ∧ (ok ≠ g.ok → exec (.protHoldOffExpiry n) s = kept (protEval n false (setGroup n { g with ok } s))) ∧
      ∀ i < 6, ok.getLsbD i = (g.ok.getLsbD i || (match tget noTime g.since i with | some t => decide (t + g.holdOff * 100000000 ≤ s.clk.now) | none => false)))) ∧
    (let h := setHead s n
     let g := group s h
     (g.rev = 1 → g.held = false → g.wtrAt + g.wtrS * 1000000000 ≤ s.clk.now →
       (g.requireEq = true → g.req = 2 → setEqualised s n = false →
         let t := modSet n (fun x => { x with rev := g.rev, held := true, hist := x.hist ||| 0b00100 }) s
         exec (.protWtrExpiry n) s = kept (raise 0x06 0x05 (setHead t n) 0 false t)) ∧
       (g.requireEq = false ∨ g.req ≠ 2 ∨ setEqualised s n = true → exec (.protWtrExpiry n) s =
         kept (protEval n false (modSet n (fun x => { x with rev := 0, held := false }) s)))) ∧
     (g.rev ≠ 1 ∨ g.held = true ∨ s.clk.now < g.wtrAt + g.wtrS * 1000000000 → exec (.protWtrExpiry n) s = .next s))) ∧
  (∀ n s0 r ga d follow l, portOpen s0 = true → nextGroup s0 = some n → (group s0 n).run = some r → r.left = .conn ga d follow :: l →
    let s := jrnl 2 4 0 (takeSlot s0)
    let done (t : State) : Host.Outcome State Fault Refusal := .next (protSync (if t.prot = s.prot then t else jrnl 3 4 0 t))
    let k := effTick s
    let f := followTa ga d k s
    let why := blockReason s ga (wd d)
    (follow = true → f = none → exec .updatePortCommit s0 = done (runFail n 0 s)) ∧
    ((follow = true → f ≠ none) → why ≠ 0 → exec .updatePortCommit s0 = done (runFail n why s)) ∧
    ((follow = true → f ≠ none) → why = 0 → s.conn.bad.contains (ga / 4096) = true → exec .updatePortCommit s0 = done (runFail n 3 s)) ∧
    ((follow = true → f ≠ none) → why = 0 → s.conn.bad.contains (ga / 4096) = false →
      let t := commitEntry ga d (runBegin n s)
      exec .updatePortCommit s0 = done (runNext n k (.conn ga d follow)
        (if follow = true then (match f with | some (ta, src) => followCommit ta src k t | none => t) else t)))) ∧
  (∀ n s0 r ta on l, portOpen s0 = true → nextGroup s0 = some n → (group s0 n).run = some r → r.left = .rdi ta on :: l →
    let s := jrnl 2 4 0 (takeSlot s0)
    let done (t : State) : Host.Outcome State Fault Refusal := .next (protSync (if t.prot = s.prot then t else jrnl 3 4 0 t))
    let k := effTick s
    exec .updatePortCommit s0 = done (runNext n k (.rdi ta on) (putEg ta k { egSet s ta (k + 3) with rdi := on } (runBegin n s)))) ∧
  (∀ n s r, (group s n).run = some r → r.started = false →
    runBegin n s = raise 0x06 0x01 n (wd (b2n r.alt + 2 * (group s n).req)) false (setGroup n { group s n with run := some { r with started := true }, hist := (group s n).hist ||| 1 } s)) ∧
  (∀ n s why, (group s n).failSeen = true → runFail n why s = setGroup n { group s n with run := none, failed := true, failSeen := true } s) ∧
  (∀ n s why, (group s n).failSeen = false → runFail n why s = raise 0x06 0x03 n (wd (why + 4 * ((group s n).run.map (·.written)).getD 0)) false
    (setGroup n { group s n with run := none, failed := true, failSeen := true, hist := (group s n).hist ||| 2 } s))

/-- The commands of class TIME complete with the effect and reply of their tables. Rests on 10_timing_and_references.md R254, 10_timing_and_references.md R257, 10_timing_and_references.md R262, 10_timing_and_references.md R264, 10_timing_and_references.md R273, 10_timing_and_references.md R279, 10_timing_and_references.md R280, 10_timing_and_references.md R281. -/
def Obligations.TimeCommands : Prop :=
  (∀ p s s1, Accepted opTimeRefSet p s s1 →
    let c := pf p.params 0 4 0
    let r := refC s1 c
    let n := refSettings p.params r
    let on := pb p.params 0 5
    let taken := 8 ≤ c ∧ c < 24 ∧ ∃ k < 25, k ≠ c ∧ (refC s1 k).lane = n.lane
    let moved := r.en = true ∧ (n.lane ≠ r.lane ∨ n.freq ≠ r.freq)
    let s2 := if n.lockout = r.lockout then s1 else modDpll (fun d => { d with selCmd := true }) s1
    let put (n' : RefC) := let t := setRef c n' s2
      if effQl n = effQl r then t else refEvent c 4 0x05 (wd (effQl n)) false t
    (taken → exec (.timeRefSet p) s = answered opTimeRefSet p .badParam [] s1) ∧
    (¬ taken → moved → exec (.timeRefSet p) s = answered opTimeRefSet p .notInMode [] s1) ∧
    (¬ taken → ¬ moved →
      (on = false → exec (.timeRefSet p) s = answered opTimeRefSet p .ok [] (put { n with en := false })) ∧
      (on = true → exec (.timeRefSet p) s = answered opTimeRefSet p .ok [] (let t := put (if r.en then n else refEnable c n)
        if 8 ≤ c ∧ c < 24 then lrefOne t c else setCause c 4 (guardBad t c) t)))) ∧
  (∀ p s s1, Accepted opTimeRefGet p s s1 →
    let c := pf p.params 0 4 0
    let r := refC s1 c
    let st := if r.en then r.st else 0
    exec (.timeRefGet p) s = answered opTimeRefGet p .ok
      [wd (st + 4 * b2n (s1.time.dpll.sel == some c) + 8 * effQl r + 128 * r.qlRx + 2048 * r.cause.toNat + 65536 * b2n r.drift + 2 ^ 17 * b2n r.slew + 2 ^ 18 * r.hist.toNat),
        wdI (r.offset.getD 0), wdI r.slope, wd (if st = 2 then (r.macAt - s1.clk.now) / 1000000000 else 0), wdI (phaseStep s1 c)]
      (if pb p.params 0 5 then setRef c { r with hist := 0 } s1 else s1)) ∧
  (∀ p s s1, Accepted opTimeSelSet p s s1 →
    let k := selSettings p.params
    let t := { s1 with time := { s1.time with sel := k } }
    let t := if k.mode ≠ s1.time.sel.mode ∨ k.ref ≠ s1.time.sel.ref then modDpll (fun d => { d with selCmd := true }) t else t
    exec (.timeSelSet p) s = answered opTimeSelSet p .ok [] (if pb p.params 0 28 then modelClear t else t)) ∧
  (∀ p s s1, Accepted opTimeDpllGet p s s1 →
    let d := s1.time.dpll
    exec (.timeDpllGet p) s = answered opTimeDpllGet p .ok
      [wd (dpllCode d.st + 8 * d.sel.getD 0x1F + 256 * d.active + 512 * b2n (modelValid s1) + 1024 * b2n (ageingUsed s1.time.model)
          + 2048 * b2n (tempUsed s1.time.model) + 4096 * b2n (holdData s1) + 8192 * devQl s1 + 2 ^ 17 * b2n d.swAt.isSome),
        wdI d.word, wordHi d.word, wdI d.perr, wd (lockedNs s1 / 1000000000), wd (theta s1 % 65536).toNat] s1) ∧
  (∀ p s s1, Accepted opTimeDpllSteer p s s1 →
    let said (t : State) := answered opTimeDpllSteer p .ok [0, wdI t.time.dpll.word, wordHi t.time.dpll.word] t
    let no := answered opTimeDpllSteer p .notInMode [] s1
    let steered := s1.time.dpll.st = .steered
    let f := pf p.params 0 2 0
    (f = 0 → exec (.timeDpllSteer p) s = said (dpllEnter .steered s1)) ∧
    (f = 1 ∨ f = 2 → ¬ steered → exec (.timeDpllSteer p) s = no) ∧
    (f = 1 → steered → exec (.timeDpllSteer p) s = said (modDpll (fun d => { d with steer := some (steerWord p.params) }) s1)) ∧
    (f = 2 → steered → exec (.timeDpllSteer p) s = said (steerClose (modDpll (fun d => { d with steer := none }) s1))) ∧
    (f = 3 → s1.time.sel.host = true → exec (.timeDpllSteer p) s = said { s1 with time := { s1.time with hostT := some (pfI p.params 1 15 0, s1.clk.now) } }) ∧
    (f = 3 → s1.time.sel.host = false → exec (.timeDpllSteer p) s = no) ∧
    (f = 4 → exec (.timeDpllSteer p) s = said { s1 with time := { s1.time with ringAddr := pf p.params 1 22 0, ringLen := pf p.params 2 12 0, ringIdx := 0, ringSeq := 0 } })) ∧
  (∀ p s s1, Accepted opTimeOutSet p s s1 →
    let o := pf p.params 0 2 0
    let t := { s1.time with outs := tset outReset o { en := pb p.params 0 3, squelch := pf p.params 0 5 4, mult := if o < 4 then pf p.params 0 22 6 else 1250 } s1.time.outs }
    exec (.timeOutSet p) s = answered opTimeOutSet p .ok [] { s1 with time := if o = 4 then { t with ppsAdv := pf p.params 1 19 0, ppsWidth := pf p.params 1 29 20 } else t }) ∧
  (∀ p s s1, Accepted opTimeTodSet p s s1 →
    let t := modTod (fun t => { t with follow := pb p.params 0 0 }) s1
    let x := s1.time.tod
    (pb p.params 0 1 = true → exec (.timeTodSet p) s = answered opTimeTodSet p .ok [s1.clk.fc + wd (8000 - x.frames)]
      (modTod (fun t => { t with load := some (pf p.params 1 31 0 + 4294967296 * pf p.params 2 15 0), utc := pfI p.params 2 31 16, valid := true }) t)) ∧
    (pb p.params 0 1 = false → exec (.timeTodSet p) s = answered opTimeTodSet p .ok
      [s1.clk.fc - wd x.frames, wd x.sec, wd (x.sec / 4294967296 + 65536 * (x.utc % 65536).toNat)] t))

/-- TIME_TICK_SET waits for a frame tick, TIME_TICK_GET reports; the tick word, the ticks and a failing tick generator act as chapter 2 says. Rests on 02_grain_cycle.md R55, 02_grain_cycle.md R58, 02_grain_cycle.md R59, 02_grain_cycle.md R60, 02_grain_cycle.md R61, 02_grain_cycle.md R62, 02_grain_cycle.md R63, 02_grain_cycle.md R65, 16_modes_boot_power.md R426. -/
def Obligations.TickCommands : Prop :=
  (∀ p s s1, Accepted opTimeTickSet p s s1 →
    let may := (s1.dev.mode = .commissioning ∨ s1.dev.mode = .maintenance) ∧ (committedMode s1 = .commissioning ∨ committedMode s1 = .maintenance) ∧ allSquelched s1 = true
    (pb p.params 0 2 = false → exec (.timeTickSet p) s = goesOn opTimeTickSet p (.tick 0) [] [] s1) ∧
    (pb p.params 0 2 = true → may → exec (.timeTickSet p) s = goesOn opTimeTickSet p (.tick (s1.clk.now + 40000000)) [] [] s1) ∧
    (pb p.params 0 2 = true → ¬ may → exec (.timeTickSet p) s = answered opTimeTickSet p .notInMode [] s1)) ∧
  (∀ r s j dl edge, job s r = some j → j.work = .tick dl →
    let f := pb j.params 0 0
    let t := { s with tick := { s.tick with
      follower := f, outEn := pb j.params 0 3, delay := pf j.params 1 19 0, phase := pf j.params 2 23 0, limit := pf j.params 3 13 0
      offset := if f then s.tick.offset else 0 } }
    let linked := s.tick.link.valid = true ∧ 2 ≤ s.tick.link.good
    (pb j.params 0 2 = false → tickJob edge s r = endJob r .ok [s.clk.fc, 0] t) ∧
    (pb j.params 0 2 = true →
      (∀ d, edge = some d → linked →
        let fc := s.tick.link.lastFc + (s.clk.fc - s.tick.link.markFc)
        tickJob edge s r = endJob r .ok [fc, 0] { t with
          clk := { clkStep ((d + t.tick.delay - t.tick.phase + 500) / 1000) s.clk with fc }
          tick := { t.tick with offset := 0, stepAt := some (s.clk.ticks - 1), link := { s.tick.link with markFc := s.tick.link.lastFc, fcMatch := true } } }) ∧
      (edge = none ∨ ¬ linked → tickJob edge s r = if dl ≤ s.clk.now then endJob r .busy [] s else s))) ∧
  (∀ e (c : Clk), (0 ≤ e → (clkStep e c).cyc = e.toNat % 125000 / 15625 ∧ (clkStep e c).tickAt = c.now - e.toNat % 15625) ∧
    (e < 0 → (clkStep e c).cyc = 0 ∧ (clkStep e c).tickAt = c.now + (-e).toNat % 125000)) ∧
  (∀ p s s1, Accepted opTimeTickGet p s s1 →
    let t := s1.tick
    exec (.timeTickGet p) s = answered opTimeTickGet p .ok
      [t.samp.fc, t.samp.status, t.samp.offset, t.samp.lastFc, wd t.samp.hist.toNat]
      (if pb p.params 0 0 then { s1 with tick := { t with hist := t.hist &&& ~~~t.samp.hist, samp := { t.samp with hist := 0 } } } else s1)) ∧
  (∀ s, let t := s.tick
    (tickSample s).tick.samp = { fc := s.clk.fc, status := wd (b2n t.follower + 4 * t.gen + 8 * b2n t.link.valid + 16 * b2n t.link.fcMatch)
                                 offset := wdI (if t.follower then t.offset else 0), lastFc := t.link.lastFc, hist := t.hist }) ∧
  (∀ ws s, ftickListens s = true → 0 < s.clk.ticks →
    let k := s.tick.link
    (ftickWord ws = none → exec (.ftickWordReceived ws) s = .next s) ∧
    (∀ f, ftickWord ws = some f →
      (k.prev ≠ some (f - 64) → exec (.ftickWordReceived ws) s = .next { s with tick := { s.tick with link := { k with prev := some f, good := 1 } } }) ∧
      (k.prev = some (f - 64) → f = s.clk.fc - 63 → exec (.ftickWordReceived ws) s = .next { s with tick := { s.tick with
        link := { k with prev := some f, good := k.good + 1, valid := true, lastFc := f, fcMatch := true, markFc := s.clk.fc - 63 } } }) ∧
      (k.prev = some (f - 64) → f ≠ s.clk.fc - 63 → s.tick.follower = false → exec (.ftickWordReceived ws) s = .next { s with tick := { s.tick with
        link := { k with prev := some f, good := k.good + 1, valid := true, lastFc := f, fcMatch := false, markFc := s.clk.fc - 63 } } }) ∧
      (k.prev = some (f - 64) → f ≠ s.clk.fc - 63 → s.tick.follower = true →
        let s1 := { s with tick := { s.tick with
          link := { k with prev := some f, good := k.good + 1, valid := true, lastFc := f, fcMatch := false, markFc := s.clk.fc - 63 } } }
        let s2 := if s.tick.mism = none then pulse 0x07 0x32 0 f false { s1 with tick := { s1.tick with hist := s1.tick.hist ||| 4 } } else s1
        exec (.ftickWordReceived ws) s = .next { s2 with tick := { s2.tick with mism := some 0 } }))) ∧
  (∀ ws s, ftickListens s = false ∨ s.clk.ticks = 0 → exec (.ftickWordReceived ws) s = .next s) ∧
  (∀ s, running s = true →
    (s.tick.failed = 0 → s.cp.svaOk = true → exec .tickGeneratorFailure s = .next (laneWatch s { s with tick := { s.tick with genNext := some (1 - s.tick.gen), failed := 1 } })) ∧
    (∀ g, s.tick.genNext = some g → genTake s = { s with tick := { s.tick with gen := g, genNext := none } }) ∧
    (s.tick.failed < 2 → ¬ (s.tick.failed = 0 ∧ s.cp.svaOk = true) → exec .tickGeneratorFailure s =
      .next (laneWatch s (fencesDue (askFence [0, 1, 2, 3] 4 { s with tick := { s.tick with failed := 2 } }))))) ∧
  (∀ m s, (running s = true → s.tick.failed < 2 → exec (.grainCycleTick m) s = .next (doTick m s) ∧
      ((s.clk.ticks = 0 ∨ s.clk.cyc = 7) → exec (.frameTick m) s = .next (doTick m s))) ∧
    (running s = false ∨ 2 ≤ s.tick.failed → exec (.grainCycleTick m) s = .next s ∧ exec (.frameTick m) s = .next s) ∧
    (s.clk.ticks ≠ 0 → s.clk.cyc ≠ 7 → exec (.frameTick m) s = .next s))

/-- Candidates fail, are measured, macerate and are selected as chapter 10 says. Rests on 10_timing_and_references.md R259, 10_timing_and_references.md R260, 10_timing_and_references.md R261, 10_timing_and_references.md R262, 10_timing_and_references.md R264, 10_timing_and_references.md R265. -/
def Obligations.ReferenceRows : Prop :=
  (∀ c s, c < 8 → running s = true →
    ((refC s c).en = true → exec (.refActivityLoss c) s = .next (setCause c 0 true (setRef c { refC s c with means := [], upd := 0 } s))) ∧
    ((refC s c).en = false → exec (.refActivityLoss c) s = .next s)) ∧
  (∀ c b on s, (refC s c).en = true → (refC s c).cause.getLsbD b ≠ on →
    setCause c b on s = refSync c (setRef c { refC s c with cause := if on then (refC s c).cause ||| (1#5 <<< b) else (refC s c).cause &&& ~~~(1#5 <<< b) } s)) ∧
  (∀ c s, let r := refC s c
    (r.en = true → r.cause ≠ 0 → r.st ≠ 1 → refSync c s = refEvent c 0 0x01 (r.cause.setWidth 32) false (setRef c { r with st := 1 } s)) ∧
    (r.en = true → r.cause = 0 → r.st = 1 → refSync c s = setRef c { r with st := 2, macAt := s.clk.now + 1000000000 * s.time.sel.macer } s) ∧
    (r.en = false ∨ (r.cause ≠ 0 ∧ r.st = 1) ∨ (r.cause = 0 ∧ r.st ≠ 1) → refSync c s = s)) ∧
  (∀ ms s, ms.all (fun m => decide (m.ref < 25)) = true → running s = true → exec (.freqMonitorUpdate ms) s = .next (lrefWatch (ms.foldl refMeasure (lrefWatch s)))) ∧
  (∀ m s, let r := refC s m.ref
    (r.en = false → refMeasure s m = setRef m.ref { r with phase := m.phase } s) ∧
    (r.en = true → m.gate = none → refMeasure s m = setRef m.ref { r with phase := m.phase, means := [], upd := 0 } s) ∧
    (r.en = true → ∀ g, m.gate = some g → let o := match r.lane with | some l => if isLref m.ref then 1000 * (lane s l).sd.offset + g % 1000 else g | none => g
      refMeasure s m =
      gateStep m.ref m.edges o (slopeStep m.ref o (driftStep m.ref o (setRef m.ref { r with phase := m.phase, offset := some o } s))))) ∧
  (∀ c s, c < 25 → let r := refC s c
    let ready := running s = true ∧ r.en = true ∧ r.st = 2 ∧ r.macAt ≤ s.clk.now ∧ r.offset.isSome = true
    (ready → exec (.macerationExpiry c) s = .next (refEvent c 1 0x02 0 false (setRef c { r with st := 3 } s))) ∧
    (¬ ready → exec (.macerationExpiry c) s = .next s)) ∧
  (∀ s, running s = true → exec .selectorEvaluation s = .next (evaluate (lrefWatch s)) ∧
    (∀ t, s.time.dpll.swAt = some t →
      (t + 60000000000 ≤ s.clk.now → exec .dpllSwitchTimeout s = .next (evaluate (modDpll (fun d => { d with swAt := none }) s))) ∧
      (s.clk.now < t + 60000000000 → exec .dpllSwitchTimeout s = .next s)) ∧
    (s.time.dpll.swAt = none → exec .dpllSwitchTimeout s = .next s)) ∧
  (∀ s, let n := selectRef s
    let d := s.time.dpll
    let held := d.swAt.isSome = true ∧ d.selCmd = false ∧ ∃ c, d.sel = some c ∧ 2 ≤ refState s c
    let t := modDpll (fun d => { d with selCmd := false }) s
    (n = d.sel ∨ held → evaluate s = t) ∧ (n ≠ d.sel → ¬ held → evaluate s = selChange n t)) ∧
  (∀ s, let k := s.time.sel
    (k.mode = 2 → selectRef s = if refState s k.ref ≤ 1 then none else some k.ref) ∧
    (k.mode = 1 → refState s k.ref = 3 → (refC s k.ref).lockout = false → qlRank (effQl (refC s k.ref)) ≠ 0 → selectRef s = some k.ref) ∧
    (k.mode = 0 ∨ (k.mode = 1 ∧ (refState s k.ref ≠ 3 ∨ (refC s k.ref).lockout = true ∨ qlRank (effQl (refC s k.ref)) = 0)) → selectRef s = pickAuto s)) ∧
  (∀ s, let q (c : Nat) := qlRank (effQl (refC s c))
    let may (c : Nat) : Prop := c < 25 ∧ refState s c = 3 ∧ (refC s c).lockout = false ∧ q c ≠ 0
    let first (b c : Nat) : Prop := q b < q c ∨ q b = q c ∧ ((refC s b).prio < (refC s c).prio ∨ (refC s b).prio = (refC s c).prio ∧ b < c)
    let best (b : Nat) : Prop := may b ∧ ∀ c, may c → c ≠ b → first b c
    let kept (b x : Nat) : Prop := s.time.dpll.sel = some x ∧ s.time.sel.revertive = false ∧ refState s x = 3 ∧ (refC s x).lockout = false ∧ q x = q b
    ((∀ c, ¬ may c) → pickAuto s = none) ∧ (∀ c, may c → ∃ b, best b) ∧
    (∀ b, best b → (∀ x, kept b x → pickAuto s = some x) ∧ ((∀ x, ¬ kept b x) → pickAuto s = some b)))

/-- The DPLL's updates, lock, drydown, learning and failures act as chapter 10 says. Rests on 10_timing_and_references.md R266, 10_timing_and_references.md R267, 10_timing_and_references.md R268, 10_timing_and_references.md R269, 10_timing_and_references.md R270, 10_timing_and_references.md R271, 10_timing_and_references.md R272, 10_timing_and_references.md R273, 10_timing_and_references.md R284. -/
def Obligations.LoopRows : Prop :=
  (∀ phase freqErr n s, n < 2 → running s = true → n ≠ s.time.dpll.active → exec (.dpllUpdate phase freqErr n) s = .next s) ∧
  (∀ r c x, let y := candPhase r c x
    (isLref c = true → (∃ k : Int, y = x - r.adj - 15625000 * k) ∧ -7812500 ≤ y ∧ y < 7812500) ∧
    (isLref c = false → c = 24 ∨ r.freq ≤ 8000 → (∃ k : Int, y = x - r.adj - 125000000 * k) ∧ -62500000 ≤ y ∧ y < 62500000)) ∧
  (∀ raw freqErr s, running s = true → s.time.dpll.active < 2 →
    let d := s.time.dpll
    let phase := match d.sel with | some c => candPhase (refC s c) c raw | none => raw
    let sel := d.sel.isSome
    let i := bwIndex s
    let one : Int := 1000000000000
    let lead (x : Int) : Int := -(x * bwMilli i * 6220980000000)
    let g0 := if i = d.bw then d.integ else d.word * one - lead d.perr
    let loop := d.st = .acquire ∨ d.st = .locked
    let g := if loop then one * pullClamp s (g0.fdiv one) + g0 % one + -(phase * bwMilli i ^ 2 * 387006) else d.integ
    let w := if loop then pullClamp s ((g + lead phase).fdiv one) else if d.st = .steered then d.steer.getD d.word else d.word
    let near := sel = true ∧ phase.natAbs < 10000 ∧ freqErr.natAbs < 10000
    let far := if sel = true ∧ 100000 < phase.natAbs then d.far + 1 else 0
    let t := modDpll (fun d => { d with
      word := w, integ := g, steer := none, bw := i, perr := if sel then phase else d.perr, far := min far 3
      okAt := if near then some (d.okAt.getD s.clk.now) else none
      words := if d.st = .locked then ((s.clk.now, w) :: d.words).take 62000 else d.words }) s
    (d.st ≠ .locked → exec (.dpllUpdate raw freqErr d.active) s = .next t) ∧
    (d.st = .locked → let u := { t with time := { t.time with tA := t.clk.now, thA := theta t } }
      exec (.dpllUpdate raw freqErr d.active) s = .next (if 3 ≤ far then dpllEnter .acquire u else u))) ∧
  (∀ s, running s = true → let d := s.time.dpll
    (∀ t, d.okAt = some t → d.st = .acquire → d.sel.isSome = true → t + lockTime s ≤ s.clk.now →
      exec .dpllLock s = .next (evaluate (followTin (modDpll (fun d => { d with swAt := none }) (dpllEnter .locked s))))) ∧
    (d.okAt = none ∨ d.st ≠ .acquire ∨ d.sel = none ∨ (∃ t, d.okAt = some t ∧ s.clk.now < t + lockTime s) → exec .dpllLock s = .next s)) ∧
  (∀ temp s, running s = true → let t := { s with time := { s.time with die := temp } }
    (s.time.dpll.st = .drydown → exec (.drydownUpdate temp) s = .next (modDpll (fun d => { d with word := if modelValid t then predict t else d.hold }) t)) ∧
    (s.time.dpll.st ≠ .drydown → exec (.drydownUpdate temp) s = .next t) ∧
    (s.time.dpll.st = .locked → exec (.modelLearnUpdate temp) s = .next (learn t)) ∧
    (s.time.dpll.st ≠ .locked → exec (.modelLearnUpdate temp) s = .next t)) ∧
  (∀ s, running s = true → let d := s.time.dpll
    (d.failed = 0 → s.cp.svaOk = true → exec .dpllFailure s = .next (modDpll (fun d => { d with active := 1 - d.active, failed := 1 }) s)) ∧
    (d.failed < 2 → ¬ (d.failed = 0 ∧ s.cp.svaOk = true) → exec .dpllFailure s = .next (askFence [0, 1, 2, 3] 5 (modDpll (fun d => { d with failed := 2 }) s))) ∧
    exec .xoFail s = .next (askFence [0, 1, 2, 3] 6 (pulse 0x07 0x13 0 0 false s)))

/-- The time input's edges and messages, and the time output's message, act as chapter 10 says. Rests on 10_timing_and_references.md R275, 10_timing_and_references.md R276, 10_timing_and_references.md R277, 10_timing_and_references.md R280. -/
def Obligations.TimeOfDayRows : Prop :=
  (∀ phase s, running s = true →
    let t := s.time.tin
    let onTime := ∀ e, t.edge = some e → e + 1000000000 ≤ s.clk.now + 20000 ∧ s.clk.now ≤ e + 1000020000
    let quiet := if t.edge = none ∨ t.got = true then 0 else min (t.quiet + 1) 3
    let u := modRef 24 (fun r => { r with phase }) (modTin (fun t => { t with
      edge := some s.clk.now, edgeFrame := edgeFrameNo phase s, got := false, run := if t.got then t.run else 0, quiet }) s)
    (onTime → quiet < 3 → exec (.ppsInEdge phase) s = .next u) ∧
    (onTime → quiet = 3 → exec (.ppsInEdge phase) s = .next (setCause 24 3 true u)) ∧
    (¬ onTime → exec (.ppsInEdge phase) s = .next (setCause 24 3 true (modRef 24 (fun r => { r with phase }) (modTin (fun t => { t with
      edge := some s.clk.now, edgeFrame := edgeFrameNo phase s, got := false, run := 0, quiet }) s))))) ∧
  (∀ s, running s = true →
    (∀ e, s.time.tin.edge = some e →
      (e + 1000020000 < s.clk.now → exec .ppsInEdgeMissing s = .next (setCause 24 3 true (modTin (fun t => { t with edge := none, got := false, run := 0 }) s))) ∧
      (s.clk.now ≤ e + 1000020000 → exec .ppsInEdgeMissing s = .next s)) ∧
    (s.time.tin.edge = none → exec .ppsInEdgeMissing s = .next s)) ∧
  (∀ bs s, running s = true →
    let t := s.time.tin
    let v := beNat ((bs.drop 4).take 6)
    (todValid bs s = false → exec (.todInMessage bs) s = .next s) ∧
    (todValid bs s = true → bs.length = 16 ∧ bs.take 3 = [0xC7, 0x3E, 0x01] ∧ (hcrc (bs.take 14)).toNat = beNat (bs.drop 14) ∧
      (let ql (u : State) : Host.Outcome State Fault Refusal := .next (todCheck (qlSeen 24 3 ((bs.getD 3 0).toNat % 16) u))
       let seen (run : Nat) := modTin (fun t => { t with got := true, quiet := 0, run, sec := some v, secFrame := t.edgeFrame }) s
       (∀ p, t.sec = some p → v ≠ (p + 1) % 2 ^ 48 → exec (.todInMessage bs) s = ql (setCause 24 3 true (seen 1))) ∧
       ((∀ p, t.sec = some p → v = (p + 1) % 2 ^ 48) → 2 ≤ t.run → exec (.todInMessage bs) s = ql (setCause 24 3 false (seen 3))) ∧
       ((∀ p, t.sec = some p → v = (p + 1) % 2 ^ 48) → t.run < 2 → exec (.todInMessage bs) s = ql (seen (t.run + 1)))))) ∧
  (∀ s, running s = true → let x := s.time.tod
    (∀ t, x.bndAt = some t → x.sent = false → t + 10000000 ≤ s.clk.now + s.time.ppsAdv / 1000 →
      (outLow s 5 = true → exec .todOutMessage s = .next (modTod (fun x => { x with sent := true }) s)) ∧
      (outLow s 5 = false → exec .todOutMessage s = .next (modTod (fun x => { x with sent := true, out := todMessage s, outAt := some s.clk.now }) s))) ∧
    (x.sent = true ∨ x.bndAt = none ∨ (∃ t, x.bndAt = some t ∧ s.clk.now + s.time.ppsAdv / 1000 < t + 10000000) → exec .todOutMessage s = .next s))

/-- Ticks advance the cycle number modulo 8 and time by 15,625 ns; idling passes 1 ns short of the next tick; no other running row moves the clock. Rests on 02_grain_cycle.md R39, 02_grain_cycle.md R40, 02_grain_cycle.md R52, 16_modes_boot_power.md R437. -/
def Obligations.OnlyTicksMoveTheClock : Prop :=
  (∀ i s t, movesClock i = false → exec i s = .next t →
    t.clk.ticks = s.clk.ticks ∧ t.clk.cyc = s.clk.cyc ∧ t.clk.now = s.clk.now ∧ t.clk.tickAt = s.clk.tickAt) ∧
  (∀ m s i t, running s = true → s.tick.failed < 2 → i = .grainCycleTick m ∨ (i = .frameTick m ∧ (s.clk.ticks = 0 ∨ s.clk.cyc = 7)) → exec i s = .next t →
    t.clk.ticks = s.clk.ticks + 1 ∧
    ((s.clk.ticks ≠ 0 ∧ s.clk.cyc ≠ 7) ∨ m.ftick = none → t.clk.cyc = (if s.clk.ticks = 0 then 0 else (s.clk.cyc + 1) % 8) ∧
    t.clk.tickAt = s.clk.tickAt + 15625 ∧ t.clk.now = t.clk.tickAt)) ∧
  (∀ s, s.pending = [] → ∃ t, step s = .next t ∧ t.clk.ticks = s.clk.ticks ∧ t.clk.cyc = s.clk.cyc ∧ t.clk.tickAt = s.clk.tickAt ∧
    s.clk.now ≤ t.clk.now ∧ t.clk.now ≤ s.clk.now + 1 ∧
    (running s = true → s.tick.failed < 2 → s.clk.now < s.clk.tickAt + 15625 → t.clk.now < t.clk.tickAt + 15625))

/-- A write is effective at the first cycle whose tick falls at least 15,625 ns after its commit, and the port commits none before the first tick. Rests on 02_grain_cycle.md R39, 02_grain_cycle.md R52, 06_switching_core.md R169. -/
def Obligations.EffectiveCycle : Prop :=
  (∀ s, 0 < s.clk.ticks → s.clk.tickAt ≤ s.clk.now → s.clk.now < s.clk.tickAt + 15625 →
    let tickTime (k : Nat) : Int := s.clk.tickAt + 15625 * ((k : Int) - curCycle s)
    IsLeast {k : Nat | (s.clk.now : Int) + 15625 ≤ tickTime k} (effTick s) ∧ (s.clk.now = s.clk.tickAt → effTick s = curCycle s + 1)) ∧
  (∀ s, s.clk.ticks = 0 → exec .updatePortCommit s = .next s) ∧
  (∀ s k, 0 < s.clk.ticks → curCycle s ≤ k → s.clk.cyc < 8 →
    8 * (fcOf s k).1.toNat + (fcOf s k).2 = (8 * s.clk.fc.toNat + s.clk.cyc + (k - curCycle s)) % 2 ^ 35 ∧ (fcOf s k).2 < 8)

/-- A command with the tick-aligned attribute takes effect at the first k with cycle number 0 that is not earlier than the k of R52. Formalises 02_grain_cycle.md R54. -/
def Obligations.TickAlignedCycle : Prop :=
  (∀ s, IsLeast {k : Nat | effTick s ≤ k ∧ (fcOf s k).2 = 0} (effTickAligned s)) ∧
  (∀ j s0 s1, PortTurn j s0 s1 → j.work = .port → j.cls = 0x08 →
    let s := jrnl 2 j.ring j.tag s1
    let k := effTickAligned s
    let rx := decide (j.act ≠ 0x10)
    let t := if rx then sealReserve j.params k s else s
    (∀ st, sealSetCheck rx j.params k s = some st → exec .updatePortCommit s0 = .next (protSync (endJob j.ring st [] s))) ∧
    (sealSetCheck rx j.params k s = none →
      let same (x : Staged) : Bool := x.tick == k && (match x.w with | .cmd 8 a w _ => a == j.act && pf w 0 17 0 == pf j.params 0 17 0 | _ => false)
      let t' : State := { t with port := { t.port with staged := t.port.staged.filter (fun x => !same x) ++ [{ tick := k, egress := false, w := .cmd 0x08 j.act j.params j.image }] } }
      exec .updatePortCommit s0 = .next (protSync (endJob j.ring .ok [(fcOf t' k).1, wd (fcOf t' k).2] t'))))

/-- The seal commands complete: settings go to the port and take hold at their frame tick, SEAL_FLIP and SEAL_GET reply as chapter 11 says. Rests on 11_seal_and_cipher.md R289, 11_seal_and_cipher.md R298, 11_seal_and_cipher.md R304, 11_seal_and_cipher.md R313. -/
def Obligations.SealCommands : Prop :=
  (∀ p s s1, Accepted opSealTxSet p s s1 → exec (.sealTxSet p) s = goesOn opSealTxSet p .port [] [] s1) ∧
  (∀ p s s1, Accepted opSealRxSet p s s1 → exec (.sealRxSet p) s = goesOn opSealRxSet p .port [] [] s1) ∧
  (∀ ws s, let ta := pf ws 0 17 0
    (pb ws 0 18 = false → sealTxApply ws s = setTx ta none s) ∧
    (pb ws 0 18 = true → (∀ b, txSeal s ta = some b → ¬ (b.pair = pf ws 1 11 0 ∧ b.salt = wAt ws 2)) → sealTxApply ws s = setTx ta (some { pair := pf ws 1 11 0, salt := wAt ws 2, fNext := (wAt ws 3).toNat + 2 ^ 32 * pf ws 4 29 0, fLast := 0, frame := none, zero := false, ct := [], tag := none, begun := false, samp := [] }) s) ∧
    (∀ b, pb ws 0 18 = true → txSeal s ta = some b → b.pair = pf ws 1 11 0 → b.salt = wAt ws 2 → sealTxApply ws s = s)) ∧
  (∀ ws s, let ta := pf ws 0 17 0
    let quick := pb ws 0 19
    let bind := setRx ta (some { pair := pf ws 1 11 0, salt := wAt ws 2, fast := quick, hint := (wAt ws 3).toNat + 2 ^ 32 * pf ws 4 29 0, fLast := none, phase := (pair s (pf ws 1 11 0)).cur, seen := [], cur := none, wait := none, rxTag := [], fails := 0, hist := false, samp := [] }) s
    (pb ws 0 18 = false → sealRxApply ws s = holdDrop ta (setRx ta none s)) ∧
    (∀ b, pb ws 0 18 = true → rxSeal s ta = some b → b.pair = pf ws 1 11 0 → b.salt = wAt ws 2 → b.fast = quick → sealRxApply ws s = s) ∧
    (pb ws 0 18 = true → (∀ b, rxSeal s ta = some b → ¬ (b.pair = pf ws 1 11 0 ∧ b.salt = wAt ws 2 ∧ b.fast = quick)) →
      (quick = true → sealRxApply ws s = holdDrop ta bind) ∧ (quick = false → sealRxApply ws s = storeFrom ta (curCycle s) (putC ta (curCycle s) 16 bind)))) ∧
  (∀ p s s1, Accepted opSealFlip p s s1 →
    let n := pf p.params 0 11 0
    let x := pair s1 n
    let may := pairTx s1 n ≠ [] ∧ (sealSlot s1 (2 * n + b2n (!x.cur))).loaded = true
    let fc := if fcLater (wAt p.params 1) (s1.clk.fc + 1) then wAt p.params 1 else s1.clk.fc + 1
    (may → exec (.sealFlip p) s = answered opSealFlip p .ok [fc] (setPair n { x with flip := some fc } s1)) ∧
    (¬ may → exec (.sealFlip p) s = answered opSealFlip p .notInMode [] s1)) ∧
  (∀ p s s1, Accepted opSealGet p s s1 →
    let ta := pf p.params 0 17 0
    let clr := pb p.params 0 19
    (pb p.params 0 18 = true →
      let x := egTa s1 ta
      let split := 2 * b2n x.splitS
      let t := if clr = true ∧ x.splitS = true then modEg ta (fun x => { x with splitH := false, splitS := false }) s1 else s1
      (∀ b, txSeal s1 ta = some b → exec (.sealGet p) s = answered opSealGet p .ok (padTo 4 0 b.samp ++ [wd split]) t) ∧
      (txSeal s1 ta = none → exec (.sealGet p) s = answered opSealGet p .ok [0, 0, 0, 0, wd split] t)) ∧
    (pb p.params 0 18 = false →
      (∀ b, rxSeal s1 ta = some b → exec (.sealGet p) s = answered opSealGet p .ok (padTo 5 0 b.samp)
          (if clr = true ∧ bit (wAt b.samp 4) 0 = true then setRx ta (some { b with hist := false, samp := b.samp.take 4 }) s1 else s1)) ∧
      (rxSeal s1 ta = none → exec (.sealGet p) s = answered opSealGet p .ok [0, 0, 0, 0, 0] s1))) ∧
  (∀ s ta, tblWf (fun _ => none) 0 s.keys.tx = true → tblWf (fun _ => none) 0 s.keys.rx = true →
    (∀ b, txSeal s ta = some b → txSeal (sealSample s) ta = some { b with
      samp := [wd (1 + 4 * b2n (pair s b.pair).cur + 16 * b2n b.zero + 32 * b.pair), wd b.fLast, wd (b.fLast / 2 ^ 32 % 2 ^ 30), 0] }) ∧
    (∀ b, rxSeal s ta = some b → let f := b.fLast.getD 0
      rxSeal (sealSample s) ta = some { b with
        samp := [wd (1 + 2 * b2n b.fast + 4 * b2n b.phase + 8 * b2n b.fLast.isSome + 32 * b.pair), wd f, wd (f / 2 ^ 32 % 2 ^ 30), wd b.fails, wd (b2n b.hist)] }))

/-- The key commands load, erase and report slots, CIPH_CHAN_SET sets a channel, CIPH_OP queues an operation. Rests on 11_seal_and_cipher.md R299, 11_seal_and_cipher.md R300, 11_seal_and_cipher.md R301, 11_seal_and_cipher.md R302, 11_seal_and_cipher.md R304, 11_seal_and_cipher.md R305, 11_seal_and_cipher.md R306, 11_seal_and_cipher.md R309, 11_seal_and_cipher.md R313, 12_command_plane.md R329. -/
def Obligations.KeyCommands : Prop :=
  (∀ p s s1, Accepted opCiphKeyLoad p s s1 →
    let cmd := pb p.params 0 0
    let n := pf p.params 0 13 1
    let u := pf p.params 0 21 15
    let k := cmdSlot s1 u
    let no (st : Status) := answered opCiphKeyLoad p st [] s1
    let unwraps := k.use = 2 ∧ k.mask.testBit (pf p.params 0 14 14) = true
    let inUse := if cmd then cmdInUse s1 n || u == n else sealInUse s1 n
    let key := if u = 0x7F then beBytes 32 Config.dik else k.key
    let text := unwrapAt s1 key (pf p.params 1 22 0)
    (s1.keys.alarm ≠ 0 → exec (.ciphKeyLoad p) s = no .notInMode) ∧
    (s1.keys.alarm = 0 →
      (u ≠ 0x7F → ¬ unwraps → exec (.ciphKeyLoad p) s = no .badParam) ∧
      (u ≠ 0x7F → unwraps → k.loaded = false → exec (.ciphKeyLoad p) s = no .keyErased) ∧
      (u = 0x7F ∨ (unwraps ∧ k.loaded = true) →
        (inUse = true → exec (.ciphKeyLoad p) s = no .slotInUse) ∧
        (inUse = false →
          (text = none → exec (.ciphKeyLoad p) s = no .authFail) ∧
          (∀ t, text = some t →
            (headerOk cmd t = false → exec (.ciphKeyLoad p) s = no .badParam) ∧
            (headerOk cmd t = true →
              let old := if cmd then cmdSlot s1 n else sealSlot s1 n
              let new : KeySlot := { loaded := true, use := (t.getD 2 0).toNat, len256 := t.length == 40, gen := (old.gen + 1) % 256,
                                     mask := if cmd then pf p.params 3 15 0 else 0, count := 0, limM1 := (wAt p.params 2).toNat, key := t.drop 8 }
              exec (.ciphKeyLoad p) s = answered opCiphKeyLoad p .ok [wd new.gen] (if cmd then setCmdSlot n new s1 else setSealSlot n new s1))))))) ∧
  (∀ p s s1, Accepted opCiphKeyErase p s s1 →
    let t := pf p.params 0 1 0
    let i := pf p.params 0 15 3
    (t = 0 → pb p.params 0 2 = true → exec (.ciphKeyErase p) s = answered opCiphKeyErase p .ok [] (eraseCmd i s1)) ∧
    (t = 0 → pb p.params 0 2 = false → exec (.ciphKeyErase p) s = answered opCiphKeyErase p .ok [] (eraseSeal i s1)) ∧
    (t = 1 → exec (.ciphKeyErase p) s = answered opCiphKeyErase p .ok [] (eraseSeal (2 * i + 1) (eraseSeal (2 * i) s1))) ∧
    (t = 2 → exec (.ciphKeyErase p) s = answered opCiphKeyErase p .ok [] (eraseAll s1))) ∧
  (∀ p s s1, Accepted opCiphKeyGet p s s1 →
    let cmd := pb p.params 0 0
    let n := pf p.params 0 13 1
    let k := if cmd then cmdSlot s1 n else sealSlot s1 n
    exec (.ciphKeyGet p) s = answered opCiphKeyGet p .ok [wd (b2n k.loaded + 2 * k.use + 8 * b2n k.len256 + 16 * b2n (if cmd then cmdInUse s1 n else sealInUse s1 n)
      + 32 * b2n (k.loaded && !decide (k.count + 1 ≤ k.limM1 + 1)) + 256 * k.gen + 65536 * (if cmd then k.mask else 0)), wd k.count, wd k.limM1] s1) ∧
  (∀ p s s1, Accepted opCiphChanSet p s s1 →
    let c := pf p.params 0 3 0
    ((headOp s1 c).isSome = true → exec (.ciphChanSet p) s = answered opCiphChanSet p .busy [] s1) ∧
    (headOp s1 c = none → exec (.ciphChanSet p) s = answered opCiphChanSet p .ok [] { s1 with keys := { s1.keys with chans := tset chanReset c { mode := pf p.params 0 5 4, ivGen := pb p.params 0 6, wrapped := if privileged c then pb p.params 0 7 else true, maxLen := if privileged c then 16777216 else pf p.params 1 24 0, ctx := if privileged c then pf p.params 1 22 0 else 0, fixed := wAt p.params 2 } s1.keys.chans } })) ∧
  (∀ p s s1, Accepted opCiphOp p s s1 →
    let c := pf p.params 0 3 0
    let k := cmdSlot s1 (pf p.params 0 12 7)
    let usable := k.use = 1 ∧ k.mask.testBit c = true
    let long := 16777216 < pf p.params 3 24 0 ∨ (2 ≤ c ∧ (chan s1 c).maxLen < pf p.params 3 24 0)
    (p.ring ≠ 3 → exec (.ciphOp p) s = answered opCiphOp p .notInMode [] s1) ∧
    (p.ring = 3 → ¬ usable → exec (.ciphOp p) s = answered opCiphOp p .badParam [] s1) ∧
    (p.ring = 3 → usable → long → exec (.ciphOp p) s = answered opCiphOp p .lenLimit [] s1) ∧
    (p.ring = 3 → usable → ¬ long → ∃ o : CceOp, o.id = s1.keys.nextId ∧ o.chan = c ∧ o.st = 0 ∧ o.begun = false ∧ o.src = pf p.params 1 22 0 ∧ o.dst = pf p.params 2 22 0 ∧
      o.job.params = p.params ∧ o.job.tag = p.tag ∧ o.prio = (if c < 2 then pf p.params 0 6 5 else 0) ∧
      exec (.ciphOp p) s = .next { s1 with keys := { s1.keys with ops := s1.keys.ops ++ [o], nextId := s1.keys.nextId + 1 } }))

/-- The Command Cipher Engine starts, resumes and completes operations, and its faults and the Key Store's alarm act as chapter 11 says. Rests on 11_seal_and_cipher.md R303, 11_seal_and_cipher.md R304, 11_seal_and_cipher.md R305, 11_seal_and_cipher.md R308, 11_seal_and_cipher.md R310, 11_seal_and_cipher.md R311, 11_seal_and_cipher.md R316, 16_modes_boot_power.md R450. -/
def Obligations.CipherRows : Prop :=
  (∀ s, running s = true →
    let out (t : State) : Host.Outcome State Fault Refusal := .next t
    (∀ o, privNext s = none → privRunning s = none → suspended s = [] → ordNext s = some o → exec .ciphOpStart s = out (runOp o s)) ∧
    (privNext s = none → (privRunning s).isSome = true ∨ suspended s ≠ [] ∨ ordNext s = none → exec .ciphOpStart s = .next s) ∧
    (∀ o, privNext s = some o → privRunning s = none → (∀ x ∈ suspended s, x.prio < o.prio) → exec .ciphOpStart s = out (runOp o s)) ∧
    (∀ o x, privNext s = some o → privRunning s = none → x ∈ suspended s → o.prio ≤ x.prio → exec .ciphOpStart s = .next s) ∧
    (∀ o r, privNext s = some o → privRunning s = some r → o.prio ≤ r.prio ∨ suspendOp r s = none → exec .ciphOpStart s = .next s) ∧
    (∀ o r t, privNext s = some o → privRunning s = some r → r.prio < o.prio → suspendOp r s = some t → exec .ciphOpStart s = out (runOp o t)) ∧
    (∀ o l, privRunning s = none → suspended s = o :: l → (∀ n, privNext s = some n → n.prio ≤ o.prio) →
      (o.st = 3 → exec .ciphOpResume s = out (restoreOp o s)) ∧
      (o.st ≠ 3 → exec .ciphOpResume s = out (advanceOp { o with st := 1 } (putOp { o with st := 1 } s)))) ∧
    ((privRunning s).isSome = true ∨ suspended s = [] ∨ (∃ o l n, suspended s = o :: l ∧ privNext s = some n ∧ o.prio < n.prio) →
      exec .ciphOpResume s = .next s) ∧
    (∀ o, opDone s = some o → exec .ciphOpComplete s = out (completeOp o s)) ∧
    (opDone s = none → exec .ciphOpComplete s = .next s)) ∧
  (∀ r s, let inner := (suspended s).filter (fun o => o.st == 2)
    let mark (s : State) : State := putOp { r with st := 2, sAt := s.keys.nextS } { s with keys := { s.keys with nextS := s.keys.nextS + 1 } }
    (inner.length < 2 → suspendOp r s = some (mark s)) ∧
    (∀ o, 2 ≤ inner.length → inner.getLast? = some o →
      ((chan s o.chan).ctx = 0 → suspendOp r s = none) ∧
      ((chan s o.chan).ctx ≠ 0 → suspendOp r s = some (mark (putOp { o with st := 3 } (wmPut (spillAddr s o) (spillRecord s o) s)))))) ∧
  (∀ s, running s = false → exec .ciphOpStart s = .next s ∧ exec .ciphOpResume s = .next s ∧ exec .ciphOpComplete s = .next s) ∧
  (∀ o s, let k := cmdSlot s (opSlot o)
    let here := opLen o = 0 ∨ (readDesc s o.src).own = true
    let back := if opLen o = 0 then s else handBack o.src s
    (¬ here → beginOp o s = putOp o s) ∧
    (here → k.loaded = false → beginOp o s = endOp .keyErased [] o back) ∧
    (here → k.loaded = true → k.limM1 < k.count → beginOp o s = endOp .keyExhausted [] o back) ∧
    (here → k.loaded = true → k.count ≤ k.limM1 →
      let gcm := (chan s o.chan).mode = 3
      let tight := gcm ∧ opDec o = true ∧ ownedRoom s o.dst chainMax < opLen o
      (tight → beginOp o s = endOp .lenLimit [] o (handBackChain chainMax o.dst back)) ∧
      (¬ tight → beginOp o s = pumpOp chainMax { o with begun := true, gen := k.gen, iv := (opIv s o).1, inv := (opIv s o).2
                                                        aad := if gcm then wmGet s (pf o.job.params 4 22 0) (pf o.job.params 5 16 0) else [] }
        (setCmdSlot (opSlot o) { k with count := k.count + 1 } s)))) ∧
  (∀ s, running s = false → exec .cceFault s = .next s) ∧
  (∀ s, running s = true → exec .cceFault s = .next (masterReset 4 ((s.keys.ops.filter (fun o => o.st == 1 && o.begun)).foldl (fun s o => endOp .hwFault [] o s) s))) ∧
  (∀ c s, c ≠ 0 →
    (s.dev.powered = true → ∃ kek, let t := eraseAll s
      exec (.keyStoreAlarm c) s = .next (raise 0x09 0x01 0 (wd c.toNat) false
        { t with clk := { t.clk with free := t.clk.free + 1 }, keys := { t.keys with kek := kek % 2 ^ 256, alarm := t.keys.alarm ||| c } })) ∧
    (s.dev.powered = false → exec (.keyStoreAlarm c) s = .next s)) ∧
  (∀ c s, exec (.alarmCauseEnded c) s = .next { s with keys := { s.keys with alarm := s.keys.alarm &&& ~~~c } })

/-- MEM_TEST_START, MEM_FENCE_SET, background testing, stripe returns, repairs and the end of an on-request test act as chapter 13 says. Rests on 06_switching_core.md R164, 13_window_memory_and_matrix.md R358, 13_window_memory_and_matrix.md R359, 13_window_memory_and_matrix.md R360, 13_window_memory_and_matrix.md R361, 13_window_memory_and_matrix.md R362, 13_window_memory_and_matrix.md R363, 13_window_memory_and_matrix.md R369. -/
def Obligations.MemoryCommands : Prop :=
  (∀ p s s1, Accepted opMemTestStart p s s1 →
    let st := pf p.params 0 3 0
    let kind := pf p.params 0 5 4
    let first := pf p.params 1 16 0
    let cnt := pf p.params 2 16 0
    (kind = 2 → exec (.memTestStart p) s = answered opMemTestStart p .ok [0, 0, 0] { s1 with mem := { s1.mem with rate := first } }) ∧
    (kind ≠ 2 → onRequest s1 = true → exec (.memTestStart p) s = answered opMemTestStart p .busy [] s1) ∧
    (kind ≠ 2 → onRequest s1 = false → kind = 1 → st = 0 → destructiveBlocked first cnt s1 = true → exec (.memTestStart p) s = answered opMemTestStart p .badParam [] s1) ∧
    (kind ≠ 2 → onRequest s1 = false → (kind = 1 → st = 0 → destructiveBlocked first cnt s1 = false) →
      exec (.memTestStart p) s = goesOn opMemTestStart p (.memTest first cnt 0 0 0 0) [] [] (let t := fenceDone (borrowDrop s1)
        if kind = 1 ∧ st = 0 then { t with mem := { t.mem with testing := some (first, cnt) } } else t))) ∧
  (∀ s, s.mem.borrow = none → borrowDrop s = s) ∧
  (∀ s b, s.mem.borrow = some b → b.block = none → borrowDrop s = { s with mem := { s.mem with borrow := none } }) ∧
  (∀ s b l x, s.mem.borrow = some b → b.block = some (l, x) → borrowDrop s = (if b.phase = 0 then poolGive x else borrowReturn b.stripe l false) { s with mem := { s.mem with borrow := none } }) ∧
  (∀ first cnt s, destructiveBlocked first cnt s = true ↔
    (∃ r < 6, (ring s r).en = true ∧ (ring s r).base < (first + cnt) * 4096 ∧ first * 4096 < (ring s r).base + slots (ring s r) * (if r = 5 then 16 else 64)) ∨
    (∃ k < 16, (fence s k).en = true ∧ (fence s k).first < first + cnt ∧ first ≤ (fence s k).last)) ∧
  (∀ p s s1, Accepted opMemTestGet p s s1 → exec (.memTestGet p) s = answered opMemTestGet p .ok
    [wd (s1.mem.rate + 2 ^ 14 * s1.mem.bgStore + 2 ^ 18 * b2n (onRequest s1)), wd s1.mem.passes, wd s1.mem.lastPass, wd s1.mem.hist.toNat]
    (if pb p.params 0 0 then { s1 with mem := { s1.mem with hist := 0 } } else s1)) ∧
  (∀ p s s1, Accepted opMemFenceSet p s s1 →
    let k := pf p.params 0 3 0
    let f : Fence := { en := pb p.params 0 4, first := pf p.params 1 22 12, last := pf p.params 2 22 12 }
    let s2 := { s1 with mem := { s1.mem with fences := tset fenceReset k f s1.mem.fences } }
    let covers (b : Borrow) : Prop := b.store = 0 ∧ f.en = true ∧ f.first ≤ b.stripe ∧ b.stripe ≤ f.last
    (k = 0 → exec (.memFenceSet p) s = answered opMemFenceSet p .notInMode [] s1) ∧
    (k ≠ 0 → (∀ b, s1.mem.borrow = some b → ¬ covers b) → exec (.memFenceSet p) s = answered opMemFenceSet p .ok [] s2) ∧
    (∀ b, k ≠ 0 → s1.mem.borrow = some b → covers b → exec (.memFenceSet p) s = goesOn opMemFenceSet p .fenceWait [] [] s2)) ∧
  (∀ s, (running s = false ∨ s.mem.rate = 0 ∨ s.mem.borrow.isSome = true ∨ onRequest s = true ∨ (s.clk.now - s.mem.bgAt) * s.mem.rate < (if s.mem.bgStore = 3 then 5 else 1) * 1000000000) →
    exec .backgroundTestStripe s = .next s) ∧
  (∀ s, running s = true → s.mem.rate ≠ 0 → s.mem.borrow = none → onRequest s = false → (if s.mem.bgStore = 3 then 5 else 1) * 1000000000 ≤ (s.clk.now - s.mem.bgAt) * s.mem.rate →
    let skip := (s.mem.bgStore = 0 ∧ fenced s s.mem.bgNext = true) ∨ (s.mem.bgStore = 3 ∧ ∃ l, liveBlock s s.mem.bgNext = some l ∧ (poolFree s < 2 ∨ ∃ w, swapOf s 7 = some w ∧ w.unit = l))
    let out : Borrow := { store := s.mem.bgStore, stripe := s.mem.bgNext, onReq := false, phase := 0, block := none }
    let goes (t : State) (b : Borrow) : State := bgWrap { t with mem := { t.mem with borrow := some b, bgNext := s.mem.bgNext + 1, bgAt := s.clk.now } }
    (¬ skip → s.mem.bgStore ≠ 3 ∨ liveBlock s s.mem.bgNext = none → exec .backgroundTestStripe s = .next (goes s out)) ∧
    (∀ l x, ¬ skip → s.mem.bgStore = 3 → liveBlock s s.mem.bgNext = some l → pickSpare 7 0 s = some x →
      exec .backgroundTestStripe s = .next (goes (poolTake s) { out with block := some (l, x) })) ∧
    (skip → exec .backgroundTestStripe s = .next (bgWrap { s with mem := { s.mem with borrow := none, bgNext := s.mem.bgNext + 1, bgAt := s.clk.now } }))) ∧
  (∀ rows cols s, ((s.mem.borrow = none ∨ running s = false) → exec (.stripeReturned rows cols) s = .next s) ∧
    (∀ b, running s = true → s.mem.borrow = some b → b.phase = 0 →
      let t : State := { s with mem := { s.mem with borrow := some { b with phase := 1 } } }
      (b.block = none → exec (.stripeReturned rows cols) s = .next t) ∧
      (b.block ≠ none → nsOf s.clk ≠ 0 → exec (.stripeReturned rows cols) s = .next s) ∧
      (∀ l x, b.block = some (l, x) → nsOf s.clk = 0 → tget blockReset s.conn.blocks l % 4096 = b.stripe →
        exec (.stripeReturned rows cols) s = .next { t with conn := { t.conn with blocks := tset blockReset l x t.conn.blocks } }) ∧
      (∀ l x, b.block = some (l, x) → nsOf s.clk = 0 → tget blockReset s.conn.blocks l % 4096 ≠ b.stripe →
        exec (.stripeReturned rows cols) s = .next (poolGive x { s with mem := { s.mem with borrow := some { b with phase := 1, block := none } } }))) ∧
    (∀ b f t, running s = true → s.mem.borrow = some b → b.phase ≠ 0 → marchFaults b.store rows cols { s with mem := { s.mem with borrow := none } } = (f, t) →
      let u := match b.block with | some (l, _) => borrowReturn b.stripe l (decide (0 < f.2)) t | none => t
      (b.onReq = false → exec (.stripeReturned rows cols) s = .next (fenceDone u)) ∧
      (∀ j n l dn rp un sk, b.onReq = true → findJob u (fun j => match j.work with | .memTest .. => true | _ => false) = some j → j.work = .memTest n l dn rp un sk →
        exec (.stripeReturned rows cols) s = .next (fenceDone (testTake j n l (dn + 1) (rp + f.1) (un + f.2) sk u))))) ∧
  (∀ st s, marchFaults st [] [] s = ((0, 0), s)) ∧
  (∀ st rows cols x s ok t, startRepair st 1 x (marchFaults st rows cols s).2 = (ok, t) →
    marchFaults st rows (cols ++ [x]) s = (((marchFaults st rows cols s).1.1 + (if ok then 1 else 0), (marchFaults st rows cols s).1.2 + (if ok then 0 else 1)), t)) ∧
  (∀ st rows x s ok t, startRepair st 0 x (marchFaults st rows [] s).2 = (ok, t) →
    marchFaults st (rows ++ [x]) [] s = (((marchFaults st rows [] s).1.1 + (if ok then 1 else 0), (marchFaults st rows [] s).1.2 + (if ok then 0 else 1)), t)) ∧
  (∀ st kind x s, ((st, kind, x) ∈ s.mem.mirror → startRepair st kind x s = (true, s)) ∧
    ((st, kind, x) ∉ s.mem.mirror → sparesLeft st kind s = true → startRepair st kind x s = (true, { s with mem := { s.mem with mirror := s.mem.mirror ++ [(st, kind, x)] } })) ∧
    ((st, kind, x) ∉ s.mem.mirror → sparesLeft st kind s = false → startRepair st kind x s = (false, raise 0x0A 0x03 st (wd (kind % 4 + 4 * x)) false (memHist 1 s)))) ∧
  (∀ n l s, borrowReturn n l false s = poolGive n s ∧
    borrowReturn n l true s = unitFail 7 l { s with spare := { s.spare with dead := s.spare.dead ++ [(7, n)] } }) ∧
  (∀ j n l dn rp un sk s,
    let st := pf j.params 0 3 0
    (∀ k, nextStripe st s n l = (none, k) → testTake j n l dn rp un sk s = setJob j.ring (some { j with work := .memTest n 0 dn rp un (sk + l) }) { s with mem := { s.mem with borrow := none } }) ∧
    (∀ m k, nextStripe st s n l = (some m, k) → testTake j n l dn rp un sk s = setJob j.ring (some { j with work := .memTest (m + 1) (l - k - 1) dn rp un (sk + k) }) (borrow st m true s))) ∧
  (∀ rows cols s, onRequest s = false ∨ running s = false → exec (.memTestComplete rows cols) s = .next s) ∧
  (∀ rows cols j s n l dn rp un sk, running s = true → findJob s (fun j => match j.work with | .memTest .. => true | _ => false) = some j → j.work = .memTest n l dn rp un sk →
    (∀ f t, pf j.params 0 5 4 = 1 → marchFaults (pf j.params 0 3 0) rows cols s = (f, t) → exec (.memTestComplete rows cols) s = .next (memTestEnd j l dn f.1 f.2 sk t)) ∧
    (pf j.params 0 5 4 ≠ 1 → s.mem.borrow = none → l = 0 → exec (.memTestComplete rows cols) s = .next (memTestEnd j 0 dn rp un sk s)) ∧
    (pf j.params 0 5 4 ≠ 1 → s.mem.borrow = none → l ≠ 0 → exec (.memTestComplete rows cols) s = .next (testTake j n l dn rp un sk s)) ∧
    (pf j.params 0 5 4 ≠ 1 → s.mem.borrow.isSome = true → exec (.memTestComplete rows cols) s = .next s)) ∧
  (∀ j l dn rp un sk s,
    let first := pf j.params 1 16 0
    let inside (c : Host.Cell) : Bool := decide (first ≤ c.1 / 4096) && decide (c.1 / 4096 < first + pf j.params 2 16 0)
    let ends (s : State) := endJob j.ring .ok [wd (dn + l), wd (rp % 65536 + 65536 * (un % 65536)), wd sk] { s with mem := { s.mem with testing := none } }
    (pf j.params 0 5 4 ≠ 1 ∨ pf j.params 0 3 0 ≠ 0 → memTestEnd j l dn rp un sk s = ends s) ∧
    (pf j.params 0 5 4 = 1 → pf j.params 0 3 0 = 0 → memTestEnd j l dn rp un sk s = ends { s with wm := s.wm.filter (fun c => !inside c) })) ∧
  (∀ st kind loc s, (∀ b, s.mem.borrow = some b → b.store ≠ st) →
    (∀ u, startRepair st (kind % 4) loc s = (true, u) → exec (.memRepair st kind loc) s = .next (raise 0x0A 0x02 st (wd (kind % 4 + 4 * loc)) false
      { u with mem := { u.mem with mirror := u.mem.mirror.erase (st, kind % 4, loc), repairs := u.mem.repairs ++ [(st, kind % 4, loc)] } })) ∧
    (∀ u, startRepair st (kind % 4) loc s = (false, u) → exec (.memRepair st kind loc) s = .next u)) ∧
  (∀ st kind loc b s, s.mem.borrow = some b → b.store = st → exec (.memRepair st kind loc) s = .next s)

/-- Accesses of the Window Memory write and read the bytes that chapter 13 says, and change no other byte. Rests on 12_command_plane.md R319, 12_command_plane.md R320, 12_command_plane.md R325, 13_window_memory_and_matrix.md R352, 13_window_memory_and_matrix.md R354, 13_window_memory_and_matrix.md R355, 13_window_memory_and_matrix.md R356, 13_window_memory_and_matrix.md R360. -/
def Obligations.WindowAccesses : Prop :=
  let lands (host : Bool) (s : State) (a : Nat) : Prop := wmOpen s = true ∧ (host = true → a < hostEnd) ∧ (underTest s a = true → Config.freeAt s.clk.free (0x1310000000 + a) % 2 ≠ 1)
  (∀ e s, e.write = true → Machine.accessWf (some e) none none = true → portsUp s.dev = true → hostBreaks (some e) none s = false → Memory.wf s.wm = true →
    ∃ m, exec (.windowMemoryAccess (some e) none none) s = .next { s with wm := m, mem := { s.mem with warned := false } } ∧
      (∀ i < 4, e.be.getLsbD i = true → lands true s (e.addr + i) → memRead m (e.addr + i) = BitVec.ofNat 8 (e.data.toNat / 256 ^ i)) ∧
      (∀ a, (∀ i < 4, e.be.getLsbD i = true → lands true s (e.addr + i) → a ≠ e.addr + i) → memRead m a = memRead s.wm a)) ∧
  (∀ i s, i.write = true → reachesT0 i.master = true → lockAllows s 0 i.master = true → Machine.accessWf none (some i) none = true → portsUp s.dev = true → hostBreaks none (some i) s = false → Memory.wf s.wm = true →
    let host := i.master == 2
    ∃ m, exec (.windowMemoryAccess none (some i) none) s = .next { s with wm := m, mem := { s.mem with errI := false } } ∧
      (∀ k < i.len, lands host s (i.addr + k) → memRead m (i.addr + k) = i.data.getD k 0) ∧
      (∀ a, (∀ k < i.len, lands host s (i.addr + k) → a ≠ i.addr + k) → memRead m a = memRead s.wm a)) ∧
  (∀ e s, e.write = false → Machine.accessWf (some e) none none = true → portsUp s.dev = true →
    exec (.windowMemoryAccess (some e) none none) s = .next { s with mem := { s.mem with readE := wd (leNat (portReads true e.addr 4 s)), warned := false } }) ∧
  (∀ s a host, portRead host a s = if wmOpen s = false ∨ (host = true ∧ hostEnd ≤ a) then 0 else if underTest s a = true then freeByte a s else memRead s.wm a) ∧
  (∀ e i s, e.write = false → i.write = true → reachesT0 i.master = true → sameWord e i = true → lockAllows s 0 i.master = true → Machine.accessWf (some e) (some i) none = true → portsUp s.dev = true → hostBreaks (some e) (some i) s = false →
    (fallBack s e.addr = true → ∃ t, exec (.windowMemoryAccess (some e) (some i) none) s = .next t ∧ t.mem.warned = true ∧ t.wm = (doWriteI i s).wm) ∧
    (fallBack s e.addr = false → ∃ t, exec (.windowMemoryAccess (some e) (some i) none) s = .next t ∧ t.mem.warned = false ∧ t.wm = (doWriteI i s).wm ∧
      t.mem.readE = wd (leNat (portReads true e.addr 4 (doWriteI i s))))) ∧
  (∀ h s, h.addr < 0x800000 → portsUp s.dev = true →
    (h.uncorrectable = false → exec (.windowMemoryAccess none none (some h)) s = .next (tapInc 0x20 0 1 s)) ∧
    (h.uncorrectable = true → Memory.wf s.wm = true → ∃ m s1 s2, s1 = tapInc 0x21 0 1 { s with wm := m } ∧
      s2 = enqueue (mkRec s 0x0A 0x01 0 (wd h.addr)) { s1 with mem := { s1.mem with hist := s1.mem.hist ||| 1 } } ∧
      exec (.windowMemoryAccess none none (some h)) s = .next (startRepair 0 0 (Config.wmRow (h.addr / 8)) s2).2 ∧
      ∀ a, memRead m a = if a / 8 = h.addr / 8 then 0 else memRead s.wm a)) ∧
  (∀ e i h s, (portsUp s.dev = false → exec (.windowMemoryAccess e i h) s = .next s) ∧
    (∀ x, i = some x → lockAllows s 0 x.master = false → exec (.windowMemoryAccess e i h) s = exec (.windowMemoryAccess e none h) s)) ∧
  (∀ e s, 0x800000 ≤ e.addr → e.addr < 0x1000000 → e.addr % 4 = 0 → portsUp s.dev = true →
    let off := e.addr % 4096
    let reads (v : Word) (t : State) : State := { t with mem := { t.mem with readE := v, warned := false } }
    (e.write = true → e.be = 15 → exec (.windowMemoryAccess (some e) none none) s = .next (pageWrite off e.data s)) ∧
    (e.write = true → e.be ≠ 15 → exec (.windowMemoryAccess (some e) none none) s = .next s) ∧
    (e.write = false → e.be = 15 → exec (.windowMemoryAccess (some e) none none) s = .next (reads (regRead off s) (if off = 0x10C then { s with io := { s.io with lost := 0 } } else s))) ∧
    (e.write = false → e.be ≠ 15 → exec (.windowMemoryAccess (some e) none none) s = .next (reads 0 s)))

/-- The Bus Matrix grants by its fixed priority, keeps locks, serves each target by its address map, and PERST_N, link-down and a lock's time-out release locks. Rests on 06_switching_core.md R160, 12_command_plane.md R321, 13_window_memory_and_matrix.md R365, 13_window_memory_and_matrix.md R366, 13_window_memory_and_matrix.md R367, 13_window_memory_and_matrix.md R368, 16_modes_boot_power.md R434. -/
def Obligations.MatrixCommands : Prop :=
  (∀ s, (priorities s).length = 8 ∧ (priorities s).headD 0 = 6 ∧ (priorities s).drop 2 = [4, 7, 2, 3, 5, 1 - (priorities s).getD 1 0] ∧
    (∀ c, activeCp s = some c → (priorities s).getD 1 9 = cpPort c s)) ∧
  (∀ s t reqs b, granted s t reqs = some b → b ∈ reqs ∧ (∀ h, tget noLock s.mem.locks t = some h → b.master = h) ∧
    ∃ before after, priorities s = before ++ b.master :: after ∧ ∀ m ∈ before, ∀ x ∈ reqs, x.master = m → ∃ h, tget noLock s.mem.locks t = some h ∧ h ≠ m) ∧
  (∀ s t reqs, granted s t reqs = none → ∀ m ∈ priorities s, ∀ x ∈ reqs, x.master = m → ∃ h, tget noLock s.mem.locks t = some h ∧ h ≠ m) ∧
  (∀ s t reqs, (∀ b ∈ reqs, burstOk t b = true) → portsUp s.dev = false → exec (.busMatrixBurst reqs t) s = .next s) ∧
  (∀ s t reqs, (∀ b ∈ reqs, burstOk t b = true) → portsUp s.dev = true →
    (granted s t reqs = none → exec (.busMatrixBurst reqs t) s = .next s) ∧
    (∀ b, granted s t reqs = some b →
      let n := 8 * b.beats
      let s1 := burstLock t b s
      let got (bs : List Byte) (x : State) : Host.Outcome State Fault Refusal := .next { x with mem := { x.mem with readI := bs, errI := false } }
      (t = 8 ∨ t ∉ addresses b.master → exec (.busMatrixBurst reqs t) s = .next (raise 0x0A 0x11 b.master (wd b.addr) false { s with mem := { s.mem with readI := List.replicate (if b.write then 0 else n) 0, errI := true } })) ∧
      (t ≠ 8 → t ∈ addresses b.master →
        (let i : PortIAccess := { master := b.master, write := b.write, addr := b.addr, len := n, data := burstBytes b }
         t = 0 → hostBreaks none (some i) s1 = false → exec (.busMatrixBurst reqs t) s = .next (doReadI i none (doWriteI i s1))) ∧
        (t = 2 → b.write = true → exec (.busMatrixBurst reqs t) s = got [] (apertureServe (burstAperture b.master b.addr (burstBytes b) (2 * b.beats) s1))) ∧
        (t = 2 → b.write = false → exec (.busMatrixBurst reqs t) s = got ((List.range (2 * b.beats)).flatMap (fun i => leBytes 4 (apertureRead s (b.addr + 4 * i)).toNat)) s1) ∧
        (t = 3 → b.write = false → exec (.busMatrixBurst reqs t) s = got ((List.range b.beats).flatMap (fun i => counterBytes (counter s ((b.addr - 0x08000000) / 8 + i)))) s1) ∧
        (t = 4 → b.write = false → b.master ≠ 4 → (priorities s)[1]? ≠ some b.master → exec (.busMatrixBurst reqs t) s = got (List.replicate n 0) s1) ∧
        (t = 4 → b.write = false → b.master = 4 ∨ (priorities s)[1]? = some b.master → exec (.busMatrixBurst reqs t) s = got (freeBytes 0x13674 n s1).1 (freeBytes 0x13674 n s1).2) ∧
        (let off := b.addr - 0x0F000000
         t = 7 → (b.write = true → exec (.busMatrixBurst reqs t) s = got [] (burstPage off (burstBytes b) (2 * b.beats) s1)) ∧
          (b.write = false → exec (.busMatrixBurst reqs t) s = got (burstPageRead off (2 * b.beats) s1).1 (burstPageRead off (2 * b.beats) s1).2)) ∧
        (t ∈ [1, 5, 6] → b.write = false → exec (.busMatrixBurst reqs t) s = got (freeBytes (0x13670 + t) n s1).1 (freeBytes (0x13670 + t) n s1).2) ∧
        (t ∈ [1, 3, 4, 5, 6] → b.write = true → exec (.busMatrixBurst reqs t) s = got [] s1)))) ∧
  (∀ m a bs n s, burstAperture m a bs 0 s = s ∧ burstAperture m a bs (n + 1) s = burstAperture m (a + 4) (bs.drop 4) n
    { s with port := { s.port with waiting := s.port.waiting ++ [(m, a, wd (leNat (bs.take 4)))] } }) ∧
  (∀ off bs n s, burstPage off bs 0 s = s ∧ burstPage off bs (n + 1) s = burstPage (off + 4) (bs.drop 4) n (pageWrite off (wd (leNat (bs.take 4))) s) ∧
    burstPageRead off 0 s = ([], s) ∧ (let s1 : State := if off = 0x10C then { s with io := { s.io with lost := 0 } } else s
      burstPageRead off (n + 1) s = (leBytes 4 (regRead off s).toNat ++ (burstPageRead (off + 4) n s1).1, (burstPageRead (off + 4) n s1).2))) ∧
  (∀ t b s, let put (h : Option Nat) (a : Nat) : State := { s with mem := { s.mem with locks := tset noLock t h s.mem.locks, lockAddr := tset zeroN t a s.mem.lockAddr } }
    (b.write = false → b.lock = true → burstLock t b s = put (some b.master) b.addr) ∧
    (b.write = true → (tget noLock s.mem.locks t).isSome = true → tget zeroN s.mem.lockAddr t = b.addr → burstLock t b s = put none 0) ∧
    (b.write = true → tget noLock s.mem.locks t = none ∨ tget zeroN s.mem.lockAddr t ≠ b.addr → burstLock t b s = s) ∧
    (b.write = false → b.lock = false → burstLock t b s = s)) ∧
  (∀ t m s, t < 8 → tget noLock s.mem.locks t = some m →
    let s1 := { s with mem := { s.mem with locks := tset noLock t none s.mem.locks, errI := true } }
    exec (.matrixLockTimeout t) s = .next (raise 0x0A 0x10 m (wd (t + 2 ^ 7)) false { s1 with mem := { s1.mem with hist := s1.mem.hist ||| 4 } })) ∧
  (∀ t s, t < 8 → tget noLock s.mem.locks t = none → exec (.matrixLockTimeout t) s = .next s) ∧
  (∀ s, exec .pcieLinkDown s = .next (masterReset 2 s) ∧
    (let s1 := masterReset 2 { s with io := { s.io with msix := [], pcie := Io.reset.pcie } }
     (s.dev.bootPhase ≠ 1 → exec .perstAssert s = .next s1) ∧
     (s.dev.bootPhase = 1 → exec .perstAssert s = .next { s1 with dev := { s1.dev with pollAt := s.clk.now } }))) ∧
  (∀ m s, let s0 : State := { s with port := { s.port with waiting := s.port.waiting.filter (fun x => x.1 != m) } }
    let release (t : Nat) (s : State) : State := raise 0x0A 0x10 m (wd (t + 2 ^ 7)) false
      { s with mem := { s.mem with locks := tset noLock t none s.mem.locks, hist := s.mem.hist ||| 4 } }
    ((∀ t < 8, tget noLock s.mem.locks t ≠ some m) → masterReset m s = s0) ∧
    (∀ t < 8, tget noLock s.mem.locks t = some m → (∀ t' < 8, t' ≠ t → tget noLock s.mem.locks t' ≠ some m) → masterReset m s = release t s0) ∧
    masterReset m s = ((List.range 8).filter (fun t => decide (tget noLock s.mem.locks t = some m))).foldl (fun s t => release t s) s0)

/-- Counters are selected, read and dumped whole, and take every tap's increments, as chapter 14 says. Rests on 12_command_plane.md R341, 14_crossings_and_counters.md R376, 14_crossings_and_counters.md R381, 14_crossings_and_counters.md R383, 14_crossings_and_counters.md R384, 14_crossings_and_counters.md R385, 14_crossings_and_counters.md R386, 14_crossings_and_counters.md R387, 14_crossings_and_counters.md R388, 14_crossings_and_counters.md R389. -/
def Obligations.CounterCommands : Prop :=
  (∀ p s s1, Accepted opCntSelect p s s1 → exec (.cntSelect p) s = goesOn opCntSelect p .bind [] [] s1) ∧
  (∀ ws s, (pb ws 0 20 = true → bindAtTick ws s = setCounter (pf ws 0 19 0) { value := 0, sat := false, bound := true, tap := pf ws 1 7 0, obj := pf ws 1 31 8, since := s.clk.ticks } s) ∧
    (pb ws 0 20 = false → bindAtTick ws s = setCounter (pf ws 0 19 0) { value := 0, sat := false, bound := false, tap := 0, obj := 0, since := 0 } s)) ∧
  (∀ p s s1, Accepted opCntRead p s s1 → Memory.wf s1.wm = true →
    let n := pf p.params 0 26 20
    let c0 := pf p.params 0 19 0
    let a := pf p.params 1 22 0
    ∃ t k, exec (.cntRead p) s = answered opCntRead p .ok [s1.clk.fc, wd (s1.clk.cyc + 8 * nsOf s1.clk), wd k] t ∧ k ≤ 1000 ∧
      ((∀ i < 8 * n, underTest s1 (a + i) = false) → pb p.params 0 27 = false → readBytes t.wm a (8 * n) = (List.range' c0 n).flatMap (fun m => counterBytes (counter s1 m))) ∧
      (pb p.params 0 27 = false → t.cnt = s1.cnt) ∧
      (pb p.params 0 27 = true → t.cnt = ((List.range' c0 n).foldl (fun s m => setCounter m { counter s m with value := 0, sat := false } s) s1).cnt) ∧
      (∀ x, (x < a ∨ a + 8 * n ≤ x) → memRead t.wm x = memRead s1.wm x)) ∧
  (∀ p s s1, Accepted opCntDump p s s1 →
    let a := pf p.params 1 22 0
    let d := readDesc s1 a
    let bad := d.bad = true ∨ d.len = 0 ∨ d.len % 528 ≠ 0
    (d.own = false → exec (.cntDump p) s = goesOn opCntDump p (.dumpWait 0 a) [] [] s1) ∧
    (d.own = true → bad → exec (.cntDump p) s = answered opCntDump p .badParam [] (handBack a s1)) ∧
    (d.own = true → ¬ bad → exec (.cntDump p) s = goesOn opCntDump p (.dump 0 a d.len 0) [] [a] s1)) ∧
  (∀ r j s b a cap fill, job s r = some j → j.work = .dump b a cap fill → (running s = false ∨ s.dev.failover = true) → exec (.cntDumpBlock r) s = .next s) ∧
  (∀ r j s b a cap fill, job s r = some j → j.work = .dump b a cap fill → running s = true → s.dev.failover = false →
    let total := pf j.params 0 13 0 + 1
    let blk := blockRecord (pf j.params 0 27 14 + b) (pb j.params 1 23) s
    let s2 := wmPut ((readDesc s a).addr + fill) blk.1 blk.2
    (b + 1 = total → exec (.cntDumpBlock r) s = .next (endJob r .ok [wd (b + 1)] (setJob r (some { j with taken := [] }) (handBackOut a (fill + 528) s2)))) ∧
    (b + 1 ≠ total → fill + 528 ≠ cap → exec (.cntDumpBlock r) s = .next (setJob r (some { j with work := .dump (b + 1) a cap (fill + 528) }) s2)) ∧
    (b + 1 ≠ total → fill + 528 = cap → ∃ t, exec (.cntDumpBlock r) s = .next t ∧
      let j3 := { j with taken := [], work := .dumpWait (b + 1) (readDesc s a).next }
      let s3 := setJob r (some j3) (handBackOut a (fill + 528) s2)
      ((readDesc s a).last = true → t = endJob r .badParam [] s3) ∧
      ((readDesc s a).last = false → (readDesc s3 (readDesc s a).next).own = false → t = s3))) ∧
  (∀ b clear s, (blockRecord b clear s).1.length = 528) ∧
  (∀ r s, (∀ j, job s r = some j → ∀ b a cap fill, j.work ≠ .dump b a cap fill) → exec (.cntDumpBlock r) s = .next s) ∧
  (∀ l s, (∀ n ∈ l, n < 1048576) → exec (.counterTapSample l) s = .next (l.foldl (fun s n => counterBad n s) (sampleTaps s))) ∧
  (∀ s, sampleTaps s = { s with cnt := { s.cnt with last := s.cnt.acc, bank := s.cnt.bank.map (fun x => (x.1,
      if x.2.bound = true ∧ x.2.since ≤ s.clk.ticks - 1 then counterAdd (tapDiff s (x.2.tap * 2 ^ 24 + x.2.obj)) x.2 else x.2)) } }) ∧
  (∀ d c, (d ≠ 0 → cntMax ≤ c.value + d → (counterAdd d c).value = cntMax ∧ (counterAdd d c).sat = true) ∧ (c.value + d < cntMax → counterAdd d c = { c with value := c.value + d })) ∧
  (∀ n s, counterBad n s = raise 0x0B 0x01 n 0 false (setCounter n { counter s n with value := 0xFFFFFFFFFFFF, sat := true } s))

/-- Records queue in order, cross their synchronisers, enter ring 5 whole, and raise EVENT_READY by its rule. Rests on 12_command_plane.md R324, 12_command_plane.md R342, 12_command_plane.md R343, 14_crossings_and_counters.md R378, 14_crossings_and_counters.md R379, 14_crossings_and_counters.md R380, 14_crossings_and_counters.md R390. -/
def Obligations.EventRows : Prop :=
  (∀ r s, let log := if isFaultRec r then pushLast 256 s.evt.log r else s.evt.log
    (s.evt.queue.length < 4096 → enqueue r s = { s with evt := { s.evt with log := log, queue := s.evt.queue ++ [r], tail := pushLast 4096 s.evt.tail r } }) ∧
    (4096 ≤ s.evt.queue.length → ∃ f n, enqueue r s = irqRaise 2 { s with evt := { s.evt with log := log, ovf := some (f, n) }, io := { s.io with lost := satInc32 s.io.lost } } ∧
      (s.evt.ovf = none → f = r ∧ n = 1) ∧ (∀ g m, s.evt.ovf = some (g, m) → f = g ∧ n = satInc32 m))) ∧
  (∀ e : Evt, (e.ovf = none → dequeue e = { e with queue := e.queue.drop 1 }) ∧
    (∀ f n, e.ovf = some (f, n) → (dequeue e).queue = e.queue.drop 1 ++ [{ f with cls := 0x0C, code := 0x01, idx := 0, data := wd n, set := false }] ∧ (dequeue e).ovf = none)) ∧
  (∀ s, let live := running s = true ∨ (s.dev.mode = .halt ∧ s.dev.prevMode ∈ [3, 4, 5, 6])
    (s.evt.queue = [] ∨ ¬ live ∨ (ring s 5).en = false ∨ ((ring s 5).index + 1) % slots (ring s 5) = (ring s 5).db → exec .eventRingWrite s = .next s) ∧
    (∀ r q, s.evt.queue = r :: q → live → (ring s 5).en = true → ((ring s 5).index + 1) % slots (ring s 5) ≠ (ring s 5).db →
      let g := ring s 5
      let t := setRing 5 { g with index := (g.index + 1) % slots g } (wmPut (g.base + 16 * g.index) (recBytes r) s)
      let u := { t with evt := { dequeue t.evt with unread := t.evt.unread ++ [t.clk.now] } }
      exec .eventRingWrite s = .next (if evtReady u then irqRaise 1 u else u))) ∧
  (∀ r, (recBytes r).length = 16) ∧
  (∀ s, exec .eventHoldoffExpiry s = .next (if evtReady s then irqRaise 1 s else s)) ∧
  (∀ s, evtReady s = true ↔ max s.io.thresh 1 ≤ s.evt.unread.length ∨ (s.io.holdoff ≠ 0 ∧ ∃ t l, s.evt.unread = t :: l ∧ t + 1000 * s.io.holdoff ≤ s.clk.now)) ∧
  (∀ k s, findSync k s.evt.syncs = none → exec (.eventAckPhaseEnd k) s = .next s) ∧
  (∀ k y s, findSync k s.evt.syncs = some y →
    (y.pend = none → exec (.eventAckPhaseEnd k) s = .next { s with evt := { s.evt with syncs := s.evt.syncs.filter (fun x => x.key != k) } }) ∧
    (∀ r, y.pend = some r → exec (.eventAckPhaseEnd k) s = .next (enqueue r { s with evt := { s.evt with
      syncs := { y with pend := none, at_ := 1000 * s.clk.now } :: s.evt.syncs.filter (fun x => x.key != k) } }))) ∧
  (∀ t r s, let k : EventKey := { cls := r.cls, code := r.code, index := r.idx }
    let s1 := syncSettle k t 2 s
    let others := s1.evt.syncs.filter (fun x => x.key != k)
    (s.dev.mode = .boot ∨ s.dev.mode = .retention → pulseRec t r s = enqueue r s1) ∧
    (s.dev.mode ≠ .boot → s.dev.mode ≠ .retention →
      (findSync k s1.evt.syncs = none → pulseRec t r s = enqueue r { s1 with evt := { s1.evt with syncs := { key := k, at_ := t, pend := none } :: others } }) ∧
      (∀ y, findSync k s1.evt.syncs = some y → ∃ q, pulseRec t r s = { s1 with evt := { s1.evt with syncs := { y with pend := some q } :: others } } ∧
        (y.pend = none → q = r) ∧ (∀ o, y.pend = some o → q = { o with data := r.data, set := r.set })))) ∧
  (∀ k t n s, (findSync k s.evt.syncs = none → syncSettle k t n s = s) ∧
    (∀ y, findSync k s.evt.syncs = some y → t ≤ y.at_ + ackPhase k → syncSettle k t n s = s) ∧
    (∀ y, findSync k s.evt.syncs = some y → y.at_ + ackPhase k < t →
      let others := s.evt.syncs.filter (fun x => x.key != k)
      (y.pend = none → syncSettle k t (n + 1) s = { s with evt := { s.evt with syncs := others } }) ∧
      (∀ r, y.pend = some r → syncSettle k t (n + 1) s = syncSettle k t n (enqueue r { s with evt := { s.evt with
        syncs := { y with pend := none, at_ := y.at_ + ackPhase k } :: others } })))) ∧
  (∀ k, (k.cls ∈ [0x05, 0x0A] → ackPhase k = 4667) ∧ (k.cls ∈ [0x03, 0x04, 0x08] → ackPhase k = 5500) ∧ (k.cls = 0x02 → ackPhase k = if k.code = 0x20 then 6429 else 5500) ∧
    (k.cls = 0x07 → ackPhase k = 10813) ∧ (k.cls = 0x0F → ackPhase k = 20143) ∧ (k.cls = 0x0D → ackPhase k = 33000))

/-- The brown-out save is configured, armed, tested, triggered, written and ends in HALT as chapter 15 says. Rests on 15_endurance_and_failover.md R414, 15_endurance_and_failover.md R415, 15_endurance_and_failover.md R417, 15_endurance_and_failover.md R418, 15_endurance_and_failover.md R419, 16_modes_boot_power.md R430, 16_modes_boot_power.md R438. -/
def Obligations.SaveCommands : Prop :=
  (∀ v, armRule v = true ↔ v.en = true ∧ v.holdFault = 0 ∧ v.storeOk = true ∧ v.measured = true ∧ 24000000000 ≤ v.cUf * (v.vhold * v.vhold - 64000000)) ∧
  (∀ s, (armRule s.save = s.save.armed → rearm s = s) ∧
    (armRule s.save ≠ s.save.armed → rearm s = raise 0x0D 0x01 0 (wd (eAvail s.save)) (armRule s.save) { s with save := { s.save with armed := armRule s.save } })) ∧
  (∀ p s s1, Accepted opSaveConfigSet p s s1 → exec (.saveConfigSet p) s = answered opSaveConfigSet p .ok []
    (rearm { s1 with save := { s1.save with en := pb p.params 0 0, pfnEn := pb p.params 0 1, vinEn := pb p.params 0 2, tailN := pf p.params 1 12 0 } })) ∧
  (∀ p s s1, Accepted opSaveGet p s s1 →
    let v := s1.save
    ∃ slot gen fc, (newestFlacon v = none → slot = 0 ∧ gen = 0 ∧ fc = 0) ∧ (∀ k f, newestFlacon v = some (k, f) → slot = k ∧ gen = f.gen ∧ fc = f.fc) ∧
      exec (.saveGet p) s = answered opSaveGet p .ok [wd (b2n v.armed + 2 * b2n v.en + 4 * b2n v.storeOk + 8 * v.holdFault.toNat + 64 * b2n v.measured + 128 * b2n s1.dev.restored + 256 * slot),
        wd (v.vhold + 65536 * v.cUf), wd (v.esr + 65536 * eAvail v), wd gen, fc, wd v.storeKb] s1) ∧
  (∀ p s s1, Accepted opSaveTest p s s1 →
    let op := pf p.params 0 1 0
    let v := s1.save
    (op = 2 → exec (.saveTest p) s = answered opSaveTest p .ok [wd (v.storeKb + 65536 * b2n (slotFlacon v.slot0).isSome + 131072 * b2n (slotFlacon v.slot1).isSome), wd (((slotFlacon v.slot0).map (·.gen)).getD 0), wd (((slotFlacon v.slot1).map (·.gen)).getD 0)] s1) ∧
    (op ≠ 2 → v.holdFault ≠ 0 ∨ v.storeOk = false → exec (.saveTest p) s = answered opSaveTest p .notInMode [] s1) ∧
    (op ≠ 2 → v.holdFault = 0 → v.storeOk = true → saveTestRuns s1 = true → exec (.saveTest p) s = answered opSaveTest p .busy [] s1) ∧
    (op ≠ 2 → v.holdFault = 0 → v.storeOk = true → saveTestRuns s1 = false → exec (.saveTest p) s = goesOn opSaveTest p (.saveTest op) [] [] s1)) ∧
  (∀ d e h s,
    let c := if d = 0 then 65535 else min (200000 / d) 65535
    let r := min (2 * e) 65535
    let due := running s = true ∧ ∀ t, s.save.capAt = some t → t + 86400000000000 ≤ s.clk.now
    let asked := (findJob s (fun j => j.work = .saveTest 0)).isSome = true
    ∃ at_, let s1 := rearm { s with save := { s.save with measured := true, cUf := c, esr := r, vhold := min h 65535, capAt := at_ } }
    (due → at_ = some s.clk.now) ∧ (¬ due → at_ = s.save.capAt) ∧
    (¬ due → ¬ asked → exec (.capacitorMeasurement d e h) s = .next s) ∧ (due ∨ asked →
    (findJob s1 (fun j => j.work = .saveTest 0) = none → exec (.capacitorMeasurement d e h) s = .next s1) ∧
    (∀ j, findJob s1 (fun j => j.work = .saveTest 0) = some j → exec (.capacitorMeasurement d e h) s = .next (endJob j.ring .ok [wd (c + 65536 * r), 0, 0] s1)))) ∧
  (∀ s, (running s = true → (activeCp s).isSome = true → s.save.stageAt + 1000000000 ≤ s.clk.now →
      exec .saveStageRefresh s = .next { s with save := { s.save with stagedF := some (mkFlacon 8 s.clk.fc s.clk.cyc s), stageAt := s.clk.now } }) ∧
    (running s = false ∨ activeCp s = none ∨ s.clk.now < s.save.stageAt + 1000000000 → exec .saveStageRefresh s = .next s)) ∧
  (∀ s, (findJob s (fun j => j.work = .saveTest 1) = none ∨ running s = false → exec .checkpointComplete s = .next s) ∧
    (∀ j, running s = true → findJob s (fun j => j.work = .saveTest 1) = some j → exec .checkpointComplete s = .next (endJob j.ring .ok [wd (nextGen s.save), 0, 0] (writeFlacon (mkFlacon 4 s.clk.fc s.clk.cyc s) s)))) ∧
  (∀ f s, (∀ g, newestFlacon s.save = some (0, g) → writeFlacon f s = { s with save := { s.save with slot1 := some f } }) ∧
    (∀ g, newestFlacon s.save = some (1, g) → writeFlacon f s = { s with save := { s.save with slot0 := some f } }) ∧
    (newestFlacon s.save = none → writeFlacon f s = { s with save := { s.save with slot0 := some f } })) ∧
  (∀ s, let t := { s with clk := { s.clk with free := s.clk.free + 1 } }
    (∀ g, newestFlacon s.save = some (0, g) → tornWrite s = t ∨ tornWrite s = { t with save := { t.save with slot1 := none } }) ∧
    ((∀ g, newestFlacon s.save ≠ some (0, g)) → tornWrite s = t ∨ tornWrite s = { t with save := { t.save with slot0 := none } })) ∧
  (∀ c fc cy s, (mkFlacon c fc cy s).gen = nextGen s.save ∧ (mkFlacon c fc cy s).cause = c ∧ (mkFlacon c fc cy s).log = s.evt.log ∧ (mkFlacon c fc cy s).tail.length ≤ s.save.tailN ∧
    (mkFlacon c fc cy s).out = s.spare.hard ∧ (mkFlacon c fc cy s).dead = s.spare.dead ∧ (mkFlacon c fc cy s).repairs = s.mem.repairs ∧ (mkFlacon c fc cy s).health = s.health ∧ (mkFlacon c fc cy s).model = s.time.model ∧
    (mkFlacon c fc cy s).fc = fc ∧ (mkFlacon c fc cy s).cyc = cy ∧ (mkFlacon c fc cy s).roles = [roleCode (role s 0), roleCode (role s 1), roleCode (role s 2)] ∧ (mkFlacon c fc cy s).failed = [0, 1, 2].filter (fun c => role s c == .failed) ∧
    (mkFlacon c fc cy s).fcrc = crc32c (flaconBody (mkFlacon c fc cy s))) ∧
  (∀ f, flaconValid f = true ↔ f.magic = flaconMagic ∧ f.gen % 2 ^ 32 ≠ 0 ∧ 64 ≤ f.len ∧ f.len ≤ 94788 ∧ f.fcrc = crc32c (flaconBody f)) ∧
  (∀ v k f, newestFlacon v = some (k, f) → flaconValid f = true ∧ (k = 0 ∧ v.slot0 = some f ∨ k = 1 ∧ v.slot1 = some f) ∧
    ∀ g, (v.slot0 = some g ∨ v.slot1 = some g) → flaconValid g = true → g = f ∨ ¬ (fcLater (wd g.gen) (wd f.gen) = true ∧ fcLater (wd f.gen) (wd g.gen) = false)) ∧
  (∀ p v s, triggerActs p v s = true ↔ ((p = true ∧ s.save.pfnEn = true) ∨ (v = true ∧ s.save.vinEn = true)) ∧ (running s = true ∨ (s.dev.mode = .boot ∧ s.dev.bootPhase = 2))) ∧
  (∀ p v s, triggerActs p v s = false → exec (.saveTrigger p v) s = .next s) ∧
  (∀ p v s, triggerActs p v s = true →
    let s1 := match findJob s (fun j => j.work = .saveTest 1) with | some j => endJob j.ring .aborted [] (tornWrite s) | none => s
    exec (.saveTrigger p v) s = .next (changeMode .save { s1 with io := { s1.io with irqHeld := some (irqPin s) }, spare := { s1.spare with swap := [], wait := [] }, save := { s1.save with
      saving := some (s1.clk.now, b2n (p && s.save.pfnEn) + 2 * b2n (v && s.save.vinEn), s1.save.armed, s1.clk.fc, s1.clk.cyc), haltAt := none } })) ∧
  (∀ s, s.save.saving = none → exec .saveComplete s = .next s) ∧
  (∀ s t c a fc cy, s.save.saving = some (t, c, a, fc, cy) →
    let s1 := if a then (match saveImage c fc cy s with | some f => writeFlacon f s | none => s) else s
    let s2 := enterHalt { s1 with save := { s1.save with saving := none } }
    exec .saveComplete s = .next (if s2.dev.resetDue then resetAll s2 else s2)) ∧
  (∀ c fc cy s, ((activeCp s).isSome = true → s.cp.none_ = false → saveImage c fc cy s = some (mkFlacon c fc cy s)) ∧
    (activeCp s = none ∨ s.cp.none_ = true → saveImage c fc cy s = s.save.stagedF.map (fun f => flaconSeal { f with cause := c + 8, gen := nextGen s.save, fc, cyc := cy }))) ∧
  (∀ s, (enterHalt s).dev.mode = .halt ∧ (enterHalt s).dev.ready = false ∧ (enterHalt s).io.irqHeld = none ∧ (enterHalt s).wm = s.wm)

/-- Spares are swapped in by command and by hard failure, cut over, retested, and wear raises recommendations, as chapter 15 says. Rests on 09_serial_lanes.md R253, 15_endurance_and_failover.md R400, 15_endurance_and_failover.md R402, 15_endurance_and_failover.md R403, 15_endurance_and_failover.md R404, 15_endurance_and_failover.md R405, 15_endurance_and_failover.md R406, 15_endurance_and_failover.md R419, 15_endurance_and_failover.md R421. -/
def Obligations.HealthCommands : Prop :=
  (∀ p s s1, Accepted opHealthSpareSwap p s s1 →
    let pool := pf p.params 0 3 0
    let op := pf p.params 0 5 4
    let u := pf p.params 1 12 0
    let no (st : Status) := answered opHealthSpareSwap p st [] s1
    (op = 2 → exec (.healthSpareSwap p) s = answered opHealthSpareSwap p .ok [0, 0] { s1 with cp := { s1.cp with holdoff := u } }) ∧
    (op = 1 → pool < 8 → unitOut pool u s1 = true → exec (.healthSpareSwap p) s = goesOn opHealthSpareSwap p (.retest pool u) [] [] s1) ∧
    (op = 1 → 8 ≤ pool ∨ unitOut pool u s1 = false → exec (.healthSpareSwap p) s = no .notInMode) ∧
    (op = 0 → pool = 8 → ∀ a, activeCp s1 = some a → s1.cp.svaOk = true → standbyFit s1 = true → standby s1 = some u → exec (.healthSpareSwap p) s = goesOn opHealthSpareSwap p .handover [] [] (engineSwap s1 (gapStart a u 6 s1))) ∧
    (op = 0 → pool = 8 → activeCp s1 = none ∨ s1.cp.svaOk = false ∨ standbyFit s1 = false ∨ standby s1 ≠ some u → exec (.healthSpareSwap p) s = no .notInMode) ∧
    (op = 0 → pool ≠ 8 → pickSpare pool u s1 = none → exec (.healthSpareSwap p) s = no .spareExhausted) ∧
    (∀ x, op = 0 → pool ≠ 8 → pickSpare pool u s1 = some x →
      let off := unitOut pool u s1 = true ∨ unitFenced pool u s1 = true
      (off → exec (.healthSpareSwap p) s = no .notInMode) ∧
      (¬ off → (swapOf s1 pool).isSome = true → exec (.healthSpareSwap p) s = no .busy) ∧
      (¬ off → swapOf s1 pool = none → exec (.healthSpareSwap p) s = goesOn opHealthSpareSwap p (.swap pool u) [] []
        (engineSwap s1 (setSwap pool (some { unit := u, spare := x, auto := false, hard := false, since := s1.clk.now, tick := s1.clk.ticks, ring := p.ring }) (if pool = 7 then poolTake s1 else s1)))))) ∧
  (∀ s t, (∀ w, swapOf s 0 = none → swapOf t 0 = some w → engineSwap s t = sealSwap w.unit (laneHold w.unit t)) ∧ ((swapOf s 0).isSome = true ∨ swapOf t 0 = none → engineSwap s t = t)) ∧
  (∀ p s s1, Accepted opHealthGet p s s1 →
    let d := pf p.params 0 2 0
    let h := tget dieReset s1.health.die d
    let w : Nat × Nat := if d = 0 then (0, 255) else worstLane d s1
    let n := (h.recs.filter (fun t => decide (s1.clk.now < t + 86400000000000))).length
    exec (.healthGet p) s = answered opHealthGet p .ok [wd h.slow, wd s1.health.hours, wd (h.ecc % 65536 + 65536 * (h.eccUnit % 65536)), wd (w.2 + 256 * w.1 + 65536 * (n % 65536)), wd h.hist.toNat]
      (if pb p.params 0 3 then { s1 with health := { s1.health with die := tset dieReset d { h with hist := 0 } s1.health.die } } else s1)) ∧
  (∀ p s s1, Accepted opHealthSpareGet p s s1 →
    let k := pf p.params 0 3 0
    let last := tget noLast s1.spare.last k
    exec (.healthSpareGet p) s = answered opHealthSpareGet p .ok [wd ((if k = 7 then s1.conn.total else poolSpares k * poolGroups k) + 4096 * freeSpares k s1), wd (unitsOut k s1), last.1, wd (last.2.1 + 8 * last.2.2)] s1) ∧
  (∀ p s s1, Accepted opHealthCpGet p s s1 → exec (.healthCpGet p) s = answered opHealthCpGet p .ok
    [wd (roleCode (role s1 0) + 8 * roleCode (role s1 1) + 64 * roleCode (role s1 2) + 512 * b2n (standbyFit s1) + 1024 * b2n s1.cp.svaOk + 2048 * s1.cp.holdoff), wd s1.cp.passes,
      wd (revertLeft s1 + 4096 * s1.cp.lastCause + 65536 * s1.cp.lastGap), wd s1.cp.failovers, s1.cp.fcLast] s1) ∧
  (∀ p u o s, p < 8 → u < poolUnits p →
    (s.health.failed = true → exec (.unitHardFailure p u o) s = .next s) ∧
    (s.health.failed = false → ∃ t, exec (.unitHardFailure p u o) s = .next t ∧
      (swapOf s p = none → o = false → t = swapGone s (engineSwap s (failUnit p u s))) ∧
      (swapOf s p = none → o = true → t = swapGone s (engineSwap s s)) ∧
      (∀ w, swapOf s p = some w → o = true → t = swapGone s (engineSwap s (spareFails p w s))) ∧
      (∀ w, swapOf s p = some w → o = false → w.unit = u → t = swapGone s (engineSwap s (setSwap p (some { w with hard := true }) (raise 0x0F 0x13 p (wd u) false (dieHist (unitDie p u) 1 (markHard p u s)))))) ∧
      (∀ w, swapOf s p = some w → o = false → w.unit ≠ u → (p, u) ∈ s.spare.wait → t = swapGone s (engineSwap s s)) ∧
      (∀ w, swapOf s p = some w → o = false → w.unit ≠ u → (p, u) ∉ s.spare.wait → t = swapGone s (engineSwap s (failUnit p u s))))) ∧
  (∀ p u s,
    let fails (x : State) : State := autoSwap p u (raise 0x0F 0x13 p (wd u) false (dieHist (unitDie p u) 1 x))
    (servedBy p u s = none → unitOut p u s = false → failUnit p u s = fails (markHard p u s)) ∧
    (servedBy p u s = none → unitOut p u s = true → failUnit p u s = s) ∧
    (∀ x, servedBy p u s = some x → failUnit p u s = fails { s with spare := { s.spare with
      used := s.spare.used.filter (fun y => !(y.1 == p && y.2.2 == u)), dead := s.spare.dead ++ [(p, x)] } })) ∧
  (∀ p u s, ((p, u) ∈ s.spare.hard → markHard p u s = s) ∧
    ((p, u) ∉ s.spare.hard → markHard p u s = { s with spare := { s.spare with hard := s.spare.hard ++ [(p, u)] } })) ∧
  (∀ p w s,
    let s1 : State := { s with spare := { s.spare with dead := s.spare.dead ++ [(p, w.spare)] } }
    (∀ x, pickSpare p w.unit s1 = some x → spareFails p w s = setSwap p (some { w with spare := x, since := s1.clk.now, tick := s1.clk.ticks }) (if p = 7 then poolTake s1 else s1)) ∧
    (pickSpare p w.unit s1 = none →
      let s2 := setSwap p none s1
      let s3 := if w.ring < 4 then endJob w.ring .spareExhausted [] s2 else s2
      (w.hard = true → spareFails p w s = serveWait p s3.spare.wait.length (swapFail p w.unit s3)) ∧
      (w.hard = false → spareFails p w s = serveWait p s3.spare.wait.length (raise 0x0F 0x11 p (wd w.unit) false s3)))) ∧
  (∀ p k s, serveWait p 0 s = s ∧ ((swapOf s p).isSome = true → serveWait p k s = s) ∧ ((∀ x ∈ s.spare.wait, x.1 ≠ p) → serveWait p k s = s) ∧
    (∀ x, swapOf s p = none → s.spare.wait.find? (fun x => x.1 == p) = some x →
      serveWait p (k + 1) s = serveWait p k (autoSwap p x.2 { s with spare := { s.spare with wait := s.spare.wait.erase (p, x.2) } }))) ∧
  (∀ p u s, ((swapOf s p).isSome = true → autoSwap p u s = { s with spare := { s.spare with wait := s.spare.wait ++ [(p, u)] } }) ∧
    (∀ x, swapOf s p = none → pickSpare p u s = some x → autoSwap p u s = setSwap p (some { unit := u, spare := x, auto := true, hard := true, since := s.clk.now, tick := s.clk.ticks, ring := 4 }) (if p = 7 then poolTake s else s)) ∧
    (swapOf s p = none → pickSpare p u s = none → autoSwap p u s = swapFail p u s) ∧
    (let t := takeOut p u (raise 0x0F 0x11 p (wd u) false s)
     (p ≠ 7 → swapFail p u s = t) ∧ (p = 7 → swapFail p u s = { t with conn := { t.conn with bad := u :: t.conn.bad } }))) ∧
  (∀ u o s, (s.health.failed = true → exec (.unitHardFailure 14 u o) s = .next s) ∧
    (s.health.failed = false → exec (.unitHardFailure 14 u o) s = .next (raise 0x0F 0x13 0xE (wd (u % 8192)) false (dieHist 0 1 { s with health := { s.health with failed := true } }))) ∧
    (u < 144 → s.health.failed = true → exec (.unitHardFailure 15 u o) s = .next s) ∧
    (u < 144 → s.health.failed = false → exec (.unitHardFailure 15 u o) s = .next (laneWatch s (serdesFail u s)))) ∧
  (∀ p s, (swapOf s p = none → exec (.spareCutover p) s = .next s) ∧
    (∀ w, swapOf s p = some w →
      let waits := 3 ≤ p ∧ (nsOf s.clk ≠ 0 ∨ s.clk.ticks < w.tick + mirrorCycles p)
      (waits → exec (.spareCutover p) s = .next s) ∧
      (¬ waits → p ≠ 0 → p ≠ 2 → exec (.spareCutover p) s = .next (cutover p w s)) ∧
      (¬ waits → ∃ t, exec (.spareCutover p) s = .next t))) ∧
  (∀ p w s,
    let s1 := takeOut p w.unit (setSwap p none s)
    let s2 : State := { s1 with spare := { s1.spare with used := s1.spare.used ++ [(p, w.spare, w.unit)], last := tset noLast p (s1.clk.fc, s1.clk.cyc, w.unit) s1.spare.last } }
    let blk := if unitOut 7 w.unit s = true then s.conn.outBlk else tset noTime w.unit (some (tget blockReset s.conn.blocks w.unit)) s.conn.outBlk
    let s3 := raise 0x0F 0x10 p (wd (w.unit + 2 ^ 13 * w.spare + 2 ^ 31 * b2n w.auto)) false (if p = 7 then
      { s2 with conn := { s2.conn with outBlk := blk, blocks := tset blockReset w.unit w.spare s2.conn.blocks, bad := s2.conn.bad.filter (fun b => b != w.unit) } } else s2)
    let s4 := if w.ring < 4 then endJob w.ring .ok [s3.clk.fc, wd (s3.clk.cyc + 8 * w.spare)] s3 else s3
    cutover p w s = serveWait p s4.spare.wait.length s4) ∧
  (∀ ok s, findJob s (fun j => match j.work with | .retest .. => true | _ => false) = none → exec (.unitRetestComplete ok) s = .next s) ∧
  (∀ ok j p u s, findJob s (fun j => match j.work with | .retest .. => true | _ => false) = some j → j.work = .retest p u →
    exec (.unitRetestComplete ok) s = .next (endJob j.ring .ok [0, wd (8 * b2n ok)] (if ok then rejoin p u s else s))) ∧
  (∀ p u s,
    let s1 : State := { s with spare := { s.spare with out := s.spare.out.erase (p, u), hard := s.spare.hard.erase (p, u), used := s.spare.used.filter (fun x => !(x.1 == p && x.2.2 == u)) } }
    let x := tget noTime s.conn.outBlk u
    let s2 : State := { s1 with conn := { s1.conn with outBlk := tset noTime u none s.conn.outBlk } }
    (p ≠ 7 → rejoin p u s = s1) ∧
    (p = 7 → u ∈ s.conn.bad → rejoin p u s = { s2 with conn := { s2.conn with bad := s.conn.bad.filter (fun b => b != u), blocks := tset blockReset u (x.getD (tget blockReset s.conn.blocks u)) s.conn.blocks } }) ∧
    (∀ b, p = 7 → u ∉ s.conn.bad → x = some b → rejoin p u s = poolGive b { s2 with spare := { s2.spare with dead := s2.spare.dead.erase (7, b) } }) ∧
    (p = 7 → u ∉ s.conn.bad → x = none → rejoin p u s = s2)) ∧
  (∀ ms s, (∀ m ∈ ms, wearOk m = true) →
    (running s = false ∨ s.health.failed = true ∨ s.clk.now < s.health.hourAt + 3600000000000 → exec (.healthWearSample ms) s = .next s) ∧
    (running s = true → s.health.failed = false → s.health.hourAt + 3600000000000 ≤ s.clk.now → exec (.healthWearSample ms) s = .next (wearSample ms s))) ∧
  (∀ ms s, ∃ s1 : State, s1 = { s with health := { s.health with hours := s.health.hours + 1, hourAt := s.clk.now, die := s.health.die.map (fun x => (x.1, { x.2 with slow := 0, ecc := 0, eccUnit := 0 })) } } ∧
    wearSample ms s = (let u := ms.foldl (fun s m => wearOne m s) s1
      { u with health := { u.health with die := u.health.die.filter (fun x => x.2 != dieReset x.1) } })) ∧
  (∀ m o f s, m.osc = some (o, f) →
    let b := (tget noTime s.health.oscBase (m.die * 32 + o)).getD f
    let slow := (b - f) * 10000 / max b 1
    let h := tget dieReset s.health.die m.die
    let s1 : State := { s with health := { s.health with oscBase := tset noTime (m.die * 32 + o) (some b) s.health.oscBase, die := tset dieReset m.die { h with slow := max h.slow slow } s.health.die } }
    wearAge m s = if 300 ≤ slow then recommend m.pool m.unit 1 s1 else s1) ∧
  (∀ m x s, m.wire = some x →
    let l := (x :: tget noPairs s.health.wires (unitKey m.pool m.unit)).take 24
    let s1 : State := { s with health := { s.health with wires := tset noPairs (unitKey m.pool m.unit) l s.health.wires } }
    wearWire m s = if (l.map (·.2)).sum < (l.map (·.1)).sum * 10 ^ 12 then recommend m.pool m.unit 3 s1 else s1) ∧
  (∀ p u n s, (s.health.failed = true ∨ (∃ t, tget noTime s.health.recAt (unitKey p u) = some t ∧ s.clk.now < t + 86400000000000) → recommend p u n s = s) ∧
    (s.health.failed = false → (∀ t, tget noTime s.health.recAt (unitKey p u) = some t → t + 86400000000000 ≤ s.clk.now) → ∃ s1, s1.health.recAt = tset noTime (unitKey p u) (some s.clk.now) s.health.recAt ∧
      recommend p u n s = raise 0x0F 0x12 p (wd (u + 2 ^ 13 * n)) false s1)) ∧
  (∀ l h w s, l < 144 → (running s = false ∨ s.health.failed = true ∨ (findJob s (fun j => j.work = .eye l)).isSome = true) → exec (.serdesMarginScan l h w) s = .next s) ∧
  (∀ l h w s, l < 144 → running s = true → s.health.failed = false → findJob s (fun j => j.work = .eye l) = none →
    ((∀ t, tget noTime s.health.scanAt l = some t → t + 21600000000000 ≤ s.clk.now) ∨ l ∈ s.health.baseDue) →
    let s1 := { s with health := { s.health with scanAt := tset noTime l (some s.clk.now) s.health.scanAt } }
    (tget noBase s.health.base l = none → l ∈ s.health.baseDue → exec (.serdesMarginScan l h w) s = .next { s1 with health := { s1.health with
      baseDue := s.health.baseDue.erase l, base := tset noBase l (some (h, w)) s.health.base, pct := tset pctReset l 100 s.health.pct } }) ∧
    (tget noBase s.health.base l = none → l ∉ s.health.baseDue → exec (.serdesMarginScan l h w) s = .next s1) ∧
    (∀ bh bw, tget noBase s.health.base l = some (bh, bw) →
      let s2 := { s1 with health := { s1.health with pct := tset pctReset l (min (min (100 * h / max bh 1) (100 * w / max bw 1)) 255) s.health.pct } }
      exec (.serdesMarginScan l h w) s = .next (if 10 * h < 7 * bh ∨ 10 * w < 7 * bw then recommend 15 l 4 s2 else s2)))

/-- The SVA's judgements, the gap, the journal, fitness, restarts and the revert act as chapter 15 says. Rests on 13_window_memory_and_matrix.md R368, 15_endurance_and_failover.md R393, 15_endurance_and_failover.md R394, 15_endurance_and_failover.md R395, 15_endurance_and_failover.md R396, 15_endurance_and_failover.md R397, 15_endurance_and_failover.md R398, 15_endurance_and_failover.md R399, 15_endurance_and_failover.md R400, 15_endurance_and_failover.md R401, 15_endurance_and_failover.md R421. -/
def Obligations.ProcessorRows : Prop :=
  (∀ s, (svaJudges s = false → exec .cpHeartbeatTimeout s = .next s) ∧
    (svaJudges s = true → exec .cpHeartbeatTimeout s = .next (cpFails 1 s)) ∧
    (svaJudges s = true ↔ s.cp.svaOk = true ∧ s.cp.gap = none)) ∧
  (∀ c s, (activeCp s = none → cpFails c s = s) ∧
    (∀ a, activeCp s = some a →
      let s1 := pulse 0x0F 0x03 a (wd c) false s
      (∀ n, successor a s1 = some n → n ≠ 2 → cpFails c s = cpReset a c (gapStart a n c s1)) ∧
      (successor a s1 = some 2 → cpFails c s = cpReset a c (powerSpare a (gapStart a 2 c s1))) ∧
      (successor a s1 = none → ∃ t, cpFails c s = stateChange { t with dev := { t.dev with ready := false }, cp := { t.cp with none_ := true } } ∧ t = markFailed a c (masterReset (cpPort a s1) s1)))) ∧
  (∀ c s, (role s 2 ≠ .cold → powerSpare c s = s) ∧ (role s 2 = .cold → let t := setRole 2 .restarting s
    powerSpare c s = { t with cp := { t.cp with m0 := if t.cp.m0 = c then 2 else t.cp.m0, m1 := if t.cp.m1 = c then 2 else t.cp.m1 } })) ∧
  (∀ a n c s, let s1 := { s with dev := { s.dev with failover := true }, io := { s.io with irqHeld := some (irqPin s) }, cp := { s.cp with gap := some (s.clk.now, c, a, n) } }
    gapStart a n c s = stateChange (masterReset (cpPort a s1) s1)) ∧
  (∀ c k s, let ts := s.clk.now :: (tget noTimes s.cp.resets c).filter (fun t => decide (s.clk.now < t + 3600000000000))
    let s1 := { s with cp := { s.cp with resets := tset noTimes c ts s.cp.resets } }
    (ts.length < 3 → cpReset c k s = setRole c .restarting s1) ∧ (3 ≤ ts.length → cpReset c k s = markFailed c k s1)) ∧
  (∀ s, (svaJudges s = true → exec (.cpMemoryError true) s = .next (cpFails 2 s)) ∧ (svaJudges s = false → exec (.cpMemoryError true) s = .next s)) ∧
  (∀ s, let ts := s.clk.now :: s.cp.corr.filter (fun t => decide (s.clk.now < t + 1000000000))
    (100 < ts.length → svaJudges s = true → exec (.cpMemoryError false) s = .next (cpFails 3 { s with cp := { s.cp with corr := [] } })) ∧
    (ts.length ≤ 100 ∨ svaJudges s = false → exec (.cpMemoryError false) s = .next { s with cp := { s.cp with corr := ts } })) ∧
  (∀ s, (s.cp.gap = none → exec .failoverGapEnd s = .next s) ∧
    (∀ t c o n, s.cp.gap = some (t, c, o, n) → exec .failoverGapEnd s = .next (protSync (repliesDue (handoverReply n (gapEnd t c o n s)))))) ∧
  (∀ s, repliesDue s = dueReplies (sendLate s.io.late.length s)) ∧
  (∀ t c o n s, let u := min ((s.clk.now - t) / 1000) 65535
    let code := if c = 7 then 6 else c
    let s1 := setRole n .active (if 6 ≤ c then setRole o .standby s else s)
    let s2 := { s1 with dev := { s1.dev with failover := false, activeCp := n }, spare := { s1.spare with last := tset noLast 8 (s1.clk.fc, s1.clk.cyc, o) s1.spare.last }, cp := { s1.cp with gap := none, lastCause := code, lastGap := u, failovers := (s1.cp.failovers + 1) % 2 ^ 32, fcLast := s1.clk.fc, journal := [], passOk := false, passes := 0, digestOk := true, lagOk := true, fitSince := none, corr := [] } }
    let s3 := stateChange (irqRelease s2)
    gapEnd t c o n s = if c = 7 then pulse 0x0F 0x02 n (wd (u * 65536)) false s3 else pulse 0x0F 0x01 n (wd (o + 4 * code + u * 65536)) false s3) ∧
  (∀ s, let t : State := { s with cp := { s.cp with journal := s.cp.journal.drop 1 } }
    (standby s = none → exec .journalApply s = .next s) ∧
    (∀ c, standby s = some c → lagWithin t = false → exec .journalApply s = .next t) ∧
    (∀ c, standby s = some c → lagWithin t = true → exec .journalApply s = exec (.journalLag c) t)) ∧
  (∀ s, (s.cp.journal = [] → lagWithin s = true) ∧ ∀ x l, s.cp.journal = x :: l → (lagWithin s = true ↔ s.clk.now ≤ x.at_ + 20000)) ∧
  (∀ s, standbyFit s = true ↔ (standby s).isSome = true ∧ s.cp.passOk = true ∧ s.cp.lagOk = true ∧ lagWithin s = true ∧ s.cp.digestOk = true) ∧
  (∀ s, fitUpdate s = { s with cp := { s.cp with fitSince := if standbyFit s then some (s.cp.fitSince.getD s.clk.now) else none } }) ∧
  (∀ b s, standby s = none → exec (.standbySelftestPass b) s = .next s ∧ exec (.cpDigestExchange b) s = .next s ∧ ∀ c < 3, exec (.journalLag c) s = .next s) ∧
  (∀ c s, standby s = some c →
    exec (.standbySelftestPass true) s = .next (fitUpdate { s with cp := { s.cp with passOk := true, passes := (s.cp.passes + 1) % 2 ^ 32 } }) ∧
    (let t := pulse 0x0F 0x03 c (wd 4) false (if s.cp.svaOk then setRole c .restarting (masterReset (cpPort c s) s) else s)
     exec (.standbySelftestPass false) s = .next (fitUpdate { t with cp := { t.cp with passOk := false } })) ∧
    (∀ b, exec (.cpDigestExchange b) s = .next (fitUpdate { s with cp := { s.cp with digestOk := b } })) ∧
    (lagWithin s = true ∨ s.cp.lagOk = false → exec (.journalLag c) s = .next (fitUpdate { s with cp := { s.cp with lagOk := lagWithin s } })) ∧
    (lagWithin s = false → s.cp.lagOk = true → exec (.journalLag c) s = .next (pulse 0x0F 0x03 c (wd 5) false (fitUpdate { s with cp := { s.cp with lagOk := false } })))) ∧
  (∀ c s, c < 3 →
    (role s c = .restarting → standby s = none → (activeCp s).isSome = true → svaJudges s = true →
      let t := setRole c .standby s
      exec (.cpRestartComplete c) s = .next (fitUpdate { t with cp := { t.cp with passOk := true, lagOk := true, digestOk := true, passes := 1, fitSince := none, journal := [] } })) ∧
    (role s c ≠ .restarting ∨ (standby s).isSome = true ∨ activeCp s = none ∨ svaJudges s = false → exec (.cpRestartComplete c) s = .next s)) ∧
  (∀ s, (∀ a t, activeCp s = some a → svaJudges s = true → s.cp.holdoff ≠ 0 → role s s.cp.m0 = .standby → standbyFit s = true → s.cp.fitSince = some t → t + s.cp.holdoff * 1000000000 ≤ s.clk.now →
      exec .cpRevertHoldoffExpiry s = .next (gapStart a s.cp.m0 7 s)) ∧
    (s.cp.holdoff = 0 ∨ svaJudges s = false ∨ standbyFit s = false ∨ role s s.cp.m0 ≠ .standby ∨ activeCp s = none → exec .cpRevertHoldoffExpiry s = .next s)) ∧
  (∀ s, (s.cp.svaOk = true → exec .svaHeartbeatTimeout s = .next (raise 0x0F 0x04 0 0 false { s with cp := { s.cp with svaOk := false } })) ∧
    (s.cp.svaOk = false → exec .svaHeartbeatTimeout s = .next s))

/-- Failures, guarded pins, inputs, JTAG and descriptor rechecks act as the spec says, and FTICK_OUT, VSAVE_OUT and lane symbols are driven as it says. Rests on 02_grain_cycle.md R57, 02_grain_cycle.md R58, 02_grain_cycle.md R64, 03_lane_frame.md R67, 12_command_plane.md R341, 15_endurance_and_failover.md R408, 15_endurance_and_failover.md R409, 15_endurance_and_failover.md R411, 16_modes_boot_power.md R440, 16_modes_boot_power.md R443, 17_pins_package_electrical.md R458, 17_pins_package_electrical.md R466. -/
def Obligations.PinAndFailureRows : Prop :=
  (∀ e s, e < 4 →
    exec (.edgeLinkClockLoss e) s = .next { s with spare := { s.spare with clkLost := e :: s.spare.clkLost }, dev := { s.dev with fenceDue := s.dev.fenceDue ++ [(e, 2)] } } ∧
    exec (.edgeDieFailure e) s = .next { s with dev := { s.dev with fenceDue := s.dev.fenceDue ++ [(e, 3)] } }) ∧
  (∀ s, fencesDue s = s.dev.fenceDue.foldl (fun s x => fenceDie x.1 x.2 s) { s with dev := { s.dev with fenceDue := [] } }) ∧
  (∀ e c s, fenceCause s e ≠ c → (c ≠ 1 ∨ fenceCause s e = 0) →
    let t := raise 0x01 0x11 e (wd (1 + 2 * c)) false (fenceLanes e { s with dev := { s.dev with fence := tset zeroN e c s.dev.fence } })
    (t.dev.mode = .service ∨ t.dev.mode = .maintenance ∨ t.dev.mode = .commissioning → fenceDie e c s = changeRunning .contained { t with dev := { t.dev with cameFrom := t.dev.mode } }) ∧
    (t.dev.mode = .contained → fenceDie e c s = t)) ∧
  (∀ ms s, (∀ m ∈ ms, m.pin < 32 ∧ m.kind ≤ 5 ∧ (m.kind = 4 → m.pin = 31)) →
    let on := s.dev.powered = true ∧ s.dev.resetLow = false ∧ s.dev.mode ≠ .retention
    (¬ on → exec (.guardMeasurement ms) s = .next s) ∧
    (on →
      let t := guardWatch (ms.foldl (fun s m => guardOne m s) s)
      (tamperFault t = true → tamperFault s = false → exec (.guardMeasurement ms) s = .next (alarmErase 1 t)) ∧
      (tamperFault s = true → (guardPin t 30).kind = 0 → exec (.guardMeasurement ms) s = .next { t with keys := { t.keys with alarm := t.keys.alarm &&& 0b11110 } }) ∧
      (tamperFault s = true → (guardPin t 30).kind ≠ 0 → exec (.guardMeasurement ms) s = .next t) ∧
      (tamperFault t = false → tamperFault s = false → exec (.guardMeasurement ms) s = .next t))) ∧
  (∀ m g, let c := if m.kind = g.seen then g.count + 1 else 1
    let x := if m.kind = g.kind then 0 else g.miss + 1
    (g.kind = 0 → m.kind ≠ 0 → 3 ≤ c → guardCount m g = ({ g with kind := m.kind, seen := m.kind, count := 3, miss := 0 }, true)) ∧
    (g.kind = 0 → m.kind = 0 ∨ c < 3 → guardCount m g = ({ g with seen := m.kind, count := min c 3, miss := 0 }, false)) ∧
    (g.kind ≠ 0 → 3 ≤ x → guardCount m g = ({ g with kind := if 3 ≤ c then m.kind else 0, seen := m.kind, count := min c 3, miss := 0 }, true)) ∧
    (g.kind ≠ 0 → x < 3 → guardCount m g = ({ g with seen := m.kind, count := min c 3, miss := x }, false))) ∧
  (∀ n s, let off (t : Option Nat) : State := { s with fio := { s.fio with offAt := tset noTime n t s.fio.offAt } }
    let faulty := (guardPin s (n + 10)).kind ≠ 0
    (s.fio.dir.getLsbD n = false → driverGuard n s = off none) ∧
    (s.fio.dir.getLsbD n = true → tget noTime s.fio.offAt n = none → faulty → driverGuard n s = off (some s.clk.now)) ∧
    (n < 16 → ∀ t, tget noTime s.fio.offAt n = some t → (s.clk.now < t + 100000000 → guardRetry (n + 10) s = s) ∧
      (t + 100000000 ≤ s.clk.now → (¬ faulty → guardRetry (n + 10) s = off none) ∧ (faulty → guardRetry (n + 10) s = off (some s.clk.now))))) ∧
  (∀ h, (pairReversed (.duty h) = some true ↔ 7500 ≤ h) ∧ (pairReversed (.duty h) = some false ↔ h ≤ 2500)) ∧
  (∀ g a s, (running s = false → exec (.ioInputSample g a) s = .next s) ∧
    (running s = true →
      let lv (n : Nat) := if n < 16 then g.level.getLsbD n else a.level.getLsbD (n - 16)
      let out (n : Nat) := if n < 16 then g.out.getLsbD n else a.out.getLsbD (n - 16)
      let r := (List.range 20).foldl (fun sc n => ioSample lv out n sc) (s, [])
      exec (.ioInputSample g a) s = .next (r.2.foldl (fun s n => ioEvent n s) r.1))) ∧
  (∀ lv out n s l, let held := (n < 16 ∧ s.fio.dir.getLsbD n = true) ∨ (guardPin s (n + 10)).kind ≠ 0 ∨ out n = true
    let c := if lv n = ioLevel s n then 0 else tget zeroN s.fio.cand n + 1
    let anew : State := { s with fio := { s.fio with cand := tset zeroN n 0 s.fio.cand } }
    (held → ioSample lv out n (s, l) = (anew, l)) ∧
    (¬ held → 3 ≤ c → ioSample lv out n (s, l) = (ioFlip n anew, l ++ [n])) ∧
    (¬ held → c < 3 → ioSample lv out n (s, l) = ({ s with fio := { s.fio with cand := tset zeroN n c s.fio.cand } }, l))) ∧
  (∀ i s, exec (.jtagInstruction i) s = .next { s with dev := { s.dev with jtag := if (i = .extest ∨ i = .extestPulse ∨ i = .extestTrain) ∧ s.dev.resetLow = false ∧ s.dev.resetDue = false then .bypass else i } }) ∧
  (∀ r c s, r < 4 → c < 16 →
    (running s = false ∨ s.dev.failover = true → exec (.descriptorRecheck r c) s = .next s) ∧
    (running s = true → s.dev.failover = false → exec (.descriptorRecheck r c) s = .next (if r = 3 then opRecheck c (jobRecheck r s) else jobRecheck r s))) ∧
  (∀ c s, (∀ o, s.keys.ops.find? (fun o => o.chan == c && o.st == 1) = some o → opRecheck c s = advanceOp o s) ∧ (s.keys.ops.find? (fun o => o.chan == c && o.st == 1) = none → opRecheck c s = s)) ∧
  (∀ r s, (job s r = none → jobRecheck r s = s) ∧ (∀ j, job s r = some j →
    (∀ a, j.work = .desc a → jobRecheck r s = if j.cls = 0x03 then resume r j (tribMapReach (jobPacket j) s) else resume r j (bodyConnLoad (jobPacket j) s)) ∧
    (∀ n a, j.work = .dumpWait n a → jobRecheck r s = dumpRecheck r j n a s) ∧
    ((∀ a, j.work ≠ .desc a) → (∀ n a, j.work ≠ .dumpWait n a) → jobRecheck r s = s))) ∧
  (∀ s, ftickOut s = true ↔ s.tick.outEn = true ∧ running s = true ∧ 0 < s.clk.ticks ∧ s.tick.failed < 2 ∧ s.clk.cyc = 0 ∧ s.clk.tickAt ≤ s.clk.now ∧ s.clk.now < s.clk.tickAt + ftickWidth s.clk.fc) ∧
  (∀ fc : Word, let i := fc.toNat % 64
    (i = 0 → ftickWidth fc = 3000) ∧ (0 < i → i ≤ 32 → ftickWidth fc = if (fc - BitVec.ofNat 32 i).getLsbD (32 - i) then 2000 else 1000) ∧ (32 < i → ftickWidth fc = 1000)) ∧
  (∀ d : Dev, (d.powered = false → vsaveSource d = .off) ∧
    (d.powered = true → (d.resetLow = true → vsaveSource d = .io18) ∧
      (d.resetLow = false → (d.mode = .save → vsaveSource d = .holdUp) ∧ (d.mode = .retention ∨ d.mode = .halt → vsaveSource d = .off) ∧
        (d.mode ∉ [.save, .retention, .halt] → vsaveSource d = .io18))) ∧
    (sspiPowered d = true ↔ vsaveSource d ≠ .off)) ∧
  (pam4 false false = 0 ∧ pam4 false true = 1 ∧ pam4 true true = 2 ∧ pam4 true false = 3 ∧ ∀ a b, pam4 (!a) b = 3 - pam4 a b)

/-- RESET_N, rail loss, boot, wake, the image poll and the end of boot act as chapter 16 says. Rests on 12_command_plane.md R324, 15_endurance_and_failover.md R418, 16_modes_boot_power.md R425, 16_modes_boot_power.md R430, 16_modes_boot_power.md R433, 16_modes_boot_power.md R434, 16_modes_boot_power.md R436, 16_modes_boot_power.md R437, 16_modes_boot_power.md R440, 16_modes_boot_power.md R441, 16_modes_boot_power.md R442. -/
def Obligations.BootRows : Prop :=
  (∀ s, s.dev.mode = .save → exec .resetAssert s = .next { s with dev := { s.dev with resetDue := true } }) ∧
  (∀ s, s.dev.mode ≠ .save → exec .resetAssert s = .next (resetAll (storeTorn s))) ∧
  (∀ s, let t := resetAll s
    t.io.irq = 0 ∧ t.io.mask = 0b11110 ∧ t.io.thresh = 1 ∧ t.io.holdoff = 0 ∧ t.io.lost = 0 ∧ t.dev.ready = false ∧ t.dev.resetLow = true ∧
    t.save.slot0 = s.save.slot0 ∧ t.save.slot1 = s.save.slot1 ∧ t.dev.retFlag = s.dev.retFlag ∧ t.dev.retRecord = s.dev.retRecord ∧ t.lanes = State.reset.lanes ∧ t.cnt = State.reset.cnt ∧ t.pending = s.pending ∧
    (s.dev.retFlag = true → t.conn.com = s.conn.com ∧ t.conn.blocks = s.conn.blocks ∧ t.conn.spares = s.conn.spares ∧ t.conn.bad = s.conn.bad ∧ t.mem.repairs = s.mem.repairs ∧ t.wm = s.wm) ∧
    (s.dev.retFlag = true → s.dev.mode = .retention → t.dev.mode = .retention) ∧ (s.dev.retFlag = false ∨ s.dev.mode ≠ .retention → t.dev.mode = .boot)) ∧
  (∀ s, let job := findJob s (fun j => j.work = .saveTest 1)
    let k := draw 0x154180 s
    (job = none → s.save.saving = none → storeTorn s = s) ∧ (job ≠ none → storeTorn s = tornWrite s) ∧
    (∀ l c f n, s.save.saving = some (l, c, true, f, n) → storeTorn s = tornWrite s) ∧
    (k.1 % 2 = 0 → tornWrite s = k.2) ∧
    (k.1 % 2 ≠ 0 → (∃ f, newestFlacon s.save = some (0, f)) → tornWrite s = { k.2 with save := { k.2.save with slot1 := none } }) ∧
    (k.1 % 2 ≠ 0 → (¬ ∃ f, newestFlacon s.save = some (0, f)) → tornWrite s = { k.2 with save := { k.2.save with slot0 := none } })) ∧
  (∀ r s, (s.dev.mode = .retention → r ∈ [.vddCore, .vddEdge, .vddaLn, .vddhLn] → ∃ t, exec (.railLoss r) s = .next t ∧ t.dev.railsOff = true ∧ t.dev.retFlag = s.dev.retFlag ∧ t.dev.retRecord = s.dev.retRecord ∧
      (s.dev.retFlag = true → t.dev.mode = .retention ∧ t.wm = s.wm ∧ t.conn.com = s.conn.com ∧ t.conn.blocks = s.conn.blocks ∧ t.mem.repairs = s.mem.repairs) ∧ t.keys = Keys.reset) ∧
    (s.dev.mode = .save → exec (.railLoss r) s = .next s) ∧
    (s.dev.mode ≠ .save → r = .vddRet → exec (.railLoss r) s = .next (powerOff false s)) ∧
    (s.dev.mode ≠ .retention → s.dev.mode ≠ .save → r ≠ .vddRet → exec (.railLoss r) s = .next (powerOff true s)) ∧
    (powerOff true s).dev.powered = false ∧ (powerOff false s).dev.retFlag = false ∧ (powerOff false s).dev.retRecord = none) ∧
  (∀ i s, (s.dev.resetLow = false ∨ (s.dev.retFlag = true ∧ i.bootMode.getLsbD 2 = false) → exec (.bootStart i) s = .next s) ∧
    (s.dev.resetLow = true → s.dev.retFlag = false ∨ i.bootMode.getLsbD 2 = true → exec (.bootStart i) s = .next (start false i s)) ∧
    (s.dev.resetLow = false ∨ s.dev.retFlag = false → exec (.wakeStart i) s = .next s) ∧
    (s.dev.resetLow = true → s.dev.retFlag = true → exec (.wakeStart i) s = .next (start (!i.bootMode.getLsbD 2 && s.dev.retRecord.isSome && i.recOk) i s))) ∧
  (∀ w i s, let m := if w then Mode.retention else Mode.boot
    let s1 := { s with dev := { s.dev with mode := m, resetLow := false, bootInp := some i, bootAt := s.clk.now, woke := w, prevMode := 0, retFlag := w && s.dev.retFlag, railsOff := false, powered := true, jtag := jtagSelect false s.dev.jtag }, mem := if w then s.mem else Mem.reset, wm := if w then s.wm else [] }
    let k := draw 0x0B0300 (if w then s1 else connMarch i.connBad s1)
    start w i s = bootSteps i (raise 0x01 0x10 0 (wd (modeCode m)) false { k.2 with keys := { k.2.keys with kek := k.1 % 2 ^ 256 } })) ∧
  (∀ i s, let anyCp := i.cpAOk || i.cpBOk || i.cpSOk
    (anyCp = false → bootSteps i s = bootFail 0x20 s) ∧
    (anyCp = true → i.fuseOk = false → bootSteps i s = bootFail 0x01 s) ∧
    (anyCp = true → i.fuseOk = true → i.xoOk = false → bootSteps i s = bootFail 0x02 s) ∧
    (anyCp = true → i.fuseOk = true → i.xoOk = true → i.coreOk = false → bootSteps i s = bootFail 0x03 s) ∧
    (anyCp = true → i.fuseOk = true → i.xoOk = true → i.coreOk = true → bootSteps i s = bootImage i ((List.range 4).foldl (fun s e => if i.badDies.getLsbD e then fenceDie e 7 s else s) (bootRepairs i s))) ∧
    (∀ f, s.dev.woke = false → i.storeOk = true → (newestFlacon s.save).map (·.2) = some f → bootRepairs i s = { s with mem := { s.mem with repairs := f.repairs } }) ∧
    (s.dev.woke = true ∨ i.storeOk = false ∨ newestFlacon s.save = none → bootRepairs i s = s) ∧
    (i.bootMode.toNat % 4 = 1 → bootImage i s = bootPoll 0 s) ∧
    (i.bootMode.toNat % 4 = 3 → bootImage i s = bootFail 0x04 s) ∧
    (i.spiOk = false → i.bootMode.toNat % 4 = 0 → bootImage i s = bootFail 0x10 s) ∧
    (i.spiOk = false → i.bootMode.toNat % 4 = 2 → bootImage i s = bootPoll 0x10 s) ∧
    (∀ src v, i.bootMode.toNat % 2 = 0 → spiImage i = .inl (src, v) → bootImage i s = bootRun i src v (recordRefusals i s))) ∧
  (∀ c s, (bootFail c s).dev.mode = .halt ∧ (bootFail c s).dev.bootErr = c ∧ (bootFail c s).dev.ready = false) ∧
  (∀ s, s.dev.bootInp = none ∨ s.dev.bootPhase ≠ 1 ∨ s.clk.now < s.dev.pollAt + 10000 → exec .bootImagePoll s = .next s) ∧
  (∀ s i, s.dev.bootInp = some i → s.dev.bootPhase = 1 → s.dev.pollAt + 10000 ≤ s.clk.now →
    (let d := readDesc s 0x6FFFF0
     let s1 := { s with dev := { s.dev with pollAt := s.clk.now } }
     let img := wmGet s1 d.addr d.len
     let code := if d.bad = false ∧ d.last = true ∧ (crc32c img).toNat = d.dcrc then imageStatus img else 0x11
     (d.own = false → exec .bootImagePoll s = .next s1) ∧
     (d.own = true → code = 0 → exec .bootImagePoll s = .next (bootRun i 2 (imageVersion img) (handBack 0x6FFFF0 s1))) ∧
     (d.own = true → code ≠ 0 → ∃ t, exec .bootImagePoll s = .next { t with dev := { t.dev with bootErr := code } } ∧ t = handBack 0x6FFFF0 s1))) ∧
  (∀ s, ((s.dev.bootPhase ≠ 2 ∧ s.dev.bootPhase ≠ 3) ∨ (s.dev.mode ≠ .boot ∧ s.dev.mode ≠ .retention) → exec .bootComplete s = .next s) ∧
    (s.dev.bootPhase = 2 ∨ s.dev.bootPhase = 3 → s.dev.mode = .boot ∨ s.dev.mode = .retention → ∃ t, exec .bootComplete s = .next t ∧ t.wm = [] ∧ t.mem = { Mem.reset with repairs := s.mem.repairs, passAt := s.clk.now, bgAt := s.clk.now } ∧ t.evt.syncs = [] ∧ t.dev.ready = true ∧ t.dev.bootPhase = 4 ∧ t.keys = { Keys.reset with kek := s.keys.kek, alarm := s.keys.alarm } ∧
      (s.dev.woke = true → t.dev.mode = .maintenance) ∧ (s.dev.woke = false → (∃ e < 4, fenceCause s e ≠ 0) → t.dev.mode = .contained) ∧
      (s.dev.woke = false → (∀ e < 4, fenceCause s e = 0) → t.dev.mode = .commissioning)))
end

