-- ==== Sys2Proof/Laws/Table.lean ====
section
/-! SUPPORT. What the named operations on tables do, and that they keep the canonical form. -/

namespace Sys2Proof.Machine

variable {α : Type}

theorem tblWf_mono [DecidableEq α] {d : Nat → α} {lo lo' : Nat} (h : lo' ≤ lo) :
    ∀ {t : Tbl α}, tblWf d lo t = true → tblWf d lo' t = true
  | [], _ => rfl
  | (j, v) :: t, ht => by
    simp only [tblWf, Bool.and_eq_true, decide_eq_true_eq] at ht ⊢
    exact ⟨⟨by omega, ht.1.2⟩, ht.2⟩

/-- A key below every listed one reads as the default. -/
theorem tget_below [DecidableEq α] {d : Nat → α} {lo k : Nat} (h : k < lo) : ∀ {t : Tbl α}, tblWf d lo t = true → tget d t k = d k
  | [], _ => rfl
  | (j, v) :: t, ht => by
    simp only [tblWf, Bool.and_eq_true, decide_eq_true_eq] at ht
    simp [tget, show k ≠ j by omega, show k < j by omega]

theorem tdel_wf [DecidableEq α] {d : Nat → α} (k : Nat) : ∀ {lo : Nat} {t : Tbl α}, tblWf d lo t = true → tblWf d lo (tdel k t) = true
  | _, [], _ => rfl
  | lo, (j, v) :: t, ht => by
    simp only [tblWf, Bool.and_eq_true, decide_eq_true_eq] at ht
    unfold tdel
    split
    · exact tblWf_mono (by omega) ht.2
    · simp only [tblWf, Bool.and_eq_true, decide_eq_true_eq]
      exact ⟨ht.1, tdel_wf k ht.2⟩

theorem tput_wf [DecidableEq α] {d : Nat → α} {k : Nat} {v : α} (hv : v ≠ d k) :
    ∀ {lo : Nat} {t : Tbl α}, lo ≤ k → tblWf d lo t = true → tblWf d lo (tput k v t) = true
  | _, [], hk, _ => by simp [tput, tblWf, hk, hv]
  | lo, (j, w) :: t, hk, ht => by
    simp only [tblWf, Bool.and_eq_true, decide_eq_true_eq] at ht
    unfold tput
    split
    · simp only [tblWf, Bool.and_eq_true, decide_eq_true_eq]
      exact ⟨⟨hk, hv⟩, ⟨by omega, ht.1.2⟩, ht.2⟩
    · split
      · simp only [tblWf, Bool.and_eq_true, decide_eq_true_eq]
        subst_vars
        exact ⟨⟨hk, hv⟩, ht.2⟩
      · simp only [tblWf, Bool.and_eq_true, decide_eq_true_eq]
        exact ⟨ht.1, tput_wf hv (by omega) ht.2⟩

/-- A write keeps the canonical form. -/
theorem tset_wf [DecidableEq α] {d : Nat → α} {lo k : Nat} {v : α} {t : Tbl α} (hk : lo ≤ k) (ht : tblWf d lo t = true) :
    tblWf d lo (tset d k v t) = true := by
  unfold tset
  split
  · exact tdel_wf k ht
  · exact tput_wf (by assumption) hk ht

/-- Dropping entries keeps the canonical form. -/
theorem filter_wf [DecidableEq α] {d : Nat → α} (p : Nat × α → Bool) :
    ∀ {lo : Nat} {t : Tbl α}, tblWf d lo t = true → tblWf d lo (t.filter p) = true
  | _, [], _ => rfl
  | lo, (j, v) :: t, ht => by
    simp only [tblWf, Bool.and_eq_true, decide_eq_true_eq] at ht
    rw [List.filter_cons]
    split
    · simp only [tblWf, Bool.and_eq_true, decide_eq_true_eq]
      exact ⟨ht.1, filter_wf p ht.2⟩
    · exact filter_wf p (tblWf_mono (by omega) ht.2)

theorem tget_tdel [DecidableEq α] {d : Nat → α} (k : Nat) :
    ∀ {lo : Nat} {t : Tbl α}, tblWf d lo t = true → ∀ j, tget d (tdel k t) j = if j = k then d k else tget d t j
  | _, [], _, j => by
    by_cases h : j = k <;> simp [tdel, tget, h]
  | lo, (i, v) :: t, ht, j => by
    simp only [tblWf, Bool.and_eq_true, decide_eq_true_eq] at ht
    unfold tdel
    by_cases hik : k = i
    · subst hik
      rw [if_pos rfl]
      by_cases hj : j = k
      · subst hj; rw [if_pos rfl, tget_below (Nat.lt_succ_self _) ht.2]
      · rw [if_neg hj, tget, if_neg hj]
        split
        · rw [tget_below (by omega) ht.2]
        · rfl
    · rw [if_neg hik, tget, tget]
      by_cases hji : j = i
      · simp [hji, Ne.symm hik]
      · rw [if_neg hji, if_neg hji]
        by_cases hlt : j < i
        · rw [if_pos hlt, if_pos hlt]; by_cases hj : j = k <;> simp [hj]
        · rw [if_neg hlt, if_neg hlt]; exact tget_tdel k ht.2 j

theorem tget_tput [DecidableEq α] {d : Nat → α} (k : Nat) (v : α) :
    ∀ (t : Tbl α), ∀ j, tget d (tput k v t) j = if j = k then v else tget d t j
  | [], j => by
    by_cases h : j = k <;> simp [tput, tget, h]
  | (i, w) :: t, j => by
    unfold tput
    by_cases h1 : k < i
    · rw [if_pos h1, tget]
      by_cases hj : j = k
      · simp [hj]
      · rw [if_neg hj, if_neg hj]
        by_cases hlt : j < k
        · rw [if_pos hlt, tget, if_neg (by omega), if_pos (by omega)]
        · rw [if_neg hlt]
    · rw [if_neg h1]
      by_cases h2 : k = i
      · subst h2
        rw [if_pos rfl, tget, tget]
        by_cases hj : j = k
        · simp [hj]
        · simp [hj]
      · rw [if_neg h2, tget, tget]
        by_cases hji : j = i
        · simp [hji, Ne.symm h2]
        · rw [if_neg hji, if_neg hji]
          by_cases hlt : j < i
          · rw [if_pos hlt, if_pos hlt, if_neg (by omega)]
          · rw [if_neg hlt, if_neg hlt]; exact tget_tput k v t j

/-- What a table reads after a write. -/
theorem tget_tset [DecidableEq α] {d : Nat → α} {lo k : Nat} {v : α} {t : Tbl α} (ht : tblWf d lo t = true) (j : Nat) :
    tget d (tset d k v t) j = if j = k then v else tget d t j := by
  unfold tset
  split
  · rw [tget_tdel k ht]; split <;> simp_all
  · exact tget_tput k v t j

theorem mem_tdel {x : Nat × α} {k : Nat} : ∀ {t : Tbl α}, x ∈ tdel k t → x ∈ t
  | [], h => h
  | (j, v) :: t, h => by
    unfold tdel at h
    split at h
    · exact List.mem_cons_of_mem _ h
    · rcases List.mem_cons.1 h with h | h
      · exact h ▸ List.mem_cons_self
      · exact List.mem_cons_of_mem _ (mem_tdel h)

theorem mem_tput {x : Nat × α} {k : Nat} {v : α} : ∀ {t : Tbl α}, x ∈ tput k v t → x = (k, v) ∨ x ∈ t
  | [], h => .inl (by simpa [tput] using h)
  | (j, w) :: t, h => by
    unfold tput at h
    split at h
    · rcases List.mem_cons.1 h with h | h
      · exact .inl h
      · exact .inr h
    · split at h
      · rcases List.mem_cons.1 h with h | h
        · exact .inl h
        · exact .inr (List.mem_cons_of_mem _ h)
      · rcases List.mem_cons.1 h with h | h
        · exact .inr (h ▸ List.mem_cons_self)
        · exact (mem_tput h).imp_right (List.mem_cons_of_mem _)

/-- Every entry of a written table is the one written or was there before. -/
theorem mem_tset [DecidableEq α] {d : Nat → α} {x : Nat × α} {k : Nat} {v : α} {t : Tbl α} (h : x ∈ tset d k v t) :
    x = (k, v) ∨ x ∈ t := by
  unfold tset at h
  split at h
  · exact .inr (mem_tdel h)
  · exact mem_tput h

/-! ## Settings by cycle (02 R53) -/

/-- Letting go of what no cycle from `m` on can use changes nothing for those cycles. -/
theorem verAt_verKeep {α : Type} {d : α} {m n : Nat} (h : m ≤ n) : ∀ l : List (Nat × α), verAt d n (verKeep m l) = verAt d n l
  | [] => rfl
  | (k, v) :: t => by
    by_cases hk : k ≤ m
    · simp [verKeep, verAt, hk, show k ≤ n by omega]
    · by_cases hn : k ≤ n <;> simp [verKeep, verAt, hk, hn, verAt_verKeep h t]

/-- Writes for other cycles than `k` decide what governs an earlier cycle. -/
theorem verAt_filter {α : Type} {d : α} {k n : Nat} (h : n < k) :
    ∀ l : List (Nat × α), verAt d n (l.filter (fun x => decide (x.1 ≠ k))) = verAt d n l
  | [] => rfl
  | (i, v) :: t => by
    have ih := verAt_filter (d := d) h t
    by_cases hi : i = k
    · rw [List.filter_cons_of_neg (by simpa using hi), ih, verAt, if_neg (by omega)]
    · rw [List.filter_cons_of_pos (by simpa using hi), verAt, verAt, ih]

/-- A write for cycle `k` governs from `k` on, and leaves every cycle before it, back to 100 cycles ago, as it was. -/
theorem verAt_verPut {α : Type} {d v : α} {now k : Nat} (l : List (Nat × α)) (n : Nat) :
    (k ≤ n → verAt d n (verPut now k v l) = v) ∧ (n < k → now ≤ n + 100 → verAt d n (verPut now k v l) = verAt d n l) := by
  refine ⟨fun h => by simp [verPut, verAt, h], fun h h2 => ?_⟩
  rw [verPut, verAt, if_neg (by omega), verAt_verKeep (by omega), verAt_filter h]

end Sys2Proof.Machine
end

