-- ==== Sys2Proof/Laws/Memory.lean ====
section
/-! SUPPORT. The Window Memory: canonical form, and what a read gives after a write (13 R350; 12 R325). -/

namespace Sys2Proof.Machine

theorem memWrite_wf {m : List Host.Cell} (h : Memory.wf m = true) (a : Nat) (b : Byte) : Memory.wf (memWrite m a b) = true :=
  tset_wf (Nat.zero_le _) h

theorem writeBytes_wf : ∀ (bs : List Byte) {m : List Host.Cell} (a : Nat), Memory.wf m = true → Memory.wf (writeBytes m a bs) = true
  | [], _, _, h => h
  | b :: bs, _, a, h => writeBytes_wf bs (a + 1) (memWrite_wf h a b)

theorem memFilter_wf {m : List Host.Cell} (h : Memory.wf m = true) (p : Host.Cell → Bool) : Memory.wf (m.filter p) = true :=
  filter_wf p h

theorem memRead_memWrite {m : List Host.Cell} (h : Memory.wf m = true) (a : Nat) (b : Byte) (c : Nat) :
    memRead (memWrite m a b) c = if c = a then b else memRead m c :=
  tget_tset h c

/-- A write of bytes leaves every address outside them as it was. -/
theorem memRead_writeBytes_outside : ∀ (bs : List Byte) {m : List Host.Cell} (a c : Nat), Memory.wf m = true →
    (c < a ∨ a + bs.length ≤ c) → memRead (writeBytes m a bs) c = memRead m c
  | [], _, _, _, _, _ => rfl
  | b :: bs, m, a, c, h, hc => by
    simp only [List.length_cons] at hc
    rw [writeBytes, memRead_writeBytes_outside bs (a + 1) c (memWrite_wf h a b) (by omega), memRead_memWrite h, if_neg (by omega)]

/-- A read of a written byte gives it. -/
theorem memRead_writeBytes_inside : ∀ (bs : List Byte) {m : List Host.Cell} (a i : Nat) (hi : i < bs.length), Memory.wf m = true →
    memRead (writeBytes m a bs) (a + i) = bs[i]
  | b :: bs, m, a, 0, _, h => by
    rw [writeBytes, memRead_writeBytes_outside bs (a + 1) _ (memWrite_wf h a b) (by omega), memRead_memWrite h]
    simp
  | b :: bs, m, a, i + 1, hi, h => by
    have := memRead_writeBytes_inside bs (a + 1) i (by simpa using hi) (memWrite_wf h a b)
    rw [writeBytes, show a + (i + 1) = a + 1 + i by omega, this]
    rfl

theorem readBytes_length (m : List Host.Cell) : ∀ (a n : Nat), (readBytes m a n).length = n
  | _, 0 => rfl
  | a, n + 1 => by rw [readBytes, List.length_cons, readBytes_length]

/-- Reading back what was written. -/
theorem readBytes_writeBytes : ∀ (bs : List Byte) {m : List Host.Cell} (a : Nat), Memory.wf m = true →
    readBytes (writeBytes m a bs) a bs.length = bs := by
  intro bs m a h
  apply List.ext_getElem (readBytes_length _ _ _)
  intro i h1 h2
  have key : ∀ (n : Nat) (m : List Host.Cell) (a i : Nat) (hi : i < (readBytes m a n).length), (readBytes m a n)[i] = memRead m (a + i) := by
    intro n
    induction n with
    | zero => intro m a i hi; simp [readBytes] at hi
    | succ n ih =>
      intro m a i hi
      cases i with
      | zero => rfl
      | succ i => simp only [readBytes, List.getElem_cons_succ]; rw [ih m (a + 1) i]; congr 1; omega
  rw [key]
  exact memRead_writeBytes_inside bs a i h2 h

theorem writeTested_wf (t : Option (Nat × Nat)) (c : Nat) : ∀ (bs : List Byte) {m : List Host.Cell} (a : Nat), Memory.wf m = true →
    Memory.wf (writeTested t c m a bs) = true
  | [], _, _, h => h
  | b :: bs, m, a, h => writeTested_wf t c bs (a + 1) (by split <;> [exact h; exact memWrite_wf h a b])

theorem putBytes_wf (t : Option (Nat × Nat)) (c : Nat) (bs : List Byte) {m : List Host.Cell} (a : Nat) (h : Memory.wf m = true) :
    Memory.wf (putBytes t c m a bs) = true := by
  unfold putBytes
  split <;> [exact writeBytes_wf bs a h; exact writeTested_wf _ c bs a h]

theorem testedAt_none (a : Nat) : testedAt none a = false := rfl

/-- A write outside a destructive test's stripes stores its bytes (13 R360). -/
theorem putBytes_untested {t : Option (Nat × Nat)} {c : Nat} : ∀ (bs : List Byte) {m : List Host.Cell} (a : Nat),
    (∀ i, i < bs.length → testedAt t (a + i) = false) → putBytes t c m a bs = writeBytes m a bs := by
  cases t with
  | none => intro bs m a _; rfl
  | some t =>
    intro bs
    induction bs with
    | nil => intro m a _; rfl
    | cons b bs ih =>
      intro m a h
      have h0 : testedAt (some t) a = false := h 0 (Nat.zero_lt_succ _)
      have hs := ih (m := memWrite m a b) (a + 1) fun i hi => by
        have := h (i + 1) (by simpa using hi)
        rwa [Nat.add_assoc, Nat.add_comm 1]
      simpa [putBytes, writeTested, writeBytes, h0] using hs

/-- A write by the device leaves every address outside its bytes as it was, whatever a destructive test takes of it (13 R360). -/
theorem memRead_putBytes_outside (t : Option (Nat × Nat)) (k : Nat) : ∀ (bs : List Byte) {m : List Host.Cell} (a c : Nat), Memory.wf m = true →
    (c < a ∨ a + bs.length ≤ c) → memRead (putBytes t k m a bs) c = memRead m c := by
  cases t with
  | none => exact memRead_writeBytes_outside
  | some t =>
    intro bs
    induction bs with
    | nil => intro m a c _ _; rfl
    | cons b bs ih =>
      intro m a c h hc
      simp only [List.length_cons] at hc
      change memRead (writeTested (some t) k (if _ then m else memWrite m a b) (a + 1) bs) c = _
      split
      · exact ih (a + 1) c h (by omega)
      · refine (ih (a + 1) c (memWrite_wf h a b) (by omega)).trans ?_
        rw [memRead_memWrite h, if_neg (by omega)]

/-- With no destructive test running, the device reads and writes the bytes themselves (13 R360). -/
theorem wmGet_plain {s : State} (h : s.mem.testing = none) (a n : Nat) : wmGet s a n = readBytes s.wm a n := by
  simp only [wmGet, h]

theorem wmPut_plain {s : State} (h : s.mem.testing = none) (a : Nat) (bs : List Byte) :
    wmPut a bs s = { s with wm := writeBytes s.wm a bs } := by
  simp only [wmPut, h, putBytes]

theorem reset_wm_wf : Memory.wf State.reset.wm = true := rfl

end Sys2Proof.Machine
end

