-- ==== Sys2Proof/Laws/Aes.lean ====
section
/-! SUPPORT. The AES cipher and AES key wrap are undone by their inverses (11 R301, R306). -/

namespace Sys2Proof.Laws

open Sys2Proof.Machine

/-- Folding with steps that undo those of another fold, in reverse order, gives the start back. -/
theorem fold_undo {σ τ : Type} {f g : σ → τ → σ} {Inv : σ → Prop} {P : τ → Prop}
    (h : ∀ s t, P t → Inv s → Inv (f s t) ∧ g (f s t) t = s) :
    ∀ (l : List τ) (s : σ), (∀ t ∈ l, P t) → Inv s → Inv (l.foldl f s) ∧ l.reverse.foldl g (l.foldl f s) = s
  | [], _, _, hs => ⟨hs, rfl⟩
  | t :: l, s, hl, hs => by
    have ht := h s t (hl t (by simp)) hs
    have := fold_undo h l (f s t) (fun x hx => hl x (by simp [hx])) ht.1
    refine ⟨this.1, ?_⟩
    simp only [List.reverse_cons, List.foldl_append, List.foldl_cons, List.foldl_nil]
    rw [this.2, ht.2]

theorem xorBytes_cancel : ∀ {a k : List Byte}, a.length ≤ k.length → xorBytes (xorBytes a k) k = a
  | [], _, _ => by simp [xorBytes]
  | x :: a, [], h => by simp at h
  | x :: a, y :: k, h => by
    have := @xorBytes_cancel a k (by simpa using h)
    simp only [xorBytes, List.zipWith_cons_cons] at *
    rw [this]; simp

theorem xorBytes_length (a k : List Byte) : (xorBytes a k).length = min a.length k.length := by simp [xorBytes]

theorem inv_sub (a : Byte) : invSubByte (subByte a) = a := by
  have : ∀ n : Fin 256, invSubByte (subByte (BitVec.ofFin n)) = BitVec.ofFin n := by decide +kernel
  exact this a.toFin

theorem inv_shift (b : List Byte) (h : b.length = 16) : invShiftRows (shiftRows b) = b := by
  match b, h with
  | [a, b, c, d, e, f, g, h, i, j, k, l, m, n, o, p], _ => rfl

/-- The byte step and the row shift, and what undoes them. -/
theorem layer_undo (b : List Byte) (h : b.length = 16) : (invShiftRows (shiftRows (b.map subByte))).map invSubByte = b := by
  rw [inv_shift _ (by simpa using h), List.map_map]
  exact (List.map_congr_left (fun x _ => inv_sub x)).trans (List.map_id b)

theorem g8X_xor (a b : Byte) : g8X (a ^^^ b) = g8X a ^^^ g8X b := by
  have h : ∀ c : Byte, g8X c = (c <<< 1) ^^^ (if c.msb then 0x1B else 0) := by intro c; unfold g8X; split <;> simp
  rw [h, h, h, BitVec.msb_xor, BitVec.shiftLeft_xor_distrib]
  have hx : (if (a.msb ^^ b.msb) = true then (0x1B : Byte) else 0) = (if a.msb then 0x1B else 0) ^^^ (if b.msb then 0x1B else 0) := by
    cases a.msb <;> cases b.msb <;> decide
  rw [hx]; ac_rfl

theorem g8MulN_xor (a : Byte) : ∀ (n : Nat) (b c : Byte), g8MulN a (b ^^^ c) n = g8MulN a b n ^^^ g8MulN a c n
  | 0, _, _ => by simp [g8MulN]
  | n + 1, b, c => by
    have hx : (if (b ^^^ c).getLsbD 0 = true then a else 0) = (if b.getLsbD 0 then a else 0) ^^^ (if c.getLsbD 0 then a else 0) := by
      rw [BitVec.getLsbD_xor]; cases b.getLsbD 0 <;> cases c.getLsbD 0 <;> simp
    rw [g8MulN, BitVec.ushiftRight_xor_distrib, g8MulN_xor a n, g8X_xor, hx, g8MulN, g8MulN]
    ac_rfl

theorem g8Mul_xor (a b c : Byte) : g8Mul a (b ^^^ c) = g8Mul a b ^^^ g8Mul a c := g8MulN_xor a 8 b c

/-- The four sums of products of the two circulant matrices. -/
theorem circ (x : Byte) :
    (g8Mul 14 (g8Mul 2 x) ^^^ g8Mul 11 (g8Mul 1 x) ^^^ g8Mul 13 (g8Mul 1 x) ^^^ g8Mul 9 (g8Mul 3 x) = x) ∧
    (g8Mul 14 (g8Mul 3 x) ^^^ g8Mul 11 (g8Mul 2 x) ^^^ g8Mul 13 (g8Mul 1 x) ^^^ g8Mul 9 (g8Mul 1 x) = 0) ∧
    (g8Mul 14 (g8Mul 1 x) ^^^ g8Mul 11 (g8Mul 3 x) ^^^ g8Mul 13 (g8Mul 2 x) ^^^ g8Mul 9 (g8Mul 1 x) = 0) ∧
    (g8Mul 14 (g8Mul 1 x) ^^^ g8Mul 11 (g8Mul 1 x) ^^^ g8Mul 13 (g8Mul 3 x) ^^^ g8Mul 9 (g8Mul 2 x) = 0) := by
  have : ∀ n : Fin 256, let x : Byte := BitVec.ofFin n
    (g8Mul 14 (g8Mul 2 x) ^^^ g8Mul 11 (g8Mul 1 x) ^^^ g8Mul 13 (g8Mul 1 x) ^^^ g8Mul 9 (g8Mul 3 x) = x) ∧
    (g8Mul 14 (g8Mul 3 x) ^^^ g8Mul 11 (g8Mul 2 x) ^^^ g8Mul 13 (g8Mul 1 x) ^^^ g8Mul 9 (g8Mul 1 x) = 0) ∧
    (g8Mul 14 (g8Mul 1 x) ^^^ g8Mul 11 (g8Mul 3 x) ^^^ g8Mul 13 (g8Mul 2 x) ^^^ g8Mul 9 (g8Mul 1 x) = 0) ∧
    (g8Mul 14 (g8Mul 1 x) ^^^ g8Mul 11 (g8Mul 1 x) ^^^ g8Mul 13 (g8Mul 3 x) ^^^ g8Mul 9 (g8Mul 2 x) = 0) := by decide +kernel
  exact this x.toFin

theorem mixCol_four (m0 m1 m2 m3 a b c d : Byte) : mixCol [m0, m1, m2, m3] [a, b, c, d] =
    [g8Mul m0 a ^^^ g8Mul m1 b ^^^ g8Mul m2 c ^^^ g8Mul m3 d, g8Mul m3 a ^^^ g8Mul m0 b ^^^ g8Mul m1 c ^^^ g8Mul m2 d,
     g8Mul m2 a ^^^ g8Mul m3 b ^^^ g8Mul m0 c ^^^ g8Mul m1 d, g8Mul m1 a ^^^ g8Mul m2 b ^^^ g8Mul m3 c ^^^ g8Mul m0 d] := by
  have h : mixCol [m0, m1, m2, m3] [a, b, c, d] =
    [0 ^^^ g8Mul m0 a ^^^ g8Mul m1 b ^^^ g8Mul m2 c ^^^ g8Mul m3 d, 0 ^^^ g8Mul m3 a ^^^ g8Mul m0 b ^^^ g8Mul m1 c ^^^ g8Mul m2 d,
     0 ^^^ g8Mul m2 a ^^^ g8Mul m3 b ^^^ g8Mul m0 c ^^^ g8Mul m1 d, 0 ^^^ g8Mul m1 a ^^^ g8Mul m2 b ^^^ g8Mul m3 c ^^^ g8Mul m0 d] := rfl
  simpa using h

theorem inv_mixCol (a b c d : Byte) : mixCol [14, 11, 13, 9] (mixCol [2, 3, 1, 1] [a, b, c, d]) = [a, b, c, d] := by
  rw [mixCol_four, mixCol_four]
  simp only [g8Mul_xor]
  obtain ⟨a0, a1, a2, a3⟩ := circ a
  obtain ⟨b0, b1, b2, b3⟩ := circ b
  obtain ⟨c0, c1, c2, c3⟩ := circ c
  obtain ⟨d0, d1, d2, d3⟩ := circ d
  have key : ∀ {x0 x1 x2 x3 y0 y1 y2 y3 z0 z1 z2 z3 w0 w1 w2 w3 x y z w : Byte},
      x0 ^^^ x1 ^^^ x2 ^^^ x3 = x → y0 ^^^ y1 ^^^ y2 ^^^ y3 = y → z0 ^^^ z1 ^^^ z2 ^^^ z3 = z → w0 ^^^ w1 ^^^ w2 ^^^ w3 = w →
      x0 ^^^ y0 ^^^ z0 ^^^ w0 ^^^ (x1 ^^^ y1 ^^^ z1 ^^^ w1) ^^^ (x2 ^^^ y2 ^^^ z2 ^^^ w2) ^^^ (x3 ^^^ y3 ^^^ z3 ^^^ w3) = x ^^^ y ^^^ z ^^^ w := by
    intro x0 x1 x2 x3 y0 y1 y2 y3 z0 z1 z2 z3 w0 w1 w2 w3 x y z w hx hy hz hw
    rw [← hx, ← hy, ← hz, ← hw]; ac_rfl
  have rot : ∀ {x0 x1 x2 x3 x : Byte}, x1 ^^^ x2 ^^^ x3 ^^^ x0 = x → x0 ^^^ x1 ^^^ x2 ^^^ x3 = x := by
    intro x0 x1 x2 x3 x h; rw [← h]; ac_rfl
  rw [key a0 b1 c2 d3, key (rot a3) (rot b0) (rot c1) (rot d2), key (rot (rot a2)) (rot (rot b3)) (rot (rot c0)) (rot (rot d1)),
    key (rot (rot (rot a1))) (rot (rot (rot b2))) (rot (rot (rot c3))) (rot (rot (rot d0)))]
  simp

theorem inv_mix (b : List Byte) (h : b.length = 16) : invMixColumns (mixColumns b) = b := by
  match b, h with
  | [a, b, c, d, e, f, g, h, i, j, k, l, m, n, o, p], _ =>
    have e : mixColumns [a, b, c, d, e, f, g, h, i, j, k, l, m, n, o, p] = mixCol [2, 3, 1, 1] [a, b, c, d] ++ (mixCol [2, 3, 1, 1] [e, f, g, h] ++
        (mixCol [2, 3, 1, 1] [i, j, k, l] ++ mixCol [2, 3, 1, 1] [m, n, o, p])) := by simp [mixColumns, chunk]
    have u : ∀ w x y z : List Byte, w.length = 4 → x.length = 4 → y.length = 4 → z.length = 4 → invMixColumns (w ++ (x ++ (y ++ z))) =
        mixCol [14, 11, 13, 9] w ++ (mixCol [14, 11, 13, 9] x ++ (mixCol [14, 11, 13, 9] y ++ mixCol [14, 11, 13, 9] z)) := by
      intro w x y z hw hx hy hz
      match w, x, y, z, hw, hx, hy, hz with
      | [_, _, _, _], [_, _, _, _], [_, _, _, _], [_, _, _, _], _, _, _, _ => simp [invMixColumns, chunk]
    rw [e, u _ _ _ _ (by simp [mixCol]) (by simp [mixCol]) (by simp [mixCol]) (by simp [mixCol])]
    rw [inv_mixCol, inv_mixCol, inv_mixCol, inv_mixCol]; rfl

theorem mix_length (b : List Byte) : (mixColumns b).length = 16 := by simp [mixColumns, chunk, mixCol]
theorem shift_length (b : List Byte) : (shiftRows b).length = 16 := by simp [shiftRows]

/-- Round keys as a cipher takes them: of 16 bytes each, at least the first and the last. -/
abbrev RoundKeys (rk : List (List Byte)) : Prop := 2 ≤ rk.length ∧ ∀ k ∈ rk, k.length = 16

/-- The inverse cipher undoes the cipher. -/
theorem aesDecRk_enc {rk : List (List Byte)} (hk : RoundKeys rk) {b : List Byte} (hb : b.length = 16) : aesDecRk rk (aesEncRk rk b) = b := by
  obtain ⟨h2, hk⟩ := hk
  match rk, h2, hk with
  | k0 :: t, h2, hk =>
    have ht : t ≠ [] := by intro h; subst h; simp at h2
    obtain ⟨mid, kl, rfl⟩ : ∃ mid kl, t = mid ++ [kl] := ⟨t.dropLast, t.getLast ht, (List.dropLast_append_getLast ht).symm⟩
    have h0 : k0.length = 16 := hk k0 (by simp)
    have hl : kl.length = 16 := hk kl (by simp)
    have hm : ∀ k ∈ mid, k.length = 16 := fun k hx => hk k (by simp [hx])
    let lay (x : List Byte) : List Byte := shiftRows (x.map subByte)
    let f (y k : List Byte) : List Byte := lay (xorBytes (mixColumns y) k)
    let g (y k : List Byte) : List Byte := invMixColumns (xorBytes ((invShiftRows y).map invSubByte) k)
    have hf : ∀ (l : List (List Byte)) (x : List Byte), lay (l.foldl encRound x) = l.foldl f (lay x) := by
      intro l; induction l with
      | nil => intro x; rfl
      | cons k l ih => intro x; simp only [List.foldl_cons]; rw [ih]; rfl
    have step : ∀ y k : List Byte, k.length = 16 → y.length = 16 → (f y k).length = 16 ∧ g (f y k) k = y := by
      intro y k hk' hy
      refine ⟨shift_length _, ?_⟩
      change invMixColumns (xorBytes ((invShiftRows (shiftRows ((xorBytes (mixColumns y) k).map subByte))).map invSubByte) k) = y
      rw [layer_undo _ (by rw [xorBytes_length, mix_length, hk']; rfl), xorBytes_cancel (by rw [mix_length, hk']), inv_mix _ hy]
    have hx0 : (xorBytes b k0).length = 16 := by rw [xorBytes_length, hb, h0]; rfl
    have hu := fold_undo (Inv := fun y => y.length = 16) (P := fun k => k.length = 16) (fun s t hp hi => step s t hp hi) mid (lay (xorBytes b k0)) hm (shift_length _)
    have he : aesEncRk (k0 :: (mid ++ [kl])) b = xorBytes (mid.foldl f (lay (xorBytes b k0))) kl := by
      rw [← hf, show (k0 :: (mid ++ [kl])) = (k0 :: mid) ++ [kl] from rfl]
      simp only [aesEncRk, lay, List.getLastD_concat]; simp
    have hd : ∀ c : List Byte, aesDecRk (k0 :: (mid ++ [kl])) c = xorBytes ((invShiftRows (mid.reverse.foldl g (xorBytes c kl))).map invSubByte) k0 := by
      intro c
      have hr : (k0 :: (mid ++ [kl])).reverse = (kl :: mid.reverse) ++ [k0] := by simp
      simp only [aesDecRk, g, hr, List.getLastD_concat]; simp
    rw [he, hd, xorBytes_cancel (by rw [hu.1, hl]), hu.2, layer_undo _ hx0, xorBytes_cancel (by rw [hb, h0])]

theorem enc_length {rk : List (List Byte)} (hk : RoundKeys rk) (b : List Byte) : (aesEncRk rk b).length = 16 := by
  have : (rk.getLastD []).length = 16 := by
    obtain ⟨h2, hk⟩ := hk
    have hne : rk ≠ [] := by intro h; subst h; simp at h2
    rw [List.getLastD_eq_getLast?, List.getLast?_eq_getLast_of_ne_nil hne]
    exact hk _ (List.getLast_mem hne)
  simp only [aesEncRk]
  rw [xorBytes_length, shift_length, this]; rfl

theorem chunk_length (n : Nat) : ∀ (k : Nat) (l : List Byte), (chunk n k l).length = k
  | 0, _ => rfl
  | k + 1, l => by simp [chunk, chunk_length n k]

theorem chunk_sizes (n : Nat) : ∀ (k : Nat) (l : List Byte), l.length = n * k → (∀ c ∈ chunk n k l, c.length = n) ∧ (chunk n k l).flatten = l
  | 0, l, h => by
    have : l = [] := List.length_eq_zero_iff.1 (by simpa using h)
    simp [chunk, this]
  | k + 1, l, h => by
    have := chunk_sizes n k (l.drop n) (by rw [List.length_drop, h, Nat.mul_succ]; omega)
    refine ⟨?_, ?_⟩
    · intro c hc
      rcases List.mem_cons.1 hc with rfl | hc
      · rw [List.length_take, h, Nat.mul_succ]; omega
      · exact this.1 c hc
    · simp [chunk, this.2]

theorem chunk_flatten (n : Nat) : ∀ r : List (List Byte), (∀ c ∈ r, c.length = n) → chunk n r.length r.flatten = r
  | [], _ => rfl
  | c :: r, h => by
    have hc : c.length = n := h c (by simp)
    have := chunk_flatten n r (fun x hx => h x (by simp [hx]))
    simp only [List.length_cons, chunk, List.flatten_cons]
    rw [List.take_append_of_le_length (by omega), ← hc, List.take_length, List.drop_left]
    rw [hc, this]

theorem flatten_length (n : Nat) : ∀ r : List (List Byte), (∀ c ∈ r, c.length = n) → r.flatten.length = n * r.length
  | [], _ => rfl
  | c :: r, h => by
    rw [List.flatten_cons, List.length_append, flatten_length n r (fun x hx => h x (by simp [hx])), h c (by simp), List.length_cons, Nat.mul_succ, Nat.add_comm]

/-- The registers of a wrap of `n` blocks. -/
abbrev Wrapping (n : Nat) (ar : List Byte × List (List Byte)) : Prop := ar.1.length = 8 ∧ ar.2.length = n ∧ ∀ c ∈ ar.2, c.length = 8

theorem kwStep_undo {rk : List (List Byte)} (hk : RoundKeys rk) {n : Nat} (hn : 0 < n) (ar : List Byte × List (List Byte)) (t : Nat) (h : Wrapping n ar) :
    Wrapping n (kwStep rk n ar t) ∧ kwBack rk n (kwStep rk n ar t) t = ar := by
  obtain ⟨a, r⟩ := ar
  obtain ⟨ha, hr, hc⟩ := h
  simp only at ha hr hc
  have hi : t % n < r.length := by rw [hr]; exact Nat.mod_lt _ hn
  have hg : (r.getD (t % n) []).length = 8 := by
    rw [List.getD_eq_getElem _ _ hi]; exact hc _ (List.getElem_mem hi)
  have hb := enc_length hk (a ++ r.getD (t % n) [])
  have ht : ((aesEncRk rk (a ++ r.getD (t % n) [])).take 8).length = 8 := by rw [List.length_take, hb]; rfl
  have hbe : (beBytes 8 (t + 1)).length = 8 := by simp [beBytes, leBytes]
  refine ⟨⟨?_, ?_, ?_⟩, ?_⟩
  · simp only [kwStep]; rw [xorBytes_length, ht, hbe]; rfl
  · simp [kwStep, hr]
  · intro c h
    rcases List.mem_or_eq_of_mem_set h with h | rfl
    · exact hc c h
    · rw [List.length_drop, hb]
  · simp only [kwBack, kwStep]
    rw [xorBytes_cancel (by rw [ht, hbe])]
    rw [List.getD_eq_getElem (r.set _ _) _ (by simpa using hi), List.getElem_set_self, List.take_append_drop, aesDecRk_enc hk (by rw [List.length_append, ha, hg])]
    rw [List.take_append_of_le_length (by omega), ← ha, List.take_length, List.drop_left, List.set_set, List.getD_eq_getElem _ _ hi, List.set_getElem_self]

theorem kwWrap_length {key p : List Byte} {n : Nat} (hk : RoundKeys (roundKeys key)) (hn : 0 < n) (hp : p.length = 8 * n) :
    (kwWrap key p).length = 8 * n + 8 := by
  have hd : p.length / 8 = n := by omega
  obtain ⟨⟨ha, hr, hs⟩, -⟩ := fold_undo (Inv := Wrapping n) (P := fun _ => True) (fun s t _ hs => kwStep_undo hk hn s t hs) (List.range (6 * n))
    (List.replicate 8 0xA6, chunk 8 n p) (fun _ _ => trivial) ⟨by simp, chunk_length 8 n p, (chunk_sizes 8 n p hp).1⟩
  simp only [kwWrap, hd]
  rw [List.length_append, flatten_length 8 _ hs, ha, hr, Nat.add_comm]

/-- AES-KW unwraps what it wrapped. -/
theorem kwUnwrap_kwWrap {key p : List Byte} {n : Nat} (hk : RoundKeys (roundKeys key)) (hn : 0 < n) (hp : p.length = 8 * n) :
    kwUnwrap key (kwWrap key p) = some p := by
  have hd : p.length / 8 = n := by omega
  have hc := chunk_sizes 8 n p hp
  have h := fold_undo (Inv := Wrapping n) (P := fun _ => True) (fun s t _ hs => kwStep_undo hk hn s t hs) (List.range (6 * n)) (List.replicate 8 0xA6, chunk 8 n p)
    (fun _ _ => trivial) ⟨by simp, chunk_length 8 n p, hc.1⟩
  obtain ⟨⟨ha, hr, hs⟩, hu⟩ := h
  have hw : kwWrap key p = ((List.range (6 * n)).foldl (kwStep (roundKeys key) n) (List.replicate 8 0xA6, chunk 8 n p)).1 ++
      ((List.range (6 * n)).foldl (kwStep (roundKeys key) n) (List.replicate 8 0xA6, chunk 8 n p)).2.flatten := by simp only [kwWrap, hd]
  generalize hx : (List.range (6 * n)).foldl (kwStep (roundKeys key) n) (List.replicate 8 0xA6, chunk 8 n p) = x at *
  have hl : (x.1 ++ x.2.flatten).length / 8 - 1 = n := by rw [List.length_append, flatten_length 8 _ hs, ha, hr]; omega
  have e1 : (x.1 ++ x.2.flatten).take 8 = x.1 := by rw [List.take_append_of_le_length (by omega), ← ha, List.take_length]
  have e2 : chunk 8 n ((x.1 ++ x.2.flatten).drop 8) = x.2 := by rw [← ha, List.drop_left, ha, ← hr, chunk_flatten 8 _ hs]
  rw [hw]
  simp only [kwUnwrap]
  rw [hl, e1, e2, hu]
  simp [hc.2]

/-- The wrapped 128-bit key written at an address unwraps there (11 R301). -/
theorem unwrapAt_put {key p : List Byte} (hk : RoundKeys (roundKeys key)) (hp : p.length = 24) (a : Nat) (s : State) (ht : s.mem.testing = none)
    (hs : Memory.wf s.wm = true) : unwrapAt (wmPut a (kwWrap key p) s) key a = some p := by
  have hr := readBytes_writeBytes (kwWrap key p) (m := s.wm) a hs
  rw [kwWrap_length (n := 3) hk (by decide) hp] at hr
  have h : kwUnwrap key (wmGet (wmPut a (kwWrap key p) s) a 32) = some p := by
    rw [wmGet_plain (s := wmPut a (kwWrap key p) s) ht, wmPut_plain ht]
    change kwUnwrap key (readBytes (writeBytes s.wm a (kwWrap key p)) a (8 * 3 + 8)) = some p
    rw [hr, kwUnwrap_kwWrap (n := 3) hk (by decide) hp]
  unfold unwrapAt
  rw [h]

end Sys2Proof.Laws
end

