-- ==== Sys2Proof/Laws/Keeps.lean ====
section
/-! SUPPORT. What every operation keeps, said once: the queue, the fused ordering code, the time, and the parts of `Inv`. -/

namespace Sys2Proof.Machine

/-- The clock without FC, which ALIGN loads at a frame tick (02 R61), and the counter of free values. -/
def clockOf (c : Clk) : Nat × Nat × Nat × Nat := (c.ticks, c.cyc, c.now, c.tickAt)

/-- What no operation changes between a step's own clock and reset: `t` has the queue, ordering code and time of `s`, and is safe
where `s` is. -/
structure Keeps (s t : State) : Prop where
  queue : t.pending = s.pending
  ne    : t.dev.ne = s.dev.ne
  time  : clockOf t.clk = clockOf s.clk
  wm    : Memory.wf s.wm = true → Memory.wf t.wm = true
  rings : RingsOk s.io.rings → RingsOk t.io.rings
  evt   : EvtOk s.evt → EvtOk t.evt
  keys  : KeysOk s.keys → KeysOk t.keys

variable {s0 s t : State} {α β : Type}

theorem Keeps.refl (s : State) : Keeps s s := ⟨rfl, rfl, rfl, id, id, id, id⟩

theorem Keeps.trans {u : State} (h : Keeps s t) (k : Keeps t u) : Keeps s u :=
  ⟨k.queue.trans h.queue, k.ne.trans h.ne, k.time.trans h.time, k.wm ∘ h.wm, k.rings ∘ h.rings, k.evt ∘ h.evt, k.keys ∘ h.keys⟩

/-- An update of other fields, or of these in a way that does not matter here. -/
theorem Keeps.upd (h : Keeps s0 t) {pd clk dev tick evt io wm port lanes conn trib data keys prot cnt mem cp spare health fio save time}
    (h1 : pd = t.pending) (hk : (keys.sealS, keys.cmdS) = (t.keys.sealS, t.keys.cmdS)) (h2 : dev.ne = t.dev.ne) (h3 : clockOf clk = clockOf t.clk) (h4 : wm = t.wm) (h5 : io.rings = t.io.rings)
    (h6 : (evt.queue, evt.tail, evt.log) = (t.evt.queue, t.evt.tail, t.evt.log)) :
    Keeps s0 ⟨pd, clk, dev, tick, evt, io, wm, port, lanes, conn, trib, data, keys, prot, cnt, mem, cp, spare, health, fio, save, time⟩ := by
  simp only [Prod.mk.injEq] at h6 hk
  exact ⟨h1.trans h.queue, h2.trans h.ne, h3.trans h.time, fun w => h4 ▸ h.wm w, fun w => by simpa only [h5] using h.rings w,
    fun w => by simpa only [EvtOk, h6] using h.evt w,
    fun w => by simpa only [KeysOk, hk] using h.keys w⟩

/-- Like `upd`, with a new Window Memory in canonical form. -/
theorem Keeps.updWm (h : Keeps s0 t) {pd clk dev tick evt io wm port lanes conn trib data keys prot cnt mem cp spare health fio save time}
    (h1 : pd = t.pending) (hk : (keys.sealS, keys.cmdS) = (t.keys.sealS, t.keys.cmdS)) (h2 : dev.ne = t.dev.ne) (h3 : clockOf clk = clockOf t.clk) (h4 : Memory.wf t.wm = true → Memory.wf wm = true)
    (h5 : io.rings = t.io.rings) (h6 : (evt.queue, evt.tail, evt.log) = (t.evt.queue, t.evt.tail, t.evt.log)) :
    Keeps s0 ⟨pd, clk, dev, tick, evt, io, wm, port, lanes, conn, trib, data, keys, prot, cnt, mem, cp, spare, health, fio, save, time⟩ := by
  have k := h.upd (pd := pd) (clk := clk) (dev := dev) (tick := tick) (evt := evt) (io := io) (wm := t.wm) (port := port) (lanes := lanes)
    (conn := conn) (trib := trib) (data := data) (keys := keys) (prot := prot) (cnt := cnt) (mem := mem) (cp := cp) (spare := spare)
    (health := health) (fio := fio) (save := save) (time := time) h1 hk h2 h3 rfl h5 h6
  exact ⟨k.queue, k.ne, k.time, fun w => h4 (h.wm w), k.rings, k.evt, k.keys⟩

/-- Like `upd`, with new event buffers within their sizes. -/
theorem Keeps.updEvt (h : Keeps s0 t) {pd clk dev tick evt io wm port lanes conn trib data keys prot cnt mem cp spare health fio save time}
    (h1 : pd = t.pending) (hk : (keys.sealS, keys.cmdS) = (t.keys.sealS, t.keys.cmdS)) (h2 : dev.ne = t.dev.ne) (h3 : clockOf clk = clockOf t.clk) (h4 : wm = t.wm) (h5 : io.rings = t.io.rings)
    (h6 : EvtOk t.evt → EvtOk evt) :
    Keeps s0 ⟨pd, clk, dev, tick, evt, io, wm, port, lanes, conn, trib, data, keys, prot, cnt, mem, cp, spare, health, fio, save, time⟩ := by
  have k := h.upd (pd := pd) (clk := clk) (dev := dev) (tick := tick) (evt := t.evt) (io := io) (wm := wm) (port := port) (lanes := lanes)
    (conn := conn) (trib := trib) (data := data) (keys := keys) (prot := prot) (cnt := cnt) (mem := mem) (cp := cp) (spare := spare)
    (health := health) (fio := fio) (save := save) (time := time) h1 hk h2 h3 h4 h5 rfl
  exact ⟨k.queue, k.ne, k.time, k.wm, k.rings, fun w => h6 (h.evt w), k.keys⟩

theorem Keeps.ite {c : Prop} [Decidable c] {a b : State} (ha : c → Keeps s0 a) (hb : ¬c → Keeps s0 b) : Keeps s0 (if c then a else b) := by
  split
  · exact ha (by assumption)
  · exact hb (by assumption)

theorem Keeps.foldl {g : State → α → State} (hg : ∀ u x, Keeps s0 u → Keeps s0 (g u x)) :
    ∀ (l : List α) {a : State}, Keeps s0 a → Keeps s0 (l.foldl g a)
  | [], _, h => h
  | x :: l, _, h => Keeps.foldl hg l (hg _ x h)

/-- A fold that carries a second value beside the state. -/
theorem Keeps.foldlFst {g : State × β → α → State × β} (hg : ∀ u x, Keeps s0 u.1 → Keeps s0 (g u x).1) :
    ∀ (l : List α) {a : State × β}, Keeps s0 a.1 → Keeps s0 (l.foldl g a).1
  | [], _, h => h
  | x :: l, _, h => Keeps.foldlFst hg l (hg _ x h)

theorem Keeps.foldlSnd {g : β × State → α → β × State} (hg : ∀ u x, Keeps s0 u.2 → Keeps s0 (g u x).2) :
    ∀ (l : List α) {a : β × State}, Keeps s0 a.2 → Keeps s0 (l.foldl g a).2
  | [], _, h => h
  | x :: l, _, h => Keeps.foldlSnd hg l (hg _ x h)

theorem Keeps.snd {x : α × State} {a : α} {u : State} (e : x = (a, u)) (h : Keeps s0 x.2) : Keeps s0 u := by subst e; exact h

theorem Keeps.someSnd {a b : α} {u : State} (h : Keeps s0 t) (e : some (a, t) = some (b, u)) : Keeps s0 u := by cases e; exact h

theorem Keeps.fst {x : State × α} {a : α} {u : State} (e : x = (u, a)) (h : Keeps s0 x.1) : Keeps s0 u := by subst e; exact h

theorem Keeps.invOf (h : Keeps s t) (i : Inv s) : Inv t :=
  ⟨h.wm i.wm, h.rings i.rings, h.evt i.evt, h.keys i.keys, by
    have := h.time
    simp only [clockOf, Prod.mk.injEq] at this
    rw [this.2.1]; exact i.cyc⟩

/-- What every step keeps, its clock and reset included. -/
structure KeepsInv (s t : State) : Prop where
  queue : t.pending = s.pending
  ne    : t.dev.ne = s.dev.ne
  inv   : Inv s → Inv t

theorem Keeps.toInv (h : Keeps s t) : KeepsInv s t := ⟨h.queue, h.ne, h.invOf⟩

theorem KeepsInv.refl (s : State) : KeepsInv s s := (Keeps.refl s).toInv

/-- What a tick's own work keeps: ALIGN may step the clock within its frame, where `ok` does not rule it out (02 R61). -/
structure KeepsAlign (ok : Prop) (s t : State) : Prop where
  queue : t.pending = s.pending
  ne    : t.dev.ne = s.dev.ne
  ticks : t.clk.ticks = s.clk.ticks
  time  : ok → clockOf t.clk = clockOf s.clk
  inv   : Inv s → Inv t

theorem Keeps.toAlign {ok : Prop} (h : Keeps s t) : KeepsAlign ok s t :=
  ⟨h.queue, h.ne, congrArg (·.1) h.time, fun _ => h.time, h.invOf⟩

theorem KeepsAlign.refl {ok : Prop} (s : State) : KeepsAlign ok s s := (Keeps.refl s).toAlign

theorem KeepsAlign.trans {ok : Prop} {u : State} (h : KeepsAlign ok s t) (k : KeepsAlign ok t u) : KeepsAlign ok s u :=
  ⟨k.queue.trans h.queue, k.ne.trans h.ne, k.ticks.trans h.ticks, fun o => (k.time o).trans (h.time o), k.inv ∘ h.inv⟩

theorem KeepsAlign.foldl {ok : Prop} {g : State → α → State} (hg : ∀ u x, KeepsAlign ok u (g u x)) :
    ∀ (l : List α) (a : State), KeepsAlign ok a (l.foldl g a)
  | [], a => KeepsAlign.refl a
  | x :: l, a => (hg a x).trans (KeepsAlign.foldl hg l (g a x))

theorem KeepsInv.trans {u : State} (h : KeepsInv s t) (k : KeepsInv t u) : KeepsInv s u :=
  ⟨k.queue.trans h.queue, k.ne.trans h.ne, k.inv ∘ h.inv⟩

/-- A next state keeps. -/
def KeepsInvOut (s : State) : Host.Outcome State Fault Refusal → Prop
  | .next t => KeepsInv s t
  | _ => True

/-- What a command's body answers keeps. -/
def KeepsRes (s : State) : Res → Prop
  | .reply _ _ t => Keeps s t
  | .wait _ _ _ t => Keeps s t
  | .queued t => Keeps s t

theorem KeepsRes.reply {st ws} (h : Keeps s0 t) : KeepsRes s0 (.reply st ws t) := h

theorem KeepsRes.wait {w i k} (h : Keeps s0 t) : KeepsRes s0 (.wait w i k t) := h

theorem KeepsRes.queued (h : Keeps s0 t) : KeepsRes s0 (.queued t) := h

theorem KeepsRes.ite {c : Prop} [Decidable c] {a b : Res} (ha : c → KeepsRes s0 a) (hb : ¬c → KeepsRes s0 b) :
    KeepsRes s0 (if c then a else b) := by
  split
  · exact ha (by assumption)
  · exact hb (by assumption)

/-- A next state keeps. -/
def KeepsOut (s : State) : Host.Outcome State Fault Refusal → Prop
  | .next t => Keeps s t
  | _ => True

theorem KeepsOut.next (h : Keeps s0 t) : KeepsOut s0 (.next t) := h

theorem KeepsOut.fault {f} : KeepsOut s0 (.fault f) := trivial

theorem KeepsOut.refused {r} : KeepsOut s0 (.refused r) := trivial

theorem KeepsOut.toInv : ∀ {o : Host.Outcome State Fault Refusal}, KeepsOut s0 o → KeepsInvOut s0 o
  | .next _, h => Keeps.toInv h
  | .fault _, _ => trivial
  | .refused _, _ => trivial

theorem KeepsOut.ite {c : Prop} [Decidable c] {a b : Host.Outcome State Fault Refusal} (ha : c → KeepsOut s0 a) (hb : ¬c → KeepsOut s0 b) :
    KeepsOut s0 (if c then a else b) := by
  split
  · exact ha (by assumption)
  · exact hb (by assumption)

/-! ## The operations of Ops.lean that write the Window Memory, the rings or the event buffers -/

theorem pushLast_length {n : Nat} {l : List α} {x : α} (h : l.length ≤ n) : (pushLast n l x).length ≤ n := by
  simp only [pushLast, List.length_drop, List.length_append, List.length_cons, List.length_nil]
  omega

theorem evtAccept_ok {r : Rec} {e : Evt} (h : EvtOk e) (hq : e.queue.length < 4096) : EvtOk (evtAccept r e) := by
  obtain ⟨_, ht, hl⟩ := h
  unfold EvtOk evtAccept
  dsimp only
  refine ⟨?_, pushLast_length ht, hl⟩
  rw [List.length_append]
  exact hq

theorem dequeue_ok {e : Evt} (h : EvtOk e) : EvtOk (dequeue e) := by
  obtain ⟨hq, ht, hl⟩ := h
  have hd : (e.queue.drop 1).length ≤ 4096 := by rw [List.length_drop]; omega
  unfold dequeue
  dsimp only
  split
  · exact And.intro hd (And.intro ht hl)
  · unfold EvtOk evtAccept
    dsimp only
    refine ⟨?_, pushLast_length ht, hl⟩
    rw [List.length_append, List.length_drop, List.length_singleton]
    omega

/-- A write of one ring keeps the rings safe where the ring written is. -/
theorem Keeps.setRing {r : Nat} {g : Ring} (h : Keeps s0 t) (hg : RingsOk t.io.rings → RingOk g) : Keeps s0 (setRing r g t) :=
  ⟨h.queue, h.ne, h.time, h.wm, fun w x hx => by
    rcases mem_tset hx with rfl | hx
    · exact hg (h.rings w)
    · exact h.rings w x hx, h.evt, h.keys⟩

theorem ringReset_ok (r : Nat) : RingOk (ringReset r) := by
  intro _
  unfold ringReset
  unfold slots
  split
  all_goals exact Nat.two_pow_pos _

theorem mem_tget {d : Nat → α} {k : Nat} : ∀ {t : Tbl α}, tget d t k = d k ∨ ∃ j, (j, tget d t k) ∈ t
  | [] => .inl rfl
  | (j, v) :: t => by
    unfold tget
    split
    · exact .inr ⟨j, List.mem_cons_self⟩
    · split
      · exact .inl rfl
      · exact mem_tget.imp_right fun ⟨i, hi⟩ => ⟨i, List.mem_cons_of_mem _ hi⟩

/-- In a safe state every ring is safe. -/
theorem ring_ok (h : RingsOk s.io.rings) (r : Nat) : RingOk (ring s r) := by
  rcases mem_tget (d := ringReset) (k := r) (t := s.io.rings) with e | ⟨j, hj⟩
  · unfold ring; rw [e]; exact ringReset_ok r
  · exact h _ hj

theorem slots_pos (g : Ring) : 0 < slots g := Nat.two_pow_pos _

theorem keeps_wmPut (a : Nat) (bs : List Byte) (h : Keeps s0 s) : Keeps s0 (wmPut a bs s) :=
  h.updWm rfl rfl rfl rfl (putBytes_wf _ _ bs a) rfl rfl

theorem keeps_draw (k : Nat) (h : Keeps s0 s) : Keeps s0 (draw k s).2 := h.upd rfl rfl rfl rfl rfl rfl rfl

@[simp] theorem msixSend_rings (v : Nat) (io : Io) : (msixSend v io).rings = io.rings := by
  unfold msixSend
  repeat' split
  all_goals rfl

theorem keeps_irqEdge (b : Nat) (h : Keeps s0 s) : Keeps s0 (irqEdge b s) := by
  unfold irqEdge
  split
  · exact h.upd rfl rfl rfl rfl rfl rfl rfl
  · split
    · exact h.upd rfl rfl rfl rfl rfl (msixSend_rings _ _) rfl
    · exact h

theorem keeps_irqRaise (b : Nat) (h : Keeps s0 s) : Keeps s0 (irqRaise b s) := by
  unfold irqRaise
  split
  · exact h
  · exact keeps_irqEdge b (h.upd rfl rfl rfl rfl rfl rfl rfl)

theorem faultLog_ok (r : Rec) (e : Evt) (h : EvtOk e) : EvtOk (if isFaultRec r then { e with log := pushLast 256 e.log r } else e) := by
  split
  · unfold EvtOk
    dsimp only
    exact ⟨h.1, h.2.1, pushLast_length h.2.2⟩
  · exact h

theorem keeps_enqueue (r : Rec) (h : Keeps s0 s) : Keeps s0 (enqueue r s) := by
  unfold enqueue
  dsimp only
  generalize he : (if isFaultRec r then { s.evt with log := pushLast 256 s.evt.log r } else s.evt) = e
  have hk : EvtOk s.evt → EvtOk e := fun w => he ▸ faultLog_ok r _ w
  split
  · rename_i hq
    exact h.updEvt rfl rfl rfl rfl rfl rfl fun w => evtAccept_ok (hk w) hq
  · exact keeps_irqRaise 2 (h.updEvt rfl rfl rfl rfl rfl rfl fun w => hk w)

theorem keeps_raise (cls code idx : Nat) (data : Word) (set : Bool) (h : Keeps s0 s) : Keeps s0 (raise cls code idx data set s) :=
  keeps_enqueue _ h

theorem keeps_raiseAt (t cls code idx : Nat) (data : Word) (set : Bool) (h : Keeps s0 s) :
    Keeps s0 (raiseAt t cls code idx data set s) := keeps_enqueue _ h

theorem keeps_setSync (k : EventKey) (y : Option Sync) (h : Keeps s0 s) : Keeps s0 (setSync k y s) := h.upd rfl rfl rfl rfl rfl rfl rfl

theorem keeps_syncSettle (k : EventKey) (t : Nat) : ∀ (n : Nat) {s : State}, Keeps s0 s → Keeps s0 (syncSettle k t n s)
  | 0, _, h => h
  | n + 1, _, h => by
    unfold syncSettle
    split
    · exact h
    · split
      · exact h
      · split
        · exact keeps_setSync k _ h
        · exact keeps_syncSettle k t n (keeps_enqueue _ (keeps_setSync k _ h))

theorem keeps_pulseRec (t : Nat) (r : Rec) (h : Keeps s0 s) : Keeps s0 (pulseRec t r s) := by
  unfold pulseRec
  dsimp only
  have h := keeps_syncSettle { cls := r.cls, code := r.code, index := r.idx } t 2 h
  split
  · exact keeps_enqueue r (Keeps.ite (fun _ => h) fun _ => keeps_setSync _ _ h)
  · exact keeps_setSync _ _ h

theorem keeps_pulse (cls code idx : Nat) (data : Word) (set : Bool) (h : Keeps s0 s) : Keeps s0 (pulse cls code idx data set s) :=
  keeps_pulseRec _ _ h

theorem keeps_evtRefresh (h : Keeps s0 s) : Keeps s0 (evtRefresh s) := by
  unfold evtRefresh
  split
  · exact keeps_irqRaise 1 h
  · exact h

theorem keeps_stateChange (h : Keeps s0 s) : Keeps s0 (stateChange s) := keeps_irqRaise 4 h

theorem keeps_setJob (r : Nat) (j : Option Job) (h : Keeps s0 s) : Keeps s0 (setJob r j s) := h.upd rfl rfl rfl rfl rfl rfl rfl

theorem keeps_setRole (c : Nat) (x : Role) (h : Keeps s0 s) : Keeps s0 (setRole c x s) := h.upd rfl rfl rfl rfl rfl rfl rfl

theorem keeps_jrnl (kind r : Nat) (tag : Word) (h : Keeps s0 s) : Keeps s0 (jrnl kind r tag s) :=
  h.upd rfl rfl rfl rfl rfl rfl rfl

/-- `DEV_INDEX` moves on within its ring. -/
theorem keeps_ringNext (r : Nat) (g : Ring) (h : Keeps s0 s) : Keeps s0 (setRing r { g with index := (g.index + 1) % slots g } s) :=
  h.setRing fun _ _ => Nat.mod_lt _ (slots_pos g)

theorem keeps_putReply (e : Echo) (st : Status) (ws : List Word) (h : Keeps s0 s) : Keeps s0 (putReply e st ws s) := by
  unfold putReply
  dsimp only
  refine keeps_irqRaise 0 (keeps_jrnl 1 _ _ (Keeps.upd (keeps_ringNext 4 (ring s 4) (keeps_wmPut _ _ (keeps_wmPut _ _ h)))
    rfl rfl rfl rfl rfl rfl rfl))

theorem keeps_writeReply (e : Echo) (st : Status) (ws : List Word) (h : Keeps s0 s) : Keeps s0 (writeReply e st ws s) := by
  unfold writeReply
  split
  · exact keeps_putReply e st ws h
  · exact h.upd rfl rfl rfl rfl rfl rfl rfl

theorem keeps_sendLate : ∀ (n : Nat) {s : State}, Keeps s0 s → Keeps s0 (sendLate n s)
  | 0, _, h => h
  | n + 1, _, h => by
    unfold sendLate
    split
    · exact h
    · exact Keeps.ite (fun _ => keeps_sendLate n (keeps_putReply _ _ _ (h.upd rfl rfl rfl rfl rfl rfl rfl))) fun _ => h

theorem keeps_ringFault (r : Nat) (h : Keeps s0 s) : Keeps s0 (ringFault r s) := by
  unfold ringFault
  exact keeps_raise _ _ _ _ _ (keeps_irqRaise 3 (h.setRing fun w => ring_ok w r))

theorem keeps_handBack (a : Nat) (h : Keeps s0 s) : Keeps s0 (handBack a s) := keeps_wmPut _ _ h

theorem keeps_handBackOut (a n : Nat) (h : Keeps s0 s) : Keeps s0 (handBackOut a n s) := keeps_handBack _ (keeps_wmPut _ _ h)

theorem keeps_endJobOne (r : Nat) (st : Status) (ws : List Word) (h : Keeps s0 s) : Keeps s0 (endJobOne r st ws s) := by
  unfold endJobOne
  split
  · exact h
  · exact keeps_writeReply _ _ _ (keeps_setJob _ _ (Keeps.foldl (fun _ a k => keeps_handBack a k) _ h))

theorem keeps_answerAborts : ∀ (k : Nat) (isOp : Bool) (n : Nat) {s : State}, Keeps s0 s → Keeps s0 (answerAborts k isOp n s)
  | 0, _, _, _, h => h
  | k + 1, isOp, n, _, h => by
    unfold answerAborts
    refine Keeps.foldl (fun u q hu => ?_) _ h
    split
    · exact Keeps.ite (fun _ => keeps_answerAborts k false q (keeps_endJobOne q _ _ hu)) fun _ => hu
    · exact hu

theorem keeps_endJob (r : Nat) (st : Status) (ws : List Word) (h : Keeps s0 s) : Keeps s0 (endJob r st ws s) := by
  unfold endJob
  split
  · exact keeps_answerAborts 4 false r (keeps_endJobOne r st ws h)
  · split
    · exact keeps_setJob _ _ h
    · exact h

end Sys2Proof.Machine
end

