-- ==== Sys2Proof/Laws/KeepsData.lean ====
section
/-! SUPPORT. The operations of lanes, tributaries, memory, counters and rings keep what `Keeps` says. -/

namespace Sys2Proof.Machine

variable {s0 s : State}

/-! ## Machine/Operands.lean -/

theorem keeps_refuse : ∀ a0, Keeps s0 s → KeepsRes s0 (refuse a0 s) := by
  intro a0 h
  unfold refuse
  repeat' first
    | with_reducible assumption
    | with_reducible apply KeepsRes.reply

theorem keeps_done : Keeps s0 s → KeepsRes s0 (done s) := by
  intro h
  unfold done
  repeat' first
    | with_reducible assumption
    | with_reducible apply KeepsRes.reply

theorem keeps_toPort : Keeps s0 s → KeepsRes s0 (toPort s) := by
  intro h
  unfold toPort
  repeat' first
    | with_reducible assumption
    | with_reducible apply KeepsRes.reply
    | with_reducible apply KeepsRes.wait

/-! ## Machine/Counters.lean -/

theorem keeps_setCounter : ∀ a0 a1, Keeps s0 s → Keeps s0 (setCounter a0 a1 s) := by
  intro a0 a1 h
  unfold setCounter
  repeat' first
    | with_reducible assumption
    | fail_if_no_progress ((with_reducible apply Keeps.upd) <;> try rfl)

theorem keeps_tapInc : ∀ a0 a1 a2, Keeps s0 s → Keeps s0 (tapInc a0 a1 a2 s) := by
  intro a0 a1 a2 h
  unfold tapInc
  repeat' first
    | with_reducible assumption
    | fail_if_no_progress ((with_reducible apply Keeps.upd) <;> try rfl)

theorem keeps_sampleTaps : Keeps s0 s → Keeps s0 (sampleTaps s) := by
  intro h
  unfold sampleTaps
  repeat' first
    | with_reducible assumption
    | with_reducible apply Keeps.ite
    | fail_if_no_progress ((with_reducible apply Keeps.upd) <;> try rfl)

theorem keeps_counterBad : ∀ a0, Keeps s0 s → Keeps s0 (counterBad a0 s) := by
  intro a0 h
  unfold counterBad
  repeat' first
    | with_reducible assumption
    | with_reducible apply keeps_raise
    | with_reducible apply keeps_setCounter

theorem keeps_execCounterTapSample : ∀ a0, Keeps s0 s → KeepsOut s0 (execCounterTapSample a0 s) := by
  intro a0 h
  unfold execCounterTapSample
  repeat' first
    | with_reducible assumption
    | with_reducible apply keeps_counterBad
    | with_reducible apply keeps_sampleTaps
    | with_reducible apply KeepsOut.next
    | with_reducible exact KeepsOut.refused
    | with_reducible apply KeepsOut.ite
    | with_reducible apply Keeps.ite
    | with_reducible refine Keeps.foldl (fun u x hu => ?_) _ ?_
    | intro _

theorem keeps_bodyCntSelect : ∀ a0, Keeps s0 s → KeepsRes s0 (bodyCntSelect a0 s) := by
  intro a0 h
  unfold bodyCntSelect
  repeat' first
    | with_reducible assumption
    | with_reducible apply KeepsRes.reply
    | with_reducible apply KeepsRes.wait

theorem keeps_bindAtTick : ∀ a0, Keeps s0 s → Keeps s0 (bindAtTick a0 s) := by
  intro a0 h
  unfold bindAtTick
  repeat' first
    | with_reducible assumption
    | with_reducible apply keeps_setCounter

theorem keeps_bindJobs : Keeps s0 s → Keeps s0 (bindJobs s) := by
  intro h
  unfold bindJobs
  repeat' first
    | with_reducible assumption
    | with_reducible apply keeps_endJob
    | with_reducible apply keeps_bindAtTick
    | with_reducible refine Keeps.foldl (fun u x hu => ?_) _ ?_
    | with_reducible refine Keeps.snd (by assumption) ?_
    | with_reducible refine Keeps.fst (by assumption) ?_
    | fail_if_no_progress ((with_reducible apply Keeps.upd) <;> try rfl)
    | intro _
    | split

theorem keeps_readCounter : ∀ a0 a1, Keeps s0 s → Keeps s0 (readCounter a0 a1 s).2 := by
  intro a0 a1 h
  unfold readCounter
  repeat' first
    | with_reducible assumption
    | with_reducible apply keeps_setCounter
    | with_reducible apply Keeps.ite
    | intro _

theorem keeps_readCounters (clr : Bool) : ∀ (n k : Nat) {s : State}, Keeps s0 s → Keeps s0 (readCounters clr n k s).2
  | _, 0, _, h => h
  | n, k + 1, _, h => keeps_readCounters clr (n + 1) k (keeps_readCounter clr n h)

theorem keeps_skew : ∀ a0, Keeps s0 s → Keeps s0 (skew a0 s).2 := by
  intro a0 h
  unfold skew
  repeat' first
    | with_reducible assumption
    | with_reducible apply keeps_draw
    | with_reducible apply Keeps.ite
    | with_reducible refine Keeps.snd (by assumption) ?_
    | with_reducible refine Keeps.fst (by assumption) ?_
    | intro _
    | split

theorem keeps_bodyCntRead : ∀ a0, Keeps s0 s → KeepsRes s0 (bodyCntRead a0 s) := by
  intro a0 h
  unfold bodyCntRead
  repeat' first
    | with_reducible assumption
    | with_reducible apply keeps_readCounters
    | with_reducible apply keeps_skew
    | with_reducible apply keeps_wmPut
    | with_reducible apply KeepsRes.reply

theorem keeps_bodyCntDump : ∀ a0, Keeps s0 s → KeepsRes s0 (bodyCntDump a0 s) := by
  intro a0 h
  unfold bodyCntDump
  repeat' first
    | with_reducible assumption
    | with_reducible apply keeps_handBack
    | with_reducible apply KeepsRes.reply
    | with_reducible apply KeepsRes.wait
    | with_reducible apply KeepsRes.queued
    | with_reducible apply KeepsRes.ite
    | with_reducible apply Keeps.ite
    | with_reducible refine Keeps.foldl (fun u x hu => ?_) _ ?_
    | with_reducible refine Keeps.foldlFst (fun u x hu => ?_) _ ?_
    | with_reducible refine Keeps.foldlSnd (fun u x hu => ?_) _ ?_
    | with_reducible refine Keeps.snd (by assumption) ?_
    | with_reducible refine Keeps.fst (by assumption) ?_
    | intro _
    | split
    | dsimp only

theorem keeps_dumpRecheck : ∀ a0 a1 a2 a3, Keeps s0 s → Keeps s0 (dumpRecheck a0 a1 a2 a3 s) := by
  intro a0 a1 a2 a3 h
  unfold dumpRecheck
  repeat' first
    | with_reducible assumption
    | with_reducible apply keeps_endJob
    | with_reducible apply keeps_setJob
    | with_reducible refine Keeps.snd (by assumption) ?_
    | with_reducible refine Keeps.fst (by assumption) ?_
    | fail_if_no_progress ((with_reducible apply Keeps.upd) <;> try rfl)
    | split

theorem keeps_blockRecord : ∀ a0 a1, Keeps s0 s → Keeps s0 (blockRecord a0 a1 s).2 := by
  intro a0 a1 h
  unfold blockRecord
  repeat' first
    | with_reducible assumption
    | with_reducible apply keeps_readCounters
    | with_reducible apply keeps_skew

theorem keeps_dumpBlock : ∀ a0 a1 a2 a3 a4 a5, Keeps s0 s → Keeps s0 (dumpBlock a0 a1 a2 a3 a4 a5 s) := by
  intro a0 a1 a2 a3 a4 a5 h
  unfold dumpBlock
  repeat' first
    | with_reducible assumption
    | with_reducible apply keeps_blockRecord
    | with_reducible apply keeps_wmPut
    | with_reducible apply keeps_endJob
    | with_reducible apply keeps_setJob
    | with_reducible apply keeps_handBackOut
    | with_reducible apply keeps_dumpRecheck
    | with_reducible apply Keeps.ite
    | with_reducible refine Keeps.snd (by assumption) ?_
    | with_reducible refine Keeps.fst (by assumption) ?_
    | intro _

theorem keeps_execCntDumpBlock : ∀ a0, Keeps s0 s → KeepsOut s0 (execCntDumpBlock a0 s) := by
  intro a0 h
  unfold execCntDumpBlock
  repeat' first
    | with_reducible assumption
    | with_reducible apply keeps_dumpBlock
    | with_reducible apply KeepsOut.next
    | with_reducible apply KeepsOut.ite
    | with_reducible apply Keeps.ite
    | with_reducible refine Keeps.snd (by assumption) ?_
    | with_reducible refine Keeps.fst (by assumption) ?_
    | intro _
    | split

/-! ## Machine/Memory.lean -/

theorem keeps_portWrite (own : Bool) (a : Nat) (b : Byte) (h : Keeps s0 s) : Keeps s0 (portWrite own a b s) := by
  unfold portWrite
  split
  · exact h
  · split
    · exact h
    · exact h.updWm rfl rfl rfl rfl (fun w => memWrite_wf w a b) rfl rfl

theorem keeps_portWrites (own : Bool) : ∀ (a : Nat) (bs : List Byte) {s : State}, Keeps s0 s → Keeps s0 (portWrites own a bs s)
  | _, [], _, h => h
  | a, b :: bs, _, h => keeps_portWrites own (a + 1) bs (keeps_portWrite own a b h)

theorem keeps_memHist : ∀ a0, Keeps s0 s → Keeps s0 (memHist a0 s) := by
  intro a0 h
  unfold memHist
  repeat' first
    | with_reducible assumption
    | fail_if_no_progress ((with_reducible apply Keeps.upd) <;> try rfl)

theorem keeps_eccUncorr : ∀ a0 a1 a2, Keeps s0 s → Keeps s0 (eccUncorr a0 a1 a2 s) := by
  intro a0 a1 a2 h
  unfold eccUncorr
  repeat' first
    | with_reducible assumption
    | with_reducible apply keeps_memHist
    | with_reducible apply keeps_tapInc
    | with_reducible apply keeps_enqueue
    | with_reducible apply keeps_pulseRec
    | with_reducible apply Keeps.ite
    | intro _

theorem keeps_startRepair : ∀ a0 a1 a2, Keeps s0 s → Keeps s0 (startRepair a0 a1 a2 s).2 := by
  intro a0 a1 a2 h
  unfold startRepair
  repeat' first
    | with_reducible assumption
    | with_reducible apply keeps_raise
    | with_reducible apply keeps_memHist
    | with_reducible apply Keeps.ite
    | with_reducible refine Keeps.foldl (fun u x hu => ?_) _ ?_
    | with_reducible refine Keeps.foldlFst (fun u x hu => ?_) _ ?_
    | with_reducible refine Keeps.foldlSnd (fun u x hu => ?_) _ ?_
    | with_reducible refine Keeps.snd (by assumption) ?_
    | with_reducible refine Keeps.fst (by assumption) ?_
    | fail_if_no_progress ((with_reducible apply Keeps.upd) <;> try rfl)
    | intro _
    | split

theorem keeps_eccWm : ∀ a0, Keeps s0 s → Keeps s0 (eccWm a0 s) := by
  intro a0 h
  unfold eccWm
  refine Keeps.ite (fun _ => keeps_startRepair _ _ _ (keeps_eccUncorr _ _ _ ?_)) fun _ => keeps_tapInc _ _ _ h
  exact h.updWm rfl rfl rfl rfl (fun w => writeBytes_wf _ _ w) rfl rfl

theorem keeps_doWriteE : ∀ a0, Keeps s0 s → Keeps s0 (doWriteE a0 s) := by
  intro a0 h
  unfold doWriteE
  repeat' first
    | with_reducible assumption
    | with_reducible apply keeps_portWrite
    | with_reducible apply Keeps.ite
    | with_reducible refine Keeps.foldl (fun u x hu => ?_) _ ?_
    | intro _

theorem keeps_doWriteI : ∀ a0, Keeps s0 s → Keeps s0 (doWriteI a0 s) := by
  intro a0 h
  unfold doWriteI
  repeat' first
    | with_reducible assumption
    | with_reducible apply keeps_portWrites
    | with_reducible apply Keeps.ite
    | intro _

theorem keeps_doReadE : ∀ a0 a1 a2, Keeps s0 s → Keeps s0 (doReadE a0 a1 a2 s) := by
  intro a0 a1 a2 h
  unfold doReadE
  repeat' first
    | with_reducible assumption
    | with_reducible apply keeps_draw
    | with_reducible apply Keeps.ite
    | with_reducible refine Keeps.snd (by assumption) ?_
    | with_reducible refine Keeps.fst (by assumption) ?_
    | fail_if_no_progress ((with_reducible apply Keeps.upd) <;> try rfl)
    | intro _

theorem keeps_doReadI : ∀ a0 a1, Keeps s0 s → Keeps s0 (doReadI a0 a1 s) := by
  intro a0 a1 h
  unfold doReadI
  repeat' first
    | with_reducible assumption
    | with_reducible apply keeps_raise
    | with_reducible apply Keeps.ite
    | with_reducible refine Keeps.snd (by assumption) ?_
    | with_reducible refine Keeps.fst (by assumption) ?_
    | fail_if_no_progress ((with_reducible apply Keeps.upd) <;> try rfl)
    | intro _

theorem keeps_windowAccess : ∀ a0 a1 a2, Keeps s0 s → Keeps s0 (windowAccess a0 a1 a2 s) := by
  intro a0 a1 a2 h
  unfold windowAccess
  repeat' first
    | with_reducible assumption
    | with_reducible apply keeps_eccWm
    | with_reducible apply keeps_doWriteE
    | with_reducible apply keeps_doWriteI
    | with_reducible apply keeps_doReadE
    | with_reducible apply keeps_doReadI
    | fail_if_no_progress ((with_reducible apply Keeps.upd) <;> try rfl)
    | split

theorem keeps_windowServe : ∀ a0 a1 a2, Keeps s0 s → KeepsOut s0 (windowServe a0 a1 a2 s) := by
  intro a0 a1 a2 h
  unfold windowServe
  repeat' first
    | with_reducible assumption
    | with_reducible apply keeps_windowAccess
    | with_reducible apply KeepsOut.next
    | with_reducible exact KeepsOut.refused
    | with_reducible exact KeepsOut.fault
    | with_reducible apply KeepsOut.ite
    | with_reducible apply Keeps.ite
    | intro _

theorem keeps_memRepair : ∀ a0 a1 a2, Keeps s0 s → Keeps s0 (memRepair a0 a1 a2 s) := by
  intro a0 a1 a2 h
  unfold memRepair
  repeat' first
    | with_reducible assumption
    | with_reducible apply keeps_startRepair
    | with_reducible apply keeps_raise
    | with_reducible apply Keeps.ite
    | with_reducible refine Keeps.snd (by assumption) ?_
    | with_reducible refine Keeps.fst (by assumption) ?_
    | fail_if_no_progress ((with_reducible apply Keeps.upd) <;> try rfl)
    | intro _

theorem keeps_execMemRepair : ∀ a0 a1 a2, Keeps s0 s → KeepsOut s0 (execMemRepair a0 a1 a2 s) := by
  intro a0 a1 a2 h
  unfold execMemRepair
  repeat' first
    | with_reducible assumption
    | with_reducible apply keeps_memRepair
    | with_reducible apply KeepsOut.next
    | with_reducible apply KeepsOut.ite
    | with_reducible apply Keeps.ite
    | with_reducible refine Keeps.snd (by assumption) ?_
    | with_reducible refine Keeps.fst (by assumption) ?_
    | intro _
    | split

/-! ## Machine/Survive.lean -/

theorem keeps_fitUpdate : Keeps s0 s → Keeps s0 (fitUpdate s) := by
  intro h
  unfold fitUpdate
  repeat' first
    | with_reducible assumption
    | with_reducible apply Keeps.ite
    | fail_if_no_progress ((with_reducible apply Keeps.upd) <;> try rfl)

theorem keeps_cpFault : ∀ a0 a1 a2, Keeps s0 s → Keeps s0 (cpFault a0 a1 a2 s) := by
  intro a0 a1 a2 h
  unfold cpFault
  repeat' first
    | with_reducible assumption
    | with_reducible apply keeps_pulse

theorem keeps_powerSpare : ∀ a0, Keeps s0 s → Keeps s0 (powerSpare a0 s) := by
  intro a0 h
  unfold powerSpare
  repeat' first
    | with_reducible assumption
    | with_reducible apply keeps_setRole
    | with_reducible apply Keeps.ite
    | fail_if_no_progress ((with_reducible apply Keeps.upd) <;> try rfl)
    | intro _

theorem keeps_markFailed : ∀ a0 a1, Keeps s0 s → Keeps s0 (markFailed a0 a1 s) := by
  intro a0 a1 h
  unfold markFailed
  repeat' first
    | with_reducible assumption
    | with_reducible apply keeps_powerSpare
    | with_reducible apply keeps_cpFault
    | with_reducible apply keeps_setRole

theorem keeps_cpReset : ∀ a0 a1, Keeps s0 s → Keeps s0 (cpReset a0 a1 s) := by
  intro a0 a1 h
  unfold cpReset
  repeat' first
    | with_reducible assumption
    | with_reducible apply keeps_setRole
    | with_reducible apply keeps_markFailed
    | with_reducible apply Keeps.ite
    | fail_if_no_progress ((with_reducible apply Keeps.upd) <;> try rfl)
    | intro _

theorem keeps_abandonLock : ∀ a0 a1, Keeps s0 s → Keeps s0 (abandonLock a0 a1 s) := by
  intro a0 a1 h
  unfold abandonLock
  repeat' first
    | with_reducible assumption
    | with_reducible apply keeps_raise
    | with_reducible apply keeps_memHist
    | fail_if_no_progress ((with_reducible apply Keeps.upd) <;> try rfl)

theorem keeps_masterReset : ∀ a0, Keeps s0 s → Keeps s0 (masterReset a0 s) := by
  intro a0 h
  unfold masterReset
  repeat' first
    | with_reducible assumption
    | with_reducible apply keeps_abandonLock
    | with_reducible refine Keeps.foldl (fun u x hu => ?_) _ ?_
    | fail_if_no_progress ((with_reducible apply Keeps.upd) <;> try rfl)

theorem keeps_gapStart : ∀ a0 a1 a2, Keeps s0 s → Keeps s0 (gapStart a0 a1 a2 s) := by
  intro a0 a1 a2 h
  unfold gapStart
  repeat' first
    | with_reducible assumption
    | with_reducible apply keeps_stateChange
    | with_reducible apply keeps_masterReset
    | fail_if_no_progress ((with_reducible apply Keeps.upd) <;> try rfl)

theorem keeps_cpFails (cause : Nat) (h : Keeps s0 s) : Keeps s0 (cpFails cause s) := by
  unfold cpFails
  split
  · exact h
  · rename_i a _
    have k := keeps_cpFault a cause false h
    dsimp only
    generalize cpFault a cause false s = u at k
    split
    · rename_i n _
      have g := keeps_gapStart a n cause k
      generalize gapStart a n cause u = v at g ⊢
      have g2 : Keeps s0 (if n = 2 then powerSpare a v else v) := Keeps.ite (fun _ => keeps_powerSpare a g) fun _ => g
      generalize (if n = 2 then powerSpare a v else v) = w at g2 ⊢
      with_reducible exact keeps_cpReset _ _ g2
    · have g := keeps_markFailed a cause (keeps_masterReset (cpPort a u) k)
      generalize markFailed a cause (masterReset (cpPort a u) u) = v at g ⊢
      with_reducible refine keeps_stateChange (g.upd ?_ ?_ ?_ ?_ ?_ ?_ ?_) <;> rfl

theorem keeps_execCpHeartbeatTimeout : Keeps s0 s → KeepsOut s0 (execCpHeartbeatTimeout s) := by
  intro h
  unfold execCpHeartbeatTimeout
  repeat' first
    | with_reducible assumption
    | with_reducible apply keeps_cpFails
    | with_reducible apply KeepsOut.next
    | with_reducible apply KeepsOut.ite
    | with_reducible apply Keeps.ite
    | intro _

theorem keeps_cpMemoryError : ∀ a0, Keeps s0 s → Keeps s0 (cpMemoryError a0 s) := by
  intro a0 h
  unfold cpMemoryError
  repeat' first
    | with_reducible assumption
    | with_reducible apply keeps_cpFails
    | with_reducible apply Keeps.ite
    | fail_if_no_progress ((with_reducible apply Keeps.upd) <;> try rfl)
    | intro _

theorem keeps_execCpMemoryError : ∀ a0, Keeps s0 s → KeepsOut s0 (execCpMemoryError a0 s) := by
  intro a0 h
  unfold execCpMemoryError
  repeat' first
    | with_reducible assumption
    | with_reducible apply keeps_cpMemoryError
    | with_reducible apply KeepsOut.next

theorem keeps_irqRelease : Keeps s0 s → Keeps s0 (irqRelease s) := by
  intro h
  unfold irqRelease
  repeat' first
    | with_reducible assumption
    | with_reducible apply keeps_irqEdge
    | with_reducible apply Keeps.ite
    | with_reducible refine Keeps.foldl (fun u x hu => ?_) _ ?_
    | fail_if_no_progress ((with_reducible apply Keeps.upd) <;> try rfl)
    | intro _

theorem keeps_gapEnd : ∀ a0 a1 a2 a3, Keeps s0 s → Keeps s0 (gapEnd a0 a1 a2 a3 s) := by
  intro a0 a1 a2 a3 h
  unfold gapEnd
  repeat' first
    | with_reducible assumption
    | with_reducible apply keeps_setRole
    | with_reducible apply keeps_stateChange
    | with_reducible apply keeps_irqRelease
    | with_reducible apply keeps_pulse
    | with_reducible apply Keeps.ite
    | fail_if_no_progress ((with_reducible apply Keeps.upd) <;> try rfl)
    | intro _

theorem keeps_dueReplies : Keeps s0 s → Keeps s0 (dueReplies s) := by
  intro h
  unfold dueReplies
  repeat' first
    | with_reducible assumption
    | with_reducible apply keeps_endJob
    | with_reducible refine Keeps.foldl (fun u x hu => ?_) _ ?_
    | with_reducible refine Keeps.snd (by assumption) ?_
    | with_reducible refine Keeps.fst (by assumption) ?_
    | fail_if_no_progress ((with_reducible apply Keeps.upd) <;> try rfl)
    | intro _
    | split

theorem keeps_repliesDue : Keeps s0 s → Keeps s0 (repliesDue s) := by
  intro h
  unfold repliesDue
  repeat' first
    | with_reducible assumption
    | with_reducible apply keeps_dueReplies
    | with_reducible apply keeps_sendLate

theorem keeps_handoverReply : ∀ a0, Keeps s0 s → Keeps s0 (handoverReply a0 s) := by
  intro a0 h
  unfold handoverReply
  repeat' first
    | with_reducible assumption
    | with_reducible apply keeps_endJob
    | with_reducible apply Keeps.ite
    | with_reducible refine Keeps.foldl (fun u x hu => ?_) _ ?_
    | with_reducible refine Keeps.snd (by assumption) ?_
    | with_reducible refine Keeps.fst (by assumption) ?_
    | fail_if_no_progress ((with_reducible apply Keeps.upd) <;> try rfl)
    | intro _
    | split

theorem keeps_journalLag : Keeps s0 s → Keeps s0 (journalLag s) := by
  intro h
  unfold journalLag
  repeat' first
    | with_reducible assumption
    | with_reducible apply keeps_fitUpdate
    | with_reducible apply keeps_cpFault
    | with_reducible apply Keeps.ite
    | fail_if_no_progress ((with_reducible apply Keeps.upd) <;> try rfl)
    | intro _
    | split

theorem keeps_execJournalLag : ∀ a0, Keeps s0 s → KeepsOut s0 (execJournalLag a0 s) := by
  intro a0 h
  unfold execJournalLag
  repeat' first
    | with_reducible assumption
    | with_reducible apply keeps_journalLag
    | with_reducible apply KeepsOut.next
    | with_reducible exact KeepsOut.refused
    | with_reducible apply KeepsOut.ite
    | with_reducible apply Keeps.ite
    | intro _

theorem keeps_execJournalApply : Keeps s0 s → KeepsOut s0 (execJournalApply s) := by
  intro h
  unfold execJournalApply
  repeat' first
    | with_reducible assumption
    | with_reducible apply keeps_journalLag
    | with_reducible apply KeepsOut.next
    | with_reducible apply KeepsOut.ite
    | with_reducible apply Keeps.ite
    | fail_if_no_progress ((with_reducible apply Keeps.upd) <;> try rfl)
    | intro _

theorem keeps_selftestPass : ∀ a0, Keeps s0 s → Keeps s0 (selftestPass a0 s) := by
  intro a0 h
  unfold selftestPass
  repeat' first
    | with_reducible assumption
    | with_reducible apply keeps_fitUpdate
    | with_reducible apply keeps_cpFault
    | with_reducible apply keeps_setRole
    | with_reducible apply keeps_masterReset
    | with_reducible apply Keeps.ite
    | with_reducible refine Keeps.snd (by assumption) ?_
    | with_reducible refine Keeps.fst (by assumption) ?_
    | fail_if_no_progress ((with_reducible apply Keeps.upd) <;> try rfl)
    | intro _
    | split

theorem keeps_execStandbySelftestPass : ∀ a0, Keeps s0 s → KeepsOut s0 (execStandbySelftestPass a0 s) := by
  intro a0 h
  unfold execStandbySelftestPass
  repeat' first
    | with_reducible assumption
    | with_reducible apply keeps_selftestPass
    | with_reducible apply KeepsOut.next

theorem keeps_digestExchange : ∀ a0, Keeps s0 s → Keeps s0 (digestExchange a0 s) := by
  intro a0 h
  unfold digestExchange
  repeat' first
    | with_reducible assumption
    | with_reducible apply keeps_fitUpdate
    | with_reducible apply Keeps.ite
    | fail_if_no_progress ((with_reducible apply Keeps.upd) <;> try rfl)
    | intro _

theorem keeps_execCpDigestExchange : ∀ a0, Keeps s0 s → KeepsOut s0 (execCpDigestExchange a0 s) := by
  intro a0 h
  unfold execCpDigestExchange
  repeat' first
    | with_reducible assumption
    | with_reducible apply keeps_digestExchange
    | with_reducible apply KeepsOut.next

theorem keeps_restartComplete : ∀ a0, Keeps s0 s → Keeps s0 (restartComplete a0 s) := by
  intro a0 h
  unfold restartComplete
  repeat' first
    | with_reducible assumption
    | with_reducible apply keeps_setRole
    | with_reducible apply keeps_fitUpdate
    | with_reducible apply Keeps.ite
    | fail_if_no_progress ((with_reducible apply Keeps.upd) <;> try rfl)
    | intro _

theorem keeps_execCpRestartComplete : ∀ a0, Keeps s0 s → KeepsOut s0 (execCpRestartComplete a0 s) := by
  intro a0 h
  unfold execCpRestartComplete
  repeat' first
    | with_reducible assumption
    | with_reducible apply keeps_restartComplete
    | with_reducible apply KeepsOut.next
    | with_reducible exact KeepsOut.refused
    | with_reducible apply KeepsOut.ite
    | with_reducible apply Keeps.ite
    | intro _

theorem keeps_execCpRevertHoldoffExpiry : Keeps s0 s → KeepsOut s0 (execCpRevertHoldoffExpiry s) := by
  intro h
  unfold execCpRevertHoldoffExpiry
  repeat' first
    | with_reducible assumption
    | with_reducible apply keeps_gapStart
    | with_reducible apply KeepsOut.next
    | with_reducible apply KeepsOut.ite
    | with_reducible apply Keeps.ite
    | with_reducible refine Keeps.snd (by assumption) ?_
    | with_reducible refine Keeps.fst (by assumption) ?_
    | intro _
    | split

theorem keeps_execSvaHeartbeatTimeout : Keeps s0 s → KeepsOut s0 (execSvaHeartbeatTimeout s) := by
  intro h
  unfold execSvaHeartbeatTimeout
  repeat' first
    | with_reducible assumption
    | with_reducible apply keeps_raise
    | with_reducible apply KeepsOut.next
    | with_reducible apply KeepsOut.ite
    | with_reducible apply Keeps.ite
    | fail_if_no_progress ((with_reducible apply Keeps.upd) <;> try rfl)
    | intro _

theorem keeps_setSwap : ∀ a0 a1, Keeps s0 s → Keeps s0 (setSwap a0 a1 s) := by
  intro a0 a1 h
  unfold setSwap
  repeat' first
    | with_reducible assumption
    | fail_if_no_progress ((with_reducible apply Keeps.upd) <;> try rfl)

theorem keeps_takeOut : ∀ a0 a1, Keeps s0 s → Keeps s0 (takeOut a0 a1 s) := by
  intro a0 a1 h
  unfold takeOut
  repeat' first
    | with_reducible assumption
    | with_reducible apply Keeps.ite
    | fail_if_no_progress ((with_reducible apply Keeps.upd) <;> try rfl)
    | intro _

theorem keeps_dieHist : ∀ a0 a1, Keeps s0 s → Keeps s0 (dieHist a0 a1 s) := by
  intro a0 a1 h
  unfold dieHist
  repeat' first
    | with_reducible assumption
    | fail_if_no_progress ((with_reducible apply Keeps.upd) <;> try rfl)

theorem keeps_unitFail : ∀ a0 a1, Keeps s0 s → Keeps s0 (unitFail a0 a1 s) := by
  intro a0 a1 h
  unfold unitFail
  repeat' first
    | with_reducible assumption
    | with_reducible apply keeps_raise
    | with_reducible apply keeps_dieHist

theorem keeps_poolTake : Keeps s0 s → Keeps s0 (poolTake s) := by
  intro h
  unfold poolTake
  repeat' first
    | with_reducible assumption
    | with_reducible apply Keeps.ite
    | with_reducible refine Keeps.snd (by assumption) ?_
    | with_reducible refine Keeps.fst (by assumption) ?_
    | fail_if_no_progress ((with_reducible apply Keeps.upd) <;> try rfl)
    | intro _
    | split

theorem keeps_poolGive : ∀ a0, Keeps s0 s → Keeps s0 (poolGive a0 s) := by
  intro a0 h
  unfold poolGive
  repeat' first
    | with_reducible assumption
    | fail_if_no_progress ((with_reducible apply Keeps.upd) <;> try rfl)

theorem keeps_reserve : ∀ a0, Keeps s0 s → Keeps s0 (reserve a0 s) := by
  intro a0 h
  unfold reserve
  repeat' first
    | with_reducible assumption
    | with_reducible apply keeps_poolTake
    | with_reducible apply Keeps.ite
    | intro _

theorem keeps_markHard : ∀ a0 a1, Keeps s0 s → Keeps s0 (markHard a0 a1 s) := by
  intro a0 a1 h
  unfold markHard
  repeat' first
    | with_reducible assumption
    | with_reducible apply Keeps.ite
    | fail_if_no_progress ((with_reducible apply Keeps.upd) <;> try rfl)
    | intro _

theorem keeps_startSwap : ∀ a0 a1 a2 a3 a4, Keeps s0 s → Keeps s0 (startSwap a0 a1 a2 a3 a4 s) := by
  intro a0 a1 a2 a3 a4 h
  unfold startSwap
  repeat' first
    | with_reducible assumption
    | with_reducible apply keeps_setSwap
    | with_reducible apply keeps_reserve

theorem keeps_swapFail : ∀ a0 a1, Keeps s0 s → Keeps s0 (swapFail a0 a1 s) := by
  intro a0 a1 h
  unfold swapFail
  repeat' first
    | with_reducible assumption
    | with_reducible apply keeps_takeOut
    | with_reducible apply keeps_raise
    | with_reducible apply Keeps.ite
    | fail_if_no_progress ((with_reducible apply Keeps.upd) <;> try rfl)
    | intro _

theorem keeps_autoSwap : ∀ a0 a1, Keeps s0 s → Keeps s0 (autoSwap a0 a1 s) := by
  intro a0 a1 h
  unfold autoSwap
  repeat' first
    | with_reducible assumption
    | with_reducible apply keeps_startSwap
    | with_reducible apply keeps_swapFail
    | with_reducible apply Keeps.ite
    | with_reducible refine Keeps.snd (by assumption) ?_
    | with_reducible refine Keeps.fst (by assumption) ?_
    | fail_if_no_progress ((with_reducible apply Keeps.upd) <;> try rfl)
    | intro _
    | split

theorem keeps_serveWait (p : Nat) : ∀ (k : Nat) {s : State}, Keeps s0 s → Keeps s0 (serveWait p k s)
  | 0, _, h => h
  | k + 1, _, h => by
    unfold serveWait
    split
    · exact h
    · split
      · exact keeps_serveWait p k (keeps_autoSwap _ _ (h.upd rfl rfl rfl rfl rfl rfl rfl))
      · exact h

theorem keeps_spareFails : ∀ a0 a1, Keeps s0 s → Keeps s0 (spareFails a0 a1 s) := by
  intro a0 a1 h
  unfold spareFails
  repeat' first
    | with_reducible assumption
    | with_reducible apply keeps_setSwap
    | with_reducible apply keeps_reserve
    | with_reducible apply keeps_endJob
    | with_reducible apply keeps_serveWait
    | with_reducible apply keeps_swapFail
    | with_reducible apply keeps_raise
    | with_reducible apply Keeps.ite
    | with_reducible refine Keeps.foldl (fun u x hu => ?_) _ ?_
    | with_reducible refine Keeps.foldlFst (fun u x hu => ?_) _ ?_
    | with_reducible refine Keeps.foldlSnd (fun u x hu => ?_) _ ?_
    | with_reducible refine Keeps.snd (by assumption) ?_
    | with_reducible refine Keeps.fst (by assumption) ?_
    | fail_if_no_progress ((with_reducible apply Keeps.upd) <;> try rfl)
    | intro _
    | split
    | dsimp only

theorem keeps_failUnit : ∀ a0 a1, Keeps s0 s → Keeps s0 (failUnit a0 a1 s) := by
  intro a0 a1 h
  unfold failUnit
  repeat' first
    | with_reducible assumption
    | with_reducible apply keeps_autoSwap
    | with_reducible apply keeps_unitFail
    | with_reducible apply keeps_markHard
    | with_reducible apply Keeps.ite
    | with_reducible refine Keeps.snd (by assumption) ?_
    | with_reducible refine Keeps.fst (by assumption) ?_
    | fail_if_no_progress ((with_reducible apply Keeps.upd) <;> try rfl)
    | intro _
    | split

theorem keeps_hardFailure : ∀ a0 a1 a2, Keeps s0 s → Keeps s0 (hardFailure a0 a1 a2 s) := by
  intro a0 a1 a2 h
  unfold hardFailure
  repeat' first
    | with_reducible assumption
    | with_reducible apply keeps_spareFails
    | with_reducible apply keeps_setSwap
    | with_reducible apply keeps_unitFail
    | with_reducible apply keeps_markHard
    | with_reducible apply keeps_failUnit
    | with_reducible apply Keeps.ite
    | with_reducible refine Keeps.snd (by assumption) ?_
    | with_reducible refine Keeps.fst (by assumption) ?_
    | fail_if_no_progress ((with_reducible apply Keeps.upd) <;> try rfl)
    | intro _
    | split

theorem keeps_monitorFinds : ∀ a0 a1, Keeps s0 s → Keeps s0 (monitorFinds a0 a1 s) := by
  intro a0 a1 h
  unfold monitorFinds
  repeat' first
    | with_reducible assumption
    | with_reducible apply keeps_hardFailure
    | with_reducible apply Keeps.ite
    | intro _

theorem keeps_cutover : ∀ a0 a1, Keeps s0 s → Keeps s0 (cutover a0 a1 s) := by
  intro a0 a1 h
  unfold cutover
  repeat' first
    | with_reducible assumption
    | with_reducible apply keeps_takeOut
    | with_reducible apply keeps_setSwap
    | with_reducible apply keeps_raise
    | with_reducible apply keeps_endJob
    | with_reducible apply keeps_serveWait
    | with_reducible apply Keeps.ite
    | fail_if_no_progress ((with_reducible apply Keeps.upd) <;> try rfl)
    | intro _

theorem keeps_handover : ∀ a0, Keeps s0 s → KeepsRes s0 (handover a0 s) := by
  intro a0 h
  unfold handover
  repeat' first
    | with_reducible assumption
    | with_reducible apply keeps_gapStart
    | with_reducible apply keeps_refuse
    | with_reducible apply KeepsRes.reply
    | with_reducible apply KeepsRes.wait
    | with_reducible apply KeepsRes.queued
    | with_reducible apply KeepsRes.ite
    | with_reducible apply Keeps.ite
    | with_reducible refine Keeps.snd (by assumption) ?_
    | with_reducible refine Keeps.fst (by assumption) ?_
    | intro _
    | split

theorem keeps_bodyHealthSpareSwap : ∀ a0, Keeps s0 s → KeepsRes s0 (bodyHealthSpareSwap a0 s) := by
  intro a0 h
  unfold bodyHealthSpareSwap
  repeat' first
    | with_reducible assumption
    | with_reducible apply keeps_refuse
    | with_reducible apply keeps_handover
    | with_reducible apply keeps_startSwap
    | with_reducible apply KeepsRes.reply
    | with_reducible apply KeepsRes.wait
    | with_reducible apply KeepsRes.queued
    | with_reducible apply KeepsRes.ite
    | with_reducible apply Keeps.ite
    | with_reducible refine Keeps.snd (by assumption) ?_
    | with_reducible refine Keeps.fst (by assumption) ?_
    | fail_if_no_progress ((with_reducible apply Keeps.upd) <;> try rfl)
    | intro _
    | split

theorem keeps_rejoin : ∀ a0 a1, Keeps s0 s → Keeps s0 (rejoin a0 a1 s) := by
  intro a0 a1 h
  unfold rejoin
  repeat' first
    | with_reducible assumption
    | with_reducible apply keeps_poolGive
    | with_reducible apply Keeps.ite
    | with_reducible refine Keeps.snd (by assumption) ?_
    | with_reducible refine Keeps.fst (by assumption) ?_
    | fail_if_no_progress ((with_reducible apply Keeps.upd) <;> try rfl)
    | intro _
    | split

theorem keeps_retestComplete : ∀ a0 a1 a2 a3, Keeps s0 s → Keeps s0 (retestComplete a0 a1 a2 a3 s) := by
  intro a0 a1 a2 a3 h
  unfold retestComplete
  repeat' first
    | with_reducible assumption
    | with_reducible apply keeps_rejoin
    | with_reducible apply keeps_endJob
    | with_reducible apply Keeps.ite
    | intro _

theorem keeps_execUnitRetestComplete : ∀ a0, Keeps s0 s → KeepsOut s0 (execUnitRetestComplete a0 s) := by
  intro a0 h
  unfold execUnitRetestComplete
  repeat' first
    | with_reducible assumption
    | with_reducible apply keeps_retestComplete
    | with_reducible apply KeepsOut.next
    | with_reducible refine Keeps.snd (by assumption) ?_
    | with_reducible refine Keeps.fst (by assumption) ?_
    | split

theorem keeps_bodyHealthSpareGet : ∀ a0, Keeps s0 s → KeepsRes s0 (bodyHealthSpareGet a0 s) := by
  intro a0 h
  unfold bodyHealthSpareGet
  repeat' first
    | with_reducible assumption
    | with_reducible apply KeepsRes.reply

theorem keeps_bodyHealthCpGet : ∀ a0, Keeps s0 s → KeepsRes s0 (bodyHealthCpGet a0 s) := by
  intro a0 h
  unfold bodyHealthCpGet
  repeat' first
    | with_reducible assumption
    | with_reducible apply KeepsRes.reply

theorem keeps_recommend : ∀ a0 a1 a2, Keeps s0 s → Keeps s0 (recommend a0 a1 a2 s) := by
  intro a0 a1 a2 h
  unfold recommend
  repeat' first
    | with_reducible assumption
    | with_reducible apply keeps_raise
    | with_reducible apply Keeps.ite
    | with_reducible refine Keeps.snd (by assumption) ?_
    | with_reducible refine Keeps.fst (by assumption) ?_
    | fail_if_no_progress ((with_reducible apply Keeps.upd) <;> try rfl)
    | intro _

theorem keeps_wearAge : ∀ a0, Keeps s0 s → Keeps s0 (wearAge a0 s) := by
  intro a0 h
  unfold wearAge
  repeat' first
    | with_reducible assumption
    | with_reducible apply keeps_recommend
    | with_reducible apply Keeps.ite
    | with_reducible refine Keeps.snd (by assumption) ?_
    | with_reducible refine Keeps.fst (by assumption) ?_
    | fail_if_no_progress ((with_reducible apply Keeps.upd) <;> try rfl)
    | intro _
    | split

theorem keeps_wearWire : ∀ a0, Keeps s0 s → Keeps s0 (wearWire a0 s) := by
  intro a0 h
  unfold wearWire
  repeat' first
    | with_reducible assumption
    | with_reducible apply keeps_recommend
    | with_reducible apply Keeps.ite
    | with_reducible refine Keeps.snd (by assumption) ?_
    | with_reducible refine Keeps.fst (by assumption) ?_
    | fail_if_no_progress ((with_reducible apply Keeps.upd) <;> try rfl)
    | intro _
    | split

theorem keeps_wearOne : ∀ a0, Keeps s0 s → Keeps s0 (wearOne a0 s) := by
  intro a0 h
  unfold wearOne
  repeat' first
    | with_reducible assumption
    | with_reducible apply keeps_wearWire
    | with_reducible apply keeps_recommend
    | with_reducible apply keeps_wearAge
    | with_reducible apply Keeps.ite
    | with_reducible refine Keeps.foldl (fun u x hu => ?_) _ ?_
    | fail_if_no_progress ((with_reducible apply Keeps.upd) <;> try rfl)
    | intro _

theorem keeps_wearSample : ∀ a0, Keeps s0 s → Keeps s0 (wearSample a0 s) := by
  intro a0 h
  unfold wearSample
  repeat' first
    | with_reducible assumption
    | with_reducible apply keeps_wearOne
    | with_reducible refine Keeps.foldl (fun u x hu => ?_) _ ?_
    | fail_if_no_progress ((with_reducible apply Keeps.upd) <;> try rfl)

theorem keeps_execHealthWearSample : ∀ a0, Keeps s0 s → KeepsOut s0 (execHealthWearSample a0 s) := by
  intro a0 h
  unfold execHealthWearSample
  repeat' first
    | with_reducible assumption
    | with_reducible apply keeps_wearSample
    | with_reducible apply KeepsOut.next
    | with_reducible exact KeepsOut.refused
    | with_reducible apply KeepsOut.ite
    | with_reducible apply Keeps.ite
    | intro _

theorem keeps_convergedBase : ∀ a0, Keeps s0 s → Keeps s0 (convergedBase a0 s) := by
  intro a0 h
  unfold convergedBase
  repeat' first
    | with_reducible assumption
    | with_reducible apply Keeps.ite
    | fail_if_no_progress ((with_reducible apply Keeps.upd) <;> try rfl)
    | intro _

theorem keeps_marginScan : ∀ a0 a1 a2, Keeps s0 s → Keeps s0 (marginScan a0 a1 a2 s) := by
  intro a0 a1 a2 h
  unfold marginScan
  repeat' first
    | with_reducible assumption
    | with_reducible apply keeps_recommend
    | with_reducible apply Keeps.ite
    | with_reducible refine Keeps.foldl (fun u x hu => ?_) _ ?_
    | with_reducible refine Keeps.foldlFst (fun u x hu => ?_) _ ?_
    | with_reducible refine Keeps.foldlSnd (fun u x hu => ?_) _ ?_
    | with_reducible refine Keeps.snd (by assumption) ?_
    | with_reducible refine Keeps.fst (by assumption) ?_
    | fail_if_no_progress ((with_reducible apply Keeps.upd) <;> try rfl)
    | intro _
    | split
    | dsimp only

theorem keeps_execSerdesMarginScan : ∀ a0 a1 a2, Keeps s0 s → KeepsOut s0 (execSerdesMarginScan a0 a1 a2 s) := by
  intro a0 a1 a2 h
  unfold execSerdesMarginScan
  repeat' first
    | with_reducible assumption
    | with_reducible apply keeps_marginScan
    | with_reducible apply KeepsOut.next
    | with_reducible exact KeepsOut.refused
    | with_reducible apply KeepsOut.ite
    | with_reducible apply Keeps.ite
    | with_reducible refine Keeps.snd (by assumption) ?_
    | with_reducible refine Keeps.fst (by assumption) ?_
    | intro _
    | split

theorem keeps_bodyHealthGet : ∀ a0, Keeps s0 s → KeepsRes s0 (bodyHealthGet a0 s) := by
  intro a0 h
  unfold bodyHealthGet
  repeat' first
    | with_reducible assumption
    | with_reducible apply KeepsRes.reply
    | with_reducible apply KeepsRes.wait
    | with_reducible apply KeepsRes.queued
    | with_reducible apply KeepsRes.ite
    | with_reducible apply Keeps.ite
    | with_reducible refine Keeps.snd (by assumption) ?_
    | with_reducible refine Keeps.fst (by assumption) ?_
    | fail_if_no_progress ((with_reducible apply Keeps.upd) <;> try rfl)
    | intro _

theorem keeps_setPin : ∀ a0 a1, Keeps s0 s → Keeps s0 (setPin a0 a1 s) := by
  intro a0 a1 h
  unfold setPin
  repeat' first
    | with_reducible assumption
    | fail_if_no_progress ((with_reducible apply Keeps.upd) <;> try rfl)

theorem keeps_guardEvent : ∀ a0 a1 a2, Keeps s0 s → Keeps s0 (guardEvent a0 a1 a2 s) := by
  intro a0 a1 a2 h
  unfold guardEvent
  repeat' first
    | with_reducible assumption
    | with_reducible apply keeps_raise

theorem keeps_rearm : Keeps s0 s → Keeps s0 (rearm s) := by
  intro h
  unfold rearm
  repeat' first
    | with_reducible assumption
    | with_reducible apply keeps_raise
    | with_reducible apply Keeps.ite
    | fail_if_no_progress ((with_reducible apply Keeps.upd) <;> try rfl)
    | intro _

theorem keeps_driverGuard : ∀ a0, Keeps s0 s → Keeps s0 (driverGuard a0 s) := by
  intro a0 h
  unfold driverGuard
  repeat' first
    | with_reducible assumption
    | with_reducible apply Keeps.ite
    | fail_if_no_progress ((with_reducible apply Keeps.upd) <;> try rfl)

theorem keeps_guardEffect : ∀ a0 a1 a2, Keeps s0 s → Keeps s0 (guardEffect a0 a1 a2 s) := by
  intro a0 a1 a2 h
  unfold guardEffect
  repeat' first
    | with_reducible assumption
    | with_reducible apply keeps_driverGuard
    | with_reducible apply keeps_raise
    | with_reducible apply keeps_rearm
    | with_reducible apply Keeps.ite
    | fail_if_no_progress ((with_reducible apply Keeps.upd) <;> try rfl)
    | intro _

theorem keeps_guardPolarity : ∀ a0, Keeps s0 s → Keeps s0 (guardPolarity a0 s) := by
  intro a0 h
  unfold guardPolarity
  repeat' first
    | with_reducible assumption
    | with_reducible apply keeps_setPin
    | with_reducible apply keeps_guardEvent
    | with_reducible apply Keeps.ite
    | with_reducible refine Keeps.foldl (fun u x hu => ?_) _ ?_
    | with_reducible refine Keeps.foldlFst (fun u x hu => ?_) _ ?_
    | with_reducible refine Keeps.foldlSnd (fun u x hu => ?_) _ ?_
    | with_reducible refine Keeps.snd (by assumption) ?_
    | with_reducible refine Keeps.fst (by assumption) ?_
    | fail_if_no_progress ((with_reducible apply Keeps.upd) <;> try rfl)
    | intro _
    | split
    | dsimp only

theorem keeps_guardRetry : ∀ a0, Keeps s0 s → Keeps s0 (guardRetry a0 s) := by
  intro a0 h
  unfold guardRetry
  repeat' first
    | with_reducible assumption
    | with_reducible apply Keeps.ite
    | with_reducible refine Keeps.snd (by assumption) ?_
    | with_reducible refine Keeps.fst (by assumption) ?_
    | fail_if_no_progress ((with_reducible apply Keeps.upd) <;> try rfl)
    | intro _
    | split

theorem keeps_holdVolts : ∀ a0, Keeps s0 s → Keeps s0 (holdVolts a0 s) := by
  intro a0 h
  unfold holdVolts
  repeat' first
    | with_reducible assumption
    | with_reducible apply keeps_rearm
    | fail_if_no_progress ((with_reducible apply Keeps.upd) <;> try rfl)

theorem keeps_guardOne : ∀ a0, Keeps s0 s → Keeps s0 (guardOne a0 s) := by
  intro a0 h
  unfold guardOne
  repeat' first
    | with_reducible assumption
    | with_reducible apply keeps_setPin
    | with_reducible apply keeps_guardEvent
    | with_reducible apply keeps_guardEffect
    | with_reducible apply keeps_guardPolarity
    | with_reducible apply keeps_holdVolts
    | with_reducible apply keeps_guardRetry
    | with_reducible apply Keeps.ite
    | with_reducible refine Keeps.snd (by assumption) ?_
    | with_reducible refine Keeps.fst (by assumption) ?_
    | intro _

theorem keeps_bodySysIoSet : ∀ a0, Keeps s0 s → KeepsRes s0 (bodySysIoSet a0 s) := by
  intro a0 h
  unfold bodySysIoSet
  repeat' first
    | with_reducible assumption
    | with_reducible apply keeps_done
    | with_reducible apply keeps_driverGuard
    | with_reducible apply KeepsRes.reply
    | with_reducible apply KeepsRes.wait
    | with_reducible apply KeepsRes.queued
    | with_reducible apply KeepsRes.ite
    | with_reducible apply Keeps.ite
    | with_reducible refine Keeps.foldl (fun u x hu => ?_) _ ?_
    | fail_if_no_progress ((with_reducible apply Keeps.upd) <;> try rfl)

theorem keeps_ioFlip : ∀ a0, Keeps s0 s → Keeps s0 (ioFlip a0 s) := by
  intro a0 h
  unfold ioFlip
  repeat' first
    | with_reducible assumption
    | with_reducible apply Keeps.ite
    | fail_if_no_progress ((with_reducible apply Keeps.upd) <;> try rfl)
    | intro _

theorem keeps_ioSample (lv out : Nat → Bool) (n : Nat) {sc : State × List Nat} (h : Keeps s0 sc.1) : Keeps s0 (ioSample lv out n sc).1 := by
  obtain ⟨s, ch⟩ := sc
  dsimp only at h
  unfold ioSample
  dsimp only
  split
  · exact h.upd rfl rfl rfl rfl rfl rfl rfl
  · generalize (if lv n = ioLevel s n then 0 else tget zeroN s.fio.cand n + 1) = c
    split
    · exact keeps_ioFlip n (h.upd rfl rfl rfl rfl rfl rfl rfl)
    · exact h.upd rfl rfl rfl rfl rfl rfl rfl

theorem keeps_ioEvent : ∀ a0, Keeps s0 s → Keeps s0 (ioEvent a0 s) := by
  intro a0 h
  unfold ioEvent
  repeat' first
    | with_reducible assumption
    | with_reducible apply keeps_raise
    | with_reducible apply Keeps.ite
    | intro _

theorem keeps_ioInputSample (gpio : PinSense 16) (alm : PinSense 4) (h : Keeps s0 s) : Keeps s0 (ioInputSample gpio alm s) := by
  unfold ioInputSample
  dsimp only
  with_reducible refine Keeps.foldl (fun _ n k => keeps_ioEvent n k) _ ?_
  with_reducible exact Keeps.foldlFst (fun _ n k => keeps_ioSample _ _ n k) _ (show Keeps s0 (s, ([] : List Nat)).1 from h)

theorem keeps_execIoInputSample : ∀ a0 a1, Keeps s0 s → KeepsOut s0 (execIoInputSample a0 a1 s) := by
  intro a0 a1 h
  unfold execIoInputSample
  repeat' first
    | with_reducible assumption
    | with_reducible apply keeps_ioInputSample
    | with_reducible apply KeepsOut.next
    | with_reducible apply KeepsOut.ite
    | with_reducible apply Keeps.ite
    | intro _

theorem keeps_bodySysIoGet : ∀ a0, Keeps s0 s → KeepsRes s0 (bodySysIoGet a0 s) := by
  intro a0 h
  unfold bodySysIoGet
  repeat' first
    | with_reducible assumption
    | with_reducible apply KeepsRes.reply
    | with_reducible apply KeepsRes.wait
    | with_reducible apply KeepsRes.queued
    | with_reducible apply KeepsRes.ite
    | with_reducible apply Keeps.ite
    | fail_if_no_progress ((with_reducible apply Keeps.upd) <;> try rfl)
    | intro _

theorem keeps_writeFlacon : ∀ a0, Keeps s0 s → Keeps s0 (writeFlacon a0 s) := by
  intro a0 h
  unfold writeFlacon
  repeat' first
    | with_reducible assumption
    | with_reducible refine Keeps.snd (by assumption) ?_
    | with_reducible refine Keeps.fst (by assumption) ?_
    | fail_if_no_progress ((with_reducible apply Keeps.upd) <;> try rfl)
    | split

theorem keeps_tornWrite : Keeps s0 s → Keeps s0 (tornWrite s) := by
  intro h
  unfold tornWrite
  repeat' first
    | with_reducible assumption
    | with_reducible apply keeps_draw
    | with_reducible apply Keeps.ite
    | with_reducible refine Keeps.snd (by assumption) ?_
    | with_reducible refine Keeps.fst (by assumption) ?_
    | fail_if_no_progress ((with_reducible apply Keeps.upd) <;> try rfl)
    | intro _
    | split

theorem keeps_storeTorn : Keeps s0 s → Keeps s0 (storeTorn s) := by
  intro h
  unfold storeTorn
  repeat' first
    | with_reducible assumption
    | with_reducible apply keeps_tornWrite
    | with_reducible apply Keeps.ite
    | with_reducible refine Keeps.snd (by assumption) ?_
    | with_reducible refine Keeps.fst (by assumption) ?_
    | intro _

theorem keeps_capMeasure : ∀ a0 a1 a2, Keeps s0 s → Keeps s0 (capMeasure a0 a1 a2 s) := by
  intro a0 a1 a2 h
  unfold capMeasure
  repeat' first
    | with_reducible assumption
    | with_reducible apply keeps_rearm
    | with_reducible apply keeps_endJob
    | with_reducible apply Keeps.ite
    | with_reducible refine Keeps.foldl (fun u x hu => ?_) _ ?_
    | with_reducible refine Keeps.foldlFst (fun u x hu => ?_) _ ?_
    | with_reducible refine Keeps.foldlSnd (fun u x hu => ?_) _ ?_
    | with_reducible refine Keeps.snd (by assumption) ?_
    | with_reducible refine Keeps.fst (by assumption) ?_
    | fail_if_no_progress ((with_reducible apply Keeps.upd) <;> try rfl)
    | intro _
    | split
    | dsimp only

theorem keeps_execCapacitorMeasurement : ∀ a0 a1 a2, Keeps s0 s → KeepsOut s0 (execCapacitorMeasurement a0 a1 a2 s) := by
  intro a0 a1 a2 h
  unfold execCapacitorMeasurement
  repeat' first
    | with_reducible assumption
    | with_reducible apply keeps_capMeasure
    | with_reducible apply KeepsOut.next
    | with_reducible apply KeepsOut.ite
    | with_reducible apply Keeps.ite
    | intro _

theorem keeps_execSaveStageRefresh : Keeps s0 s → KeepsOut s0 (execSaveStageRefresh s) := by
  intro h
  unfold execSaveStageRefresh
  repeat' first
    | with_reducible assumption
    | with_reducible apply KeepsOut.next
    | with_reducible apply KeepsOut.ite
    | with_reducible apply Keeps.ite
    | fail_if_no_progress ((with_reducible apply Keeps.upd) <;> try rfl)
    | intro _

theorem keeps_checkpointComplete : ∀ a0, Keeps s0 s → Keeps s0 (checkpointComplete a0 s) := by
  intro a0 h
  unfold checkpointComplete
  repeat' first
    | with_reducible assumption
    | with_reducible apply keeps_endJob
    | with_reducible apply keeps_writeFlacon

theorem keeps_execCheckpointComplete : Keeps s0 s → KeepsOut s0 (execCheckpointComplete s) := by
  intro h
  unfold execCheckpointComplete
  repeat' first
    | with_reducible assumption
    | with_reducible apply keeps_checkpointComplete
    | with_reducible apply KeepsOut.next
    | with_reducible apply KeepsOut.ite
    | with_reducible apply Keeps.ite
    | with_reducible refine Keeps.snd (by assumption) ?_
    | with_reducible refine Keeps.fst (by assumption) ?_
    | intro _
    | split

theorem keeps_bodySaveConfigSet : ∀ a0, Keeps s0 s → KeepsRes s0 (bodySaveConfigSet a0 s) := by
  intro a0 h
  unfold bodySaveConfigSet
  repeat' first
    | with_reducible assumption
    | with_reducible apply keeps_done
    | with_reducible apply keeps_rearm
    | with_reducible apply KeepsRes.reply
    | with_reducible apply KeepsRes.wait
    | with_reducible apply KeepsRes.queued
    | fail_if_no_progress ((with_reducible apply Keeps.upd) <;> try rfl)

theorem keeps_bodySaveGet : ∀ a0, Keeps s0 s → KeepsRes s0 (bodySaveGet a0 s) := by
  intro a0 h
  unfold bodySaveGet
  repeat' first
    | with_reducible assumption
    | with_reducible apply KeepsRes.reply

theorem keeps_bodySaveTest : ∀ a0, Keeps s0 s → KeepsRes s0 (bodySaveTest a0 s) := by
  intro a0 h
  unfold bodySaveTest
  repeat' first
    | with_reducible assumption
    | with_reducible apply keeps_refuse
    | with_reducible apply KeepsRes.reply
    | with_reducible apply KeepsRes.wait
    | with_reducible apply KeepsRes.queued
    | with_reducible apply KeepsRes.ite
    | with_reducible apply Keeps.ite
    | intro _

theorem keeps_bodyEvtLogRead (p : Packet) (h : Keeps s0 s) : KeepsRes s0 (bodyEvtLogRead p s) := by
  have k := keeps_wmPut (pf p.params 0 22 0) (padTo 4096 0 (s.evt.log.flatMap recBytes)) h
  exact KeepsRes.reply (Keeps.ite (fun _ => k.updEvt rfl rfl rfl rfl rfl rfl fun w => And.intro w.1 (And.intro w.2.1 (Nat.zero_le _))) fun _ => k)

/-! ## Machine/March.lean -/

theorem keeps_borrow : ∀ a0 a1 a2, Keeps s0 s → Keeps s0 (borrow a0 a1 a2 s) := by
  intro a0 a1 a2 h
  unfold borrow
  repeat' first
    | with_reducible assumption
    | with_reducible apply keeps_poolTake
    | with_reducible apply Keeps.ite
    | with_reducible refine Keeps.snd (by assumption) ?_
    | with_reducible refine Keeps.fst (by assumption) ?_
    | fail_if_no_progress ((with_reducible apply Keeps.upd) <;> try rfl)
    | intro _
    | split

theorem keeps_borrowCut : ∀ a0 a1 a2, Keeps s0 s → Keeps s0 (borrowCut a0 a1 a2 s) := by
  intro a0 a1 a2 h
  unfold borrowCut
  repeat' first
    | with_reducible assumption
    | with_reducible apply keeps_poolGive
    | with_reducible apply Keeps.ite
    | fail_if_no_progress ((with_reducible apply Keeps.upd) <;> try rfl)
    | intro _

theorem keeps_borrowReturn : ∀ a0 a1 a2, Keeps s0 s → Keeps s0 (borrowReturn a0 a1 a2 s) := by
  intro a0 a1 a2 h
  unfold borrowReturn
  repeat' first
    | with_reducible assumption
    | with_reducible apply keeps_unitFail
    | with_reducible apply keeps_poolGive
    | with_reducible apply Keeps.ite
    | fail_if_no_progress ((with_reducible apply Keeps.upd) <;> try rfl)
    | intro _

theorem keeps_bgWrap : Keeps s0 s → Keeps s0 (bgWrap s) := by
  intro h
  unfold bgWrap
  repeat' first
    | with_reducible assumption
    | with_reducible apply Keeps.ite
    | fail_if_no_progress ((with_reducible apply Keeps.upd) <;> try rfl)
    | intro _

theorem keeps_bgStripe : Keeps s0 s → Keeps s0 (bgStripe s) := by
  intro h
  unfold bgStripe
  repeat' first
    | with_reducible assumption
    | with_reducible apply keeps_borrow
    | with_reducible apply keeps_bgWrap
    | with_reducible apply Keeps.ite
    | fail_if_no_progress ((with_reducible apply Keeps.upd) <;> try rfl)
    | intro _

theorem keeps_execBackgroundTestStripe : Keeps s0 s → KeepsOut s0 (execBackgroundTestStripe s) := by
  intro h
  unfold execBackgroundTestStripe
  repeat' first
    | with_reducible assumption
    | with_reducible apply keeps_bgStripe
    | with_reducible apply KeepsOut.next
    | with_reducible apply KeepsOut.ite
    | with_reducible apply Keeps.ite
    | intro _

theorem keeps_testTake : ∀ a0 a1 a2 a3 a4 a5 a6, Keeps s0 s → Keeps s0 (testTake a0 a1 a2 a3 a4 a5 a6 s) := by
  intro a0 a1 a2 a3 a4 a5 a6 h
  unfold testTake
  repeat' first
    | with_reducible assumption
    | with_reducible apply keeps_setJob
    | with_reducible apply keeps_borrow
    | with_reducible apply Keeps.ite
    | with_reducible refine Keeps.foldl (fun u x hu => ?_) _ ?_
    | with_reducible refine Keeps.foldlFst (fun u x hu => ?_) _ ?_
    | with_reducible refine Keeps.foldlSnd (fun u x hu => ?_) _ ?_
    | with_reducible refine Keeps.snd (by assumption) ?_
    | with_reducible refine Keeps.fst (by assumption) ?_
    | fail_if_no_progress ((with_reducible apply Keeps.upd) <;> try rfl)
    | intro _
    | split
    | dsimp only

theorem keeps_borrowDrop : Keeps s0 s → Keeps s0 (borrowDrop s) := by
  intro h
  unfold borrowDrop
  repeat' first
    | with_reducible assumption
    | with_reducible apply keeps_poolGive
    | with_reducible apply keeps_borrowReturn
    | with_reducible apply Keeps.ite
    | with_reducible refine Keeps.snd (by assumption) ?_
    | with_reducible refine Keeps.fst (by assumption) ?_
    | fail_if_no_progress ((with_reducible apply Keeps.upd) <;> try rfl)
    | intro _
    | split

theorem keeps_fenceDone : Keeps s0 s → Keeps s0 (fenceDone s) := by
  intro h
  unfold fenceDone
  repeat' first
    | with_reducible assumption
    | with_reducible apply keeps_endJob
    | with_reducible apply Keeps.ite
    | with_reducible refine Keeps.foldl (fun u x hu => ?_) _ ?_
    | with_reducible refine Keeps.snd (by assumption) ?_
    | with_reducible refine Keeps.fst (by assumption) ?_
    | fail_if_no_progress ((with_reducible apply Keeps.upd) <;> try rfl)
    | intro _
    | split

theorem keeps_marchFaults : ∀ a0 a1 a2, Keeps s0 s → Keeps s0 (marchFaults a0 a1 a2 s).2 := by
  intro a0 a1 a2 h
  unfold marchFaults
  repeat' first
    | with_reducible assumption
    | with_reducible apply keeps_startRepair
    | with_reducible apply Keeps.ite
    | with_reducible refine Keeps.foldl (fun u x hu => ?_) _ ?_
    | with_reducible refine Keeps.foldlFst (fun u x hu => ?_) _ ?_
    | with_reducible refine Keeps.foldlSnd (fun u x hu => ?_) _ ?_

theorem keeps_stripeReturned : ∀ a0 a1 a2, Keeps s0 s → Keeps s0 (stripeReturned a0 a1 a2 s) := by
  intro a0 a1 a2 h
  unfold stripeReturned
  repeat' first
    | with_reducible assumption
    | with_reducible apply keeps_borrowCut
    | with_reducible apply keeps_marchFaults
    | with_reducible apply keeps_borrowReturn
    | with_reducible apply keeps_testTake
    | with_reducible apply keeps_fenceDone
    | with_reducible apply Keeps.ite
    | with_reducible refine Keeps.snd (by assumption) ?_
    | with_reducible refine Keeps.fst (by assumption) ?_
    | fail_if_no_progress ((with_reducible apply Keeps.upd) <;> try rfl)
    | intro _
    | split

theorem keeps_execStripeReturned : ∀ a0 a1, Keeps s0 s → KeepsOut s0 (execStripeReturned a0 a1 s) := by
  intro a0 a1 h
  unfold execStripeReturned
  repeat' first
    | with_reducible assumption
    | with_reducible apply keeps_stripeReturned
    | with_reducible apply KeepsOut.next
    | with_reducible apply KeepsOut.ite
    | with_reducible apply Keeps.ite
    | with_reducible refine Keeps.snd (by assumption) ?_
    | with_reducible refine Keeps.fst (by assumption) ?_
    | intro _
    | split

theorem keeps_bodyMemTestStart : ∀ a0, Keeps s0 s → KeepsRes s0 (bodyMemTestStart a0 s) := by
  intro a0 h
  unfold bodyMemTestStart
  repeat' first
    | with_reducible assumption
    | with_reducible apply keeps_refuse
    | with_reducible apply keeps_fenceDone
    | with_reducible apply keeps_borrowDrop
    | with_reducible apply KeepsRes.reply
    | with_reducible apply KeepsRes.wait
    | with_reducible apply KeepsRes.queued
    | with_reducible apply KeepsRes.ite
    | with_reducible apply Keeps.ite
    | fail_if_no_progress ((with_reducible apply Keeps.upd) <;> try rfl)
    | intro _

theorem keeps_memTestEnd (j : Job) (left dn rep unrep skip : Nat) (h : Keeps s0 s) : Keeps s0 (memTestEnd j left dn rep unrep skip s) := by
  unfold memTestEnd
  dsimp only
  have k : Keeps s0 (if (decide (pf j.params 0 5 4 = 1) && pf j.params 0 3 0 == 0) = true then
      { s with wm := s.wm.filter (fun c => !(decide (pf j.params 1 16 0 ≤ c.1 / 4096) &&
        decide (c.1 / 4096 < pf j.params 1 16 0 + pf j.params 2 16 0))) } else s) :=
    Keeps.ite (fun _ => h.updWm rfl rfl rfl rfl (fun w => memFilter_wf w _) rfl rfl) fun _ => h
  exact keeps_endJob _ _ _ (k.upd rfl rfl rfl rfl rfl rfl rfl)

theorem keeps_execMemTestComplete : ∀ a0 a1, Keeps s0 s → KeepsOut s0 (execMemTestComplete a0 a1 s) := by
  intro a0 a1 h
  unfold execMemTestComplete
  repeat' first
    | with_reducible assumption
    | with_reducible apply keeps_marchFaults
    | with_reducible apply keeps_memTestEnd
    | with_reducible apply keeps_testTake
    | with_reducible apply KeepsOut.next
    | with_reducible apply KeepsOut.ite
    | with_reducible apply Keeps.ite
    | with_reducible refine Keeps.snd (by assumption) ?_
    | with_reducible refine Keeps.fst (by assumption) ?_
    | intro _
    | split

theorem keeps_bodyMemTestGet : ∀ a0, Keeps s0 s → KeepsRes s0 (bodyMemTestGet a0 s) := by
  intro a0 h
  unfold bodyMemTestGet
  repeat' first
    | with_reducible assumption
    | with_reducible apply KeepsRes.reply
    | with_reducible apply KeepsRes.wait
    | with_reducible apply KeepsRes.queued
    | with_reducible apply KeepsRes.ite
    | with_reducible apply Keeps.ite
    | fail_if_no_progress ((with_reducible apply Keeps.upd) <;> try rfl)
    | intro _

theorem keeps_bodyMemFenceSet : ∀ a0, Keeps s0 s → KeepsRes s0 (bodyMemFenceSet a0 s) := by
  intro a0 h
  unfold bodyMemFenceSet
  repeat' first
    | with_reducible assumption
    | with_reducible apply keeps_refuse
    | with_reducible apply keeps_done
    | with_reducible apply KeepsRes.reply
    | with_reducible apply KeepsRes.wait
    | with_reducible apply KeepsRes.queued
    | with_reducible apply KeepsRes.ite
    | with_reducible apply Keeps.ite
    | with_reducible refine Keeps.snd (by assumption) ?_
    | with_reducible refine Keeps.fst (by assumption) ?_
    | fail_if_no_progress ((with_reducible apply Keeps.upd) <;> try rfl)
    | intro _

/-! ## Machine/Rings.lean -/

theorem keeps_ringEnable (r : Nat) (v : Word) (hn : (ring s r).en = false) (h : Keeps s0 s) : Keeps s0 (ringEnable r v s) := by
  unfold ringEnable
  dsimp only
  split
  · have k : ∀ db, Keeps s0 (setRing r { ring s r with size := fld v 4 0, en := true, cfgErr := false, index := 0, fault := false, db } s) :=
      fun _ => h.setRing fun _ _ => slots_pos _
    split
    · exact (k _).upd rfl rfl rfl rfl rfl rfl rfl
    · split
      · exact (k _).upd rfl rfl rfl rfl rfl rfl rfl
      · exact k _
  · exact h.setRing fun _ e => absurd (show (ring s r).en = true from e) (by rw [hn]; exact Bool.false_ne_true)

theorem keeps_ringDisable (r : Nat) (v : Word) (h : Keeps s0 s) : Keeps s0 (ringDisable r v s) := by
  have k : Keeps s0 (setRing r (if (ring s r).en then { ring s r with en := false, fault := false }
      else { ring s r with size := fld v 4 0, fault := false }) s) := by
    refine h.setRing fun _ => ?_
    split
    · exact fun e => absurd e (by simp)
    · exact fun e => absurd e (by assumption)
  unfold ringDisable
  dsimp only
  split
  · exact k.upd rfl rfl rfl rfl rfl rfl rfl
  · exact k

theorem keeps_ringCfgWrite (r : Nat) (v : Word) (h : Keeps s0 s) : Keeps s0 (ringCfgWrite r v s) := by
  unfold ringCfgWrite
  split
  · exact h
  · split
    · split
      · exact h
      · rename_i hn
        exact keeps_ringEnable r v (by simpa using hn) h
    · exact keeps_ringDisable r v h

theorem keeps_execRingEnable : ∀ a0 a1, Keeps s0 s → KeepsOut s0 (execRingEnable a0 a1 s) := by
  intro a0 a1 h
  unfold execRingEnable
  repeat' first
    | with_reducible assumption
    | with_reducible apply keeps_ringCfgWrite
    | with_reducible apply KeepsOut.next
    | with_reducible exact KeepsOut.refused
    | with_reducible apply KeepsOut.ite
    | with_reducible apply Keeps.ite
    | intro _

theorem keeps_execRingDisable : ∀ a0 a1, Keeps s0 s → KeepsOut s0 (execRingDisable a0 a1 s) := by
  intro a0 a1 h
  unfold execRingDisable
  repeat' first
    | with_reducible assumption
    | with_reducible apply keeps_ringCfgWrite
    | with_reducible apply KeepsOut.next
    | with_reducible exact KeepsOut.refused
    | with_reducible apply KeepsOut.ite
    | with_reducible apply Keeps.ite
    | intro _

theorem keeps_irqCauses : Keeps s0 s → Keeps s0 (irqCauses s) := by
  intro h
  unfold irqCauses
  repeat' first
    | with_reducible assumption
    | with_reducible apply keeps_evtRefresh
    | with_reducible apply keeps_irqRaise
    | with_reducible apply Keeps.ite
    | intro _

theorem keeps_irqClear : ∀ a0, Keeps s0 s → Keeps s0 (irqClear a0 s) := by
  intro a0 h
  unfold irqClear
  repeat' first
    | with_reducible assumption
    | with_reducible apply keeps_irqCauses
    | fail_if_no_progress ((with_reducible apply Keeps.upd) <;> try rfl)

theorem keeps_execIrqStatusClear : ∀ a0, Keeps s0 s → KeepsOut s0 (execIrqStatusClear a0 s) := by
  intro a0 h
  unfold execIrqStatusClear
  repeat' first
    | with_reducible assumption
    | with_reducible apply keeps_irqClear
    | with_reducible apply KeepsOut.next

theorem keeps_execEvtLostRead : Keeps s0 s → KeepsOut s0 (execEvtLostRead s) := by
  intro h
  unfold execEvtLostRead
  repeat' first
    | with_reducible assumption
    | with_reducible apply KeepsOut.next
    | fail_if_no_progress ((with_reducible apply Keeps.upd) <;> try rfl)

theorem keeps_msixWrite : ∀ a0 a1, Keeps s0 s → Keeps s0 (msixWrite a0 a1 s) := by
  intro a0 a1 h
  unfold msixWrite
  repeat' first
    | with_reducible assumption
    | with_reducible apply Keeps.ite
    | with_reducible refine Keeps.snd (by assumption) ?_
    | with_reducible refine Keeps.fst (by assumption) ?_
    | fail_if_no_progress ((with_reducible apply Keeps.upd) <;> try rfl)
    | intro _
    | split

theorem keeps_setBase (r b : Nat) (h : Keeps s0 s) : Keeps s0 (setRing r { ring s r with base := b } s) := h.setRing fun w => ring_ok w r

theorem keeps_setDb (r d : Nat) (h : Keeps s0 s) : Keeps s0 (setRing r { ring s r with db := d } s) := h.setRing fun w => ring_ok w r

theorem keeps_regWrite (off : Nat) (v : Word) (h : Keeps s0 s) : Keeps s0 (regWrite off v s) := by
  unfold regWrite
  dsimp only
  split
  · exact h.upd rfl rfl rfl rfl rfl rfl rfl
  · split
    · exact keeps_evtRefresh (h.upd rfl rfl rfl rfl rfl rfl rfl)
    · split
      · exact Keeps.ite (fun _ => keeps_setBase _ _ h) fun _ => h
      · exact Keeps.ite (fun _ => keeps_msixWrite _ _ h) fun _ => h

theorem keeps_execRegisterWrite : ∀ a0 a1 a2, Keeps s0 s → KeepsOut s0 (execRegisterWrite a0 a1 a2 s) := by
  intro a0 a1 a2 h
  unfold execRegisterWrite
  repeat' first
    | with_reducible assumption
    | with_reducible apply keeps_regWrite
    | with_reducible apply KeepsOut.next
    | with_reducible apply KeepsOut.ite
    | with_reducible apply Keeps.ite
    | intro _

theorem keeps_replyDoorbell : Keeps s0 s → Keeps s0 (replyDoorbell s) := by
  intro h
  unfold replyDoorbell
  repeat' first
    | with_reducible assumption
    | with_reducible apply keeps_sendLate
    | with_reducible apply Keeps.ite
    | fail_if_no_progress ((with_reducible apply Keeps.upd) <;> try rfl)
    | intro _

theorem keeps_execReplyRingDoorbell : ∀ a0, Keeps s0 s → KeepsOut s0 (execReplyRingDoorbell a0 s) := by
  intro a0 h
  unfold execReplyRingDoorbell
  repeat' first
    | with_reducible assumption
    | with_reducible apply keeps_replyDoorbell
    | with_reducible apply KeepsOut.next

theorem keeps_consumerWrite (v : Nat) (h : Keeps s0 s) : Keeps s0 (consumerWrite v s) := by
  unfold consumerWrite
  dsimp only
  split
  · exact h
  · split
    · exact keeps_raise _ _ _ _ _ (keeps_irqRaise 3 h)
    · exact (keeps_setDb 5 v h).upd rfl rfl rfl rfl rfl rfl rfl

theorem keeps_execEventConsumerIndexWrite : ∀ a0, Keeps s0 s → KeepsOut s0 (execEventConsumerIndexWrite a0 s) := by
  intro a0 h
  unfold execEventConsumerIndexWrite
  repeat' first
    | with_reducible assumption
    | with_reducible apply keeps_consumerWrite
    | with_reducible apply KeepsOut.next

theorem keeps_eventWrite (r : Rec) (h : Keeps s0 s) : Keeps s0 (eventWrite r s) := by
  unfold eventWrite
  exact keeps_evtRefresh ((keeps_ringNext 5 (ring s 5) (keeps_wmPut _ _ h)).updEvt rfl rfl rfl rfl rfl rfl fun w => dequeue_ok w)

theorem keeps_execEventRingWrite : Keeps s0 s → KeepsOut s0 (execEventRingWrite s) := by
  intro h
  unfold execEventRingWrite
  repeat' first
    | with_reducible assumption
    | with_reducible apply keeps_eventWrite
    | with_reducible apply KeepsOut.next
    | with_reducible apply KeepsOut.ite
    | with_reducible apply Keeps.ite
    | with_reducible refine Keeps.snd (by assumption) ?_
    | with_reducible refine Keeps.fst (by assumption) ?_
    | intro _
    | split

theorem keeps_execEventHoldoffExpiry : Keeps s0 s → KeepsOut s0 (execEventHoldoffExpiry s) := by
  intro h
  unfold execEventHoldoffExpiry
  repeat' first
    | with_reducible assumption
    | with_reducible apply keeps_evtRefresh
    | with_reducible apply KeepsOut.next

theorem keeps_ackEnd : ∀ a0 a1, Keeps s0 s → Keeps s0 (ackEnd a0 a1 s) := by
  intro a0 a1 h
  unfold ackEnd
  repeat' first
    | with_reducible assumption
    | with_reducible apply keeps_setSync
    | with_reducible apply keeps_enqueue
    | with_reducible refine Keeps.snd (by assumption) ?_
    | with_reducible refine Keeps.fst (by assumption) ?_
    | fail_if_no_progress ((with_reducible apply Keeps.upd) <;> try rfl)
    | split

theorem keeps_execEventAckPhaseEnd : ∀ a0, Keeps s0 s → KeepsOut s0 (execEventAckPhaseEnd a0 s) := by
  intro a0 h
  unfold execEventAckPhaseEnd
  repeat' first
    | with_reducible assumption
    | with_reducible apply keeps_ackEnd
    | with_reducible apply KeepsOut.next
    | with_reducible refine Keeps.snd (by assumption) ?_
    | with_reducible refine Keeps.fst (by assumption) ?_
    | split

/-! ## Machine/Switch.lean -/

theorem keeps_putConn : ∀ a0 a1, Keeps s0 s → Keeps s0 (putConn a0 a1 s) := by
  intro a0 a1 h
  unfold putConn
  repeat' first
    | with_reducible assumption
    | with_reducible apply Keeps.ite
    | fail_if_no_progress ((with_reducible apply Keeps.upd) <;> try rfl)

theorem keeps_moveRoute : ∀ a0 a2, Keeps s0 s → Keeps s0 (moveRoute a0 s a2) := by
  intro a0 a2 h
  unfold moveRoute
  repeat' first
    | with_reducible assumption
    | with_reducible apply keeps_putConn

theorem keeps_commitEntry : ∀ a0 a1, Keeps s0 s → Keeps s0 (commitEntry a0 a1 s) := by
  intro a0 a1 h
  unfold commitEntry
  repeat' first
    | with_reducible assumption
    | with_reducible apply keeps_moveRoute
    | with_reducible apply keeps_putConn
    | with_reducible apply Keeps.ite
    | with_reducible refine Keeps.foldl (fun u x hu => ?_) _ ?_
    | with_reducible refine Keeps.snd (by assumption) ?_
    | with_reducible refine Keeps.fst (by assumption) ?_
    | fail_if_no_progress ((with_reducible apply Keeps.upd) <;> try rfl)

theorem keeps_connPrune : ∀ a0, Keeps s0 s → Keeps s0 (connPrune a0 s) := by
  intro a0 h
  unfold connPrune
  repeat' first
    | with_reducible assumption
    | fail_if_no_progress ((with_reducible apply Keeps.upd) <;> try rfl)

theorem keeps_apertureWrite : ∀ a0 a1, Keeps s0 s → Keeps s0 (apertureWrite a0 a1 s) := by
  intro a0 a1 h
  unfold apertureWrite
  repeat' first
    | with_reducible assumption
    | with_reducible apply keeps_pulse
    | with_reducible apply keeps_commitEntry
    | with_reducible apply Keeps.ite
    | intro _

theorem keeps_takeSlot : Keeps s0 s → Keeps s0 (takeSlot s) := by
  intro h
  unfold takeSlot
  repeat' first
    | with_reducible assumption
    | fail_if_no_progress ((with_reducible apply Keeps.upd) <;> try rfl)

theorem keeps_apertureQueue : ∀ a0 a1 a2, Keeps s0 s → Keeps s0 (apertureQueue a0 a1 a2 s) := by
  intro a0 a1 a2 h
  unfold apertureQueue
  repeat' first
    | with_reducible assumption
    | fail_if_no_progress ((with_reducible apply Keeps.upd) <;> try rfl)

theorem keeps_apertureServe : Keeps s0 s → Keeps s0 (apertureServe s) := by
  intro h
  unfold apertureServe
  repeat' first
    | with_reducible assumption
    | with_reducible apply keeps_apertureWrite
    | with_reducible apply keeps_takeSlot
    | with_reducible apply keeps_jrnl
    | with_reducible apply Keeps.ite
    | with_reducible refine Keeps.snd (by assumption) ?_
    | with_reducible refine Keeps.fst (by assumption) ?_
    | fail_if_no_progress ((with_reducible apply Keeps.upd) <;> try rfl)
    | intro _
    | split

theorem keeps_execApertureWrite : ∀ a0 a1 a2, Keeps s0 s → KeepsOut s0 (execApertureWrite a0 a1 a2 s) := by
  intro a0 a1 a2 h
  unfold execApertureWrite
  repeat' first
    | with_reducible assumption
    | with_reducible apply keeps_raise
    | with_reducible apply keeps_apertureServe
    | with_reducible apply keeps_apertureQueue
    | with_reducible apply KeepsOut.next
    | with_reducible exact KeepsOut.refused
    | with_reducible apply KeepsOut.ite
    | with_reducible apply Keeps.ite
    | fail_if_no_progress ((with_reducible apply Keeps.upd) <;> try rfl)
    | intro _

theorem keeps_bodyConnSet : ∀ a0, Keeps s0 s → KeepsRes s0 (bodyConnSet a0 s) := by
  intro a0 h
  unfold bodyConnSet
  repeat' first
    | with_reducible assumption
    | with_reducible apply KeepsRes.reply
    | with_reducible apply KeepsRes.wait

theorem keeps_takeBuffer (len : Nat → Bool) (a : Nat) {o : Option Status} {bs : List Byte} {t : State} (h : Keeps s0 s)
    (e : takeBuffer len a s = some (o, bs, t)) : Keeps s0 t := by
  unfold takeBuffer at e
  dsimp only at e
  have k := keeps_handBack a h
  split at e
  · exact nomatch e
  · split at e
    · cases e; exact k
    · split at e
      · cases e; exact k
      · cases e; exact k

theorem keeps_connLoadTaken : ∀ a0 a1, Keeps s0 s → KeepsRes s0 (connLoadTaken a0 a1 s) := by
  intro a0 a1 h
  unfold connLoadTaken
  repeat' first
    | with_reducible assumption
    | with_reducible apply keeps_refuse
    | with_reducible apply KeepsRes.reply
    | with_reducible apply KeepsRes.wait
    | with_reducible apply KeepsRes.queued
    | with_reducible apply KeepsRes.ite
    | with_reducible apply Keeps.ite
    | intro _

theorem keeps_bodyConnOccupancyGet : ∀ a0, Keeps s0 s → KeepsRes s0 (bodyConnOccupancyGet a0 s) := by
  intro a0 h
  unfold bodyConnOccupancyGet
  repeat' first
    | with_reducible assumption
    | with_reducible apply keeps_wmPut
    | with_reducible apply KeepsRes.reply

/-! ## Machine/Lanes.lean -/

theorem keeps_setLane : ∀ a0 a1, Keeps s0 s → Keeps s0 (setLane a0 a1 s) := by
  intro a0 a1 h
  unfold setLane
  repeat' first
    | with_reducible assumption
    | fail_if_no_progress ((with_reducible apply Keeps.upd) <;> try rfl)

theorem keeps_modSd : ∀ a0 a1, Keeps s0 s → Keeps s0 (modSd a0 a1 s) := by
  intro a0 a1 h
  unfold modSd
  repeat' first
    | with_reducible assumption
    | with_reducible apply keeps_setLane

theorem keeps_modDef : ∀ a0 a1, Keeps s0 s → Keeps s0 (modDef a0 a1 s) := by
  intro a0 a1 h
  unfold modDef
  repeat' first
    | with_reducible assumption
    | with_reducible apply keeps_setLane

theorem keeps_modTx : ∀ a0 a1, Keeps s0 s → Keeps s0 (modTx a0 a1 s) := by
  intro a0 a1 h
  unfold modTx
  repeat' first
    | with_reducible assumption
    | with_reducible apply keeps_setLane

theorem keeps_modRx : ∀ a0 a1, Keeps s0 s → Keeps s0 (modRx a0 a1 s) := by
  intro a0 a1 h
  unfold modRx
  repeat' first
    | with_reducible assumption
    | with_reducible apply keeps_setLane

theorem keeps_modAl : ∀ a0 a1, Keeps s0 s → Keeps s0 (modAl a0 a1 s) := by
  intro a0 a1 h
  unfold modAl
  repeat' first
    | with_reducible assumption
    | with_reducible apply keeps_setLane

theorem keeps_setCond : ∀ a0 a1 a2, Keeps s0 s → Keeps s0 (setCond a0 a1 a2 s) := by
  intro a0 a1 a2 h
  unfold setCond
  repeat' first
    | with_reducible assumption
    | with_reducible apply keeps_modDef
    | with_reducible apply Keeps.ite
    | intro _

theorem keeps_condSync : ∀ a0, Keeps s0 s → Keeps s0 (condSync a0 s) := by
  intro a0 h
  unfold condSync
  repeat' first
    | with_reducible assumption
    | with_reducible apply keeps_setCond

theorem keeps_okSync : ∀ a0, Keeps s0 s → Keeps s0 (okSync a0 s) := by
  intro a0 h
  unfold okSync
  repeat' first
    | with_reducible assumption
    | with_reducible apply keeps_modSd

theorem keeps_eyeSync : ∀ a0, Keeps s0 s → Keeps s0 (eyeSync a0 s) := by
  intro a0 h
  unfold eyeSync
  repeat' first
    | with_reducible assumption
    | with_reducible apply keeps_modSd
    | with_reducible apply Keeps.ite
    | intro _

theorem keeps_laneSync : ∀ a0, Keeps s0 s → Keeps s0 (laneSync a0 s) := by
  intro a0 h
  unfold laneSync
  repeat' first
    | with_reducible assumption
    | with_reducible apply keeps_eyeSync
    | with_reducible apply keeps_okSync
    | with_reducible apply keeps_condSync

theorem keeps_laneDefect : ∀ a0 a1 a2 a3, Keeps s0 s → Keeps s0 (laneDefect a0 a1 a2 a3 s) := by
  intro a0 a1 a2 a3 h
  unfold laneDefect
  repeat' first
    | with_reducible assumption
    | with_reducible apply keeps_modDef
    | with_reducible apply keeps_raiseAt
    | with_reducible apply Keeps.ite
    | intro _

theorem keeps_laneClearAll : ∀ a0, Keeps s0 s → Keeps s0 (laneClearAll a0 s) := by
  intro a0 h
  unfold laneClearAll
  repeat' first
    | with_reducible assumption
    | with_reducible apply keeps_laneDefect
    | with_reducible apply keeps_setCond
    | with_reducible apply keeps_modRx
    | with_reducible apply keeps_modDef
    | with_reducible apply Keeps.ite
    | with_reducible refine Keeps.foldl (fun u x hu => ?_) _ ?_
    | intro _

theorem keeps_laneHold : ∀ a0, Keeps s0 s → Keeps s0 (laneHold a0 s) := by
  intro a0 h
  unfold laneHold
  repeat' first
    | with_reducible assumption
    | with_reducible apply keeps_modDef

theorem keeps_laneResume : ∀ a0, Keeps s0 s → Keeps s0 (laneResume a0 s) := by
  intro a0 h
  unfold laneResume
  repeat' first
    | with_reducible assumption
    | with_reducible apply keeps_modDef
    | with_reducible apply Keeps.ite
    | with_reducible refine Keeps.snd (by assumption) ?_
    | with_reducible refine Keeps.fst (by assumption) ?_
    | fail_if_no_progress ((with_reducible apply Keeps.upd) <;> try rfl)
    | intro _
    | split

theorem keeps_huntSync : ∀ a0, Keeps s0 s → Keeps s0 (huntSync a0 s) := by
  intro a0 h
  unfold huntSync
  repeat' first
    | with_reducible assumption
    | with_reducible apply keeps_setLane
    | with_reducible apply Keeps.ite
    | intro _

theorem keeps_alignLose : ∀ a0, Keeps s0 s → Keeps s0 (alignLose a0 s) := by
  intro a0 h
  unfold alignLose
  repeat' first
    | with_reducible assumption
    | with_reducible apply keeps_setLane
    | with_reducible apply keeps_laneSync
    | with_reducible apply keeps_huntSync
    | with_reducible apply Keeps.ite
    | intro _

theorem keeps_alignDrop : ∀ a0, Keeps s0 s → Keeps s0 (alignDrop a0 s) := by
  intro a0 h
  unfold alignDrop
  repeat' first
    | with_reducible assumption
    | with_reducible apply keeps_alignLose
    | with_reducible apply keeps_huntSync
    | with_reducible apply keeps_modAl

theorem keeps_lanesModeChange (h : Keeps s0 s) : Keeps s0 (lanesModeChange s) := by
  unfold lanesModeChange
  repeat' first
    | with_reducible assumption
    | with_reducible apply keeps_huntSync
    | with_reducible refine Keeps.foldl (fun u x hu => ?_) _ ?_

theorem keeps_bodyLaneTxSet : ∀ a0, Keeps s0 s → KeepsRes s0 (bodyLaneTxSet a0 s) := by
  intro a0 h
  unfold bodyLaneTxSet
  repeat' first
    | with_reducible assumption
    | with_reducible apply keeps_refuse
    | with_reducible apply keeps_modSd
    | with_reducible apply keeps_done
    | with_reducible apply KeepsRes.reply
    | with_reducible apply KeepsRes.wait
    | with_reducible apply KeepsRes.queued
    | with_reducible apply KeepsRes.ite
    | with_reducible apply Keeps.ite
    | with_reducible refine Keeps.foldl (fun u x hu => ?_) _ ?_
    | intro _

theorem keeps_txEnables : Keeps s0 s → Keeps s0 (txEnables s) := by
  intro h
  unfold txEnables
  repeat' first
    | with_reducible assumption
    | with_reducible apply keeps_modSd
    | with_reducible apply keeps_endJob
    | with_reducible apply Keeps.ite
    | with_reducible refine Keeps.foldl (fun u x hu => ?_) _ ?_
    | with_reducible refine Keeps.snd (by assumption) ?_
    | with_reducible refine Keeps.fst (by assumption) ?_
    | fail_if_no_progress ((with_reducible apply Keeps.upd) <;> try rfl)
    | intro _
    | split

theorem keeps_chkStop : ∀ a0, Keeps s0 s → Keeps s0 (chkStop a0 s) := by
  intro a0 h
  unfold chkStop
  repeat' first
    | with_reducible assumption
    | with_reducible apply keeps_draw
    | with_reducible apply keeps_modSd
    | with_reducible apply Keeps.ite
    | with_reducible refine Keeps.snd (by assumption) ?_
    | with_reducible refine Keeps.fst (by assumption) ?_
    | intro _

theorem keeps_coefTake : ∀ a0, Keeps s0 s → Keeps s0 (coefTake a0 s) := by
  intro a0 h
  unfold coefTake
  repeat' first
    | with_reducible assumption
    | with_reducible apply keeps_modSd
    | with_reducible apply keeps_draw
    | with_reducible apply Keeps.ite
    | intro _

theorem keeps_rxSetLane : ∀ a0 a1, Keeps s0 s → Keeps s0 (rxSetLane a0 a1 s) := by
  intro a0 a1 h
  unfold rxSetLane
  repeat' first
    | with_reducible assumption
    | with_reducible apply keeps_coefTake
    | with_reducible apply keeps_modSd
    | with_reducible apply keeps_chkStop
    | with_reducible apply keeps_laneClearAll
    | with_reducible apply keeps_laneSync
    | with_reducible apply keeps_alignDrop
    | with_reducible apply keeps_huntSync
    | with_reducible apply keeps_modDef
    | with_reducible apply Keeps.ite
    | intro _

theorem keeps_bodyLaneRxSet : ∀ a0, Keeps s0 s → KeepsRes s0 (bodyLaneRxSet a0 s) := by
  intro a0 h
  unfold bodyLaneRxSet
  repeat' first
    | with_reducible assumption
    | with_reducible apply keeps_refuse
    | with_reducible apply keeps_done
    | with_reducible apply keeps_rxSetLane
    | with_reducible apply KeepsRes.reply
    | with_reducible apply KeepsRes.wait
    | with_reducible apply KeepsRes.queued
    | with_reducible apply KeepsRes.ite
    | with_reducible apply Keeps.ite
    | with_reducible refine Keeps.foldl (fun u x hu => ?_) _ ?_
    | intro _

theorem keeps_bodyLaneSerdesGet : ∀ a0, Keeps s0 s → KeepsRes s0 (bodyLaneSerdesGet a0 s) := by
  intro a0 h
  unfold bodyLaneSerdesGet
  repeat' first
    | with_reducible assumption
    | with_reducible apply keeps_refuse
    | with_reducible apply keeps_coefTake
    | with_reducible apply keeps_wmPut
    | with_reducible apply KeepsRes.reply
    | with_reducible apply KeepsRes.wait
    | with_reducible apply KeepsRes.queued
    | with_reducible apply KeepsRes.ite
    | with_reducible apply Keeps.ite
    | intro _

theorem keeps_loopStart : ∀ a0, Keeps s0 s → Keeps s0 (loopStart a0 s) := by
  intro a0 h
  unfold loopStart
  repeat' first
    | with_reducible assumption
    | with_reducible apply keeps_draw
    | with_reducible apply keeps_modSd
    | with_reducible apply keeps_modTx
    | with_reducible apply keeps_modAl

theorem keeps_bodyLaneLoopSet : ∀ a0, Keeps s0 s → KeepsRes s0 (bodyLaneLoopSet a0 s) := by
  intro a0 h
  unfold bodyLaneLoopSet
  repeat' first
    | with_reducible assumption
    | with_reducible apply keeps_refuse
    | with_reducible apply keeps_done
    | with_reducible apply keeps_laneSync
    | with_reducible apply keeps_modSd
    | with_reducible apply keeps_loopStart
    | with_reducible apply KeepsRes.reply
    | with_reducible apply KeepsRes.wait
    | with_reducible apply KeepsRes.queued
    | with_reducible apply KeepsRes.ite
    | with_reducible apply Keeps.ite
    | intro _

theorem keeps_bodyTestPrbsSet : ∀ a0, Keeps s0 s → KeepsRes s0 (bodyTestPrbsSet a0 s) := by
  intro a0 h
  unfold bodyTestPrbsSet
  repeat' first
    | with_reducible assumption
    | with_reducible apply keeps_refuse
    | with_reducible apply keeps_draw
    | with_reducible apply keeps_chkStop
    | with_reducible apply keeps_done
    | with_reducible apply keeps_modSd
    | with_reducible apply KeepsRes.reply
    | with_reducible apply KeepsRes.wait
    | with_reducible apply KeepsRes.queued
    | with_reducible apply KeepsRes.ite
    | with_reducible apply Keeps.ite
    | with_reducible refine Keeps.snd (by assumption) ?_
    | with_reducible refine Keeps.fst (by assumption) ?_
    | fail_if_no_progress ((with_reducible apply Keeps.upd) <;> try rfl)
    | intro _
    | split

theorem keeps_bodyTestPrbsGet : ∀ a0, Keeps s0 s → KeepsRes s0 (bodyTestPrbsGet a0 s) := by
  intro a0 h
  unfold bodyTestPrbsGet
  repeat' first
    | with_reducible assumption
    | with_reducible apply keeps_refuse
    | with_reducible apply keeps_draw
    | with_reducible apply keeps_modSd
    | with_reducible apply KeepsRes.reply
    | with_reducible apply KeepsRes.wait
    | with_reducible apply KeepsRes.queued
    | with_reducible apply KeepsRes.ite
    | with_reducible apply Keeps.ite
    | with_reducible refine Keeps.snd (by assumption) ?_
    | with_reducible refine Keeps.fst (by assumption) ?_
    | fail_if_no_progress ((with_reducible apply Keeps.upd) <;> try rfl)
    | intro _
    | split

theorem keeps_bodyTestEyeScan : ∀ a0, Keeps s0 s → KeepsRes s0 (bodyTestEyeScan a0 s) := by
  intro a0 h
  unfold bodyTestEyeScan
  repeat' first
    | with_reducible assumption
    | with_reducible apply keeps_refuse
    | with_reducible apply keeps_eyeSync
    | with_reducible apply keeps_modSd
    | with_reducible apply KeepsRes.reply
    | with_reducible apply KeepsRes.wait
    | with_reducible apply KeepsRes.queued
    | with_reducible apply KeepsRes.ite
    | with_reducible apply Keeps.ite
    | intro _

theorem keeps_eyeComplete : ∀ a0 a1 a2 a3 a4, Keeps s0 s → Keeps s0 (eyeComplete a0 a1 a2 a3 a4 s) := by
  intro a0 a1 a2 a3 a4 h
  unfold eyeComplete
  repeat' first
    | with_reducible assumption
    | with_reducible apply keeps_wmPut
    | with_reducible apply keeps_endJob

theorem keeps_execEyeScanComplete : ∀ a0 a1 a2 a3, Keeps s0 s → KeepsOut s0 (execEyeScanComplete a0 a1 a2 a3 s) := by
  intro a0 a1 a2 a3 h
  unfold execEyeScanComplete
  repeat' first
    | with_reducible assumption
    | with_reducible apply keeps_eyeComplete
    | with_reducible apply KeepsOut.next
    | with_reducible exact KeepsOut.refused
    | with_reducible apply KeepsOut.ite
    | with_reducible apply Keeps.ite
    | with_reducible refine Keeps.snd (by assumption) ?_
    | with_reducible refine Keeps.fst (by assumption) ?_
    | intro _
    | split

theorem keeps_eyeAbort : ∀ a0 a1, Keeps s0 s → Keeps s0 (eyeAbort a0 a1 s) := by
  intro a0 a1 h
  unfold eyeAbort
  repeat' first
    | with_reducible assumption
    | with_reducible apply keeps_wmPut
    | fail_if_no_progress ((with_reducible apply Keeps.upd) <;> try rfl)

theorem keeps_losWindowEnd : ∀ a0 a1, Keeps s0 s → Keeps s0 (losWindowEnd a0 a1 s) := by
  intro a0 a1 h
  unfold losWindowEnd
  repeat' first
    | with_reducible assumption
    | with_reducible apply keeps_laneSync
    | with_reducible apply keeps_modSd
    | with_reducible apply Keeps.ite
    | intro _

theorem keeps_loopEcho : ∀ a0 a1, Keeps s0 s → Keeps s0 (loopEcho a0 a1 s) := by
  intro a0 a1 h
  unfold loopEcho
  repeat' first
    | with_reducible assumption
    | with_reducible apply keeps_modSd
    | with_reducible apply Keeps.ite
    | intro _

theorem keeps_cdrLock : ∀ a0 a1, Keeps s0 s → Keeps s0 (cdrLock a0 a1 s) := by
  intro a0 a1 h
  unfold cdrLock
  repeat' first
    | with_reducible assumption
    | with_reducible apply keeps_laneSync
    | with_reducible apply keeps_modSd
    | with_reducible apply Keeps.ite
    | intro _

theorem keeps_cdrLoss : ∀ a0, Keeps s0 s → Keeps s0 (cdrLoss a0 s) := by
  intro a0 h
  unfold cdrLoss
  repeat' first
    | with_reducible assumption
    | with_reducible apply keeps_laneSync
    | with_reducible apply keeps_modSd
    | with_reducible apply Keeps.ite
    | intro _

theorem keeps_execGoodSetRefresh : ∀ a0 a1, Keeps s0 s → KeepsOut s0 (execGoodSetRefresh a0 a1 s) := by
  intro a0 a1 h
  unfold execGoodSetRefresh
  repeat' first
    | with_reducible assumption
    | with_reducible apply keeps_modSd
    | with_reducible apply KeepsOut.next
    | with_reducible exact KeepsOut.refused
    | with_reducible apply KeepsOut.ite
    | with_reducible apply Keeps.ite
    | intro _

theorem keeps_execAdaptationConverged : ∀ a0, Keeps s0 s → KeepsOut s0 (execAdaptationConverged a0 s) := by
  intro a0 h
  unfold execAdaptationConverged
  repeat' first
    | with_reducible assumption
    | with_reducible apply keeps_convergedBase
    | with_reducible apply keeps_modSd
    | with_reducible apply KeepsOut.next
    | with_reducible exact KeepsOut.refused
    | with_reducible apply KeepsOut.ite
    | with_reducible apply Keeps.ite
    | intro _

theorem keeps_loopSlip : ∀ a0 a1, Keeps s0 s → Keeps s0 (loopSlip a0 a1 s) := by
  intro a0 a1 h
  unfold loopSlip
  repeat' first
    | with_reducible assumption
    | with_reducible apply keeps_modSd
    | with_reducible apply keeps_pulse
    | with_reducible apply Keeps.ite
    | with_reducible refine Keeps.snd (by assumption) ?_
    | with_reducible refine Keeps.fst (by assumption) ?_
    | intro _

theorem keeps_execLaneLoopSlip : ∀ a0, Keeps s0 s → KeepsOut s0 (execLaneLoopSlip a0 s) := by
  intro a0 h
  unfold execLaneLoopSlip
  repeat' first
    | with_reducible assumption
    | with_reducible apply keeps_loopSlip
    | with_reducible apply KeepsOut.next
    | with_reducible exact KeepsOut.refused
    | with_reducible apply KeepsOut.ite
    | with_reducible apply Keeps.ite
    | intro _

theorem keeps_prbsLock : ∀ a0 a1, Keeps s0 s → Keeps s0 (prbsLock a0 a1 s) := by
  intro a0 a1 h
  unfold prbsLock
  repeat' first
    | with_reducible assumption
    | with_reducible apply keeps_okSync
    | with_reducible apply keeps_modSd
    | with_reducible apply Keeps.ite
    | with_reducible refine Keeps.snd (by assumption) ?_
    | with_reducible refine Keeps.fst (by assumption) ?_
    | fail_if_no_progress ((with_reducible apply Keeps.upd) <;> try rfl)
    | intro _
    | split

theorem keeps_execPrbsCheckerLock : ∀ a0 a1, Keeps s0 s → KeepsOut s0 (execPrbsCheckerLock a0 a1 s) := by
  intro a0 a1 h
  unfold execPrbsCheckerLock
  repeat' first
    | with_reducible assumption
    | with_reducible apply keeps_prbsLock
    | with_reducible apply KeepsOut.next
    | with_reducible exact KeepsOut.refused
    | with_reducible apply KeepsOut.ite
    | with_reducible apply Keeps.ite
    | intro _

theorem keeps_prbsLoss : ∀ a0 a1 a2 a3, Keeps s0 s → Keeps s0 (prbsLoss a0 a1 a2 a3 s) := by
  intro a0 a1 a2 a3 h
  unfold prbsLoss
  repeat' first
    | with_reducible assumption
    | with_reducible apply keeps_modSd
    | with_reducible apply Keeps.ite
    | intro _

theorem keeps_execPrbsCheckerLoss : ∀ a0 a1 a2, Keeps s0 s → KeepsOut s0 (execPrbsCheckerLoss a0 a1 a2 s) := by
  intro a0 a1 a2 h
  unfold execPrbsCheckerLoss
  repeat' first
    | with_reducible assumption
    | with_reducible apply keeps_prbsLoss
    | with_reducible apply KeepsOut.next
    | with_reducible exact KeepsOut.refused
    | with_reducible apply KeepsOut.ite
    | with_reducible apply Keeps.ite
    | intro _

theorem keeps_serdesFail : ∀ a0, Keeps s0 s → Keeps s0 (serdesFail a0 s) := by
  intro a0 h
  unfold serdesFail
  repeat' first
    | with_reducible assumption
    | with_reducible apply keeps_raise
    | with_reducible apply keeps_laneSync
    | with_reducible apply keeps_modSd
    | with_reducible apply Keeps.ite
    | intro _

theorem keeps_bodyLaneDefectSet : ∀ a0, Keeps s0 s → KeepsRes s0 (bodyLaneDefectSet a0 s) := by
  intro a0 h
  unfold bodyLaneDefectSet
  repeat' first
    | with_reducible assumption
    | with_reducible apply keeps_done
    | with_reducible apply keeps_modDef

theorem keeps_bodyLaneDefectGet : ∀ a0, Keeps s0 s → KeepsRes s0 (bodyLaneDefectGet a0 s) := by
  intro a0 h
  unfold bodyLaneDefectGet
  repeat' first
    | with_reducible assumption
    | with_reducible apply keeps_modDef
    | with_reducible apply KeepsRes.reply
    | with_reducible apply KeepsRes.wait
    | with_reducible apply KeepsRes.queued
    | with_reducible apply KeepsRes.ite
    | with_reducible apply Keeps.ite
    | intro _

theorem keeps_fenceLanes : ∀ a0, Keeps s0 s → Keeps s0 (fenceLanes a0 s) := by
  intro a0 h
  unfold fenceLanes
  repeat' first
    | with_reducible assumption
    | with_reducible apply keeps_setCond
    | with_reducible apply keeps_alignDrop
    | with_reducible apply keeps_chkStop
    | with_reducible apply keeps_laneSync
    | with_reducible apply keeps_modSd
    | with_reducible refine Keeps.foldl (fun u x hu => ?_) _ ?_

theorem keeps_restartLanes : ∀ a0, Keeps s0 s → Keeps s0 (restartLanes a0 s) := by
  intro a0 h
  unfold restartLanes
  repeat' first
    | with_reducible assumption
    | with_reducible apply keeps_laneSync
    | with_reducible apply keeps_huntSync
    | with_reducible apply keeps_setLane
    | with_reducible refine Keeps.foldl (fun u x hu => ?_) _ ?_

theorem keeps_swapBegun : ∀ a0, Keeps s0 s → Keeps s0 (swapBegun a0 s) := by
  intro a0 h
  unfold swapBegun
  repeat' first
    | with_reducible assumption
    | with_reducible apply keeps_laneHold
    | fail_if_no_progress ((with_reducible apply Keeps.upd) <;> try rfl)
    | split

theorem keeps_swapEnded : ∀ a0 a1, Keeps s0 s → Keeps s0 (swapEnded a0 a1 s) := by
  intro a0 a1 h
  unfold swapEnded
  repeat' first
    | with_reducible assumption
    | with_reducible apply keeps_draw
    | with_reducible apply keeps_laneResume
    | with_reducible apply keeps_condSync
    | with_reducible apply keeps_modAl
    | with_reducible apply keeps_modSd
    | with_reducible apply Keeps.ite
    | with_reducible refine Keeps.foldl (fun u x hu => ?_) _ ?_
    | with_reducible refine Keeps.snd (by assumption) ?_
    | with_reducible refine Keeps.fst (by assumption) ?_
    | intro _

/-! ## Machine/Framer.lean -/

theorem keeps_judgeCycle : ∀ a0, Keeps s0 s → Keeps s0 (judgeCycle a0 s) := by
  intro a0 h
  unfold judgeCycle
  repeat' first
    | with_reducible assumption
    | with_reducible apply keeps_setCond

theorem keeps_beginCycle : ∀ a0 a1 a2, Keeps s0 s → Keeps s0 (beginCycle a0 a1 a2 s) := by
  intro a0 a1 a2 h
  unfold beginCycle
  repeat' first
    | with_reducible assumption
    | with_reducible apply keeps_judgeCycle
    | with_reducible apply keeps_setCond
    | with_reducible apply keeps_modAl
    | with_reducible apply keeps_modRx
    | with_reducible apply Keeps.ite
    | with_reducible refine Keeps.snd (by assumption) ?_
    | with_reducible refine Keeps.fst (by assumption) ?_
    | fail_if_no_progress ((with_reducible apply Keeps.upd) <;> try rfl)
    | intro _
    | split

theorem keeps_recordDiff : ∀ a0 a1 a2, Keeps s0 s → Keeps s0 (recordDiff a0 a1 a2 s) := by
  intro a0 a1 a2 h
  unfold recordDiff
  repeat' first
    | with_reducible assumption
    | with_reducible apply keeps_modAl
    | with_reducible apply keeps_pulse
    | with_reducible apply Keeps.ite
    | intro _

theorem keeps_takeMessage : ∀ a0 a1, Keeps s0 s → Keeps s0 (takeMessage a0 a1 s) := by
  intro a0 a1 h
  unfold takeMessage
  repeat' first
    | with_reducible assumption
    | with_reducible apply keeps_modRx
    | with_reducible apply keeps_pulse
    | with_reducible apply Keeps.ite
    | intro _

theorem keeps_takeHeader : ∀ a0 a1, Keeps s0 s → Keeps s0 (takeHeader a0 a1 s) := by
  intro a0 a1 h
  unfold takeHeader
  repeat' first
    | with_reducible assumption
    | with_reducible apply keeps_modRx
    | with_reducible apply keeps_pulse
    | with_reducible apply Keeps.ite
    | intro _

theorem keeps_takeEpoch : ∀ a0, Keeps s0 s → Keeps s0 (takeEpoch a0 s) := by
  intro a0 h
  unfold takeEpoch
  repeat' first
    | with_reducible assumption
    | with_reducible apply keeps_modRx
    | with_reducible apply keeps_pulse
    | with_reducible apply Keeps.ite
    | intro _

theorem keeps_alignMode : ∀ a0 a1, Keeps s0 s → Keeps s0 (alignMode a0 a1 s) := by
  intro a0 a1 h
  unfold alignMode
  repeat' first
    | with_reducible assumption
    | with_reducible apply keeps_modAl
    | with_reducible apply Keeps.ite
    | intro _

theorem keeps_alignedSection : ∀ a0 a1 a2 a3 a4 a5, Keeps s0 s → Keeps s0 (alignedSection a0 a1 a2 a3 a4 a5 s) := by
  intro a0 a1 a2 a3 a4 a5 h
  unfold alignedSection
  repeat' first
    | with_reducible assumption
    | with_reducible apply keeps_modRx
    | with_reducible apply keeps_recordDiff
    | with_reducible apply keeps_beginCycle
    | with_reducible apply keeps_takeHeader
    | with_reducible apply keeps_tapInc
    | with_reducible apply keeps_takeMessage
    | with_reducible apply keeps_takeEpoch
    | with_reducible apply keeps_modAl
    | with_reducible apply Keeps.ite
    | with_reducible refine Keeps.snd (by assumption) ?_
    | with_reducible refine Keeps.fst (by assumption) ?_
    | intro _

theorem keeps_alignGain : ∀ a0, Keeps s0 s → Keeps s0 (alignGain a0 s) := by
  intro a0 h
  unfold alignGain
  repeat' first
    | with_reducible assumption
    | with_reducible apply keeps_draw
    | with_reducible apply keeps_modAl
    | with_reducible apply keeps_laneSync
    | with_reducible apply keeps_modRx
    | with_reducible apply Keeps.ite
    | with_reducible refine Keeps.snd (by assumption) ?_
    | with_reducible refine Keeps.fst (by assumption) ?_
    | fail_if_no_progress ((with_reducible apply Keeps.upd) <;> try rfl)
    | intro _
    | split

theorem keeps_raiseAmbig : ∀ a0, Keeps s0 s → Keeps s0 (raiseAmbig a0 s) := by
  intro a0 h
  unfold raiseAmbig
  repeat' first
    | with_reducible assumption
    | with_reducible apply keeps_pulse
    | with_reducible apply keeps_modAl
    | with_reducible apply Keeps.ite
    | with_reducible refine Keeps.snd (by assumption) ?_
    | with_reducible refine Keeps.fst (by assumption) ?_
    | intro _

theorem keeps_ambigAge : ∀ a0, Keeps s0 s → Keeps s0 (ambigAge a0 s) := by
  intro a0 h
  unfold ambigAge
  repeat' first
    | with_reducible assumption
    | with_reducible apply keeps_modAl
    | with_reducible apply Keeps.ite
    | with_reducible refine Keeps.foldl (fun u x hu => ?_) _ ?_
    | with_reducible refine Keeps.foldlFst (fun u x hu => ?_) _ ?_
    | with_reducible refine Keeps.foldlSnd (fun u x hu => ?_) _ ?_
    | with_reducible refine Keeps.snd (by assumption) ?_
    | with_reducible refine Keeps.fst (by assumption) ?_
    | fail_if_no_progress ((with_reducible apply Keeps.upd) <;> try rfl)
    | intro _
    | split
    | dsimp only

theorem keeps_adopt : ∀ a0 a1, Keeps s0 s → Keeps s0 (adopt a0 a1 s) := by
  intro a0 a1 h
  unfold adopt
  repeat' first
    | with_reducible assumption
    | with_reducible apply keeps_pulse
    | with_reducible apply keeps_modAl
    | with_reducible apply Keeps.ite
    | intro _

theorem keeps_decisionEnd : ∀ a0, Keeps s0 s → Keeps s0 (decisionEnd a0 s) := by
  intro a0 h
  unfold decisionEnd
  repeat' first
    | with_reducible assumption
    | with_reducible apply keeps_modAl
    | with_reducible apply keeps_adopt
    | with_reducible apply keeps_raiseAmbig
    | with_reducible apply Keeps.ite
    | with_reducible refine Keeps.snd (by assumption) ?_
    | with_reducible refine Keeps.fst (by assumption) ?_
    | fail_if_no_progress ((with_reducible apply Keeps.upd) <;> try rfl)
    | intro _
    | split

theorem keeps_freeTrackers : ∀ a0 a1, Keeps s0 s → Keeps s0 (freeTrackers a0 a1 s) := by
  intro a0 a1 h
  unfold freeTrackers
  repeat' first
    | with_reducible assumption
    | with_reducible apply keeps_modAl
    | with_reducible apply keeps_adopt
    | with_reducible apply Keeps.ite
    | with_reducible refine Keeps.foldl (fun u x hu => ?_) _ ?_
    | with_reducible refine Keeps.foldlFst (fun u x hu => ?_) _ ?_
    | with_reducible refine Keeps.foldlSnd (fun u x hu => ?_) _ ?_
    | with_reducible refine Keeps.snd (by assumption) ?_
    | with_reducible refine Keeps.fst (by assumption) ?_
    | fail_if_no_progress ((with_reducible apply Keeps.upd) <;> try rfl)
    | intro _
    | split
    | dsimp only

theorem keeps_freeTracker : ∀ a0 a1, Keeps s0 s → Keeps s0 (freeTracker a0 a1 s) := by
  intro a0 a1 h
  unfold freeTracker
  repeat' first
    | with_reducible assumption
    | with_reducible apply keeps_freeTrackers

theorem keeps_alignApply : ∀ a0 a1, Keeps s0 s → Keeps s0 (alignApply a0 a1 s) := by
  intro a0 a1 h
  unfold alignApply
  repeat' first
    | with_reducible assumption
    | with_reducible apply keeps_modAl
    | with_reducible apply keeps_freeTrackers
    | with_reducible apply keeps_huntSync
    | with_reducible apply keeps_alignLose
    | with_reducible apply Keeps.ite
    | intro _

theorem keeps_alignPend : ∀ a0 a1, Keeps s0 s → Keeps s0 (alignPend a0 a1 s) := by
  intro a0 a1 h
  unfold alignPend
  repeat' first
    | with_reducible assumption
    | with_reducible apply keeps_alignApply
    | with_reducible apply keeps_modAl
    | with_reducible apply Keeps.ite
    | with_reducible refine Keeps.foldl (fun u x hu => ?_) _ ?_
    | intro _

theorem keeps_qualify : ∀ a0 a1 a2, Keeps s0 s → Keeps s0 (qualify a0 a1 a2 s) := by
  intro a0 a1 a2 h
  unfold qualify
  repeat' first
    | with_reducible assumption
    | with_reducible apply keeps_modAl
    | with_reducible apply keeps_raiseAmbig
    | with_reducible apply Keeps.ite
    | intro _

theorem keeps_markerNew : ∀ a0 a1, Keeps s0 s → Keeps s0 (markerNew a0 a1 s) := by
  intro a0 a1 h
  unfold markerNew
  repeat' first
    | with_reducible assumption
    | with_reducible apply keeps_qualify
    | with_reducible apply Keeps.ite
    | with_reducible refine Keeps.snd (by assumption) ?_
    | with_reducible refine Keeps.fst (by assumption) ?_
    | fail_if_no_progress ((with_reducible apply Keeps.upd) <;> try rfl)
    | intro _
    | split

theorem keeps_markerAligned : ∀ a0 a1, Keeps s0 s → Keeps s0 (markerAligned a0 a1 s) := by
  intro a0 a1 h
  unfold markerAligned
  repeat' first
    | with_reducible assumption
    | with_reducible apply keeps_alignGain
    | with_reducible apply keeps_alignMode
    | with_reducible apply keeps_alignPend
    | with_reducible apply keeps_alignLose
    | with_reducible apply keeps_markerNew
    | with_reducible apply keeps_alignedSection
    | with_reducible apply Keeps.ite
    | with_reducible refine Keeps.snd (by assumption) ?_
    | with_reducible refine Keeps.fst (by assumption) ?_
    | intro _

theorem keeps_markerTracked : ∀ a0 a1 a2, Keeps s0 s → Keeps s0 (markerTracked a0 a1 a2 s) := by
  intro a0 a1 a2 h
  unfold markerTracked
  repeat' first
    | with_reducible assumption
    | with_reducible apply keeps_freeTracker
    | with_reducible apply keeps_qualify
    | with_reducible apply Keeps.ite
    | with_reducible refine Keeps.snd (by assumption) ?_
    | with_reducible refine Keeps.fst (by assumption) ?_
    | intro _

theorem keeps_settle : ∀ a0 a1, Keeps s0 s → Keeps s0 (settle a0 a1 s) := by
  intro a0 a1 h
  unfold settle
  repeat' first
    | with_reducible assumption
    | with_reducible apply keeps_alignLose
    | with_reducible apply keeps_decisionEnd
    | with_reducible apply Keeps.ite
    | intro _

theorem keeps_loopBlock (l pos : Nat) {bits : List Bool} {u : State} (h : Keeps s0 s) (e : loopBlock l pos s = some (bits, u)) : Keeps s0 u := by
  unfold loopBlock at e
  dsimp only at e
  generalize (if (decide (pos = 0) && (lane s l).tx.seen) = true then (lane s l).tx.looped.drop 1 else (lane s l).tx.looped) = q at e
  generalize ((q.take 2).flatten.drop pos).take 1150 = bs at e
  by_cases hb : bs.length = 1150
  · rw [if_pos hb] at e
    exact Keeps.someSnd (keeps_modTx _ _ h) e
  · rw [if_neg hb] at e
    exact nomatch e

theorem keeps_markerStep (m : Marker) (h : Keeps s0 s) : Keeps s0 (markerStep m s) := by
  unfold markerStep
  dsimp only
  split
  · exact h
  · split
    · exact h
    · rename_i bits u e
      have k0 : Keeps s0 u := by
        split at e
        · exact keeps_loopBlock _ _ h e
        · exact Keeps.someSnd h e
      have k : Keeps s0 (if m.pos = (lane u m.lane).al.fpos then loopEcho m.lane bits u else u) :=
        Keeps.ite (fun _ => keeps_loopEcho _ _ k0) fun _ => k0
      generalize (if m.pos = (lane u m.lane).al.fpos then loopEcho m.lane bits u else u) = x at k ⊢
      have k2 : Keeps s0 (settle m.lane m.pos (if (lane u m.lane).al.pos.isNone then alignPend m.lane (curCycle x) x else x)) :=
        keeps_settle _ _ (Keeps.ite (fun _ => keeps_alignPend _ _ k) fun _ => k)
      generalize settle m.lane m.pos (if (lane u m.lane).al.pos.isNone then alignPend m.lane (curCycle x) x else x) = v at k2 ⊢
      refine keeps_ambigAge _ (Keeps.ite (fun _ => keeps_markerAligned _ _ k2) fun _ => ?_)
      split
      · exact keeps_markerTracked _ _ _ k2
      · exact Keeps.ite (fun _ => k2) fun _ => keeps_markerNew _ _ k2

theorem keeps_alignmentLoss : ∀ a0, Keeps s0 s → Keeps s0 (alignmentLoss a0 s) := by
  intro a0 h
  unfold alignmentLoss
  repeat' first
    | with_reducible assumption
    | with_reducible apply keeps_alignLose
    | with_reducible apply Keeps.ite
    | intro _

theorem keeps_execDecisionWindowEnd : ∀ a0, Keeps s0 s → KeepsOut s0 (execDecisionWindowEnd a0 s) := by
  intro a0 h
  unfold execDecisionWindowEnd
  repeat' first
    | with_reducible assumption
    | with_reducible apply keeps_decisionEnd
    | with_reducible apply KeepsOut.next
    | with_reducible exact KeepsOut.refused
    | with_reducible apply KeepsOut.ite
    | with_reducible apply Keeps.ite
    | intro _

theorem keeps_alignRecovery : ∀ a0, Keeps s0 s → Keeps s0 (alignRecovery a0 s) := by
  intro a0 h
  unfold alignRecovery
  repeat' first
    | with_reducible assumption
    | with_reducible apply keeps_pulse
    | with_reducible apply keeps_modAl
    | with_reducible apply Keeps.ite
    | with_reducible refine Keeps.foldl (fun u x hu => ?_) _ ?_
    | with_reducible refine Keeps.foldlFst (fun u x hu => ?_) _ ?_
    | with_reducible refine Keeps.foldlSnd (fun u x hu => ?_) _ ?_
    | with_reducible refine Keeps.snd (by assumption) ?_
    | with_reducible refine Keeps.fst (by assumption) ?_
    | fail_if_no_progress ((with_reducible apply Keeps.upd) <;> try rfl)
    | intro _
    | split
    | dsimp only

theorem keeps_execLaneAlignRecovery : ∀ a0, Keeps s0 s → KeepsOut s0 (execLaneAlignRecovery a0 s) := by
  intro a0 h
  unfold execLaneAlignRecovery
  repeat' first
    | with_reducible assumption
    | with_reducible apply keeps_alignRecovery
    | with_reducible apply KeepsOut.next
    | with_reducible exact KeepsOut.refused
    | with_reducible apply KeepsOut.ite
    | with_reducible apply Keeps.ite
    | intro _

theorem keeps_alignTick : Keeps s0 s → Keeps s0 (alignTick s) := by
  intro h
  unfold alignTick
  repeat' first
    | with_reducible assumption
    | with_reducible apply keeps_alignPend
    | with_reducible apply Keeps.ite
    | with_reducible refine Keeps.foldl (fun u x hu => ?_) _ ?_
    | intro _

theorem keeps_bodyLaneFrameSet : ∀ a0, Keeps s0 s → KeepsRes s0 (bodyLaneFrameSet a0 s) := by
  intro a0 h
  unfold bodyLaneFrameSet
  repeat' first
    | with_reducible assumption
    | with_reducible apply keeps_toPort

theorem keeps_setFrameIn : ∀ a0 a1 a2, Keeps s0 s → Keeps s0 (setFrameIn a0 a1 a2 s) := by
  intro a0 a1 a2 h
  unfold setFrameIn
  repeat' first
    | with_reducible assumption
    | with_reducible apply keeps_modRx

theorem keeps_frameSetIn : ∀ a0 a1, Keeps s0 s → Keeps s0 (frameSetIn a0 a1 s) := by
  intro a0 a1 h
  unfold frameSetIn
  repeat' first
    | with_reducible assumption
    | with_reducible apply keeps_setFrameIn

theorem keeps_frameSetEg : ∀ a0, Keeps s0 s → Keeps s0 (frameSetEg a0 s) := by
  intro a0 h
  unfold frameSetEg
  repeat' first
    | with_reducible assumption
    | with_reducible apply keeps_modTx

theorem keeps_bodyLaneFrameGet : ∀ a0, Keeps s0 s → KeepsRes s0 (bodyLaneFrameGet a0 s) := by
  intro a0 h
  unfold bodyLaneFrameGet
  repeat' first
    | with_reducible assumption
    | with_reducible apply KeepsRes.reply

theorem keeps_bodyLaneSeedSet : ∀ a0, Keeps s0 s → KeepsRes s0 (bodyLaneSeedSet a0 s) := by
  intro a0 h
  unfold bodyLaneSeedSet
  repeat' first
    | with_reducible assumption
    | with_reducible apply keeps_toPort

theorem keeps_seedSetIn : ∀ a0 a1, Keeps s0 s → Keeps s0 (seedSetIn a0 a1 s) := by
  intro a0 a1 h
  unfold seedSetIn
  repeat' first
    | with_reducible assumption
    | with_reducible apply keeps_setFrameIn
    | with_reducible apply Keeps.ite
    | intro _

theorem keeps_seedSetEg : ∀ a0, Keeps s0 s → Keeps s0 (seedSetEg a0 s) := by
  intro a0 h
  unfold seedSetEg
  repeat' first
    | with_reducible assumption
    | with_reducible apply keeps_modTx
    | with_reducible apply Keeps.ite
    | intro _

theorem keeps_bodyLaneMsgSend : ∀ a0, Keeps s0 s → KeepsRes s0 (bodyLaneMsgSend a0 s) := by
  intro a0 h
  unfold bodyLaneMsgSend
  repeat' first
    | with_reducible assumption
    | with_reducible apply keeps_refuse
    | with_reducible apply keeps_modTx
    | with_reducible apply KeepsRes.reply
    | with_reducible apply KeepsRes.wait
    | with_reducible apply KeepsRes.queued
    | with_reducible apply KeepsRes.ite
    | with_reducible apply Keeps.ite
    | intro _

theorem keeps_bodyLaneMsgRead : ∀ a0, Keeps s0 s → KeepsRes s0 (bodyLaneMsgRead a0 s) := by
  intro a0 h
  unfold bodyLaneMsgRead
  repeat' first
    | with_reducible assumption
    | with_reducible apply keeps_wmPut
    | with_reducible apply keeps_modRx
    | with_reducible apply KeepsRes.reply

theorem keeps_bodyLaneAlignSet : ∀ a0, Keeps s0 s → KeepsRes s0 (bodyLaneAlignSet a0 s) := by
  intro a0 h
  unfold bodyLaneAlignSet
  repeat' first
    | with_reducible assumption
    | with_reducible apply keeps_toPort

theorem keeps_alignCommit : ∀ a0 a1, Keeps s0 s → Keeps s0 (alignCommit a0 a1 s) := by
  intro a0 a1 h
  unfold alignCommit
  repeat' first
    | with_reducible assumption
    | with_reducible apply keeps_modAl

theorem keeps_bodyLaneAlignGet : ∀ a0, Keeps s0 s → KeepsRes s0 (bodyLaneAlignGet a0 s) := by
  intro a0 h
  unfold bodyLaneAlignGet
  repeat' first
    | with_reducible assumption
    | with_reducible apply keeps_modAl
    | with_reducible apply KeepsRes.reply
    | with_reducible apply KeepsRes.wait
    | with_reducible apply KeepsRes.queued
    | with_reducible apply KeepsRes.ite
    | with_reducible apply Keeps.ite
    | intro _

/-! ## Machine/Trib.lean -/

theorem keeps_modIn : ∀ a0 a1, Keeps s0 s → Keeps s0 (modIn a0 a1 s) := by
  intro a0 a1 h
  unfold modIn
  repeat' first
    | with_reducible assumption
    | fail_if_no_progress ((with_reducible apply Keeps.upd) <;> try rfl)

theorem keeps_modEg : ∀ a0 a1, Keeps s0 s → Keeps s0 (modEg a0 a1 s) := by
  intro a0 a1 h
  unfold modEg
  repeat' first
    | with_reducible assumption
    | fail_if_no_progress ((with_reducible apply Keeps.upd) <;> try rfl)

theorem keeps_modAcc : ∀ a0 a1, Keeps s0 s → Keeps s0 (modAcc a0 a1 s) := by
  intro a0 a1 h
  unfold modAcc
  repeat' first
    | with_reducible assumption
    | fail_if_no_progress ((with_reducible apply Keeps.upd) <;> try rfl)

theorem keeps_putAcc : ∀ a0 a1 a2, Keeps s0 s → Keeps s0 (putAcc a0 a1 a2 s) := by
  intro a0 a1 a2 h
  unfold putAcc
  repeat' first
    | with_reducible assumption
    | with_reducible apply keeps_modAcc

theorem keeps_returnUnits : ∀ a0 a1 a2, Keeps s0 s → Keeps s0 (returnUnits a0 a1 a2 s) := by
  intro a0 a1 a2 h
  unfold returnUnits
  repeat' first
    | with_reducible assumption
    | with_reducible apply Keeps.ite
    | fail_if_no_progress ((with_reducible apply Keeps.upd) <;> try rfl)
    | intro _

theorem keeps_execAlignerUnitsReturn : Keeps s0 s → KeepsOut s0 (execAlignerUnitsReturn s) := by
  intro h
  unfold execAlignerUnitsReturn
  repeat' first
    | with_reducible assumption
    | with_reducible apply KeepsOut.next
    | fail_if_no_progress ((with_reducible apply Keeps.upd) <;> try rfl)

theorem keeps_putA : ∀ a0 a1 a2, Keeps s0 s → Keeps s0 (putA a0 a1 a2 s) := by
  intro a0 a1 a2 h
  unfold putA
  repeat' first
    | with_reducible assumption
    | fail_if_no_progress ((with_reducible apply Keeps.upd) <;> try rfl)

theorem keeps_putE : ∀ a0 a1 a2, Keeps s0 s → Keeps s0 (putE a0 a1 a2 s) := by
  intro a0 a1 a2 h
  unfold putE
  repeat' first
    | with_reducible assumption
    | fail_if_no_progress ((with_reducible apply Keeps.upd) <;> try rfl)

theorem keeps_putC : ∀ a0 a1 a2, Keeps s0 s → Keeps s0 (putC a0 a1 a2 s) := by
  intro a0 a1 a2 h
  unfold putC
  repeat' first
    | with_reducible assumption
    | fail_if_no_progress ((with_reducible apply Keeps.upd) <;> try rfl)

theorem keeps_storeFrom : ∀ a0 a1, Keeps s0 s → Keeps s0 (storeFrom a0 a1 s) := by
  intro a0 a1 h
  unfold storeFrom
  repeat' first
    | with_reducible assumption
    | with_reducible refine Keeps.snd (by assumption) ?_
    | with_reducible refine Keeps.fst (by assumption) ?_
    | fail_if_no_progress ((with_reducible apply Keeps.upd) <;> try rfl)
    | split

theorem keeps_storeRelease : ∀ a0, Keeps s0 s → Keeps s0 (storeRelease a0 s) := by
  intro a0 h
  unfold storeRelease
  repeat' first
    | with_reducible assumption
    | with_reducible apply Keeps.ite
    | with_reducible refine Keeps.snd (by assumption) ?_
    | with_reducible refine Keeps.fst (by assumption) ?_
    | fail_if_no_progress ((with_reducible apply Keeps.upd) <;> try rfl)
    | intro _

theorem keeps_modTd : ∀ a0 a1 a2, Keeps s0 s → Keeps s0 (modTd a0 a1 a2 s) := by
  intro a0 a1 a2 h
  unfold modTd
  repeat' first
    | with_reducible assumption
    | with_reducible apply keeps_modEg
    | with_reducible apply keeps_modIn
    | with_reducible apply Keeps.ite
    | intro _

theorem keeps_memberLost : ∀ a0 a1, Keeps s0 s → Keeps s0 (memberLost a0 a1 s) := by
  intro a0 a1 h
  unfold memberLost
  repeat' first
    | with_reducible assumption
    | with_reducible apply keeps_raiseAt
    | with_reducible apply keeps_modAcc
    | with_reducible apply Keeps.ite
    | intro _

theorem keeps_taDefect : ∀ a0 a1 a2 a3 a4, Keeps s0 s → Keeps s0 (taDefect a0 a1 a2 a3 a4 s) := by
  intro a0 a1 a2 a3 a4 h
  unfold taDefect
  repeat' first
    | with_reducible assumption
    | with_reducible apply keeps_modTd
    | with_reducible apply keeps_raiseAt
    | with_reducible apply keeps_memberLost
    | with_reducible apply Keeps.ite
    | with_reducible refine Keeps.snd (by assumption) ?_
    | with_reducible refine Keeps.fst (by assumption) ?_
    | fail_if_no_progress ((with_reducible apply Keeps.upd) <;> try rfl)
    | intro _
    | split

theorem keeps_setTaCond : ∀ a0 a1 a2, Keeps s0 s → Keeps s0 (setTaCond a0 a1 a2 s) := by
  intro a0 a1 a2 h
  unfold setTaCond
  repeat' first
    | with_reducible assumption
    | with_reducible apply keeps_modTd
    | with_reducible apply Keeps.ite
    | intro _

theorem keeps_taSync : ∀ a0, Keeps s0 s → Keeps s0 (taSync a0 s) := by
  intro a0 h
  unfold taSync
  repeat' first
    | with_reducible assumption
    | with_reducible apply keeps_setTaCond
    | with_reducible apply keeps_modIn
    | with_reducible apply keeps_modAcc
    | with_reducible apply Keeps.ite
    | with_reducible refine Keeps.foldl (fun u x hu => ?_) _ ?_
    | with_reducible refine Keeps.foldlFst (fun u x hu => ?_) _ ?_
    | with_reducible refine Keeps.foldlSnd (fun u x hu => ?_) _ ?_
    | with_reducible refine Keeps.snd (by assumption) ?_
    | with_reducible refine Keeps.fst (by assumption) ?_
    | fail_if_no_progress ((with_reducible apply Keeps.upd) <;> try rfl)
    | intro _
    | split
    | dsimp only

theorem keeps_laneTaSync : ∀ a0, Keeps s0 s → Keeps s0 (laneTaSync a0 s) := by
  intro a0 h
  unfold laneTaSync
  repeat' first
    | with_reducible assumption
    | with_reducible apply keeps_taSync
    | with_reducible refine Keeps.foldl (fun u x hu => ?_) _ ?_

theorem keeps_memberLof : ∀ a0, Keeps s0 s → Keeps s0 (memberLof a0 s) := by
  intro a0 h
  unfold memberLof
  repeat' first
    | with_reducible assumption
    | with_reducible apply keeps_modAcc
    | with_reducible apply keeps_modIn
    | with_reducible refine Keeps.snd (by assumption) ?_
    | with_reducible refine Keeps.fst (by assumption) ?_
    | fail_if_no_progress ((with_reducible apply Keeps.upd) <;> try rfl)
    | split

theorem keeps_setTx : ∀ a0 a1, Keeps s0 s → Keeps s0 (setTx a0 a1 s) := by
  intro a0 a1 h
  unfold setTx
  repeat' first
    | with_reducible assumption
    | fail_if_no_progress ((with_reducible apply Keeps.upd) <;> try rfl)

theorem keeps_setRx : ∀ a0 a1, Keeps s0 s → Keeps s0 (setRx a0 a1 s) := by
  intro a0 a1 h
  unfold setRx
  repeat' first
    | with_reducible assumption
    | fail_if_no_progress ((with_reducible apply Keeps.upd) <;> try rfl)

theorem keeps_openLof : ∀ a0, Keeps s0 s → Keeps s0 (openLof a0 s) := by
  intro a0 h
  unfold openLof
  repeat' first
    | with_reducible assumption
    | with_reducible apply keeps_setRx
    | with_reducible apply Keeps.ite
    | with_reducible refine Keeps.snd (by assumption) ?_
    | with_reducible refine Keeps.fst (by assumption) ?_
    | fail_if_no_progress ((with_reducible apply Keeps.upd) <;> try rfl)
    | intro _
    | split

theorem keeps_alignHook : ∀ a0, Keeps s0 s → Keeps s0 (alignHook a0 s) := by
  intro a0 h
  unfold alignHook
  repeat' first
    | with_reducible assumption
    | with_reducible apply keeps_openLof
    | with_reducible apply keeps_memberLof
    | with_reducible apply keeps_laneTaSync
    | with_reducible apply Keeps.ite
    | with_reducible refine Keeps.foldl (fun u x hu => ?_) _ ?_
    | intro _

theorem keeps_defectDeclare : ∀ a0 a1, Keeps s0 s → Keeps s0 (defectDeclare a0 a1 s) := by
  intro a0 a1 h
  unfold defectDeclare
  repeat' first
    | with_reducible assumption
    | with_reducible apply keeps_laneTaSync
    | with_reducible apply keeps_laneDefect
    | with_reducible apply keeps_taDefect
    | with_reducible apply Keeps.ite
    | with_reducible refine Keeps.snd (by assumption) ?_
    | with_reducible refine Keeps.fst (by assumption) ?_
    | fail_if_no_progress ((with_reducible apply Keeps.upd) <;> try rfl)
    | intro _
    | split

theorem keeps_defectClear : ∀ a0 a1, Keeps s0 s → Keeps s0 (defectClear a0 a1 s) := by
  intro a0 a1 h
  unfold defectClear
  repeat' first
    | with_reducible assumption
    | with_reducible apply keeps_laneTaSync
    | with_reducible apply keeps_laneDefect
    | with_reducible apply keeps_taDefect
    | with_reducible apply Keeps.ite
    | with_reducible refine Keeps.snd (by assumption) ?_
    | with_reducible refine Keeps.fst (by assumption) ?_
    | fail_if_no_progress ((with_reducible apply Keeps.upd) <;> try rfl)
    | intro _
    | split

theorem keeps_degRestart : ∀ a0 a1, Keeps s0 s → Keeps s0 (degRestart a0 a1 s) := by
  intro a0 a1 h
  unfold degRestart
  repeat' first
    | with_reducible assumption
    | with_reducible apply keeps_modTd

theorem keeps_degCount : ∀ a0 a1, Keeps s0 s → Keeps s0 (degCount a0 a1 s) := by
  intro a0 a1 h
  unfold degCount
  repeat' first
    | with_reducible assumption
    | with_reducible apply keeps_modTd
    | with_reducible apply Keeps.ite
    | intro _

theorem keeps_degEnd : ∀ a0, Keeps s0 s → Keeps s0 (degEnd a0 s) := by
  intro a0 h
  unfold degEnd
  repeat' first
    | with_reducible assumption
    | with_reducible apply keeps_modTd
    | with_reducible apply keeps_taDefect
    | with_reducible apply keeps_degRestart
    | with_reducible apply Keeps.ite
    | with_reducible refine Keeps.snd (by assumption) ?_
    | with_reducible refine Keeps.fst (by assumption) ?_
    | intro _

theorem keeps_taRestart : ∀ a0 a1, Keeps s0 s → Keeps s0 (taRestart a0 a1 s) := by
  intro a0 a1 h
  unfold taRestart
  repeat' first
    | with_reducible assumption
    | with_reducible apply keeps_taDefect
    | with_reducible apply keeps_modTd
    | with_reducible apply keeps_degRestart
    | with_reducible apply keeps_taSync
    | with_reducible apply keeps_modIn
    | with_reducible apply Keeps.ite
    | with_reducible refine Keeps.foldl (fun u x hu => ?_) _ ?_
    | intro _

theorem keeps_accordSkew : ∀ a0, Keeps s0 s → Keeps s0 (accordSkew a0 s) := by
  intro a0 h
  unfold accordSkew
  repeat' first
    | with_reducible assumption
    | with_reducible apply keeps_modAcc
    | with_reducible apply keeps_pulse
    | with_reducible apply Keeps.ite
    | intro _

theorem keeps_placeMember : ∀ a0 a1 a2, Keeps s0 s → Keeps s0 (placeMember a0 a1 a2 s) := by
  intro a0 a1 a2 h
  unfold placeMember
  repeat' first
    | with_reducible assumption
    | with_reducible apply keeps_putA
    | with_reducible apply keeps_modAcc
    | with_reducible refine Keeps.snd (by assumption) ?_
    | with_reducible refine Keeps.fst (by assumption) ?_
    | fail_if_no_progress ((with_reducible apply Keeps.upd) <;> try rfl)
    | split

theorem keeps_accordAct (ai : Nat) (h : Keeps s0 s) : Keeps s0 (accordAct ai s).1 := by
  unfold accordAct
  refine Keeps.foldlFst (fun u p k => ?_) _ h
  obtain ⟨s, ch⟩ := u
  dsimp only at k ⊢
  split
  · exact k
  · split
    · exact k
    · split
      · exact k
      · split
        · exact keeps_placeMember _ _ _ k
        · split
          · exact k
          · exact Keeps.foldl (fun _ q k => keeps_placeMember _ _ q k) _ k

theorem keeps_accordRealign : ∀ a0, Keeps s0 s → Keeps s0 (accordRealign a0 s) := by
  intro a0 h
  unfold accordRealign
  repeat' first
    | with_reducible assumption
    | with_reducible apply keeps_accordAct
    | with_reducible apply keeps_modAcc
    | with_reducible apply keeps_pulse
    | with_reducible apply Keeps.ite
    | with_reducible refine Keeps.foldl (fun u x hu => ?_) _ ?_
    | with_reducible refine Keeps.foldlFst (fun u x hu => ?_) _ ?_
    | with_reducible refine Keeps.foldlSnd (fun u x hu => ?_) _ ?_
    | with_reducible refine Keeps.snd (by assumption) ?_
    | with_reducible refine Keeps.fst (by assumption) ?_
    | fail_if_no_progress ((with_reducible apply Keeps.upd) <;> try rfl)
    | intro _
    | split
    | dsimp only

theorem keeps_execAccordRealign : ∀ a0, Keeps s0 s → KeepsOut s0 (execAccordRealign a0 s) := by
  intro a0 h
  unfold execAccordRealign
  repeat' first
    | with_reducible assumption
    | with_reducible apply keeps_accordRealign
    | with_reducible apply KeepsOut.next
    | with_reducible exact KeepsOut.refused
    | with_reducible apply KeepsOut.ite
    | with_reducible apply Keeps.ite
    | intro _

theorem keeps_runReset : ∀ a0 a1, Keeps s0 s → Keeps s0 (runReset a0 a1 s) := by
  intro a0 a1 h
  unfold runReset
  repeat' first
    | with_reducible assumption
    | with_reducible apply keeps_modAcc

theorem keeps_measureOffset : ∀ a0 a1 a2 a3 a4, Keeps s0 s → Keeps s0 (measureOffset a0 a1 a2 a3 a4 s) := by
  intro a0 a1 a2 a3 a4 h
  unfold measureOffset
  repeat' first
    | with_reducible assumption
    | with_reducible apply keeps_modAcc
    | with_reducible apply Keeps.ite
    | intro _

theorem keeps_labelled : ∀ a0 a1 a2, Keeps s0 s → Keeps s0 (labelled a0 a1 a2 s) := by
  intro a0 a1 a2 h
  unfold labelled
  repeat' first
    | with_reducible assumption
    | with_reducible apply keeps_modIn
    | with_reducible apply keeps_measureOffset
    | with_reducible apply Keeps.ite
    | with_reducible refine Keeps.foldl (fun u x hu => ?_) _ ?_
    | with_reducible refine Keeps.foldlFst (fun u x hu => ?_) _ ?_
    | with_reducible refine Keeps.foldlSnd (fun u x hu => ?_) _ ?_
    | with_reducible refine Keeps.snd (by assumption) ?_
    | with_reducible refine Keeps.fst (by assumption) ?_
    | fail_if_no_progress ((with_reducible apply Keeps.upd) <;> try rfl)
    | intro _
    | split
    | dsimp only

theorem keeps_frameCheck : ∀ a0 a1, Keeps s0 s → Keeps s0 (frameCheck a0 a1 s) := by
  intro a0 a1 h
  unfold frameCheck
  repeat' first
    | with_reducible assumption
    | with_reducible apply keeps_modIn
    | with_reducible apply keeps_taSync
    | with_reducible apply keeps_labelled
    | with_reducible apply keeps_runReset
    | with_reducible apply Keeps.ite
    | with_reducible refine Keeps.snd (by assumption) ?_
    | with_reducible refine Keeps.fst (by assumption) ?_
    | fail_if_no_progress ((with_reducible apply Keeps.upd) <;> try rfl)
    | intro _
    | split

theorem keeps_accordEffect : ∀ a0, Keeps s0 s → Keeps s0 (accordEffect a0 s) := by
  intro a0 h
  unfold accordEffect
  repeat' first
    | with_reducible assumption
    | with_reducible apply keeps_modAcc
    | with_reducible apply keeps_taSync
    | with_reducible apply keeps_storeRelease
    | with_reducible apply keeps_putA
    | with_reducible apply keeps_modIn
    | with_reducible apply keeps_memberLost
    | with_reducible apply Keeps.ite
    | with_reducible refine Keeps.foldl (fun u x hu => ?_) _ ?_
    | intro _

theorem keeps_tribMapReach (p : Packet) (h : Keeps s0 s) : KeepsRes s0 (tribMapReach p s) := by
  unfold tribMapReach
  dsimp only
  split
  · exact h
  · rename_i e
    exact keeps_takeBuffer _ _ h e
  · rename_i e
    have k := keeps_takeBuffer _ _ h e
    exact KeepsRes.ite (fun _ => k) fun _ => k

theorem keeps_bodyTribMapLoad : ∀ a0, Keeps s0 s → KeepsRes s0 (bodyTribMapLoad a0 s) := by
  intro a0 h
  unfold bodyTribMapLoad
  repeat' first
    | with_reducible assumption
    | with_reducible apply keeps_refuse
    | with_reducible apply keeps_tribMapReach
    | with_reducible apply KeepsRes.reply
    | with_reducible apply KeepsRes.wait
    | with_reducible apply KeepsRes.queued
    | with_reducible apply KeepsRes.ite
    | with_reducible apply Keeps.ite
    | intro _

theorem keeps_mapCommit : ∀ a0 a1 a2, Keeps s0 s → Keeps s0 (mapCommit a0 a1 a2 s) := by
  intro a0 a1 a2 h
  unfold mapCommit
  repeat' first
    | with_reducible assumption
    | with_reducible apply Keeps.ite
    | fail_if_no_progress ((with_reducible apply Keeps.upd) <;> try rfl)
    | intro _

theorem keeps_mapEffect : ∀ a0, Keeps s0 s → Keeps s0 (mapEffect a0 s) := by
  intro a0 h
  unfold mapEffect
  repeat' first
    | with_reducible assumption
    | with_reducible apply keeps_taRestart
    | with_reducible apply Keeps.ite
    | with_reducible refine Keeps.foldl (fun u x hu => ?_) _ ?_
    | intro _

theorem keeps_bodyTribSet : ∀ a0, Keeps s0 s → KeepsRes s0 (bodyTribSet a0 s) := by
  intro a0 h
  unfold bodyTribSet
  repeat' first
    | with_reducible assumption
    | with_reducible apply keeps_toPort

theorem keeps_putEg : ∀ a0 a1 a2, Keeps s0 s → Keeps s0 (putEg a0 a1 a2 s) := by
  intro a0 a1 a2 h
  unfold putEg
  repeat' first
    | with_reducible assumption
    | with_reducible apply keeps_modEg

theorem keeps_tribSetCommit : ∀ a0 a1, Keeps s0 s → Keeps s0 (tribSetCommit a0 a1 s) := by
  intro a0 a1 h
  unfold tribSetCommit
  repeat' first
    | with_reducible assumption
    | with_reducible apply keeps_putEg
    | with_reducible apply keeps_modIn
    | with_reducible apply Keeps.ite
    | intro _

theorem keeps_bodyTribGet : ∀ a0, Keeps s0 s → KeepsRes s0 (bodyTribGet a0 s) := by
  intro a0 h
  unfold bodyTribGet
  repeat' first
    | with_reducible assumption
    | with_reducible apply keeps_draw
    | with_reducible apply keeps_modEg
    | with_reducible apply keeps_modIn
    | with_reducible apply KeepsRes.reply
    | with_reducible apply KeepsRes.wait
    | with_reducible apply KeepsRes.queued
    | with_reducible apply KeepsRes.ite
    | with_reducible apply Keeps.ite
    | with_reducible refine Keeps.snd (by assumption) ?_
    | with_reducible refine Keeps.fst (by assumption) ?_
    | fail_if_no_progress ((with_reducible apply Keeps.upd) <;> try rfl)
    | intro _
    | split

theorem keeps_bodyTribTimingSet : ∀ a0, Keeps s0 s → KeepsRes s0 (bodyTribTimingSet a0 s) := by
  intro a0 h
  unfold bodyTribTimingSet
  repeat' first
    | with_reducible assumption
    | with_reducible apply keeps_toPort

theorem keeps_timingCommit : ∀ a0 a1, Keeps s0 s → Keeps s0 (timingCommit a0 a1 s) := by
  intro a0 a1 h
  unfold timingCommit
  repeat' first
    | with_reducible assumption
    | with_reducible apply keeps_modRx

theorem keeps_bodyAccordSet : ∀ a0, Keeps s0 s → KeepsRes s0 (bodyAccordSet a0 s) := by
  intro a0 h
  unfold bodyAccordSet
  repeat' first
    | with_reducible assumption
    | with_reducible apply keeps_toPort

theorem keeps_memberUnits : ∀ a0 a1 a3, Keeps s0 s → Keeps s0 (memberUnits a0 a1 s a3) := by
  intro a0 a1 a3 h
  unfold memberUnits
  repeat' first
    | with_reducible assumption
    | with_reducible apply keeps_returnUnits

theorem keeps_accordSetCommit : ∀ a0 a1, Keeps s0 s → Keeps s0 (accordSetCommit a0 a1 s) := by
  intro a0 a1 h
  unfold accordSetCommit
  repeat' first
    | with_reducible assumption
    | with_reducible apply keeps_putAcc
    | with_reducible apply keeps_memberUnits
    | with_reducible apply Keeps.ite
    | with_reducible refine Keeps.foldl (fun u x hu => ?_) _ ?_
    | intro _

theorem keeps_bodyAccordMemberSet : ∀ a0, Keeps s0 s → KeepsRes s0 (bodyAccordMemberSet a0 s) := by
  intro a0 h
  unfold bodyAccordMemberSet
  repeat' first
    | with_reducible assumption
    | with_reducible apply keeps_toPort

theorem keeps_memberSetCommit : ∀ a0 a1, Keeps s0 s → Keeps s0 (memberSetCommit a0 a1 s) := by
  intro a0 a1 h
  unfold memberSetCommit
  repeat' first
    | with_reducible assumption
    | with_reducible apply keeps_putAcc
    | with_reducible apply keeps_memberUnits
    | with_reducible apply keeps_storeFrom
    | with_reducible apply Keeps.ite
    | intro _

theorem keeps_bodyAccordGet : ∀ a0, Keeps s0 s → KeepsRes s0 (bodyAccordGet a0 s) := by
  intro a0 h
  unfold bodyAccordGet
  repeat' first
    | with_reducible assumption
    | with_reducible apply keeps_wmPut
    | with_reducible apply keeps_modAcc
    | with_reducible apply KeepsRes.reply
    | with_reducible apply KeepsRes.wait
    | with_reducible apply KeepsRes.queued
    | with_reducible apply KeepsRes.ite
    | with_reducible apply Keeps.ite
    | intro _

theorem keeps_bodyAccordStoreGet : ∀ a0, Keeps s0 s → KeepsRes s0 (bodyAccordStoreGet a0 s) := by
  intro a0 h
  unfold bodyAccordStoreGet
  repeat' first
    | with_reducible assumption
    | with_reducible apply KeepsRes.reply

theorem keeps_bodyTribDefectProfileSet : ∀ a0, Keeps s0 s → KeepsRes s0 (bodyTribDefectProfileSet a0 s) := by
  intro a0 h
  unfold bodyTribDefectProfileSet
  repeat' first
    | with_reducible assumption
    | with_reducible apply keeps_done
    | with_reducible apply KeepsRes.reply
    | with_reducible apply KeepsRes.wait
    | with_reducible apply KeepsRes.queued
    | fail_if_no_progress ((with_reducible apply Keeps.upd) <;> try rfl)

theorem keeps_bodyTribDefectSet : ∀ a0, Keeps s0 s → KeepsRes s0 (bodyTribDefectSet a0 s) := by
  intro a0 h
  unfold bodyTribDefectSet
  repeat' first
    | with_reducible assumption
    | with_reducible apply keeps_done
    | with_reducible apply keeps_modTd
    | with_reducible apply keeps_taDefect
    | with_reducible apply keeps_modIn
    | with_reducible apply keeps_degRestart
    | with_reducible apply keeps_taSync
    | with_reducible apply KeepsRes.reply
    | with_reducible apply KeepsRes.wait
    | with_reducible apply KeepsRes.queued
    | with_reducible apply KeepsRes.ite
    | with_reducible apply Keeps.ite
    | intro _

theorem keeps_bodyTribDefectGet : ∀ a0, Keeps s0 s → KeepsRes s0 (bodyTribDefectGet a0 s) := by
  intro a0 h
  unfold bodyTribDefectGet
  repeat' first
    | with_reducible assumption
    | with_reducible apply keeps_modTd
    | with_reducible apply KeepsRes.reply
    | with_reducible apply KeepsRes.wait
    | with_reducible apply KeepsRes.queued
    | with_reducible apply KeepsRes.ite
    | with_reducible apply Keeps.ite
    | with_reducible refine Keeps.snd (by assumption) ?_
    | with_reducible refine Keeps.fst (by assumption) ?_
    | intro _

end Sys2Proof.Machine
end

