-- ==== Sys2Proof/Laws/KeepsServices.lean ====
section
/-! SUPPORT. The operations of seals, timing, crossings, protection, ciphering and modes keep what `Keeps` says. -/

namespace Sys2Proof.Machine

variable {s0 s : State}

/-! ## Machine/Seal.lean -/

theorem keeps_setPair : ∀ a0 a1, Keeps s0 s → Keeps s0 (setPair a0 a1 s) := by
  intro a0 a1 h
  unfold setPair
  repeat' first
    | with_reducible assumption
    | fail_if_no_progress ((with_reducible apply Keeps.upd) <;> try rfl)

theorem keeps_flipPair : ∀ a0 a1, Keeps s0 s → Keeps s0 (flipPair a0 a1 s) := by
  intro a0 a1 h
  unfold flipPair
  repeat' first
    | with_reducible assumption
    | with_reducible apply keeps_pulse
    | with_reducible apply keeps_setPair

theorem keeps_pairFrame : ∀ a0 a1, Keeps s0 s → Keeps s0 (pairFrame a0 a1 s) := by
  intro a0 a1 h
  unfold pairFrame
  repeat' first
    | with_reducible assumption
    | with_reducible apply keeps_flipPair
    | with_reducible apply keeps_pulse
    | with_reducible apply keeps_setPair
    | with_reducible apply Keeps.ite
    | intro _

theorem Keeps.setSeal {n : Nat} {k : KeySlot} (h : Keeps s0 s) (hk : KeysOk s.keys → SlotOk k) : Keeps s0 (setSealSlot n k s) :=
  ⟨h.queue, h.ne, h.time, h.wm, h.rings, h.evt, fun w => And.intro (fun x hx => by
    rcases mem_tset hx with rfl | hx
    · exact hk (h.keys w)
    · exact (h.keys w).1 x hx) (h.keys w).2⟩

theorem Keeps.setCmd {n : Nat} {k : KeySlot} (h : Keeps s0 s) (hk : KeysOk s.keys → SlotOk k) : Keeps s0 (setCmdSlot n k s) :=
  ⟨h.queue, h.ne, h.time, h.wm, h.rings, h.evt, fun w => And.intro (h.keys w).1 (fun x hx => by
    rcases mem_tset hx with rfl | hx
    · exact hk (h.keys w)
    · exact (h.keys w).2 x hx)⟩

theorem slotReset_ok (n : Nat) : SlotOk (slotReset n) := ⟨fun _ => rfl, Nat.zero_le _⟩

theorem sealSlot_ok (h : KeysOk s.keys) (n : Nat) : SlotOk (sealSlot s n) := by
  rcases mem_tget (d := slotReset) (k := n) (t := s.keys.sealS) with e | ⟨j, hj⟩
  · unfold sealSlot; rw [e]; exact slotReset_ok n
  · exact h.1 _ hj

theorem cmdSlot_ok (h : KeysOk s.keys) (n : Nat) : SlotOk (cmdSlot s n) := by
  rcases mem_tget (d := slotReset) (k := n) (t := s.keys.cmdS) with e | ⟨j, hj⟩
  · unfold cmdSlot; rw [e]; exact slotReset_ok n
  · exact h.2 _ hj

theorem slotErased_ok (k : KeySlot) : SlotOk (slotErased k) := ⟨fun _ => rfl, Nat.zero_le _⟩

theorem slotLoaded_ok (k : KeySlot) (p : List Byte) (mask lim : Nat) : SlotOk (slotLoaded k p mask lim) :=
  ⟨fun h => Bool.noConfusion h, Nat.zero_le _⟩

theorem slotCounted_ok {k : KeySlot} (h : SlotOk k) (hl : slotLeft k 1 = true) : SlotOk { k with count := k.count + 1 } :=
  ⟨h.1, of_decide_eq_true hl⟩

theorem keeps_sealCount (n : Nat) (hl : slotLeft (sealSlot s n) 1 = true) (h : Keeps s0 s) :
    Keeps s0 (setSealSlot n { sealSlot s n with count := (sealSlot s n).count + 1 } s) :=
  h.setSeal fun w => slotCounted_ok (sealSlot_ok w n) hl

theorem keeps_cmdCount (n : Nat) (hl : slotLeft (cmdSlot s n) 1 = true) (h : Keeps s0 s) :
    Keeps s0 (setCmdSlot n { cmdSlot s n with count := (cmdSlot s n).count + 1 } s) :=
  h.setCmd fun w => slotCounted_ok (cmdSlot_ok w n) hl

theorem keeps_txBegin (ta m : Nat) (h : Keeps s0 s) : Keeps s0 (txBegin ta m s) := by
  unfold txBegin
  dsimp only
  split
  · exact h
  · split
    · rename_i hc
      simp only [Bool.and_eq_true] at hc
      exact keeps_setTx _ _ (keeps_tapInc _ _ _ (keeps_sealCount _ hc.1.1.2 h))
    · exact keeps_setTx _ _ h

theorem keeps_sealFrameTick : ∀ a0, Keeps s0 s → Keeps s0 (sealFrameTick a0 s) := by
  intro a0 h
  unfold sealFrameTick
  repeat' first
    | with_reducible assumption
    | with_reducible apply keeps_pairFrame
    | with_reducible apply keeps_txBegin
    | with_reducible refine Keeps.foldl (fun u x hu => ?_) _ ?_

theorem keeps_txCycle : ∀ a0 a1 a2, Keeps s0 s → Keeps s0 (txCycle a0 a1 a2 s).2 := by
  intro a0 a1 a2 h
  unfold txCycle
  repeat' first
    | with_reducible assumption
    | with_reducible apply keeps_setTx
    | with_reducible apply Keeps.ite
    | with_reducible refine Keeps.foldl (fun u x hu => ?_) _ ?_
    | with_reducible refine Keeps.foldlFst (fun u x hu => ?_) _ ?_
    | with_reducible refine Keeps.foldlSnd (fun u x hu => ?_) _ ?_
    | with_reducible refine Keeps.snd (by assumption) ?_
    | with_reducible refine Keeps.fst (by assumption) ?_
    | fail_if_no_progress ((with_reducible apply Keeps.upd) <;> try rfl)
    | intro _
    | split
    | dsimp only

theorem keeps_setGr : ∀ a0 a1 a2, Keeps s0 s → Keeps s0 (setGr a0 a1 a2 s) := by
  intro a0 a1 a2 h
  unfold setGr
  repeat' first
    | with_reducible assumption
    | with_reducible apply keeps_modIn

theorem keeps_openContent (ta : Nat) (b : RxSeal) (fr : OpenFrame) (pass : Bool) (key : List Byte) (h : Keeps s0 s) :
    Keeps s0 (openContent ta b fr pass key s) :=
  Keeps.foldlFst (fun _ c k => keeps_setGr ta (Prod.fst c) _ k) _ h

theorem keeps_openVerdict : ∀ a0 a1 a2 a3, Keeps s0 s → Keeps s0 (openVerdict a0 a1 a2 a3 s) := by
  intro a0 a1 a2 a3 h
  unfold openVerdict
  repeat' first
    | with_reducible assumption
    | with_reducible apply keeps_tapInc
    | with_reducible apply keeps_openContent
    | with_reducible apply keeps_setRx
    | with_reducible apply keeps_pulse
    | with_reducible apply keeps_modIn
    | with_reducible apply Keeps.ite
    | with_reducible refine Keeps.snd (by assumption) ?_
    | with_reducible refine Keeps.fst (by assumption) ?_
    | fail_if_no_progress ((with_reducible apply Keeps.upd) <;> try rfl)
    | intro _
    | split

theorem keeps_openSettle : ∀ a0 a1, Keeps s0 s → Keeps s0 (openSettle a0 a1 s) := by
  intro a0 a1 h
  unfold openSettle
  repeat' first
    | with_reducible assumption
    | with_reducible apply keeps_openVerdict
    | with_reducible apply keeps_setRx
    | with_reducible refine Keeps.snd (by assumption) ?_
    | with_reducible refine Keeps.fst (by assumption) ?_
    | fail_if_no_progress ((with_reducible apply Keeps.upd) <;> try rfl)
    | split

theorem keeps_openOverhead : ∀ a0 a1 a2 a3 a4, Keeps s0 s → Keeps s0 (openOverhead a0 a1 a2 a3 a4 s) := by
  intro a0 a1 a2 a3 a4 h
  unfold openOverhead
  repeat' first
    | with_reducible assumption
    | with_reducible apply keeps_openSettle
    | with_reducible apply keeps_openVerdict
    | with_reducible apply keeps_setRx
    | with_reducible apply Keeps.ite
    | with_reducible refine Keeps.foldl (fun u x hu => ?_) _ ?_
    | with_reducible refine Keeps.foldlFst (fun u x hu => ?_) _ ?_
    | with_reducible refine Keeps.foldlSnd (fun u x hu => ?_) _ ?_
    | with_reducible refine Keeps.snd (by assumption) ?_
    | with_reducible refine Keeps.fst (by assumption) ?_
    | fail_if_no_progress ((with_reducible apply Keeps.upd) <;> try rfl)
    | intro _
    | split
    | dsimp only

theorem keeps_openWhole (ta : Nat) (b : RxSeal) (c : OpenFrame) (h : Keeps s0 s) : Keeps s0 (openWhole ta b c s) := by
  unfold openWhole
  dsimp only
  apply keeps_setRx
  split
  · rename_i hc
    simp only [Bool.and_eq_true] at hc
    exact keeps_sealCount _ hc.2 h
  · exact h

theorem keeps_openCycle : ∀ a0 a1 a2 a3, Keeps s0 s → Keeps s0 (openCycle a0 a1 a2 a3 s) := by
  intro a0 a1 a2 a3 h
  unfold openCycle
  repeat' first
    | with_reducible assumption
    | with_reducible apply keeps_setGr
    | with_reducible apply keeps_openWhole
    | with_reducible apply keeps_setRx
    | with_reducible apply keeps_openSettle
    | with_reducible apply Keeps.ite
    | with_reducible refine Keeps.snd (by assumption) ?_
    | with_reducible refine Keeps.fst (by assumption) ?_
    | fail_if_no_progress ((with_reducible apply Keeps.upd) <;> try rfl)
    | intro _
    | split

theorem keeps_bodySealTxSet : ∀ a0, Keeps s0 s → KeepsRes s0 (bodySealTxSet a0 s) := by
  intro a0 h
  unfold bodySealTxSet
  repeat' first
    | with_reducible assumption
    | with_reducible apply keeps_toPort

theorem keeps_bodySealRxSet : ∀ a0, Keeps s0 s → KeepsRes s0 (bodySealRxSet a0 s) := by
  intro a0 h
  unfold bodySealRxSet
  repeat' first
    | with_reducible assumption
    | with_reducible apply keeps_toPort

theorem keeps_sealReserve : ∀ a0 a1, Keeps s0 s → Keeps s0 (sealReserve a0 a1 s) := by
  intro a0 a1 h
  unfold sealReserve
  repeat' first
    | with_reducible assumption
    | with_reducible apply Keeps.ite
    | fail_if_no_progress ((with_reducible apply Keeps.upd) <;> try rfl)
    | intro _

theorem keeps_sealTxApply : ∀ a0, Keeps s0 s → Keeps s0 (sealTxApply a0 s) := by
  intro a0 h
  unfold sealTxApply
  repeat' first
    | with_reducible assumption
    | with_reducible apply keeps_setTx
    | with_reducible apply Keeps.ite
    | intro _

theorem keeps_holdDrop : ∀ a0, Keeps s0 s → Keeps s0 (holdDrop a0 s) := by
  intro a0 h
  unfold holdDrop
  repeat' first
    | with_reducible assumption
    | with_reducible apply keeps_returnUnits
    | with_reducible apply keeps_storeRelease
    | with_reducible apply keeps_putC
    | with_reducible apply Keeps.ite
    | fail_if_no_progress ((with_reducible apply Keeps.upd) <;> try rfl)
    | intro _

theorem keeps_sealRxApply : ∀ a0, Keeps s0 s → Keeps s0 (sealRxApply a0 s) := by
  intro a0 h
  unfold sealRxApply
  repeat' first
    | with_reducible assumption
    | with_reducible apply keeps_holdDrop
    | with_reducible apply keeps_setRx
    | with_reducible apply keeps_storeFrom
    | with_reducible apply keeps_putC
    | with_reducible apply Keeps.ite
    | intro _

theorem keeps_bodySealFlip : ∀ a0, Keeps s0 s → KeepsRes s0 (bodySealFlip a0 s) := by
  intro a0 h
  unfold bodySealFlip
  repeat' first
    | with_reducible assumption
    | with_reducible apply keeps_refuse
    | with_reducible apply keeps_setPair
    | with_reducible apply KeepsRes.reply
    | with_reducible apply KeepsRes.wait
    | with_reducible apply KeepsRes.queued
    | with_reducible apply KeepsRes.ite
    | with_reducible apply Keeps.ite
    | intro _

theorem keeps_sealSample : Keeps s0 s → Keeps s0 (sealSample s) := by
  intro h
  unfold sealSample
  repeat' first
    | with_reducible assumption
    | with_reducible apply keeps_setTx
    | with_reducible apply keeps_setRx
    | with_reducible apply keeps_modEg
    | with_reducible refine Keeps.foldl (fun u x hu => ?_) _ ?_

theorem keeps_bodySealGet : ∀ a0, Keeps s0 s → KeepsRes s0 (bodySealGet a0 s) := by
  intro a0 h
  unfold bodySealGet
  repeat' first
    | with_reducible assumption
    | with_reducible apply keeps_modEg
    | with_reducible apply keeps_setRx
    | with_reducible apply KeepsRes.reply
    | with_reducible apply KeepsRes.wait
    | with_reducible apply KeepsRes.queued
    | with_reducible apply KeepsRes.ite
    | with_reducible apply Keeps.ite
    | with_reducible refine Keeps.snd (by assumption) ?_
    | with_reducible refine Keeps.fst (by assumption) ?_
    | intro _
    | split

theorem keeps_sealSwap : ∀ a0, Keeps s0 s → Keeps s0 (sealSwap a0 s) := by
  intro a0 h
  unfold sealSwap
  repeat' first
    | with_reducible assumption
    | with_reducible apply keeps_setRx
    | with_reducible apply keeps_setTx
    | with_reducible apply Keeps.ite
    | with_reducible refine Keeps.foldl (fun u x hu => ?_) _ ?_

theorem keeps_sealErased (n : Nat) (h : Keeps s0 s) : Keeps s0 (setSealSlot n (slotErased (sealSlot s n)) s) :=
  h.setSeal fun _ => slotErased_ok _

theorem keeps_eraseSeal (n : Nat) (h : Keeps s0 s) : Keeps s0 (eraseSeal n s) := by
  have k1 : Keeps s0 ((pairTx (setSealSlot n (slotErased (sealSlot s n)) s) (n / 2)).foldl (fun s ta => match txSeal s ta with
      | some b => if (pair s (n / 2)).cur = (n % 2 == 1) then setTx ta (some { b with frame := none, zero := true, tag := none }) s else s
      | none => s) (setSealSlot n (slotErased (sealSlot s n)) s)) := by
    refine Keeps.foldl (fun u ta k => ?_) _ (keeps_sealErased n h)
    split
    · exact Keeps.ite (fun _ => keeps_setTx _ _ k) fun _ => k
    · exact k
  unfold eraseSeal
  dsimp only
  generalize List.foldl _ _ _ = t at k1
  have k2 : Keeps s0 ((pairRx t (n / 2)).foldl (fun s ta => match rxSeal s ta with
      | some b => setRx ta (some { b with wait := b.wait.map (fun w => if w.phase = (n % 2 == 1) then { w with bad := true } else w) }) s
      | none => s) t) := by
    refine Keeps.foldl (fun u ta k => ?_) _ k1
    split
    · exact keeps_setRx _ _ k
    · exact k
  split
  · exact keeps_pulse _ _ _ _ _ k2
  · exact k2

/-! ## Machine/Ticks.lean -/

theorem keeps_tickCond : ∀ a0 a1 a2 a3, Keeps s0 s → Keeps s0 (tickCond a0 a1 a2 a3 s) := by
  intro a0 a1 a2 a3 h
  unfold tickCond
  repeat' first
    | with_reducible assumption
    | with_reducible apply keeps_pulse
    | with_reducible apply Keeps.ite
    | fail_if_no_progress ((with_reducible apply Keeps.upd) <;> try rfl)
    | intro _

theorem keeps_ftickReceive : ∀ a0, Keeps s0 s → Keeps s0 (ftickReceive a0 s) := by
  intro a0 h
  unfold ftickReceive
  repeat' first
    | with_reducible assumption
    | with_reducible apply keeps_tickCond
    | with_reducible apply Keeps.ite
    | with_reducible refine Keeps.snd (by assumption) ?_
    | with_reducible refine Keeps.fst (by assumption) ?_
    | fail_if_no_progress ((with_reducible apply Keeps.upd) <;> try rfl)
    | intro _
    | split

theorem keeps_execFtickWordReceived : ∀ a0, Keeps s0 s → KeepsOut s0 (execFtickWordReceived a0 s) := by
  intro a0 h
  unfold execFtickWordReceived
  repeat' first
    | with_reducible assumption
    | with_reducible apply keeps_ftickReceive
    | with_reducible apply KeepsOut.next
    | with_reducible apply KeepsOut.ite
    | with_reducible apply Keeps.ite
    | intro _

theorem keeps_ftickMeasure : ∀ a0, Keeps s0 s → Keeps s0 (ftickMeasure a0 s) := by
  intro a0 h
  unfold ftickMeasure
  repeat' first
    | with_reducible assumption
    | with_reducible apply keeps_tickCond
    | with_reducible apply Keeps.ite
    | with_reducible refine Keeps.snd (by assumption) ?_
    | with_reducible refine Keeps.fst (by assumption) ?_
    | fail_if_no_progress ((with_reducible apply Keeps.upd) <;> try rfl)
    | intro _
    | split

theorem keeps_tickApply : ∀ a0, Keeps s0 s → Keeps s0 (tickApply a0 s) := by
  intro a0 h
  unfold tickApply
  repeat' first
    | with_reducible assumption
    | with_reducible apply Keeps.ite
    | fail_if_no_progress ((with_reducible apply Keeps.upd) <;> try rfl)

theorem keepsAlign_tickAlign (d : Int) (s : State) : KeepsAlign False s (tickAlign d s) := by
  refine ⟨rfl, rfl, ?_, False.elim, fun i => ⟨i.wm, i.rings, i.evt, i.keys, ?_⟩⟩
  · unfold tickAlign clkStep
    dsimp only
    split <;> rfl
  · unfold tickAlign clkStep
    dsimp only
    split
    · exact Nat.div_lt_of_lt_mul (Nat.mod_lt _ (Nat.zero_lt_succ 124999))
    · exact Nat.zero_lt_succ 7

theorem keepsAlign_tickJob (edge : Option Int) (s : State) (r : Nat) : KeepsAlign (edge = none) s (tickJob edge s r) := by
  unfold tickJob
  split
  · exact KeepsAlign.refl s
  · rename_i j _
    split
    · split
      · cases edge with
        | none =>
          dsimp only
          exact (Keeps.ite (fun _ => keeps_endJob _ _ _ (Keeps.refl s)) fun _ => Keeps.refl s).toAlign
        | some d =>
          dsimp only
          split
          · have k := (keeps_tickApply j.params (Keeps.refl s)).toAlign.trans (keepsAlign_tickAlign d (tickApply j.params s))
            generalize tickAlign d (tickApply j.params s) = u at k
            have k := k.trans (keeps_endJob r .ok [u.clk.fc, 0] (Keeps.refl u)).toAlign
            exact ⟨k.queue, k.ne, k.ticks, fun e => absurd e (by simp), k.inv⟩
          · exact (Keeps.ite (fun _ => keeps_endJob _ _ _ (Keeps.refl s)) fun _ => Keeps.refl s).toAlign
      · exact (keeps_endJob _ _ _ (keeps_tickApply _ (Keeps.refl s))).toAlign
    · exact KeepsAlign.refl s

theorem keeps_genTake : Keeps s0 s → Keeps s0 (genTake s) := by
  intro h
  unfold genTake
  repeat' first
    | with_reducible assumption
    | fail_if_no_progress ((with_reducible apply Keeps.upd) <;> try rfl)
    | split

theorem keeps_tickSample : Keeps s0 s → Keeps s0 (tickSample s) := by
  intro h
  unfold tickSample
  repeat' first
    | with_reducible assumption
    | with_reducible apply Keeps.ite
    | fail_if_no_progress ((with_reducible apply Keeps.upd) <;> try rfl)

theorem keepsAlign_tickFrame (edge : Option Int) (s : State) : KeepsAlign (edge = none) s (tickFrame edge s) := by
  unfold tickFrame
  dsimp only
  exact ((Keeps.ite (fun _ => keeps_ftickMeasure _ (Keeps.refl s)) fun _ => Keeps.refl s).toAlign.trans
    (KeepsAlign.foldl (fun u r => keepsAlign_tickJob edge u r) _ _)).trans (keeps_tickSample (Keeps.refl _)).toAlign

theorem keeps_bodyTimeTickSet : ∀ a0, Keeps s0 s → KeepsRes s0 (bodyTimeTickSet a0 s) := by
  intro a0 h
  unfold bodyTimeTickSet
  repeat' first
    | with_reducible assumption
    | with_reducible apply keeps_refuse
    | with_reducible apply KeepsRes.reply
    | with_reducible apply KeepsRes.wait
    | with_reducible apply KeepsRes.queued
    | with_reducible apply KeepsRes.ite
    | with_reducible apply Keeps.ite
    | intro _

theorem keeps_bodyTimeTickGet : ∀ a0, Keeps s0 s → KeepsRes s0 (bodyTimeTickGet a0 s) := by
  intro a0 h
  unfold bodyTimeTickGet
  repeat' first
    | with_reducible assumption
    | with_reducible apply KeepsRes.reply
    | with_reducible apply KeepsRes.wait
    | with_reducible apply KeepsRes.queued
    | with_reducible apply KeepsRes.ite
    | with_reducible apply Keeps.ite
    | fail_if_no_progress ((with_reducible apply Keeps.upd) <;> try rfl)
    | intro _

/-! ## Machine/Sections.lean -/

theorem keeps_cwTap : ∀ a0 a1 a2, Keeps s0 s → Keeps s0 (cwTap a0 a1 a2 s) := by
  intro a0 a1 a2 h
  unfold cwTap
  repeat' first
    | with_reducible assumption
    | with_reducible apply keeps_tapInc
    | with_reducible apply Keeps.ite
    | intro _

theorem keeps_badWords : ∀ a0 a1, Keeps s0 s → Keeps s0 (badWords a0 a1 s) := by
  intro a0 a1 h
  unfold badWords
  repeat' first
    | with_reducible assumption
    | with_reducible apply keeps_modSd
    | with_reducible apply keeps_modRx
    | with_reducible apply Keeps.ite
    | intro _

theorem keeps_decodeSection : ∀ a0 a1, Keeps s0 s → Keeps s0 (decodeSection a0 a1 s).2 := by
  intro a0 a1 h
  unfold decodeSection
  repeat' first
    | with_reducible assumption
    | with_reducible apply keeps_badWords
    | with_reducible apply keeps_cwTap
    | with_reducible apply keeps_draw
    | with_reducible apply Keeps.ite
    | with_reducible refine Keeps.foldl (fun u x hu => ?_) _ ?_
    | with_reducible refine Keeps.foldlFst (fun u x hu => ?_) _ ?_
    | with_reducible refine Keeps.foldlSnd (fun u x hu => ?_) _ ?_
    | with_reducible refine Keeps.snd (by assumption) ?_
    | with_reducible refine Keeps.fst (by assumption) ?_
    | fail_if_no_progress ((with_reducible apply Keeps.upd) <;> try rfl)
    | intro _
    | split

theorem keeps_bipCheck : ∀ a0 a1 a2, Keeps s0 s → Keeps s0 (bipCheck a0 a1 a2 s) := by
  intro a0 a1 a2 h
  unfold bipCheck
  repeat' first
    | with_reducible assumption
    | with_reducible apply keeps_tapInc
    | with_reducible apply keeps_modRx
    | with_reducible apply Keeps.ite
    | with_reducible refine Keeps.snd (by assumption) ?_
    | with_reducible refine Keeps.fst (by assumption) ?_
    | fail_if_no_progress ((with_reducible apply Keeps.upd) <;> try rfl)
    | intro _
    | split

theorem keeps_sectionOverhead : ∀ a0 a1, Keeps s0 s → Keeps s0 (sectionOverhead a0 a1 s) := by
  intro a0 a1 h
  unfold sectionOverhead
  repeat' first
    | with_reducible assumption
    | with_reducible apply keeps_modRx
    | with_reducible apply keeps_pulse
    | with_reducible apply Keeps.ite
    | intro _

theorem keeps_tagCheck : ∀ a0 a1 a2, Keeps s0 s → Keeps s0 (tagCheck a0 a1 a2 s) := by
  intro a0 a1 a2 h
  unfold tagCheck
  repeat' first
    | with_reducible assumption
    | with_reducible apply keeps_tapInc
    | with_reducible apply keeps_modIn
    | with_reducible apply keeps_degCount
    | with_reducible apply Keeps.ite
    | with_reducible refine Keeps.snd (by assumption) ?_
    | with_reducible refine Keeps.fst (by assumption) ?_
    | fail_if_no_progress ((with_reducible apply Keeps.upd) <;> try rfl)
    | intro _
    | split

theorem keeps_jcCount : ∀ a0 a1 a2, Keeps s0 s → Keeps s0 (jcCount a0 a1 a2 s) := by
  intro a0 a1 a2 h
  unfold jcCount
  repeat' first
    | with_reducible assumption
    | with_reducible apply keeps_modIn
    | with_reducible apply keeps_tapInc
    | with_reducible apply Keeps.ite
    | intro _

theorem keeps_taOverhead : ∀ a0 a1 a2 a3, Keeps s0 s → Keeps s0 (taOverhead a0 a1 a2 a3 s) := by
  intro a0 a1 a2 a3 h
  unfold taOverhead
  repeat' first
    | with_reducible assumption
    | with_reducible apply keeps_jcCount
    | with_reducible apply keeps_tagCheck
    | with_reducible apply keeps_modIn
    | with_reducible apply keeps_frameCheck
    | with_reducible apply keeps_openOverhead
    | with_reducible apply keeps_taSync
    | with_reducible apply Keeps.ite
    | with_reducible refine Keeps.snd (by assumption) ?_
    | with_reducible refine Keeps.fst (by assumption) ?_
    | fail_if_no_progress ((with_reducible apply Keeps.upd) <;> try rfl)
    | intro _
    | split

theorem keeps_sectionTribs : ∀ a0 a1 a2 a3, Keeps s0 s → Keeps s0 (sectionTribs a0 a1 a2 a3 s) := by
  intro a0 a1 a2 a3 h
  unfold sectionTribs
  repeat' first
    | with_reducible assumption
    | with_reducible apply keeps_taOverhead
    | with_reducible refine Keeps.foldl (fun u x hu => ?_) _ ?_

theorem keeps_taWhole : ∀ a0 a1 a2 a3 a4, Keeps s0 s → Keeps s0 (taWhole a0 a1 a2 a3 a4 s) := by
  intro a0 a1 a2 a3 a4 h
  unfold taWhole
  repeat' first
    | with_reducible assumption
    | with_reducible apply keeps_modIn
    | with_reducible apply keeps_openCycle
    | with_reducible apply Keeps.ite
    | with_reducible refine Keeps.snd (by assumption) ?_
    | with_reducible refine Keeps.fst (by assumption) ?_
    | fail_if_no_progress ((with_reducible apply Keeps.upd) <;> try rfl)
    | intro _
    | split

theorem keeps_capPut : ∀ a0 a1 a2 a3, Keeps s0 s → Keeps s0 (capPut a0 a1 a2 a3 s) := by
  intro a0 a1 a2 a3 h
  unfold capPut
  repeat' first
    | with_reducible assumption
    | fail_if_no_progress ((with_reducible apply Keeps.upd) <;> try rfl)

theorem keeps_laneWhole : ∀ a0 a1, Keeps s0 s → Keeps s0 (laneWhole a0 a1 s) := by
  intro a0 a1 h
  unfold laneWhole
  repeat' first
    | with_reducible assumption
    | with_reducible apply keeps_taWhole
    | with_reducible apply keeps_modRx
    | with_reducible apply Keeps.ite
    | with_reducible refine Keeps.foldl (fun u x hu => ?_) _ ?_
    | fail_if_no_progress ((with_reducible apply Keeps.upd) <;> try rfl)
    | intro _

theorem keeps_sectionProcess : ∀ a0 a1, Keeps s0 s → Keeps s0 (sectionProcess a0 a1 s) := by
  intro a0 a1 h
  unfold sectionProcess
  repeat' first
    | with_reducible assumption
    | with_reducible apply keeps_decodeSection
    | with_reducible apply keeps_sectionOverhead
    | with_reducible apply keeps_bipCheck
    | with_reducible apply keeps_sectionTribs
    | with_reducible apply keeps_modRx
    | with_reducible apply keeps_capPut
    | with_reducible apply keeps_laneWhole
    | with_reducible apply Keeps.ite
    | with_reducible refine Keeps.foldl (fun u x hu => ?_) _ ?_
    | with_reducible refine Keeps.foldlFst (fun u x hu => ?_) _ ?_
    | with_reducible refine Keeps.foldlSnd (fun u x hu => ?_) _ ?_
    | with_reducible refine Keeps.snd (by assumption) ?_
    | with_reducible refine Keeps.fst (by assumption) ?_
    | fail_if_no_progress ((with_reducible apply Keeps.upd) <;> try rfl)
    | intro _
    | split
    | dsimp only

theorem keeps_loopWords (l : Nat) {ws : List (List Sym)} {u : State} (h : Keeps s0 s) (e : loopWords l s = some (ws, u)) : Keeps s0 u := by
  unfold loopWords at e
  dsimp only at e
  generalize (if (lane s l).al.inv = true then _ else _) = bs at e
  by_cases hb : bs.length = 217600
  · rw [if_pos hb] at e
    exact Keeps.someSnd (keeps_modTx _ _ h) e
  · rw [if_neg hb] at e
    exact nomatch e

theorem keeps_sectionTake : ∀ a0 a1, Keeps s0 s → Keeps s0 (sectionTake a0 a1 s) := by
  intro a0 a1 h
  unfold sectionTake
  repeat' first
    | with_reducible assumption
    | with_reducible apply keeps_loopEcho
    | with_reducible apply keeps_sectionProcess
    | with_reducible apply keeps_modRx
    | with_reducible apply keeps_beginCycle
    | with_reducible apply Keeps.ite
    | with_reducible refine Keeps.snd (by assumption) ?_
    | with_reducible refine Keeps.fst (by assumption) ?_
    | intro _

theorem keeps_sectionDecoded (l : Nat) (ws : List (List Sym)) (h : Keeps s0 s) : Keeps s0 (sectionDecoded l ws s) := by
  unfold sectionDecoded
  split
  · exact h
  · split
    · rename_i e
      refine keeps_sectionTake _ _ ?_
      split at e
      · exact keeps_loopWords _ h e
      · exact Keeps.someSnd h e
    · exact h

theorem keeps_phaseOf : ∀ a0 a1, Keeps s0 s → Keeps s0 (phaseOf a0 a1 s).2 := by
  intro a0 a1 h
  unfold phaseOf
  repeat' first
    | with_reducible assumption
    | with_reducible apply keeps_draw
    | with_reducible refine Keeps.snd (by assumption) ?_
    | with_reducible refine Keeps.fst (by assumption) ?_
    | fail_if_no_progress ((with_reducible apply Keeps.upd) <;> try rfl)
    | split

theorem keeps_raSlip : ∀ a0, Keeps s0 s → Keeps s0 (raSlip a0 s) := by
  intro a0 h
  unfold raSlip
  repeat' first
    | with_reducible assumption
    | with_reducible apply keeps_tapInc
    | with_reducible apply keeps_modIn
    | with_reducible apply keeps_pulse
    | with_reducible apply Keeps.ite
    | with_reducible refine Keeps.snd (by assumption) ?_
    | with_reducible refine Keeps.fst (by assumption) ?_
    | intro _

theorem keeps_shareUpdate : ∀ a0 a1 a2 a3 a4, Keeps s0 s → Keeps s0 (shareUpdate a0 a1 a2 a3 a4 s) := by
  intro a0 a1 a2 a3 a4 h
  unfold shareUpdate
  repeat' first
    | with_reducible assumption
    | with_reducible apply keeps_modIn
    | with_reducible apply keeps_raSlip
    | with_reducible apply Keeps.ite
    | intro _

theorem keeps_shareEmit : ∀ a0 a1, Keeps s0 s → Keeps s0 (shareEmit a0 a1 s).2 := by
  intro a0 a1 h
  unfold shareEmit
  repeat' first
    | with_reducible assumption
    | with_reducible apply keeps_modIn
    | with_reducible apply keeps_labelled
    | with_reducible apply Keeps.ite
    | with_reducible refine Keeps.foldl (fun u x hu => ?_) _ ?_
    | with_reducible refine Keeps.foldlFst (fun u x hu => ?_) _ ?_
    | with_reducible refine Keeps.foldlSnd (fun u x hu => ?_) _ ?_
    | with_reducible refine Keeps.snd (by assumption) ?_
    | with_reducible refine Keeps.fst (by assumption) ?_
    | fail_if_no_progress ((with_reducible apply Keeps.upd) <;> try rfl)
    | intro _
    | split
    | dsimp only

theorem keeps_syncUpdate : ∀ a0 a1 a2, Keeps s0 s → Keeps s0 (syncUpdate a0 a1 a2 s) := by
  intro a0 a1 a2 h
  unfold syncUpdate
  repeat' first
    | with_reducible assumption
    | with_reducible apply keeps_tapInc
    | with_reducible apply keeps_modIn
    | with_reducible apply Keeps.ite
    | with_reducible refine Keeps.foldl (fun u x hu => ?_) _ ?_
    | fail_if_no_progress ((with_reducible apply Keeps.upd) <;> try rfl)
    | intro _

theorem keeps_raShareOut (n : Nat) (base : List (List Grain)) (ra : RaLane) (ta : Nat) {u : Tbl Grain × State} (h : Keeps s0 u.2) :
    Keeps s0 (raShareOut n base ra u ta).2 := by
  obtain ⟨lay, s⟩ := u
  dsimp only at h
  unfold raShareOut
  dsimp only
  split
  · exact keeps_shareEmit n ta h
  · have k := fun f => keeps_modIn ta f h
    generalize (if (taNew s false ta n || ra.new_) = true then _ else _) = gs
    dsimp only
    split
    · split
      · with_reducible refine keeps_labelled _ _ _ (k _)
      · with_reducible exact k _
    · with_reducible exact k _

theorem keeps_raEmit (l n : Nat) (h : Keeps s0 s) : Keeps s0 (raEmit l n s) := by
  unfold raEmit
  dsimp only
  have k : Keeps s0 (((tribIds (mapAt s false l n)).map (fun t => 1024 * l + t)).foldl
      (raShareOut n (raBase l s) (tget raLaneReset s.trib.raLane l)) (([] : Tbl Grain), s)).2 :=
    Keeps.foldlSnd (fun u ta hu => keeps_raShareOut n _ _ ta hu) _ h
  generalize ((tribIds (mapAt s false l n)).map (fun t => 1024 * l + t)).foldl
      (raShareOut n (raBase l s) (tget raLaneReset s.trib.raLane l)) (([] : Tbl Grain), s) = v at k ⊢
  with_reducible refine keeps_modRx _ _ (Keeps.foldl (fun _ i hu => ?_) _ ?_)
  · with_reducible exact keeps_capPut _ _ _ _ hu
  · (with_reducible refine k.upd ?_ ?_ ?_ ?_ ?_ ?_ ?_) <;> rfl

theorem keeps_raTick : ∀ a0 a1 a2, Keeps s0 s → Keeps s0 (raTick a0 a1 a2 s) := by
  intro a0 a1 a2 h
  unfold raTick
  repeat' first
    | with_reducible assumption
    | with_reducible apply keeps_raEmit
    | with_reducible apply keeps_phaseOf
    | with_reducible apply keeps_syncUpdate
    | with_reducible apply keeps_shareUpdate
    | with_reducible apply keeps_modIn
    | with_reducible apply Keeps.ite
    | with_reducible refine Keeps.foldl (fun u x hu => ?_) _ ?_
    | with_reducible refine Keeps.snd (by assumption) ?_
    | with_reducible refine Keeps.fst (by assumption) ?_
    | fail_if_no_progress ((with_reducible apply Keeps.upd) <;> try rfl)
    | intro _

theorem keeps_raTicks : ∀ a0, Keeps s0 s → Keeps s0 (raTicks a0 s) := by
  intro a0 h
  unfold raTicks
  repeat' first
    | with_reducible assumption
    | with_reducible apply keeps_raTick
    | with_reducible apply Keeps.ite
    | with_reducible refine Keeps.foldl (fun u x hu => ?_) _ ?_
    | intro _

/-! ## Machine/Cross.lean -/

theorem keeps_delayServe : ∀ a0 a1, Keeps s0 s → Keeps s0 (delayServe a0 a1 s) := by
  intro a0 a1 h
  unfold delayServe
  repeat' first
    | with_reducible assumption
    | with_reducible apply keeps_endJob
    | with_reducible apply Keeps.ite
    | with_reducible refine Keeps.snd (by assumption) ?_
    | with_reducible refine Keeps.fst (by assumption) ?_
    | fail_if_no_progress ((with_reducible apply Keeps.upd) <;> try rfl)
    | intro _

theorem keeps_delayJobs : ∀ a0, Keeps s0 s → Keeps s0 (delayJobs a0 s) := by
  intro a0 h
  unfold delayJobs
  repeat' first
    | with_reducible assumption
    | with_reducible apply keeps_delayServe
    | with_reducible apply Keeps.ite
    | with_reducible refine Keeps.foldl (fun u x hu => ?_) _ ?_
    | with_reducible refine Keeps.snd (by assumption) ?_
    | with_reducible refine Keeps.fst (by assumption) ?_
    | fail_if_no_progress ((with_reducible apply Keeps.upd) <;> try rfl)
    | intro _
    | split

theorem keeps_bodyConnDelay : ∀ a0, Keeps s0 s → KeepsRes s0 (bodyConnDelay a0 s) := by
  intro a0 h
  unfold bodyConnDelay
  repeat' first
    | with_reducible assumption
    | with_reducible apply KeepsRes.reply
    | with_reducible apply KeepsRes.wait

theorem keeps_setEq : ∀ a0 a1, Keeps s0 s → Keeps s0 (setEq a0 a1 s) := by
  intro a0 a1 h
  unfold setEq
  repeat' first
    | with_reducible assumption
    | fail_if_no_progress ((with_reducible apply Keeps.upd) <;> try rfl)

theorem keeps_setForce : ∀ a0 a1, Keeps s0 s → Keeps s0 (setForce a0 a1 s) := by
  intro a0 a1 h
  unfold setForce
  repeat' first
    | with_reducible assumption
    | with_reducible apply keeps_setEq
    | with_reducible apply Keeps.ite
    | fail_if_no_progress ((with_reducible apply Keeps.upd) <;> try rfl)
    | intro _

theorem keeps_eqCommit : ∀ a0 a1 a2, Keeps s0 s → Keeps s0 (eqCommit a0 a1 a2 s) := by
  intro a0 a1 a2 h
  unfold eqCommit
  repeat' first
    | with_reducible assumption
    | with_reducible apply keeps_setEq
    | fail_if_no_progress ((with_reducible apply Keeps.upd) <;> try rfl)

theorem keeps_eqHist : ∀ a0 a1, Keeps s0 s → Keeps s0 (eqHist a0 a1 s) := by
  intro a0 a1 h
  unfold eqHist
  repeat' first
    | with_reducible assumption
    | with_reducible apply keeps_setEq

theorem keeps_eqMeasure : ∀ a0 a1 a2, Keeps s0 s → Keeps s0 (eqMeasure a0 a1 a2 s) := by
  intro a0 a1 a2 h
  unfold eqMeasure
  repeat' first
    | with_reducible assumption
    | with_reducible apply keeps_eqHist
    | with_reducible apply keeps_setForce
    | with_reducible apply keeps_pulse
    | with_reducible apply Keeps.ite
    | with_reducible refine Keeps.foldl (fun u x hu => ?_) _ ?_
    | with_reducible refine Keeps.snd (by assumption) ?_
    | with_reducible refine Keeps.fst (by assumption) ?_
    | intro _

theorem keeps_eqData : ∀ a0 a1, Keeps s0 s → Keeps s0 (eqData a0 a1 s) := by
  intro a0 a1 h
  unfold eqData
  repeat' first
    | with_reducible assumption
    | with_reducible apply keeps_eqMeasure
    | with_reducible apply keeps_setForce
    | with_reducible apply Keeps.ite
    | with_reducible refine Keeps.foldl (fun u x hu => ?_) _ ?_
    | with_reducible refine Keeps.foldlFst (fun u x hu => ?_) _ ?_
    | with_reducible refine Keeps.foldlSnd (fun u x hu => ?_) _ ?_
    | with_reducible refine Keeps.snd (by assumption) ?_
    | with_reducible refine Keeps.fst (by assumption) ?_
    | fail_if_no_progress ((with_reducible apply Keeps.upd) <;> try rfl)
    | intro _
    | split
    | dsimp only

theorem keeps_eqPass : ∀ a0, Keeps s0 s → Keeps s0 (eqPass a0 s) := by
  intro a0 h
  unfold eqPass
  repeat' first
    | with_reducible assumption
    | with_reducible apply keeps_eqData
    | with_reducible apply Keeps.ite
    | with_reducible refine Keeps.foldl (fun u x hu => ?_) _ ?_
    | intro _

theorem keeps_eqLocked (b : Nat) (h : Keeps s0 s) : Keeps s0 (eqLocked b s) := by
  unfold eqLocked
  dsimp only
  split
  · repeat' split
    all_goals first
      | exact h
      | exact keeps_pulse _ _ _ _ _ (keeps_putE _ _ _ (keeps_setForce _ _ h))
  · exact h

theorem keeps_eqLost : ∀ a0, Keeps s0 s → Keeps s0 (eqLost a0 s) := by
  intro a0 h
  unfold eqLost
  repeat' first
    | with_reducible assumption
    | with_reducible apply keeps_pulse
    | with_reducible apply keeps_eqHist
    | with_reducible apply keeps_setForce
    | with_reducible apply Keeps.ite
    | with_reducible refine Keeps.snd (by assumption) ?_
    | with_reducible refine Keeps.fst (by assumption) ?_
    | intro _

theorem keeps_execConnEqLost : ∀ a0, Keeps s0 s → KeepsOut s0 (execConnEqLost a0 s) := by
  intro a0 h
  unfold execConnEqLost
  repeat' first
    | with_reducible assumption
    | with_reducible apply keeps_eqLost
    | with_reducible apply KeepsOut.next
    | with_reducible exact KeepsOut.refused
    | with_reducible apply KeepsOut.ite
    | with_reducible apply Keeps.ite
    | intro _

theorem keeps_eqTiming : ∀ a0, Keeps s0 s → Keeps s0 (eqTiming a0 s) := by
  intro a0 h
  unfold eqTiming
  repeat' first
    | with_reducible assumption
    | with_reducible apply keeps_setForce
    | with_reducible apply Keeps.ite
    | with_reducible refine Keeps.foldl (fun u x hu => ?_) _ ?_
    | with_reducible refine Keeps.snd (by assumption) ?_
    | with_reducible refine Keeps.fst (by assumption) ?_
    | intro _

theorem keeps_bodyConnEqSet : ∀ a0, Keeps s0 s → KeepsRes s0 (bodyConnEqSet a0 s) := by
  intro a0 h
  unfold bodyConnEqSet
  repeat' first
    | with_reducible assumption
    | with_reducible apply keeps_toPort

theorem keeps_eqDisable : ∀ a0 a1, Keeps s0 s → Keeps s0 (eqDisable a0 a1 s) := by
  intro a0 a1 h
  unfold eqDisable
  repeat' first
    | with_reducible assumption
    | with_reducible apply keeps_returnUnits
    | with_reducible apply keeps_eqCommit
    | with_reducible apply keeps_storeRelease
    | with_reducible apply keeps_putE
    | with_reducible apply Keeps.ite
    | intro _

theorem keeps_eqSetCommit : ∀ a0 a1, Keeps s0 s → Keeps s0 (eqSetCommit a0 a1 s) := by
  intro a0 a1 h
  unfold eqSetCommit
  repeat' first
    | with_reducible assumption
    | with_reducible apply keeps_eqDisable
    | with_reducible apply keeps_storeFrom
    | with_reducible apply keeps_eqCommit
    | with_reducible apply keeps_putE
    | with_reducible apply Keeps.ite
    | with_reducible refine Keeps.snd (by assumption) ?_
    | with_reducible refine Keeps.fst (by assumption) ?_
    | intro _

theorem keeps_bodyConnEqGet : ∀ a0, Keeps s0 s → KeepsRes s0 (bodyConnEqGet a0 s) := by
  intro a0 h
  unfold bodyConnEqGet
  repeat' first
    | with_reducible assumption
    | with_reducible apply keeps_setEq
    | with_reducible apply KeepsRes.reply
    | with_reducible apply KeepsRes.wait
    | with_reducible apply KeepsRes.queued
    | with_reducible apply KeepsRes.ite
    | with_reducible apply Keeps.ite
    | intro _

theorem keeps_relPut : ∀ a0, Keeps s0 s → Keeps s0 (relPut a0 s) := by
  intro a0 h
  unfold relPut
  repeat' first
    | with_reducible assumption
    | with_reducible apply Keeps.ite
    | fail_if_no_progress ((with_reducible apply Keeps.upd) <;> try rfl)

theorem keeps_crossPass : ∀ a0 a1, Keeps s0 s → Keeps s0 (crossPass a0 a1 s) := by
  intro a0 a1 h
  unfold crossPass
  repeat' first
    | with_reducible assumption
    | with_reducible apply keeps_delayJobs
    | with_reducible apply keeps_eqPass
    | with_reducible apply keeps_relPut
    | with_reducible apply Keeps.ite
    | with_reducible refine Keeps.foldl (fun u x hu => ?_) _ ?_
    | fail_if_no_progress ((with_reducible apply Keeps.upd) <;> try rfl)

theorem keeps_badEntry : ∀ a0, Keeps s0 s → Keeps s0 (badEntry a0 s) := by
  intro a0 h
  unfold badEntry
  repeat' first
    | with_reducible assumption
    | with_reducible apply keeps_monitorFinds
    | with_reducible apply keeps_pulse
    | with_reducible apply keeps_tapInc

theorem keeps_badWord : ∀ a0, Keeps s0 s → Keeps s0 (badWord a0 s) := by
  intro a0 h
  unfold badWord
  repeat' first
    | with_reducible assumption
    | with_reducible apply keeps_eccUncorr
    | with_reducible apply keeps_monitorFinds
    | with_reducible apply Keeps.ite
    | with_reducible refine Keeps.foldl (fun u x hu => ?_) _ ?_
    | with_reducible refine Keeps.foldlFst (fun u x hu => ?_) _ ?_
    | with_reducible refine Keeps.foldlSnd (fun u x hu => ?_) _ ?_
    | with_reducible refine Keeps.snd (by assumption) ?_
    | with_reducible refine Keeps.fst (by assumption) ?_
    | fail_if_no_progress ((with_reducible apply Keeps.upd) <;> try rfl)
    | intro _
    | split
    | dsimp only

theorem keeps_passErrors : ∀ a0 a1 a2, Keeps s0 s → Keeps s0 (passErrors a0 a1 a2 s) := by
  intro a0 a1 a2 h
  unfold passErrors
  repeat' first
    | with_reducible assumption
    | with_reducible apply keeps_tapInc
    | with_reducible apply keeps_badWord
    | with_reducible apply keeps_badEntry
    | with_reducible refine Keeps.foldl (fun u x hu => ?_) _ ?_

theorem keeps_execCrossoverPass : ∀ a0 a1, Keeps s0 s → KeepsOut s0 (execCrossoverPass a0 a1 s) := by
  intro a0 a1 h
  unfold execCrossoverPass
  repeat' first
    | with_reducible assumption
    | with_reducible apply keeps_passErrors
    | with_reducible apply keeps_crossPass
    | with_reducible apply KeepsOut.next
    | with_reducible exact KeepsOut.refused
    | with_reducible apply KeepsOut.ite
    | with_reducible apply Keeps.ite
    | intro _

theorem keeps_internalVerdict : ∀ a0 a1, Keeps s0 s → Keeps s0 (internalVerdict a0 a1 s) := by
  intro a0 a1 h
  unfold internalVerdict
  repeat' first
    | with_reducible assumption
    | with_reducible apply keeps_modEg
    | with_reducible apply keeps_tapInc
    | with_reducible apply keeps_modTd
    | with_reducible apply keeps_taDefect
    | with_reducible apply Keeps.ite
    | intro _

theorem keeps_egVerdict : ∀ a0 a1, Keeps s0 s → Keeps s0 (egVerdict a0 a1 s) := by
  intro a0 a1 h
  unfold egVerdict
  repeat' first
    | with_reducible assumption
    | with_reducible apply keeps_tapInc
    | with_reducible apply keeps_internalVerdict
    | with_reducible apply Keeps.ite
    | with_reducible refine Keeps.foldl (fun u x hu => ?_) _ ?_
    | with_reducible refine Keeps.foldlFst (fun u x hu => ?_) _ ?_
    | with_reducible refine Keeps.foldlSnd (fun u x hu => ?_) _ ?_
    | with_reducible refine Keeps.snd (by assumption) ?_
    | with_reducible refine Keeps.fst (by assumption) ?_
    | fail_if_no_progress ((with_reducible apply Keeps.upd) <;> try rfl)
    | intro _
    | split
    | dsimp only

theorem keeps_splitCheck : ∀ a0 a1 a2, Keeps s0 s → Keeps s0 (splitCheck a0 a1 a2 s) := by
  intro a0 a1 a2 h
  unfold splitCheck
  repeat' first
    | with_reducible assumption
    | with_reducible apply keeps_modEg
    | with_reducible apply keeps_pulse
    | with_reducible apply Keeps.ite
    | intro _

theorem keeps_egressTa : ∀ a0 a1 a2 a3, Keeps s0 s → Keeps s0 (egressTa a0 a1 a2 a3 s).2 := by
  intro a0 a1 a2 a3 h
  unfold egressTa
  repeat' first
    | with_reducible assumption
    | with_reducible apply keeps_egVerdict
    | with_reducible apply keeps_splitCheck
    | with_reducible apply keeps_txCycle
    | with_reducible apply keeps_modEg
    | with_reducible apply Keeps.ite
    | with_reducible refine Keeps.foldl (fun u x hu => ?_) _ ?_
    | with_reducible refine Keeps.snd (by assumption) ?_
    | with_reducible refine Keeps.fst (by assumption) ?_
    | intro _

theorem keeps_egressGone : ∀ a0, Keeps s0 s → Keeps s0 (egressGone a0 s) := by
  intro a0 h
  unfold egressGone
  repeat' first
    | with_reducible assumption
    | with_reducible apply keeps_modEg
    | with_reducible apply keeps_egVerdict
    | with_reducible apply Keeps.ite
    | intro _

theorem keeps_egressCycle (h : Keeps s0 s) : Keeps s0 (egressCycle s) := by
  unfold egressCycle
  (with_reducible apply Keeps.upd) <;> try rfl
  with_reducible refine Keeps.foldlSnd (fun u ta k => keeps_egressTa _ _ ta u.1 k) _ ?_
  exact Keeps.foldl (fun _ x k => keeps_egressGone (Prod.fst x) k) _ (h.upd rfl rfl rfl rfl rfl rfl rfl)

theorem keeps_followCommit : ∀ a0 a1 a2, Keeps s0 s → Keeps s0 (followCommit a0 a1 a2 s) := by
  intro a0 a1 a2 h
  unfold followCommit
  repeat' first
    | with_reducible assumption
    | with_reducible apply keeps_putEg

theorem keeps_bodyConnGet : ∀ a0, Keeps s0 s → KeepsRes s0 (bodyConnGet a0 s) := by
  intro a0 h
  unfold bodyConnGet
  repeat' first
    | with_reducible assumption
    | with_reducible apply KeepsRes.reply

/-! ## Machine/Prot.lean -/

theorem keeps_setGroup : ∀ a0 a1, Keeps s0 s → Keeps s0 (setGroup a0 a1 s) := by
  intro a0 a1 h
  unfold setGroup
  repeat' first
    | with_reducible assumption
    | fail_if_no_progress ((with_reducible apply Keeps.upd) <;> try rfl)

theorem keeps_modGroup : ∀ a0 a1, Keeps s0 s → Keeps s0 (modGroup a0 a1 s) := by
  intro a0 a1 h
  unfold modGroup
  repeat' first
    | with_reducible assumption
    | with_reducible apply keeps_setGroup

theorem keeps_modSet : ∀ a0 a1, Keeps s0 s → Keeps s0 (modSet a0 a1 s) := by
  intro a0 a1 h
  unfold modSet
  repeat' first
    | with_reducible assumption
    | with_reducible apply keeps_modGroup
    | with_reducible refine Keeps.foldl (fun u x hu => ?_) _ ?_

theorem keeps_protTrack : Keeps s0 s → Keeps s0 (protTrack s) := by
  intro h
  unfold protTrack
  repeat' first
    | with_reducible assumption
    | with_reducible apply keeps_setGroup
    | with_reducible refine Keeps.foldl (fun u x hu => ?_) _ ?_

theorem keeps_startRun : ∀ a0 a1, Keeps s0 s → Keeps s0 (startRun a0 a1 s) := by
  intro a0 a1 h
  unfold startRun
  repeat' first
    | with_reducible assumption
    | with_reducible apply keeps_setGroup

theorem keeps_wantSide : ∀ a0 a1, Keeps s0 s → Keeps s0 (wantSide a0 a1 s) := by
  intro a0 a1 h
  unfold wantSide
  repeat' first
    | with_reducible assumption
    | with_reducible apply keeps_modGroup
    | with_reducible apply keeps_startRun
    | with_reducible apply Keeps.ite
    | with_reducible refine Keeps.foldl (fun u x hu => ?_) _ ?_
    | intro _

theorem keeps_protEval : ∀ a0 a1, Keeps s0 s → Keeps s0 (protEval a0 a1 s) := by
  intro a0 a1 h
  unfold protEval
  repeat' first
    | with_reducible assumption
    | with_reducible apply keeps_raise
    | with_reducible apply keeps_modSet
    | with_reducible apply keeps_wantSide
    | with_reducible apply Keeps.ite
    | with_reducible refine Keeps.snd (by assumption) ?_
    | with_reducible refine Keeps.fst (by assumption) ?_
    | intro _

theorem keeps_protEvalAll : Keeps s0 s → Keeps s0 (protEvalAll s) := by
  intro h
  unfold protEvalAll
  repeat' first
    | with_reducible assumption
    | with_reducible apply keeps_protEval
    | with_reducible apply Keeps.ite
    | with_reducible refine Keeps.foldl (fun u x hu => ?_) _ ?_
    | intro _

theorem keeps_protHeld : Keeps s0 s → Keeps s0 (protHeld s) := by
  intro h
  unfold protHeld
  repeat' first
    | with_reducible assumption
    | with_reducible apply keeps_protEval
    | with_reducible apply keeps_modSet
    | with_reducible apply Keeps.ite
    | with_reducible refine Keeps.foldl (fun u x hu => ?_) _ ?_
    | intro _

theorem keeps_ruleJrnl : ∀ a0, Keeps s0 s → Keeps s0 (ruleJrnl a0 s) := by
  intro a0 h
  unfold ruleJrnl
  repeat' first
    | with_reducible assumption
    | with_reducible apply keeps_jrnl
    | with_reducible apply Keeps.ite
    | intro _

theorem keeps_protSync : Keeps s0 s → Keeps s0 (protSync s) := by
  intro h
  unfold protSync
  repeat' first
    | with_reducible assumption
    | with_reducible apply keeps_protTrack
    | with_reducible apply keeps_ruleJrnl
    | with_reducible apply keeps_protHeld
    | with_reducible apply keeps_protEvalAll
    | with_reducible apply Keeps.ite
    | intro _

theorem keeps_runBegin : ∀ a0, Keeps s0 s → Keeps s0 (runBegin a0 s) := by
  intro a0 h
  unfold runBegin
  repeat' first
    | with_reducible assumption
    | with_reducible apply keeps_raise
    | with_reducible apply keeps_setGroup
    | with_reducible apply Keeps.ite
    | with_reducible refine Keeps.foldl (fun u x hu => ?_) _ ?_
    | with_reducible refine Keeps.foldlFst (fun u x hu => ?_) _ ?_
    | with_reducible refine Keeps.foldlSnd (fun u x hu => ?_) _ ?_
    | with_reducible refine Keeps.snd (by assumption) ?_
    | with_reducible refine Keeps.fst (by assumption) ?_
    | fail_if_no_progress ((with_reducible apply Keeps.upd) <;> try rfl)
    | intro _
    | split
    | dsimp only

theorem keeps_runNext : ∀ a0 a1 a2, Keeps s0 s → Keeps s0 (runNext a0 a1 a2 s) := by
  intro a0 a1 a2 h
  unfold runNext
  repeat' first
    | with_reducible assumption
    | with_reducible apply keeps_modGroup
    | with_reducible apply keeps_raise
    | with_reducible apply keeps_setGroup
    | with_reducible apply Keeps.ite
    | with_reducible refine Keeps.foldl (fun u x hu => ?_) _ ?_
    | with_reducible refine Keeps.foldlFst (fun u x hu => ?_) _ ?_
    | with_reducible refine Keeps.foldlSnd (fun u x hu => ?_) _ ?_
    | with_reducible refine Keeps.snd (by assumption) ?_
    | with_reducible refine Keeps.fst (by assumption) ?_
    | fail_if_no_progress ((with_reducible apply Keeps.upd) <;> try rfl)
    | intro _
    | split
    | dsimp only

theorem keeps_runFail : ∀ a0 a1, Keeps s0 s → Keeps s0 (runFail a0 a1 s) := by
  intro a0 a1 h
  unfold runFail
  repeat' first
    | with_reducible assumption
    | with_reducible apply keeps_setGroup
    | with_reducible apply keeps_raise
    | with_reducible apply Keeps.ite
    | intro _

theorem keeps_protWrite : ∀ a0, Keeps s0 s → Keeps s0 (protWrite a0 s) := by
  intro a0 h
  unfold protWrite
  repeat' first
    | with_reducible assumption
    | with_reducible apply keeps_jrnl
    | with_reducible apply keeps_runFail
    | with_reducible apply keeps_commitEntry
    | with_reducible apply keeps_runBegin
    | with_reducible apply keeps_followCommit
    | with_reducible apply keeps_runNext
    | with_reducible apply keeps_putEg
    | with_reducible apply Keeps.ite
    | with_reducible refine Keeps.foldl (fun u x hu => ?_) _ ?_
    | with_reducible refine Keeps.foldlFst (fun u x hu => ?_) _ ?_
    | with_reducible refine Keeps.foldlSnd (fun u x hu => ?_) _ ?_
    | with_reducible refine Keeps.snd (by assumption) ?_
    | with_reducible refine Keeps.fst (by assumption) ?_
    | fail_if_no_progress ((with_reducible apply Keeps.upd) <;> try rfl)
    | intro _
    | split
    | dsimp only

theorem keeps_protCommit : ∀ a0, Keeps s0 s → Keeps s0 (protCommit a0 s) := by
  intro a0 h
  unfold protCommit
  repeat' first
    | with_reducible assumption
    | with_reducible apply keeps_ruleJrnl
    | with_reducible apply keeps_protWrite

theorem keeps_protFrame : Keeps s0 s → Keeps s0 (protFrame s) := by
  intro h
  unfold protFrame
  repeat' first
    | with_reducible assumption
    | with_reducible apply keeps_ruleJrnl
    | with_reducible apply keeps_startRun
    | with_reducible apply keeps_modGroup
    | with_reducible apply Keeps.ite
    | with_reducible refine Keeps.foldl (fun u x hu => ?_) _ ?_
    | intro _

theorem keeps_startSet : ∀ a0, Keeps s0 s → Keeps s0 (startSet a0 s) := by
  intro a0 h
  unfold startSet
  repeat' first
    | with_reducible assumption
    | with_reducible apply keeps_startRun
    | with_reducible apply Keeps.ite
    | with_reducible refine Keeps.foldl (fun u x hu => ?_) _ ?_
    | intro _

theorem keeps_execProtSwitchStart : ∀ a0, Keeps s0 s → KeepsOut s0 (execProtSwitchStart a0 s) := by
  intro a0 h
  unfold execProtSwitchStart
  repeat' first
    | with_reducible assumption
    | with_reducible apply keeps_ruleJrnl
    | with_reducible apply keeps_startSet
    | with_reducible apply KeepsOut.next
    | with_reducible exact KeepsOut.refused
    | with_reducible apply KeepsOut.ite
    | with_reducible apply Keeps.ite
    | with_reducible refine Keeps.foldl (fun u x hu => ?_) _ ?_
    | intro _

theorem keeps_holdOffExpiry : ∀ a0, Keeps s0 s → Keeps s0 (holdOffExpiry a0 s) := by
  intro a0 h
  unfold holdOffExpiry
  repeat' first
    | with_reducible assumption
    | with_reducible apply keeps_protEval
    | with_reducible apply keeps_setGroup
    | with_reducible apply Keeps.ite
    | with_reducible refine Keeps.foldl (fun u x hu => ?_) _ ?_
    | with_reducible refine Keeps.snd (by assumption) ?_
    | with_reducible refine Keeps.fst (by assumption) ?_
    | intro _

theorem keeps_execProtHoldOffExpiry : ∀ a0, Keeps s0 s → KeepsOut s0 (execProtHoldOffExpiry a0 s) := by
  intro a0 h
  unfold execProtHoldOffExpiry
  repeat' first
    | with_reducible assumption
    | with_reducible apply keeps_ruleJrnl
    | with_reducible apply keeps_holdOffExpiry
    | with_reducible apply KeepsOut.next
    | with_reducible exact KeepsOut.refused
    | with_reducible apply KeepsOut.ite
    | with_reducible apply Keeps.ite
    | intro _

theorem keeps_wtrExpiry : ∀ a0, Keeps s0 s → Keeps s0 (wtrExpiry a0 s) := by
  intro a0 h
  unfold wtrExpiry
  repeat' first
    | with_reducible assumption
    | with_reducible apply keeps_modSet
    | with_reducible apply keeps_raise
    | with_reducible apply keeps_protEval
    | with_reducible apply Keeps.ite
    | with_reducible refine Keeps.snd (by assumption) ?_
    | with_reducible refine Keeps.fst (by assumption) ?_
    | intro _

theorem keeps_execProtWtrExpiry : ∀ a0, Keeps s0 s → KeepsOut s0 (execProtWtrExpiry a0 s) := by
  intro a0 h
  unfold execProtWtrExpiry
  repeat' first
    | with_reducible assumption
    | with_reducible apply keeps_ruleJrnl
    | with_reducible apply keeps_wtrExpiry
    | with_reducible apply KeepsOut.next
    | with_reducible exact KeepsOut.refused
    | with_reducible apply KeepsOut.ite
    | with_reducible apply Keeps.ite
    | intro _

theorem keeps_execConnEqLocked : ∀ a0, Keeps s0 s → KeepsOut s0 (execConnEqLocked a0 s) := by
  intro a0 h
  unfold execConnEqLocked
  repeat' first
    | with_reducible assumption
    | with_reducible apply keeps_protSync
    | with_reducible apply keeps_eqLocked
    | with_reducible apply KeepsOut.next
    | with_reducible exact KeepsOut.refused
    | with_reducible apply KeepsOut.ite
    | with_reducible apply Keeps.ite
    | intro _

theorem keeps_execDefectDeclare : ∀ a0 a1, Keeps s0 s → KeepsOut s0 (execDefectDeclare a0 a1 s) := by
  intro a0 a1 h
  unfold execDefectDeclare
  repeat' first
    | with_reducible assumption
    | with_reducible apply keeps_protSync
    | with_reducible apply keeps_defectDeclare
    | with_reducible apply KeepsOut.next
    | with_reducible exact KeepsOut.refused
    | with_reducible apply KeepsOut.ite
    | with_reducible apply Keeps.ite
    | intro _

theorem keeps_execDefectClear : ∀ a0 a1, Keeps s0 s → KeepsOut s0 (execDefectClear a0 a1 s) := by
  intro a0 a1 h
  unfold execDefectClear
  repeat' first
    | with_reducible assumption
    | with_reducible apply keeps_protSync
    | with_reducible apply keeps_defectClear
    | with_reducible apply KeepsOut.next
    | with_reducible exact KeepsOut.refused
    | with_reducible apply KeepsOut.ite
    | with_reducible apply Keeps.ite
    | intro _

theorem keeps_execDegWindowEnd : ∀ a0, Keeps s0 s → KeepsOut s0 (execDegWindowEnd a0 s) := by
  intro a0 h
  unfold execDegWindowEnd
  repeat' first
    | with_reducible assumption
    | with_reducible apply keeps_protSync
    | with_reducible apply keeps_degEnd
    | with_reducible apply KeepsOut.next
    | with_reducible exact KeepsOut.refused
    | with_reducible apply KeepsOut.ite
    | with_reducible apply Keeps.ite
    | intro _

theorem keeps_rrFrame : ∀ a0 a1, Keeps s0 s → Keeps s0 (rrFrame a0 a1 s) := by
  intro a0 a1 h
  unfold rrFrame
  repeat' first
    | with_reducible assumption
    | with_reducible apply keeps_setGroup
    | with_reducible apply keeps_protEval
    | with_reducible apply Keeps.ite
    | intro _

theorem keeps_rrSection : ∀ a0, Keeps s0 s → Keeps s0 (rrSection a0 s) := by
  intro a0 h
  unfold rrSection
  repeat' first
    | with_reducible assumption
    | with_reducible apply keeps_setGroup
    | with_reducible apply keeps_rrFrame
    | with_reducible apply Keeps.ite
    | intro _

theorem keeps_rrHook : ∀ a0 a1, Keeps s0 s → Keeps s0 (rrHook a0 a1 s) := by
  intro a0 a1 h
  unfold rrHook
  repeat' first
    | with_reducible assumption
    | with_reducible apply keeps_rrSection
    | with_reducible apply Keeps.ite
    | with_reducible refine Keeps.foldl (fun u x hu => ?_) _ ?_
    | intro _

theorem keeps_execSectionDecoded : ∀ a0 a1, Keeps s0 s → KeepsOut s0 (execSectionDecoded a0 a1 s) := by
  intro a0 a1 h
  unfold execSectionDecoded
  repeat' first
    | with_reducible assumption
    | with_reducible apply keeps_protSync
    | with_reducible apply keeps_rrHook
    | with_reducible apply keeps_sectionDecoded
    | with_reducible apply KeepsOut.next
    | with_reducible exact KeepsOut.refused
    | with_reducible apply KeepsOut.ite
    | with_reducible apply Keeps.ite
    | intro _

theorem keeps_groupEnable : ∀ a0 a1, Keeps s0 s → Keeps s0 (groupEnable a0 a1 s) := by
  intro a0 a1 h
  unfold groupEnable
  repeat' first
    | with_reducible assumption
    | with_reducible apply keeps_protEval
    | with_reducible apply keeps_protTrack
    | with_reducible apply keeps_setGroup
    | with_reducible apply keeps_modGroup

theorem keeps_groupChange : ∀ a0 a1, Keeps s0 s → Keeps s0 (groupChange a0 a1 s) := by
  intro a0 a1 h
  unfold groupChange
  repeat' first
    | with_reducible assumption
    | with_reducible apply keeps_protEval
    | with_reducible apply keeps_setGroup

theorem keeps_groupDisable : ∀ a0, Keeps s0 s → Keeps s0 (groupDisable a0 s) := by
  intro a0 h
  unfold groupDisable
  repeat' first
    | with_reducible assumption
    | with_reducible apply keeps_setGroup
    | with_reducible apply keeps_protHeld
    | with_reducible apply keeps_protEval
    | with_reducible apply Keeps.ite
    | with_reducible refine Keeps.foldl (fun u x hu => ?_) _ ?_
    | with_reducible refine Keeps.foldlFst (fun u x hu => ?_) _ ?_
    | with_reducible refine Keeps.foldlSnd (fun u x hu => ?_) _ ?_
    | with_reducible refine Keeps.snd (by assumption) ?_
    | with_reducible refine Keeps.fst (by assumption) ?_
    | fail_if_no_progress ((with_reducible apply Keeps.upd) <;> try rfl)
    | intro _
    | split
    | dsimp only

theorem keeps_bodyProtGroupSet : ∀ a0, Keeps s0 s → KeepsRes s0 (bodyProtGroupSet a0 s) := by
  intro a0 h
  unfold bodyProtGroupSet
  repeat' first
    | with_reducible assumption
    | with_reducible apply keeps_groupDisable
    | with_reducible apply keeps_refuse
    | with_reducible apply keeps_groupChange
    | with_reducible apply keeps_groupEnable
    | with_reducible apply KeepsRes.reply
    | with_reducible apply KeepsRes.wait
    | with_reducible apply KeepsRes.queued
    | with_reducible apply KeepsRes.ite
    | with_reducible apply Keeps.ite
    | intro _

theorem keeps_bodyProtCmd : ∀ a0, Keeps s0 s → KeepsRes s0 (bodyProtCmd a0 s) := by
  intro a0 h
  unfold bodyProtCmd
  repeat' first
    | with_reducible assumption
    | with_reducible apply keeps_refuse
    | with_reducible apply keeps_raise
    | with_reducible apply keeps_protEval
    | with_reducible apply keeps_modSet
    | with_reducible apply KeepsRes.reply
    | with_reducible apply KeepsRes.wait
    | with_reducible apply KeepsRes.queued
    | with_reducible apply KeepsRes.ite
    | with_reducible apply Keeps.ite
    | intro _

theorem keeps_bodyProtGet : ∀ a0, Keeps s0 s → KeepsRes s0 (bodyProtGet a0 s) := by
  intro a0 h
  unfold bodyProtGet
  repeat' first
    | with_reducible assumption
    | with_reducible apply keeps_setGroup
    | with_reducible apply KeepsRes.reply
    | with_reducible apply KeepsRes.wait
    | with_reducible apply KeepsRes.queued
    | with_reducible apply KeepsRes.ite
    | with_reducible apply Keeps.ite
    | intro _

/-! ## Machine/Matrix.lean -/

theorem keeps_burstLock : ∀ a0 a1, Keeps s0 s → Keeps s0 (burstLock a0 a1 s) := by
  intro a0 a1 h
  unfold burstLock
  repeat' first
    | with_reducible assumption
    | with_reducible apply Keeps.ite
    | fail_if_no_progress ((with_reducible apply Keeps.upd) <;> try rfl)
    | intro _

theorem keeps_burstRead : ∀ a0 a1, Keeps s0 s → Keeps s0 (burstRead a0 a1 s) := by
  intro a0 a1 h
  unfold burstRead
  repeat' first
    | with_reducible assumption
    | fail_if_no_progress ((with_reducible apply Keeps.upd) <;> try rfl)

theorem keeps_burstError : ∀ a0, Keeps s0 s → Keeps s0 (burstError a0 s) := by
  intro a0 h
  unfold burstError
  repeat' first
    | with_reducible assumption
    | with_reducible apply keeps_raise
    | with_reducible apply keeps_burstRead

theorem keeps_freeBytes : ∀ a0 a1, Keeps s0 s → Keeps s0 (freeBytes a0 a1 s).2 := by
  intro a0 a1 h
  unfold freeBytes
  repeat' first
    | with_reducible assumption
    | fail_if_no_progress ((with_reducible apply Keeps.upd) <;> try rfl)

theorem keeps_burstAperture (m : Nat) : ∀ (a : Nat) (bs : List Byte) (n : Nat) {s : State}, Keeps s0 s → Keeps s0 (burstAperture m a bs n s)
  | _, _, 0, _, h => h
  | _, _, n + 1, _, h => keeps_burstAperture m _ _ n (keeps_apertureQueue _ _ _ h)

theorem keeps_lockTimeout : ∀ a0 a1, Keeps s0 s → Keeps s0 (lockTimeout a0 a1 s) := by
  intro a0 a1 h
  unfold lockTimeout
  repeat' first
    | with_reducible assumption
    | with_reducible apply keeps_abandonLock
    | fail_if_no_progress ((with_reducible apply Keeps.upd) <;> try rfl)

theorem keeps_execMatrixLockTimeout : ∀ a0, Keeps s0 s → KeepsOut s0 (execMatrixLockTimeout a0 s) := by
  intro a0 h
  unfold execMatrixLockTimeout
  repeat' first
    | with_reducible assumption
    | with_reducible apply keeps_lockTimeout
    | with_reducible apply KeepsOut.next
    | with_reducible exact KeepsOut.refused
    | with_reducible apply KeepsOut.ite
    | with_reducible apply Keeps.ite
    | with_reducible refine Keeps.snd (by assumption) ?_
    | with_reducible refine Keeps.fst (by assumption) ?_
    | intro _
    | split

/-! ## Machine/Cipher.lean -/

theorem keeps_putOp : ∀ a0, Keeps s0 s → Keeps s0 (putOp a0 s) := by
  intro a0 h
  unfold putOp
  repeat' first
    | with_reducible assumption
    | with_reducible apply Keeps.ite
    | fail_if_no_progress ((with_reducible apply Keeps.upd) <;> try rfl)

theorem keeps_dropOp : ∀ a0, Keeps s0 s → Keeps s0 (dropOp a0 s) := by
  intro a0 h
  unfold dropOp
  repeat' first
    | with_reducible assumption
    | fail_if_no_progress ((with_reducible apply Keeps.upd) <;> try rfl)

theorem keeps_fillOut : ∀ (k : Nat) (bs : List Byte) (o : CceOp) {s : State}, Keeps s0 s → Keeps s0 (fillOut k bs o s).2.2
  | 0, _, _, _, h => h
  | k + 1, bs, o, s, h => by
    unfold fillOut
    dsimp only
    have h1 := fun n => keeps_wmPut ((readDesc s o.dst).addr + o.fill) (bs.take n) h
    split
    · exact h
    · split
      · exact h
      · split
        · exact keeps_handBack _ h
        · split
          · exact h1 _
          · split
            · exact keeps_handBackOut _ _ (h1 _)
            · exact keeps_fillOut k _ _ (keeps_handBackOut _ _ (h1 _))

theorem keeps_zeroOut : ∀ a0, Keeps s0 s → Keeps s0 (zeroOut a0 s) := by
  intro a0 h
  unfold zeroOut
  repeat' first
    | with_reducible assumption
    | with_reducible apply keeps_fillOut
    | with_reducible apply keeps_handBackOut
    | with_reducible apply keeps_wmPut
    | with_reducible apply Keeps.ite
    | with_reducible refine Keeps.snd (by assumption) ?_
    | with_reducible refine Keeps.fst (by assumption) ?_
    | intro _

theorem keeps_endOp : ∀ a0 a1 a2, Keeps s0 s → Keeps s0 (endOp a0 a1 a2 s) := by
  intro a0 a1 a2 h
  unfold endOp
  repeat' first
    | with_reducible assumption
    | with_reducible apply keeps_wmPut
    | with_reducible apply keeps_dropOp
    | with_reducible apply keeps_zeroOut
    | with_reducible apply keeps_answerAborts
    | with_reducible apply keeps_writeReply
    | with_reducible apply Keeps.ite
    | intro _

theorem keeps_handBackChain : ∀ (k a : Nat) {s : State}, Keeps s0 s → Keeps s0 (handBackChain k a s)
  | 0, _, _, h => h
  | k + 1, _, _, h => by
    unfold handBackChain
    dsimp only
    exact Keeps.ite (fun _ => h) fun _ => Keeps.ite (fun _ => keeps_handBack _ h) fun _ => keeps_handBackChain k _ (keeps_handBack _ h)

theorem keeps_pumpOp : ∀ (k : Nat) (o : CceOp) {s : State}, Keeps s0 s → Keeps s0 (pumpOp k o s)
  | 0, _, _, h => keeps_putOp _ h
  | k + 1, o, s, h => by
    unfold pumpOp
    dsimp only
    generalize hx : (if (opMode s o == 3 && opDec o) = true then (none, o, s)
      else fillOut chainMax ((opOutput s o).drop o.wrote) o s) = x
    have hk : Keeps s0 x.2.2 := by
      subst hx
      split
      · exact h
      · exact keeps_fillOut _ _ _ h
    obtain ⟨st, o1, t⟩ := x
    dsimp only at hk ⊢
    have h1 := keeps_handBack o1.src hk
    split
    · exact keeps_endOp _ _ _ hk
    · split
      · exact keeps_putOp _ hk
      · split
        · exact keeps_putOp _ hk
        · split
          · exact keeps_endOp _ _ _ h1
          · split
            · exact keeps_endOp _ _ _ h1
            · split
              · exact keeps_endOp _ _ _ h1
              · exact keeps_pumpOp k _ h1

theorem keeps_refuseOp (st : Status) (o : CceOp) (h : Keeps s0 s) : Keeps s0 (refuseOp st o s) := by
  unfold refuseOp
  have k : Keeps s0 (if opLen o = 0 then s else handBack o.src s) := Keeps.ite (fun _ => h) fun _ => keeps_handBack _ h
  exact keeps_endOp _ _ _ (Keeps.ite (fun _ => keeps_handBackChain _ _ k) fun _ => k)

theorem keeps_beginOp (o : CceOp) (h : Keeps s0 s) : Keeps s0 (beginOp o s) := by
  unfold beginOp
  dsimp only
  split
  · exact keeps_putOp _ h
  · split
    · exact keeps_refuseOp _ _ h
    · split
      · exact keeps_refuseOp _ _ h
      · rename_i hl
        split
        · exact keeps_refuseOp _ _ h
        · exact keeps_pumpOp _ _ (keeps_cmdCount _ (by simpa using hl) h)

theorem keeps_advanceOp : ∀ a0, Keeps s0 s → Keeps s0 (advanceOp a0 s) := by
  intro a0 h
  unfold advanceOp
  repeat' first
    | with_reducible assumption
    | with_reducible apply keeps_pumpOp
    | with_reducible apply keeps_beginOp
    | with_reducible apply Keeps.ite
    | intro _

theorem keeps_completeOp : ∀ a0, Keeps s0 s → Keeps s0 (completeOp a0 s) := by
  intro a0 h
  unfold completeOp
  repeat' first
    | with_reducible assumption
    | with_reducible apply keeps_handBackOut
    | with_reducible apply keeps_fillOut
    | with_reducible apply keeps_endOp
    | with_reducible apply keeps_wmPut
    | with_reducible apply Keeps.ite
    | with_reducible refine Keeps.foldl (fun u x hu => ?_) _ ?_
    | with_reducible refine Keeps.foldlFst (fun u x hu => ?_) _ ?_
    | with_reducible refine Keeps.foldlSnd (fun u x hu => ?_) _ ?_
    | with_reducible refine Keeps.snd (by assumption) ?_
    | with_reducible refine Keeps.fst (by assumption) ?_
    | fail_if_no_progress ((with_reducible apply Keeps.upd) <;> try rfl)
    | intro _
    | split
    | dsimp only

theorem keeps_suspendOp (r : CceOp) {u : State} (h : Keeps s0 s) (e : suspendOp r s = some u) : Keeps s0 u := by
  have k : ∀ {t : State}, Keeps s0 t → Keeps s0 (putOp { r with st := 2, sAt := t.keys.nextS } { t with keys := { t.keys with nextS := t.keys.nextS + 1 } }) :=
    fun h => keeps_putOp _ (h.upd rfl rfl rfl rfl rfl rfl rfl)
  unfold suspendOp at e
  dsimp only at e
  split at e
  · cases e; exact k h
  · split at e
    · cases e; exact k h
    · split at e
      · exact nomatch e
      · cases e; exact k (keeps_putOp _ (keeps_wmPut _ _ h))

theorem keeps_runOp : ∀ a0, Keeps s0 s → Keeps s0 (runOp a0 s) := by
  intro a0 h
  unfold runOp
  repeat' first
    | with_reducible assumption
    | with_reducible apply keeps_putOp
    | with_reducible apply keeps_advanceOp
    | with_reducible apply Keeps.ite
    | fail_if_no_progress ((with_reducible apply Keeps.upd) <;> try rfl)
    | intro _

theorem keeps_cceStart (h : Keeps s0 s) : Keeps s0 (cceStart s) := by
  have ko : Keeps s0 (match ordNext s with | some o => runOp o s | none => s) := by
    split
    · exact keeps_runOp _ h
    · exact h
  unfold cceStart
  dsimp only
  split
  · split
    · exact h
    · split
      · rename_i e
        exact keeps_runOp _ (keeps_suspendOp _ h e)
      · exact h
  · exact Keeps.ite (fun _ => h) fun _ => keeps_runOp _ h
  · exact h
  · exact Keeps.ite (fun _ => ko) fun _ => h

theorem keeps_cceRun (f : State → State) (hf : Keeps s0 (f s)) (h : Keeps s0 s) : Keeps s0 (cceRun f s) := by
  unfold cceRun
  exact Keeps.ite (fun _ => hf) fun _ => h

theorem keeps_execCiphOpStart (h : Keeps s0 s) : KeepsOut s0 (execCiphOpStart s) := keeps_cceRun _ (keeps_cceStart h) h

theorem keeps_restoreOp : ∀ a0, Keeps s0 s → Keeps s0 (restoreOp a0 s) := by
  intro a0 h
  unfold restoreOp
  repeat' first
    | with_reducible assumption
    | with_reducible apply keeps_endOp
    | with_reducible apply keeps_advanceOp
    | with_reducible apply keeps_putOp
    | with_reducible refine Keeps.snd (by assumption) ?_
    | with_reducible refine Keeps.fst (by assumption) ?_
    | fail_if_no_progress ((with_reducible apply Keeps.upd) <;> try rfl)
    | split

theorem keeps_cceResume : Keeps s0 s → Keeps s0 (cceResume s) := by
  intro h
  unfold cceResume
  repeat' first
    | with_reducible assumption
    | with_reducible apply keeps_restoreOp
    | with_reducible apply keeps_advanceOp
    | with_reducible apply keeps_putOp
    | with_reducible apply Keeps.ite
    | with_reducible refine Keeps.snd (by assumption) ?_
    | with_reducible refine Keeps.fst (by assumption) ?_
    | fail_if_no_progress ((with_reducible apply Keeps.upd) <;> try rfl)
    | intro _
    | split

theorem keeps_execCiphOpResume (h : Keeps s0 s) : KeepsOut s0 (execCiphOpResume s) := keeps_cceRun _ (keeps_cceResume h) h

theorem keeps_cceComplete : Keeps s0 s → Keeps s0 (cceComplete s) := by
  intro h
  unfold cceComplete
  repeat' first
    | with_reducible assumption
    | with_reducible apply keeps_completeOp
    | fail_if_no_progress ((with_reducible apply Keeps.upd) <;> try rfl)
    | split

theorem keeps_execCiphOpComplete (h : Keeps s0 s) : KeepsOut s0 (execCiphOpComplete s) := keeps_cceRun _ (keeps_cceComplete h) h

theorem keeps_opRecheck : ∀ a0, Keeps s0 s → Keeps s0 (opRecheck a0 s) := by
  intro a0 h
  unfold opRecheck
  repeat' first
    | with_reducible assumption
    | with_reducible apply keeps_advanceOp
    | with_reducible refine Keeps.snd (by assumption) ?_
    | with_reducible refine Keeps.fst (by assumption) ?_
    | fail_if_no_progress ((with_reducible apply Keeps.upd) <;> try rfl)
    | split

theorem keeps_cceFault : Keeps s0 s → Keeps s0 (cceFault s) := by
  intro h
  unfold cceFault
  repeat' first
    | with_reducible assumption
    | with_reducible apply keeps_masterReset
    | with_reducible apply keeps_endOp
    | with_reducible refine Keeps.foldl (fun u x hu => ?_) _ ?_

theorem keeps_execCceFault : Keeps s0 s → KeepsOut s0 (execCceFault s) := by
  intro h
  unfold execCceFault
  repeat' first
    | with_reducible assumption
    | with_reducible apply keeps_cceFault
    | with_reducible apply KeepsOut.next
    | with_reducible apply KeepsOut.ite
    | with_reducible apply Keeps.ite
    | intro _

theorem keeps_bodyCiphKeyLoad (p : Packet) (h : Keeps s0 s) : KeepsRes s0 (bodyCiphKeyLoad p s) := by
  unfold bodyCiphKeyLoad refuse
  dsimp only
  refine KeepsRes.ite (fun _ => h) fun _ => KeepsRes.ite (fun _ => h) fun _ => KeepsRes.ite (fun _ => h) fun _ =>
    KeepsRes.ite (fun _ => h) fun _ => ?_
  split
  · exact h
  · refine KeepsRes.ite (fun _ => h) fun _ => KeepsRes.reply (Keeps.ite (fun _ => h.setCmd fun _ => slotLoaded_ok _ _ _ _)
      fun _ => h.setSeal fun _ => slotLoaded_ok _ _ _ _)

theorem keeps_cmdErased (n : Nat) (h : Keeps s0 s) : Keeps s0 (setCmdSlot n (slotErased (cmdSlot s n)) s) :=
  h.setCmd fun _ => slotErased_ok _

theorem keeps_eraseCmd (n : Nat) (h : Keeps s0 s) : Keeps s0 (eraseCmd n s) := by
  unfold eraseCmd
  dsimp only
  have k : Keeps s0 (((setCmdSlot n (slotErased (cmdSlot s n)) s).keys.ops.filter (fun o => opSlot o == n && o.st != 0 && o.begun)).foldl
      (fun s o => endOp .keyErased [] o s) (setCmdSlot n (slotErased (cmdSlot s n)) s)) :=
    Keeps.foldl (fun _ o k => keeps_endOp _ _ o k) _ (keeps_cmdErased n h)
  generalize List.foldl _ _ _ = t at k
  split
  · exact keeps_raise _ _ _ _ _ (k.upd rfl rfl rfl rfl rfl rfl rfl)
  · exact k

theorem keeps_eraseAll : Keeps s0 s → Keeps s0 (eraseAll s) := by
  intro h
  unfold eraseAll
  repeat' first
    | with_reducible assumption
    | with_reducible apply keeps_eraseCmd
    | with_reducible apply keeps_eraseSeal
    | with_reducible refine Keeps.foldl (fun u x hu => ?_) _ ?_

theorem keeps_bodyCiphKeyErase : ∀ a0, Keeps s0 s → KeepsRes s0 (bodyCiphKeyErase a0 s) := by
  intro a0 h
  unfold bodyCiphKeyErase
  repeat' first
    | with_reducible assumption
    | with_reducible apply keeps_done
    | with_reducible apply keeps_eraseCmd
    | with_reducible apply keeps_eraseSeal
    | with_reducible apply keeps_eraseAll
    | with_reducible apply KeepsRes.reply
    | with_reducible apply KeepsRes.wait
    | with_reducible apply KeepsRes.queued
    | with_reducible apply KeepsRes.ite
    | with_reducible apply Keeps.ite
    | with_reducible refine Keeps.snd (by assumption) ?_
    | with_reducible refine Keeps.fst (by assumption) ?_
    | fail_if_no_progress ((with_reducible apply Keeps.upd) <;> try rfl)
    | intro _
    | split

theorem keeps_bodyCiphKeyGet : ∀ a0, Keeps s0 s → KeepsRes s0 (bodyCiphKeyGet a0 s) := by
  intro a0 h
  unfold bodyCiphKeyGet
  repeat' first
    | with_reducible assumption
    | with_reducible apply KeepsRes.reply

theorem keeps_bodyCiphChanSet : ∀ a0, Keeps s0 s → KeepsRes s0 (bodyCiphChanSet a0 s) := by
  intro a0 h
  unfold bodyCiphChanSet
  repeat' first
    | with_reducible assumption
    | with_reducible apply keeps_refuse
    | with_reducible apply keeps_done
    | with_reducible apply KeepsRes.reply
    | with_reducible apply KeepsRes.wait
    | with_reducible apply KeepsRes.queued
    | with_reducible apply KeepsRes.ite
    | with_reducible apply Keeps.ite
    | fail_if_no_progress ((with_reducible apply Keeps.upd) <;> try rfl)
    | intro _

theorem keeps_queueOp : ∀ a0, Keeps s0 s → Keeps s0 (queueOp a0 s) := by
  intro a0 h
  unfold queueOp
  repeat' first
    | with_reducible assumption
    | with_reducible apply Keeps.ite
    | fail_if_no_progress ((with_reducible apply Keeps.upd) <;> try rfl)

theorem keeps_setKek (k : Nat) (a : BitVec 5) (h : Keeps s0 s) : Keeps s0 { s with keys := { s.keys with kek := k, alarm := a } } :=
  h.upd rfl rfl rfl rfl rfl rfl rfl

theorem keeps_alarmErase (causes : BitVec 5) (h : Keeps s0 s) : Keeps s0 (alarmErase causes s) := by
  unfold alarmErase
  with_reducible exact keeps_raise _ _ _ _ _ (keeps_setKek _ _ (keeps_draw 0x0B0305 (keeps_eraseAll h)))

theorem keeps_execKeyStoreAlarm : ∀ a0, Keeps s0 s → KeepsOut s0 (execKeyStoreAlarm a0 s) := by
  intro a0 h
  unfold execKeyStoreAlarm
  repeat' first
    | with_reducible assumption
    | with_reducible apply keeps_alarmErase
    | with_reducible apply KeepsOut.next
    | with_reducible exact KeepsOut.refused
    | with_reducible apply KeepsOut.ite
    | with_reducible apply Keeps.ite
    | intro _

theorem keeps_execAlarmCauseEnded : ∀ a0, Keeps s0 s → KeepsOut s0 (execAlarmCauseEnded a0 s) := by
  intro a0 h
  unfold execAlarmCauseEnded
  repeat' first
    | with_reducible assumption
    | with_reducible apply KeepsOut.next
    | fail_if_no_progress ((with_reducible apply Keeps.upd) <;> try rfl)

/-! ## Machine/Time.lean -/

theorem keeps_setRef : ∀ a0 a1, Keeps s0 s → Keeps s0 (setRef a0 a1 s) := by
  intro a0 a1 h
  unfold setRef
  repeat' first
    | with_reducible assumption
    | fail_if_no_progress ((with_reducible apply Keeps.upd) <;> try rfl)

theorem keeps_modRef : ∀ a0 a1, Keeps s0 s → Keeps s0 (modRef a0 a1 s) := by
  intro a0 a1 h
  unfold modRef
  repeat' first
    | with_reducible assumption
    | with_reducible apply keeps_setRef

theorem keeps_refEvent : ∀ a0 a1 a2 a3 a4, Keeps s0 s → Keeps s0 (refEvent a0 a1 a2 a3 a4 s) := by
  intro a0 a1 a2 a3 a4 h
  unfold refEvent
  repeat' first
    | with_reducible assumption
    | with_reducible apply keeps_setRef
    | with_reducible apply keeps_pulse
    | with_reducible apply Keeps.ite
    | intro _

theorem keeps_qlSeen : ∀ a0 a1 a2, Keeps s0 s → Keeps s0 (qlSeen a0 a1 a2 s) := by
  intro a0 a1 a2 h
  unfold qlSeen
  repeat' first
    | with_reducible assumption
    | with_reducible apply keeps_setRef
    | with_reducible apply keeps_refEvent
    | with_reducible apply Keeps.ite
    | intro _

theorem keeps_laneQl : ∀ a0 a1, Keeps s0 s → Keeps s0 (laneQl a0 a1 s) := by
  intro a0 a1 h
  unfold laneQl
  repeat' first
    | with_reducible assumption
    | with_reducible apply keeps_qlSeen
    | fail_if_no_progress ((with_reducible apply Keeps.upd) <;> try rfl)
    | split

theorem keeps_refSync : ∀ a0, Keeps s0 s → Keeps s0 (refSync a0 s) := by
  intro a0 h
  unfold refSync
  repeat' first
    | with_reducible assumption
    | with_reducible apply keeps_refEvent
    | with_reducible apply keeps_setRef
    | with_reducible apply Keeps.ite
    | intro _

theorem keeps_setCause : ∀ a0 a1 a2, Keeps s0 s → Keeps s0 (setCause a0 a1 a2 s) := by
  intro a0 a1 a2 h
  unfold setCause
  repeat' first
    | with_reducible assumption
    | with_reducible apply keeps_refSync
    | with_reducible apply keeps_setRef
    | with_reducible apply Keeps.ite
    | intro _

theorem keeps_lrefOne : ∀ a1, Keeps s0 s → Keeps s0 (lrefOne s a1) := by
  intro a1 h
  unfold lrefOne
  repeat' first
    | with_reducible assumption
    | with_reducible apply keeps_setCause
    | with_reducible apply keeps_setRef
    | with_reducible apply Keeps.ite
    | intro _

theorem keeps_lrefWatch : Keeps s0 s → Keeps s0 (lrefWatch s) := by
  intro h
  unfold lrefWatch
  repeat' first
    | with_reducible assumption
    | with_reducible apply keeps_lrefOne
    | with_reducible refine Keeps.foldl (fun u x hu => ?_) _ ?_

theorem keeps_guardWatch : Keeps s0 s → Keeps s0 (guardWatch s) := by
  intro h
  unfold guardWatch
  repeat' first
    | with_reducible assumption
    | with_reducible apply keeps_setCause
    | with_reducible refine Keeps.foldl (fun u x hu => ?_) _ ?_

theorem keeps_execRefActivityLoss : ∀ a0, Keeps s0 s → KeepsOut s0 (execRefActivityLoss a0 s) := by
  intro a0 h
  unfold execRefActivityLoss
  repeat' first
    | with_reducible assumption
    | with_reducible apply keeps_setCause
    | with_reducible apply keeps_modRef
    | with_reducible apply KeepsOut.next
    | with_reducible exact KeepsOut.refused
    | with_reducible apply KeepsOut.ite
    | with_reducible apply Keeps.ite
    | intro _

theorem keeps_driftStep : ∀ a0 a1, Keeps s0 s → Keeps s0 (driftStep a0 a1 s) := by
  intro a0 a1 h
  unfold driftStep
  repeat' first
    | with_reducible assumption
    | with_reducible apply keeps_refEvent
    | with_reducible apply keeps_setRef
    | with_reducible apply Keeps.ite
    | intro _

theorem keeps_slopeStep : ∀ a0 a1, Keeps s0 s → Keeps s0 (slopeStep a0 a1 s) := by
  intro a0 a1 h
  unfold slopeStep
  repeat' first
    | with_reducible assumption
    | with_reducible apply keeps_setRef
    | with_reducible apply keeps_refEvent
    | with_reducible apply Keeps.ite
    | with_reducible refine Keeps.snd (by assumption) ?_
    | with_reducible refine Keeps.fst (by assumption) ?_
    | intro _

theorem keeps_gateStep : ∀ a0 a1 a2, Keeps s0 s → Keeps s0 (gateStep a0 a1 a2 s) := by
  intro a0 a1 a2 h
  unfold gateStep
  repeat' first
    | with_reducible assumption
    | with_reducible apply keeps_refSync
    | with_reducible apply keeps_setRef

theorem keeps_refMeasure : ∀ a1, Keeps s0 s → Keeps s0 (refMeasure s a1) := by
  intro a1 h
  unfold refMeasure
  repeat' first
    | with_reducible assumption
    | with_reducible apply keeps_setRef
    | with_reducible apply keeps_gateStep
    | with_reducible apply keeps_slopeStep
    | with_reducible apply keeps_driftStep
    | with_reducible apply Keeps.ite
    | with_reducible refine Keeps.snd (by assumption) ?_
    | with_reducible refine Keeps.fst (by assumption) ?_
    | fail_if_no_progress ((with_reducible apply Keeps.upd) <;> try rfl)
    | intro _
    | split

theorem keeps_execFreqMonitorUpdate : ∀ a0, Keeps s0 s → KeepsOut s0 (execFreqMonitorUpdate a0 s) := by
  intro a0 h
  unfold execFreqMonitorUpdate
  repeat' first
    | with_reducible assumption
    | with_reducible apply keeps_lrefWatch
    | with_reducible apply keeps_refMeasure
    | with_reducible apply KeepsOut.next
    | with_reducible exact KeepsOut.refused
    | with_reducible apply KeepsOut.ite
    | with_reducible apply Keeps.ite
    | with_reducible refine Keeps.foldl (fun u x hu => ?_) _ ?_
    | intro _

theorem keeps_execMacerationExpiry : ∀ a0, Keeps s0 s → KeepsOut s0 (execMacerationExpiry a0 s) := by
  intro a0 h
  unfold execMacerationExpiry
  repeat' first
    | with_reducible assumption
    | with_reducible apply keeps_refEvent
    | with_reducible apply keeps_setRef
    | with_reducible apply KeepsOut.next
    | with_reducible exact KeepsOut.refused
    | with_reducible apply KeepsOut.ite
    | with_reducible apply Keeps.ite
    | intro _

theorem keeps_modDpll : ∀ a0, Keeps s0 s → Keeps s0 (modDpll a0 s) := by
  intro a0 h
  unfold modDpll
  repeat' first
    | with_reducible assumption
    | fail_if_no_progress ((with_reducible apply Keeps.upd) <;> try rfl)

theorem keeps_holdMean : Keeps s0 s → Keeps s0 (holdMean s).2 := by
  intro h
  unfold holdMean
  repeat' first
    | with_reducible assumption
    | with_reducible apply keeps_draw
    | with_reducible apply Keeps.ite
    | with_reducible refine Keeps.foldl (fun u x hu => ?_) _ ?_
    | with_reducible refine Keeps.foldlFst (fun u x hu => ?_) _ ?_
    | with_reducible refine Keeps.foldlSnd (fun u x hu => ?_) _ ?_
    | with_reducible refine Keeps.snd (by assumption) ?_
    | with_reducible refine Keeps.fst (by assumption) ?_
    | fail_if_no_progress ((with_reducible apply Keeps.upd) <;> try rfl)
    | intro _
    | split
    | dsimp only

theorem keeps_dpllEnter : ∀ a0, Keeps s0 s → Keeps s0 (dpllEnter a0 s) := by
  intro a0 h
  unfold dpllEnter
  repeat' first
    | with_reducible assumption
    | with_reducible apply keeps_modDpll
    | with_reducible apply keeps_pulse
    | with_reducible apply Keeps.ite
    | intro _

theorem keeps_dpllHold : Keeps s0 s → Keeps s0 (dpllHold s) := by
  intro h
  unfold dpllHold
  repeat' first
    | with_reducible assumption
    | with_reducible apply keeps_holdMean
    | with_reducible apply keeps_dpllEnter
    | with_reducible apply keeps_modDpll
    | with_reducible apply Keeps.ite
    | with_reducible refine Keeps.snd (by assumption) ?_
    | with_reducible refine Keeps.fst (by assumption) ?_
    | intro _

theorem keeps_loadLoop : ∀ a0, Keeps s0 s → Keeps s0 (loadLoop a0 s) := by
  intro a0 h
  unfold loadLoop
  repeat' first
    | with_reducible assumption
    | with_reducible apply keeps_modDpll

theorem keeps_selChange : ∀ a0, Keeps s0 s → Keeps s0 (selChange a0 s) := by
  intro a0 h
  unfold selChange
  repeat' first
    | with_reducible assumption
    | with_reducible apply keeps_pulse
    | with_reducible apply keeps_modDpll
    | with_reducible apply keeps_dpllHold
    | with_reducible apply keeps_dpllEnter
    | with_reducible apply keeps_loadLoop
    | with_reducible apply Keeps.ite
    | with_reducible refine Keeps.snd (by assumption) ?_
    | with_reducible refine Keeps.fst (by assumption) ?_
    | fail_if_no_progress ((with_reducible apply Keeps.upd) <;> try rfl)
    | intro _
    | split

theorem keeps_evaluate : Keeps s0 s → Keeps s0 (evaluate s) := by
  intro h
  unfold evaluate
  repeat' first
    | with_reducible assumption
    | with_reducible apply keeps_modDpll
    | with_reducible apply keeps_selChange
    | with_reducible apply Keeps.ite
    | with_reducible refine Keeps.snd (by assumption) ?_
    | with_reducible refine Keeps.fst (by assumption) ?_
    | intro _

theorem keeps_execSelectorEvaluation : Keeps s0 s → KeepsOut s0 (execSelectorEvaluation s) := by
  intro h
  unfold execSelectorEvaluation
  repeat' first
    | with_reducible assumption
    | with_reducible apply keeps_evaluate
    | with_reducible apply keeps_lrefWatch
    | with_reducible apply KeepsOut.next
    | with_reducible apply KeepsOut.ite
    | with_reducible apply Keeps.ite
    | intro _

theorem keeps_execDpllSwitchTimeout : Keeps s0 s → KeepsOut s0 (execDpllSwitchTimeout s) := by
  intro h
  unfold execDpllSwitchTimeout
  repeat' first
    | with_reducible assumption
    | with_reducible apply keeps_evaluate
    | with_reducible apply keeps_modDpll
    | with_reducible apply KeepsOut.next
    | with_reducible apply KeepsOut.ite
    | with_reducible apply Keeps.ite
    | with_reducible refine Keeps.snd (by assumption) ?_
    | with_reducible refine Keeps.fst (by assumption) ?_
    | intro _
    | split

theorem keeps_dpllUpdate : ∀ a0 a1, Keeps s0 s → Keeps s0 (dpllUpdate a0 a1 s) := by
  intro a0 a1 h
  unfold dpllUpdate
  repeat' first
    | with_reducible assumption
    | with_reducible apply keeps_modDpll
    | with_reducible apply keeps_dpllEnter
    | with_reducible apply Keeps.ite
    | with_reducible refine Keeps.snd (by assumption) ?_
    | with_reducible refine Keeps.fst (by assumption) ?_
    | fail_if_no_progress ((with_reducible apply Keeps.upd) <;> try rfl)
    | intro _

theorem keeps_execDpllUpdate : ∀ a0 a1 a2, Keeps s0 s → KeepsOut s0 (execDpllUpdate a0 a1 a2 s) := by
  intro a0 a1 a2 h
  unfold execDpllUpdate
  repeat' first
    | with_reducible assumption
    | with_reducible apply keeps_dpllUpdate
    | with_reducible apply KeepsOut.next
    | with_reducible exact KeepsOut.refused
    | with_reducible apply KeepsOut.ite
    | with_reducible apply Keeps.ite
    | intro _

theorem keeps_modTod : ∀ a0, Keeps s0 s → Keeps s0 (modTod a0 s) := by
  intro a0 h
  unfold modTod
  repeat' first
    | with_reducible assumption
    | fail_if_no_progress ((with_reducible apply Keeps.upd) <;> try rfl)

theorem keeps_todLoad : Keeps s0 s → Keeps s0 (todLoad s) := by
  intro h
  unfold todLoad
  repeat' first
    | with_reducible assumption
    | with_reducible apply keeps_modTod
    | with_reducible refine Keeps.snd (by assumption) ?_
    | with_reducible refine Keeps.fst (by assumption) ?_
    | fail_if_no_progress ((with_reducible apply Keeps.upd) <;> try rfl)
    | split

theorem keeps_todStep : ∀ a0, Keeps s0 s → Keeps s0 (todStep a0 s) := by
  intro a0 h
  unfold todStep
  repeat' first
    | with_reducible assumption
    | with_reducible apply keeps_pulse

theorem keeps_followTin : Keeps s0 s → Keeps s0 (followTin s) := by
  intro h
  unfold followTin
  repeat' first
    | with_reducible assumption
    | with_reducible apply keeps_todLoad
    | with_reducible apply keeps_todStep
    | with_reducible apply Keeps.ite
    | fail_if_no_progress ((with_reducible apply Keeps.upd) <;> try rfl)
    | intro _

theorem keeps_dpllLock : Keeps s0 s → Keeps s0 (dpllLock s) := by
  intro h
  unfold dpllLock
  repeat' first
    | with_reducible assumption
    | with_reducible apply keeps_evaluate
    | with_reducible apply keeps_followTin
    | with_reducible apply keeps_modDpll
    | with_reducible apply keeps_dpllEnter

theorem keeps_execDpllLock : Keeps s0 s → KeepsOut s0 (execDpllLock s) := by
  intro h
  unfold execDpllLock
  repeat' first
    | with_reducible assumption
    | with_reducible apply keeps_dpllLock
    | with_reducible apply KeepsOut.next
    | with_reducible exact KeepsOut.refused
    | with_reducible exact KeepsOut.fault
    | with_reducible apply KeepsOut.ite
    | with_reducible apply Keeps.ite
    | with_reducible refine Keeps.foldl (fun u x hu => ?_) _ ?_
    | with_reducible refine Keeps.foldlFst (fun u x hu => ?_) _ ?_
    | with_reducible refine Keeps.foldlSnd (fun u x hu => ?_) _ ?_
    | with_reducible refine Keeps.snd (by assumption) ?_
    | with_reducible refine Keeps.fst (by assumption) ?_
    | intro _
    | split
    | dsimp only

theorem keeps_execDrydownUpdate : ∀ a0, Keeps s0 s → KeepsOut s0 (execDrydownUpdate a0 s) := by
  intro a0 h
  unfold execDrydownUpdate
  repeat' first
    | with_reducible assumption
    | with_reducible apply keeps_modDpll
    | with_reducible apply KeepsOut.next
    | with_reducible apply KeepsOut.ite
    | with_reducible apply Keeps.ite
    | fail_if_no_progress ((with_reducible apply Keeps.upd) <;> try rfl)
    | intro _

theorem keeps_drawInt : ∀ a0, Keeps s0 s → Keeps s0 (drawInt a0 s).2 := by
  intro a0 h
  unfold drawInt
  repeat' first
    | with_reducible assumption
    | with_reducible apply keeps_draw

theorem keeps_resetDue (b : Bool) (h : Keeps s0 s) : Keeps s0 { s with dev := { s.dev with resetDue := b } } := h.upd rfl rfl rfl rfl rfl rfl rfl

theorem keeps_powered (b : Bool) (h : Keeps s0 s) : Keeps s0 { s with dev := { s.dev with powered := b } } := h.upd rfl rfl rfl rfl rfl rfl rfl

theorem keeps_forget (h : Keeps s0 s) : Keeps s0 { s with dev := { s.dev with retFlag := false, retRecord := none } } :=
  h.upd rfl rfl rfl rfl rfl rfl rfl

theorem keeps_fitTerms (f : Fit) (act : List Nat) (held : List Int) (h : Keeps s0 s) : Keeps s0 (fitTerms f act held s).2 := by
  unfold fitTerms
  dsimp only
  have k := keeps_drawInt 0x102723 (keeps_drawInt 0x102722 h)
  split
  · exact h
  · split
    · exact k
    · exact keeps_drawInt 0x102721 k

theorem keeps_learn (h : Keeps s0 s) : Keeps s0 (learn s) := by
  unfold learn
  dsimp only
  generalize hx : fitTerms _ _ _ _ = x
  have k : Keeps s0 x.2 := by rw [← hx]; exact keeps_fitTerms _ _ _ (h.upd rfl rfl rfl rfl rfl rfl rfl)
  split
  · exact k.upd rfl rfl rfl rfl rfl rfl rfl
  · exact k

theorem keeps_execModelLearnUpdate : ∀ a0, Keeps s0 s → KeepsOut s0 (execModelLearnUpdate a0 s) := by
  intro a0 h
  unfold execModelLearnUpdate
  repeat' first
    | with_reducible assumption
    | with_reducible apply keeps_learn
    | with_reducible apply KeepsOut.next
    | with_reducible apply KeepsOut.ite
    | with_reducible apply Keeps.ite
    | fail_if_no_progress ((with_reducible apply Keeps.upd) <;> try rfl)
    | intro _

theorem keeps_modelClear : Keeps s0 s → Keeps s0 (modelClear s) := by
  intro h
  unfold modelClear
  repeat' first
    | with_reducible assumption
    | with_reducible apply keeps_modDpll
    | fail_if_no_progress ((with_reducible apply Keeps.upd) <;> try rfl)

theorem keeps_modTin : ∀ a0, Keeps s0 s → Keeps s0 (modTin a0 s) := by
  intro a0 h
  unfold modTin
  repeat' first
    | with_reducible assumption
    | fail_if_no_progress ((with_reducible apply Keeps.upd) <;> try rfl)

theorem keeps_ppsInEdge : ∀ a0, Keeps s0 s → Keeps s0 (ppsInEdge a0 s) := by
  intro a0 h
  unfold ppsInEdge
  repeat' first
    | with_reducible assumption
    | with_reducible apply keeps_modTin
    | with_reducible apply keeps_modRef
    | with_reducible apply keeps_setCause
    | with_reducible apply Keeps.ite
    | with_reducible refine Keeps.snd (by assumption) ?_
    | with_reducible refine Keeps.fst (by assumption) ?_
    | intro _

theorem keeps_execPpsInEdge : ∀ a0, Keeps s0 s → KeepsOut s0 (execPpsInEdge a0 s) := by
  intro a0 h
  unfold execPpsInEdge
  repeat' first
    | with_reducible assumption
    | with_reducible apply keeps_ppsInEdge
    | with_reducible apply KeepsOut.next
    | with_reducible apply KeepsOut.ite
    | with_reducible apply Keeps.ite
    | intro _

theorem keeps_execPpsInEdgeMissing : Keeps s0 s → KeepsOut s0 (execPpsInEdgeMissing s) := by
  intro h
  unfold execPpsInEdgeMissing
  repeat' first
    | with_reducible assumption
    | with_reducible apply keeps_setCause
    | with_reducible apply keeps_modTin
    | with_reducible apply KeepsOut.next
    | with_reducible apply KeepsOut.ite
    | with_reducible apply Keeps.ite
    | with_reducible refine Keeps.snd (by assumption) ?_
    | with_reducible refine Keeps.fst (by assumption) ?_
    | intro _
    | split

theorem keeps_todCheck : Keeps s0 s → Keeps s0 (todCheck s) := by
  intro h
  unfold todCheck
  repeat' first
    | with_reducible assumption
    | with_reducible apply keeps_todStep
    | with_reducible apply keeps_modTod
    | with_reducible apply Keeps.ite
    | with_reducible refine Keeps.snd (by assumption) ?_
    | with_reducible refine Keeps.fst (by assumption) ?_
    | fail_if_no_progress ((with_reducible apply Keeps.upd) <;> try rfl)
    | intro _
    | split

theorem keeps_todIn : ∀ a0, Keeps s0 s → Keeps s0 (todIn a0 s) := by
  intro a0 h
  unfold todIn
  repeat' first
    | with_reducible assumption
    | with_reducible apply keeps_modTin
    | with_reducible apply keeps_setCause
    | with_reducible apply keeps_todCheck
    | with_reducible apply keeps_qlSeen
    | with_reducible apply Keeps.ite
    | with_reducible refine Keeps.snd (by assumption) ?_
    | with_reducible refine Keeps.fst (by assumption) ?_
    | intro _

theorem keeps_execTodInMessage : ∀ a0, Keeps s0 s → KeepsOut s0 (execTodInMessage a0 s) := by
  intro a0 h
  unfold execTodInMessage
  repeat' first
    | with_reducible assumption
    | with_reducible apply keeps_todIn
    | with_reducible apply KeepsOut.next
    | with_reducible apply KeepsOut.ite
    | with_reducible apply Keeps.ite
    | intro _

theorem keeps_timeTick : Keeps s0 s → Keeps s0 (timeTick s) := by
  intro h
  unfold timeTick
  repeat' first
    | with_reducible assumption
    | fail_if_no_progress ((with_reducible apply Keeps.upd) <;> try rfl)

theorem keeps_phaseRecord : ∀ a0, Keeps s0 s → Keeps s0 (phaseRecord a0 s) := by
  intro a0 h
  unfold phaseRecord
  repeat' first
    | with_reducible assumption
    | with_reducible apply keeps_wmPut
    | with_reducible refine Keeps.snd (by assumption) ?_
    | with_reducible refine Keeps.fst (by assumption) ?_
    | fail_if_no_progress ((with_reducible apply Keeps.upd) <;> try rfl)

theorem keeps_phaseSample : ∀ a0, Keeps s0 s → Keeps s0 (phaseSample a0 s) := by
  intro a0 h
  unfold phaseSample
  repeat' first
    | with_reducible assumption
    | with_reducible apply keeps_drawInt
    | with_reducible apply keeps_modDpll
    | with_reducible apply keeps_phaseRecord
    | with_reducible apply Keeps.ite
    | with_reducible refine Keeps.snd (by assumption) ?_
    | with_reducible refine Keeps.fst (by assumption) ?_
    | fail_if_no_progress ((with_reducible apply Keeps.upd) <;> try rfl)
    | intro _
    | split

theorem keeps_secondBoundary : Keeps s0 s → Keeps s0 (secondBoundary s) := by
  intro h
  unfold secondBoundary
  repeat' first
    | with_reducible assumption
    | with_reducible apply keeps_modTod
    | with_reducible apply keeps_todLoad
    | with_reducible apply Keeps.ite
    | intro _

theorem keeps_timeFrame : ∀ a0, Keeps s0 s → Keeps s0 (timeFrame a0 s) := by
  intro a0 h
  unfold timeFrame
  repeat' first
    | with_reducible assumption
    | with_reducible apply keeps_modTod
    | with_reducible apply keeps_secondBoundary
    | with_reducible apply keeps_phaseSample
    | with_reducible apply Keeps.ite
    | intro _

theorem keeps_execTodOutMessage : Keeps s0 s → KeepsOut s0 (execTodOutMessage s) := by
  intro h
  unfold execTodOutMessage
  repeat' first
    | with_reducible assumption
    | with_reducible apply keeps_modTod
    | with_reducible apply KeepsOut.next
    | with_reducible apply KeepsOut.ite
    | with_reducible apply Keeps.ite
    | with_reducible refine Keeps.snd (by assumption) ?_
    | with_reducible refine Keeps.fst (by assumption) ?_
    | intro _
    | split

theorem keeps_bodyTimeRefSet : ∀ a0, Keeps s0 s → KeepsRes s0 (bodyTimeRefSet a0 s) := by
  intro a0 h
  unfold bodyTimeRefSet
  repeat' first
    | with_reducible assumption
    | with_reducible apply keeps_refuse
    | with_reducible apply keeps_modDpll
    | with_reducible apply keeps_setRef
    | with_reducible apply keeps_refEvent
    | with_reducible apply keeps_done
    | with_reducible apply keeps_lrefOne
    | with_reducible apply keeps_setCause
    | with_reducible apply KeepsRes.reply
    | with_reducible apply KeepsRes.wait
    | with_reducible apply KeepsRes.queued
    | with_reducible apply KeepsRes.ite
    | with_reducible apply Keeps.ite
    | intro _

theorem keeps_bodyTimeRefGet : ∀ a0, Keeps s0 s → KeepsRes s0 (bodyTimeRefGet a0 s) := by
  intro a0 h
  unfold bodyTimeRefGet
  repeat' first
    | with_reducible assumption
    | with_reducible apply keeps_setRef
    | with_reducible apply KeepsRes.reply
    | with_reducible apply KeepsRes.wait
    | with_reducible apply KeepsRes.queued
    | with_reducible apply KeepsRes.ite
    | with_reducible apply Keeps.ite
    | intro _

theorem keeps_bodyTimeSelSet : ∀ a0, Keeps s0 s → KeepsRes s0 (bodyTimeSelSet a0 s) := by
  intro a0 h
  unfold bodyTimeSelSet
  repeat' first
    | with_reducible assumption
    | with_reducible apply keeps_modDpll
    | with_reducible apply keeps_done
    | with_reducible apply keeps_modelClear
    | with_reducible apply KeepsRes.reply
    | with_reducible apply KeepsRes.wait
    | with_reducible apply KeepsRes.queued
    | with_reducible apply KeepsRes.ite
    | with_reducible apply Keeps.ite
    | fail_if_no_progress ((with_reducible apply Keeps.upd) <;> try rfl)
    | intro _

theorem keeps_bodyTimeDpllGet : ∀ a0, Keeps s0 s → KeepsRes s0 (bodyTimeDpllGet a0 s) := by
  intro a0 h
  unfold bodyTimeDpllGet
  repeat' first
    | with_reducible assumption
    | with_reducible apply KeepsRes.reply

theorem keeps_steerReply : Keeps s0 s → KeepsRes s0 (steerReply s) := by
  intro h
  unfold steerReply
  repeat' first
    | with_reducible assumption
    | with_reducible apply KeepsRes.reply

theorem keeps_steerClose : Keeps s0 s → Keeps s0 (steerClose s) := by
  intro h
  unfold steerClose
  repeat' first
    | with_reducible assumption
    | with_reducible apply keeps_dpllEnter
    | with_reducible apply keeps_loadLoop
    | with_reducible apply keeps_holdMean
    | with_reducible apply keeps_modDpll
    | with_reducible apply Keeps.ite
    | with_reducible refine Keeps.snd (by assumption) ?_
    | with_reducible refine Keeps.fst (by assumption) ?_
    | intro _

theorem keeps_bodyTimeDpllSteer : ∀ a0, Keeps s0 s → KeepsRes s0 (bodyTimeDpllSteer a0 s) := by
  intro a0 h
  unfold bodyTimeDpllSteer
  repeat' first
    | with_reducible assumption
    | with_reducible apply keeps_steerReply
    | with_reducible apply keeps_dpllEnter
    | with_reducible apply keeps_modDpll
    | with_reducible apply keeps_refuse
    | with_reducible apply keeps_steerClose
    | with_reducible apply KeepsRes.reply
    | with_reducible apply KeepsRes.wait
    | with_reducible apply KeepsRes.queued
    | with_reducible apply KeepsRes.ite
    | with_reducible apply Keeps.ite
    | with_reducible refine Keeps.foldl (fun u x hu => ?_) _ ?_
    | with_reducible refine Keeps.foldlFst (fun u x hu => ?_) _ ?_
    | with_reducible refine Keeps.foldlSnd (fun u x hu => ?_) _ ?_
    | with_reducible refine Keeps.snd (by assumption) ?_
    | with_reducible refine Keeps.fst (by assumption) ?_
    | fail_if_no_progress ((with_reducible apply Keeps.upd) <;> try rfl)
    | intro _
    | split
    | dsimp only

theorem keeps_bodyTimeOutSet : ∀ a0, Keeps s0 s → KeepsRes s0 (bodyTimeOutSet a0 s) := by
  intro a0 h
  unfold bodyTimeOutSet
  repeat' first
    | with_reducible assumption
    | with_reducible apply keeps_done
    | with_reducible apply KeepsRes.reply
    | with_reducible apply KeepsRes.wait
    | with_reducible apply KeepsRes.queued
    | with_reducible apply KeepsRes.ite
    | with_reducible apply Keeps.ite
    | fail_if_no_progress ((with_reducible apply Keeps.upd) <;> try rfl)

theorem keeps_bodyTimeTodSet : ∀ a0, Keeps s0 s → KeepsRes s0 (bodyTimeTodSet a0 s) := by
  intro a0 h
  unfold bodyTimeTodSet
  repeat' first
    | with_reducible assumption
    | with_reducible apply keeps_modTod
    | with_reducible apply KeepsRes.reply
    | with_reducible apply KeepsRes.wait
    | with_reducible apply KeepsRes.queued
    | with_reducible apply KeepsRes.ite
    | with_reducible apply Keeps.ite
    | intro _

/-! ## Machine/Modes.lean -/

theorem keeps_changeMode : ∀ a0, Keeps s0 s → Keeps s0 (changeMode a0 s) := by
  intro a0 h
  unfold changeMode
  repeat' first
    | with_reducible assumption
    | with_reducible apply keeps_stateChange
    | with_reducible apply keeps_raise
    | fail_if_no_progress ((with_reducible apply Keeps.upd) <;> try rfl)

theorem keeps_changeRunning : ∀ a0, Keeps s0 s → Keeps s0 (changeRunning a0 s) := by
  intro a0 h
  unfold changeRunning
  repeat' first
    | with_reducible assumption
    | with_reducible apply keeps_lanesModeChange
    | with_reducible apply keeps_changeMode

theorem keeps_contain : Keeps s0 s → Keeps s0 (contain s) := by
  intro h
  unfold contain
  repeat' first
    | with_reducible assumption
    | with_reducible apply keeps_changeRunning
    | fail_if_no_progress ((with_reducible apply Keeps.upd) <;> try rfl)
    | split

theorem keeps_setFence : ∀ a0 a1, Keeps s0 s → Keeps s0 (setFence a0 a1 s) := by
  intro a0 a1 h
  unfold setFence
  repeat' first
    | with_reducible assumption
    | fail_if_no_progress ((with_reducible apply Keeps.upd) <;> try rfl)

theorem keeps_fenceDie : ∀ a0 a1, Keeps s0 s → Keeps s0 (fenceDie a0 a1 s) := by
  intro a0 a1 h
  unfold fenceDie
  repeat' first
    | with_reducible assumption
    | with_reducible apply keeps_contain
    | with_reducible apply keeps_raise
    | with_reducible apply keeps_fenceLanes
    | with_reducible apply keeps_setFence
    | with_reducible apply Keeps.ite
    | intro _

theorem keeps_restartTa : ∀ a1, Keeps s0 s → Keeps s0 (restartTa s a1) := by
  intro a1 h
  unfold restartTa
  repeat' first
    | with_reducible assumption
    | with_reducible apply keeps_taRestart
    | with_reducible apply keeps_modIn
    | with_reducible apply keeps_modEg
    | with_reducible apply keeps_returnUnits
    | with_reducible apply keeps_setRx
    | with_reducible apply keeps_setTx
    | fail_if_no_progress ((with_reducible apply Keeps.upd) <;> try rfl)

theorem keeps_restartDie : ∀ a0, Keeps s0 s → Keeps s0 (restartDie a0 s) := by
  intro a0 h
  unfold restartDie
  repeat' first
    | with_reducible assumption
    | with_reducible apply keeps_restartTa
    | with_reducible apply keeps_restartLanes
    | with_reducible refine Keeps.foldl (fun u x hu => ?_) _ ?_
    | fail_if_no_progress ((with_reducible apply Keeps.upd) <;> try rfl)

theorem keeps_releaseDie : ∀ a0, Keeps s0 s → Keeps s0 (releaseDie a0 s) := by
  intro a0 h
  unfold releaseDie
  repeat' first
    | with_reducible assumption
    | with_reducible apply keeps_restartDie
    | with_reducible apply keeps_raise
    | with_reducible apply keeps_setFence
    | with_reducible apply Keeps.ite
    | intro _

theorem keeps_leaveContained : Keeps s0 s → Keeps s0 (leaveContained s) := by
  intro h
  unfold leaveContained
  repeat' first
    | with_reducible assumption
    | with_reducible apply keeps_changeRunning
    | with_reducible apply Keeps.ite
    | intro _

theorem keeps_fenceApply : ∀ a0, Keeps s0 s → Keeps s0 (fenceApply a0 s) := by
  intro a0 h
  unfold fenceApply
  repeat' first
    | with_reducible assumption
    | with_reducible apply keeps_fenceDie
    | with_reducible apply keeps_leaveContained
    | with_reducible apply keeps_releaseDie
    | with_reducible apply Keeps.ite
    | with_reducible refine Keeps.foldl (fun u x hu => ?_) _ ?_
    | intro _

theorem keeps_fencesDue : Keeps s0 s → Keeps s0 (fencesDue s) := by
  intro h
  unfold fencesDue
  repeat' first
    | with_reducible assumption
    | with_reducible apply keeps_fenceDie
    | with_reducible refine Keeps.foldl (fun u x hu => ?_) _ ?_
    | fail_if_no_progress ((with_reducible apply Keeps.upd) <;> try rfl)

theorem keeps_askFence : ∀ a0 a1, Keeps s0 s → Keeps s0 (askFence a0 a1 s) := by
  intro a0 a1 h
  unfold askFence
  repeat' first
    | with_reducible assumption
    | fail_if_no_progress ((with_reducible apply Keeps.upd) <;> try rfl)

theorem keeps_modeApply : ∀ a0, Keeps s0 s → Keeps s0 (modeApply a0 s) := by
  intro a0 h
  unfold modeApply
  repeat' first
    | with_reducible assumption
    | with_reducible apply keeps_changeRunning
    | fail_if_no_progress ((with_reducible apply Keeps.upd) <;> try rfl)
    | split

theorem keeps_execEdgeLinkClockLoss : ∀ a0, Keeps s0 s → KeepsOut s0 (execEdgeLinkClockLoss a0 s) := by
  intro a0 h
  unfold execEdgeLinkClockLoss
  repeat' first
    | with_reducible assumption
    | with_reducible apply keeps_askFence
    | with_reducible apply KeepsOut.next
    | with_reducible exact KeepsOut.refused
    | with_reducible apply KeepsOut.ite
    | with_reducible apply Keeps.ite
    | fail_if_no_progress ((with_reducible apply Keeps.upd) <;> try rfl)
    | intro _

theorem keeps_execEdgeDieFailure : ∀ a0, Keeps s0 s → KeepsOut s0 (execEdgeDieFailure a0 s) := by
  intro a0 h
  unfold execEdgeDieFailure
  repeat' first
    | with_reducible assumption
    | with_reducible apply keeps_askFence
    | with_reducible apply KeepsOut.next
    | with_reducible exact KeepsOut.refused
    | with_reducible apply KeepsOut.ite
    | with_reducible apply Keeps.ite
    | intro _

theorem keeps_tickFailure : Keeps s0 s → Keeps s0 (tickFailure s) := by
  intro h
  unfold tickFailure
  repeat' first
    | with_reducible assumption
    | with_reducible apply keeps_fencesDue
    | with_reducible apply keeps_askFence
    | with_reducible apply Keeps.ite
    | fail_if_no_progress ((with_reducible apply Keeps.upd) <;> try rfl)
    | intro _

theorem keeps_execXoFail : Keeps s0 s → KeepsOut s0 (execXoFail s) := by
  intro h
  unfold execXoFail
  repeat' first
    | with_reducible assumption
    | with_reducible apply keeps_askFence
    | with_reducible apply keeps_pulse
    | with_reducible apply KeepsOut.next
    | with_reducible apply KeepsOut.ite
    | with_reducible apply Keeps.ite
    | intro _

theorem keeps_dpllFailure : Keeps s0 s → Keeps s0 (dpllFailure s) := by
  intro h
  unfold dpllFailure
  repeat' first
    | with_reducible assumption
    | with_reducible apply keeps_modDpll
    | with_reducible apply keeps_askFence
    | with_reducible apply Keeps.ite
    | intro _

theorem keeps_execDpllFailure : Keeps s0 s → KeepsOut s0 (execDpllFailure s) := by
  intro h
  unfold execDpllFailure
  repeat' first
    | with_reducible assumption
    | with_reducible apply keeps_dpllFailure
    | with_reducible apply KeepsOut.next
    | with_reducible apply KeepsOut.ite
    | with_reducible apply Keeps.ite
    | intro _

theorem keeps_haltIn : ∀ a0, Keeps s0 s → Keeps s0 (haltIn a0 s) := by
  intro a0 h
  unfold haltIn
  repeat' first
    | with_reducible assumption
    | with_reducible apply keeps_draw
    | with_reducible refine Keeps.snd (by assumption) ?_
    | with_reducible refine Keeps.fst (by assumption) ?_
    | fail_if_no_progress ((with_reducible apply Keeps.upd) <;> try rfl)

theorem keeps_retain : Keeps s0 s → Keeps s0 (retain s) := by
  intro h
  unfold retain
  repeat' first
    | with_reducible assumption
    | fail_if_no_progress ((with_reducible apply Keeps.upd) <;> try rfl)

theorem keeps_bodySysModeSet : ∀ a0, Keeps s0 s → KeepsRes s0 (bodySysModeSet a0 s) := by
  intro a0 h
  unfold bodySysModeSet
  repeat' first
    | with_reducible assumption
    | with_reducible apply keeps_haltIn
    | with_reducible apply keeps_refuse
    | with_reducible apply keeps_retain
    | with_reducible apply keeps_toPort
    | with_reducible apply KeepsRes.reply
    | with_reducible apply KeepsRes.wait
    | with_reducible apply KeepsRes.queued
    | with_reducible apply KeepsRes.ite
    | with_reducible apply Keeps.ite
    | intro _

theorem keeps_bodySysModeGet : ∀ a0, Keeps s0 s → KeepsRes s0 (bodySysModeGet a0 s) := by
  intro a0 h
  unfold bodySysModeGet
  repeat' first
    | with_reducible assumption
    | with_reducible apply KeepsRes.reply

theorem keeps_bodySysFenceSet : ∀ a0, Keeps s0 s → KeepsRes s0 (bodySysFenceSet a0 s) := by
  intro a0 h
  unfold bodySysFenceSet
  repeat' first
    | with_reducible assumption
    | with_reducible apply keeps_refuse
    | with_reducible apply keeps_toPort
    | with_reducible apply KeepsRes.reply
    | with_reducible apply KeepsRes.wait
    | with_reducible apply KeepsRes.queued
    | with_reducible apply KeepsRes.ite
    | with_reducible apply Keeps.ite
    | intro _

theorem keeps_enterHalt : Keeps s0 s → Keeps s0 (enterHalt s) := by
  intro h
  unfold enterHalt
  repeat' first
    | with_reducible assumption
    | with_reducible apply keeps_stateChange
    | with_reducible apply keeps_changeMode
    | with_reducible apply Keeps.ite
    | fail_if_no_progress ((with_reducible apply Keeps.upd) <;> try rfl)
    | intro _

theorem keeps_notReady (h : Keeps s0 s) : Keeps s0 { s with dev := { s.dev with ready := false } } := h.upd rfl rfl rfl rfl rfl rfl rfl

theorem keeps_enterRetention (h : Keeps s0 s) : Keeps s0 (enterRetention s) := by
  unfold enterRetention
  with_reducible exact keeps_notReady (keeps_alarmErase _ (keeps_changeMode .retention (keeps_borrowDrop h)))

theorem keeps_retentionDue : Keeps s0 s → Keeps s0 (retentionDue s) := by
  intro h
  unfold retentionDue
  repeat' first
    | with_reducible assumption
    | with_reducible apply keeps_enterRetention
    | with_reducible apply Keeps.ite
    | fail_if_no_progress ((with_reducible apply Keeps.upd) <;> try rfl)
    | intro _

theorem keeps_haltDue : Keeps s0 s → Keeps s0 (haltDue s) := by
  intro h
  unfold haltDue
  repeat' first
    | with_reducible assumption
    | with_reducible apply keeps_retentionDue
    | with_reducible apply keeps_enterHalt
    | with_reducible apply Keeps.ite
    | with_reducible refine Keeps.snd (by assumption) ?_
    | with_reducible refine Keeps.fst (by assumption) ?_
    | fail_if_no_progress ((with_reducible apply Keeps.upd) <;> try rfl)
    | intro _
    | split

theorem keeps_saveTrigger : ∀ a0 a1, Keeps s0 s → Keeps s0 (saveTrigger a0 a1 s) := by
  intro a0 a1 h
  unfold saveTrigger
  repeat' first
    | with_reducible assumption
    | with_reducible apply keeps_endJob
    | with_reducible apply keeps_tornWrite
    | with_reducible apply keeps_changeMode
    | with_reducible refine Keeps.snd (by assumption) ?_
    | with_reducible refine Keeps.fst (by assumption) ?_
    | fail_if_no_progress ((with_reducible apply Keeps.upd) <;> try rfl)
    | split

theorem keeps_execSaveTrigger : ∀ a0 a1, Keeps s0 s → KeepsOut s0 (execSaveTrigger a0 a1 s) := by
  intro a0 a1 h
  unfold execSaveTrigger
  repeat' first
    | with_reducible assumption
    | with_reducible apply keeps_saveTrigger
    | with_reducible apply KeepsOut.next
    | with_reducible apply KeepsOut.ite
    | with_reducible apply Keeps.ite
    | intro _

theorem keepsInv_resetAll (s : State) : KeepsInv s (resetAll s) := by
  refine ⟨rfl, rfl, fun i => ⟨?_, fun _ h => absurd h List.not_mem_nil, ⟨Nat.zero_le _, Nat.zero_le _, Nat.zero_le _⟩,
    ⟨fun _ h => absurd h List.not_mem_nil, fun _ h => absurd h List.not_mem_nil⟩, Nat.zero_lt_succ 7⟩⟩
  unfold resetAll
  dsimp only
  split
  · exact i.wm
  · rfl

theorem keepsInv_execResetAssert (s : State) : KeepsInvOut s (execResetAssert s) := by
  unfold execResetAssert
  split
  · exact (keeps_resetDue true (Keeps.refl s)).toInv
  · exact (keeps_storeTorn (Keeps.refl s)).toInv.trans (keepsInv_resetAll _)

theorem keepsInv_saveComplete (cause : Nat) (armed : Bool) (fc : Word) (cyc : Nat) (s : State) :
    KeepsInv s (saveComplete cause armed fc cyc s) := by
  have k1 : Keeps s (if armed then (match saveImage cause fc cyc s with | some f => writeFlacon f s | none => s) else s) := by
    split
    · split
      · exact keeps_writeFlacon _ (Keeps.refl s)
      · exact Keeps.refl s
    · exact Keeps.refl s
  unfold saveComplete
  dsimp only
  generalize (if armed then (match saveImage cause fc cyc s with | some f => writeFlacon f s | none => s) else s) = t at k1
  have k2 : Keeps s (enterHalt { t with save := { t.save with saving := none } }) := keeps_enterHalt (k1.upd rfl rfl rfl rfl rfl rfl rfl)
  generalize enterHalt { t with save := { t.save with saving := none } } = u at k2
  split
  · exact k2.toInv.trans (keepsInv_resetAll u)
  · exact k2.toInv

theorem keepsInv_execSaveComplete (s : State) : KeepsInvOut s (execSaveComplete s) := by
  unfold execSaveComplete
  split
  · exact keepsInv_saveComplete _ _ _ _ s
  · exact (Keeps.refl s).toInv

theorem keeps_bootFail : ∀ a0, Keeps s0 s → Keeps s0 (bootFail a0 s) := by
  intro a0 h
  unfold bootFail
  repeat' first
    | with_reducible assumption
    | with_reducible apply keeps_enterHalt
    | fail_if_no_progress ((with_reducible apply Keeps.upd) <;> try rfl)

theorem keeps_bootRoles : ∀ a0 a1, Keeps s0 s → Keeps s0 (bootRoles a0 a1 s) := by
  intro a0 a1 h
  unfold bootRoles
  repeat' first
    | with_reducible assumption
    | with_reducible apply keeps_setRole
    | with_reducible apply keeps_stateChange
    | with_reducible apply Keeps.ite
    | fail_if_no_progress ((with_reducible apply Keeps.upd) <;> try rfl)
    | intro _

theorem keeps_standIn : ∀ a0 a1 a2, Keeps s0 s → Keeps s0 (standIn a0 a1 a2 s) := by
  intro a0 a1 a2 h
  unfold standIn
  repeat' first
    | with_reducible assumption
    | with_reducible apply keeps_takeOut
    | fail_if_no_progress ((with_reducible apply Keeps.upd) <;> try rfl)

theorem keeps_restoreUnit : ∀ a0 a1, Keeps s0 s → Keeps s0 (restoreUnit a0 a1 s) := by
  intro a0 a1 h
  unfold restoreUnit
  repeat' first
    | with_reducible assumption
    | with_reducible apply keeps_markHard
    | with_reducible apply keeps_standIn
    | with_reducible apply keeps_reserve
    | with_reducible apply keeps_takeOut
    | with_reducible apply Keeps.ite
    | with_reducible refine Keeps.foldl (fun u x hu => ?_) _ ?_
    | with_reducible refine Keeps.foldlFst (fun u x hu => ?_) _ ?_
    | with_reducible refine Keeps.foldlSnd (fun u x hu => ?_) _ ?_
    | with_reducible refine Keeps.snd (by assumption) ?_
    | with_reducible refine Keeps.fst (by assumption) ?_
    | fail_if_no_progress ((with_reducible apply Keeps.upd) <;> try rfl)
    | intro _
    | split
    | dsimp only

theorem keeps_keepBlock : ∀ a0, Keeps s0 s → Keeps s0 (keepBlock a0 s) := by
  intro a0 h
  unfold keepBlock
  repeat' first
    | with_reducible assumption
    | with_reducible apply keeps_takeOut
    | with_reducible apply keeps_standIn
    | with_reducible apply Keeps.ite
    | intro _

theorem keeps_restoreUnits : ∀ a0, Keeps s0 s → Keeps s0 (restoreUnits a0 s) := by
  intro a0 h
  unfold restoreUnits
  repeat' first
    | with_reducible assumption
    | with_reducible apply keeps_keepBlock
    | with_reducible apply keeps_markHard
    | with_reducible apply keeps_restoreUnit
    | with_reducible apply Keeps.ite
    | with_reducible refine Keeps.foldl (fun u x hu => ?_) _ ?_
    | intro _

theorem keeps_restore (f : Flacon) (h : Keeps s0 s) : Keeps s0 (restore f s) := by
  unfold restore
  refine keeps_restoreUnits _ (h.updEvt rfl rfl rfl rfl rfl rfl fun w => And.intro w.1 (And.intro w.2.1 ?_))
  simp only [List.length_drop, List.length_append]
  omega

theorem keeps_bootRepairs : ∀ a0, Keeps s0 s → Keeps s0 (bootRepairs a0 s) := by
  intro a0 h
  unfold bootRepairs
  repeat' first
    | with_reducible assumption
    | with_reducible apply Keeps.ite
    | fail_if_no_progress ((with_reducible apply Keeps.upd) <;> try rfl)
    | intro _
    | split

theorem keeps_bootRun : ∀ a0 a1 a2, Keeps s0 s → Keeps s0 (bootRun a0 a1 a2 s) := by
  intro a0 a1 a2 h
  unfold bootRun
  repeat' first
    | with_reducible assumption
    | with_reducible apply keeps_raise
    | with_reducible apply keeps_bootRoles
    | with_reducible apply keeps_restore
    | with_reducible apply Keeps.ite
    | with_reducible refine Keeps.foldl (fun u x hu => ?_) _ ?_
    | with_reducible refine Keeps.foldlFst (fun u x hu => ?_) _ ?_
    | with_reducible refine Keeps.foldlSnd (fun u x hu => ?_) _ ?_
    | with_reducible refine Keeps.snd (by assumption) ?_
    | with_reducible refine Keeps.fst (by assumption) ?_
    | fail_if_no_progress ((with_reducible apply Keeps.upd) <;> try rfl)
    | intro _
    | split
    | dsimp only

theorem keeps_logPush (r : Rec) (h : Keeps s0 s) : Keeps s0 { s with evt := { s.evt with log := pushLast 256 s.evt.log r } } := by
  refine h.updEvt rfl rfl rfl rfl rfl rfl fun w => ?_
  unfold EvtOk
  dsimp only
  exact ⟨w.1, w.2.1, pushLast_length w.2.2⟩

theorem keeps_imageRefused (h : Keeps s0 s) : Keeps s0 (imageRefused s) := by
  unfold imageRefused
  with_reducible refine keeps_logPush _ (keeps_draw 0x164332 (keeps_draw 0x164331 (keeps_draw 0x164330 h)))

theorem keeps_recordRefusals : ∀ a0, Keeps s0 s → Keeps s0 (recordRefusals a0 s) := by
  intro a0 h
  unfold recordRefusals
  repeat' first
    | with_reducible assumption
    | with_reducible apply keeps_imageRefused
    | with_reducible apply Keeps.ite
    | intro _

theorem keeps_bootPoll : ∀ a0, Keeps s0 s → Keeps s0 (bootPoll a0 s) := by
  intro a0 h
  unfold bootPoll
  repeat' first
    | with_reducible assumption
    | fail_if_no_progress ((with_reducible apply Keeps.upd) <;> try rfl)

theorem keeps_bootImage : ∀ a0, Keeps s0 s → Keeps s0 (bootImage a0 s) := by
  intro a0 h
  unfold bootImage
  repeat' first
    | with_reducible assumption
    | with_reducible apply keeps_recordRefusals
    | with_reducible apply keeps_bootRun
    | with_reducible apply keeps_bootFail
    | with_reducible apply keeps_bootPoll
    | with_reducible apply Keeps.ite
    | with_reducible refine Keeps.snd (by assumption) ?_
    | with_reducible refine Keeps.fst (by assumption) ?_
    | fail_if_no_progress ((with_reducible apply Keeps.upd) <;> try rfl)
    | intro _
    | split

theorem keeps_bootSteps : ∀ a0, Keeps s0 s → Keeps s0 (bootSteps a0 s) := by
  intro a0 h
  unfold bootSteps
  repeat' first
    | with_reducible assumption
    | with_reducible apply keeps_bootFail
    | with_reducible apply keeps_bootImage
    | with_reducible apply keeps_fenceDie
    | with_reducible apply keeps_bootRepairs
    | with_reducible apply Keeps.ite
    | with_reducible refine Keeps.foldl (fun u x hu => ?_) _ ?_
    | intro _

theorem keeps_blockRepair : ∀ a0, Keeps s0 s → Keeps s0 (blockRepair a0 s) := by
  intro a0 h
  unfold blockRepair
  repeat' first
    | with_reducible assumption
    | with_reducible apply keeps_poolTake
    | with_reducible apply Keeps.ite
    | fail_if_no_progress ((with_reducible apply Keeps.upd) <;> try rfl)
    | intro _
    | split

theorem keeps_connMarch : ∀ a0, Keeps s0 s → Keeps s0 (connMarch a0 s) := by
  intro a0 h
  unfold connMarch
  repeat' first
    | with_reducible assumption
    | with_reducible apply keeps_blockRepair
    | with_reducible refine Keeps.foldl (fun u x hu => ?_) _ ?_
    | fail_if_no_progress ((with_reducible apply Keeps.upd) <;> try rfl)

theorem keeps_startWm (wake : Bool) (m : Mem) (d : Dev) (hd : d.ne = s.dev.ne) (h : Keeps s0 s) :
    Keeps s0 { s with dev := d, mem := m, wm := if wake then s.wm else [] } :=
  h.updWm rfl rfl hd rfl (fun w => by split; exacts [w, rfl]) rfl rfl

theorem keeps_setKekOnly (k : Nat) (h : Keeps s0 s) : Keeps s0 { s with keys := { s.keys with kek := k } } := h.upd rfl rfl rfl rfl rfl rfl rfl

theorem keeps_start (wake : Bool) (i : BootInputs) (h : Keeps s0 s) : Keeps s0 (start wake i s) := by
  unfold start
  dsimp only
  refine keeps_bootSteps _ (keeps_raise _ _ _ _ _ (keeps_setKekOnly _ (keeps_draw _ ?_)))
  have k := keeps_startWm wake (if wake then s.mem else Mem.reset) { s.dev with
      mode := if wake then Mode.retention else Mode.boot, resetLow := false, bootInp := some i, bootAt := s.clk.now, woke := wake, prevMode := 0
      retFlag := wake && s.dev.retFlag, railsOff := false, powered := true, jtag := jtagSelect false s.dev.jtag } rfl h
  exact Keeps.ite (fun _ => k) fun _ => keeps_connMarch _ k

theorem keeps_execBootStart : ∀ a0, Keeps s0 s → KeepsOut s0 (execBootStart a0 s) := by
  intro a0 h
  unfold execBootStart
  repeat' first
    | with_reducible assumption
    | with_reducible apply keeps_start
    | with_reducible apply KeepsOut.next
    | with_reducible apply KeepsOut.ite
    | with_reducible apply Keeps.ite
    | intro _

theorem keeps_execWakeStart : ∀ a0, Keeps s0 s → KeepsOut s0 (execWakeStart a0 s) := by
  intro a0 h
  unfold execWakeStart
  repeat' first
    | with_reducible assumption
    | with_reducible apply keeps_start
    | with_reducible apply KeepsOut.next
    | with_reducible apply KeepsOut.ite
    | with_reducible apply Keeps.ite
    | intro _

theorem keeps_pollImage : ∀ a0, Keeps s0 s → Keeps s0 (pollImage a0 s) := by
  intro a0 h
  unfold pollImage
  repeat' first
    | with_reducible assumption
    | with_reducible apply keeps_handBack
    | with_reducible apply keeps_bootRun
    | with_reducible apply Keeps.ite
    | fail_if_no_progress ((with_reducible apply Keeps.upd) <;> try rfl)
    | intro _

theorem keeps_execBootImagePoll : Keeps s0 s → KeepsOut s0 (execBootImagePoll s) := by
  intro h
  unfold execBootImagePoll
  repeat' first
    | with_reducible assumption
    | with_reducible apply keeps_pollImage
    | with_reducible apply KeepsOut.next
    | with_reducible apply KeepsOut.ite
    | with_reducible apply Keeps.ite
    | with_reducible refine Keeps.snd (by assumption) ?_
    | with_reducible refine Keeps.fst (by assumption) ?_
    | intro _
    | split

theorem keeps_requeue (r : Rec) (h : Keeps s0 s) : Keeps s0 (requeue r s) := by
  have k := keeps_enqueue r h
  exact ⟨k.queue, k.ne, k.time, k.wm, k.rings, fun w => And.intro (k.evt w).1 (And.intro (k.evt w).2.1 (h.evt w).2.2), k.keys⟩

theorem keepsInv_bootStart (c : Conn) (d : Dev) (m : Mem) (n k : Nat) (a : BitVec 5) (hd : d.ne = s.dev.ne) : KeepsInv s { s with
    wm := [], keys := { Keys.reset with kek := k, alarm := a }, io := { Io.reset with msix := s.io.msix, pcie := s.io.pcie },
    mem := m, evt := { s.evt with syncs := [] }, conn := c, clk := { s.clk with tickAt := n }, dev := d } :=
  ⟨rfl, hd, fun i => ⟨rfl, fun _ h => absurd h List.not_mem_nil, i.evt,
    ⟨fun _ h => absurd h List.not_mem_nil, fun _ h => absurd h List.not_mem_nil⟩, i.cyc⟩⟩

theorem KeepsInv.changeRunning {m} (h : KeepsInv s0 s) : KeepsInv s0 (changeRunning m s) := h.trans (keeps_changeRunning m (Keeps.refl s)).toInv

theorem KeepsInv.sampleTaps (h : KeepsInv s0 s) : KeepsInv s0 (sampleTaps s) := h.trans (keeps_sampleTaps (Keeps.refl s)).toInv

theorem KeepsInv.raise {cls code idx data set} (h : KeepsInv s0 s) : KeepsInv s0 (raise cls code idx data set s) :=
  h.trans (keeps_raise _ _ _ _ _ (Keeps.refl s)).toInv

theorem KeepsInv.changeMode {m} (h : KeepsInv s0 s) : KeepsInv s0 (changeMode m s) := h.trans (keeps_changeMode m (Keeps.refl s)).toInv

theorem KeepsInv.requeues (l : List Rec) (h : KeepsInv s0 s) : KeepsInv s0 (l.foldl (fun s r => requeue r s) s) :=
  h.trans (Keeps.foldl (fun _ r k => keeps_requeue r k) l (Keeps.refl s)).toInv

theorem keepsInv_bootEnd (s : State) : KeepsInv s (bootEnd s) := by
  unfold bootEnd
  dsimp only
  split
  · with_reducible refine KeepsInv.requeues _ (KeepsInv.raise (KeepsInv.raise (KeepsInv.sampleTaps (KeepsInv.changeRunning (keepsInv_bootStart _ _ _ _ _ _ ?_)))))
    rfl
  · with_reducible refine KeepsInv.raise (KeepsInv.sampleTaps (KeepsInv.changeRunning (keepsInv_bootStart _ _ _ _ _ _ ?_)))
    rfl

theorem keepsInv_execBootComplete (s : State) : KeepsInvOut s (execBootComplete s) := by
  unfold execBootComplete
  split
  · exact keepsInv_bootEnd s
  · exact (Keeps.refl s).toInv

theorem keeps_perst : Keeps s0 s → Keeps s0 (perst s) := by
  intro h
  unfold perst
  repeat' first
    | with_reducible assumption
    | with_reducible apply keeps_masterReset
    | with_reducible apply Keeps.ite
    | fail_if_no_progress ((with_reducible apply Keeps.upd) <;> try rfl)
    | intro _

theorem keeps_execPerstAssert : Keeps s0 s → KeepsOut s0 (execPerstAssert s) := by
  intro h
  unfold execPerstAssert
  repeat' first
    | with_reducible assumption
    | with_reducible apply keeps_perst
    | with_reducible apply KeepsOut.next

theorem keeps_execPcieLinkDown : Keeps s0 s → KeepsOut s0 (execPcieLinkDown s) := by
  intro h
  unfold execPcieLinkDown
  repeat' first
    | with_reducible assumption
    | with_reducible apply keeps_masterReset
    | with_reducible apply KeepsOut.next

/-- The Key Store without power: no slot holds a key. -/
theorem keepsInv_dropKeys (d : Dev) (s : State) (hd : d.ne = s.dev.ne) : KeepsInv s { s with dev := d, keys := Keys.reset } :=
  ⟨rfl, hd, fun i => ⟨i.wm, i.rings, i.evt,
    ⟨fun _ h => absurd h List.not_mem_nil, fun _ h => absurd h List.not_mem_nil⟩, i.cyc⟩⟩

theorem keepsInv_powerOff (keep : Bool) (s : State) : KeepsInv s (powerOff keep s) := by
  have k0 := keeps_storeTorn (Keeps.refl s)
  unfold powerOff
  dsimp only
  generalize storeTorn s = u at k0 ⊢
  have k1 : Keeps s (if keep then u else { u with dev := { u.dev with retFlag := false, retRecord := none } }) :=
    Keeps.ite (fun _ => k0) fun _ => keeps_forget k0
  generalize (if keep then u else { u with dev := { u.dev with retFlag := false, retRecord := none } }) = t at k1 ⊢
  exact (k1.toInv.trans (keepsInv_resetAll t)).trans (keepsInv_dropKeys _ _ rfl)

theorem keepsInv_dataRailsOff (s : State) : KeepsInv s (dataRailsOff s) :=
  (keepsInv_resetAll s).trans (keepsInv_dropKeys _ _ rfl)

theorem keepsInv_railLoss (r : Rail) (s : State) : KeepsInv s (railLoss r s) := by
  unfold railLoss
  split
  all_goals first
    | exact keepsInv_dataRailsOff s
    | exact KeepsInv.refl s
    | exact keepsInv_powerOff _ s

theorem keepsInv_execRailLoss (r : Rail) (s : State) : KeepsInvOut s (execRailLoss r s) := keepsInv_railLoss r s

theorem keeps_alarmEnd (a : BitVec 5) (h : Keeps s0 s) : Keeps s0 { s with keys := { s.keys with alarm := a } } :=
  h.upd rfl rfl rfl rfl rfl rfl rfl

theorem keeps_guardMeasure (ms : List GuardMeas) (h : Keeps s0 s) : Keeps s0 (guardMeasure ms s) := by
  unfold guardMeasure
  have k : Keeps s0 (guardWatch (ms.foldl (fun s m => guardOne m s) s)) := keeps_guardWatch (Keeps.foldl (fun _ m k => keeps_guardOne m k) ms h)
  generalize guardWatch (ms.foldl (fun s m => guardOne m s) s) = t at k
  dsimp only
  with_reducible refine Keeps.ite (fun _ => keeps_alarmErase _ k) fun _ => Keeps.ite (fun _ => keeps_alarmEnd _ k) fun _ => k

theorem keeps_execGuardMeasurement : ∀ a0, Keeps s0 s → KeepsOut s0 (execGuardMeasurement a0 s) := by
  intro a0 h
  unfold execGuardMeasurement
  repeat' first
    | with_reducible assumption
    | with_reducible apply keeps_guardMeasure
    | with_reducible apply KeepsOut.next
    | with_reducible exact KeepsOut.refused
    | with_reducible apply KeepsOut.ite
    | with_reducible apply Keeps.ite
    | intro _

theorem keeps_execJtagInstruction : ∀ a0, Keeps s0 s → KeepsOut s0 (execJtagInstruction a0 s) := by
  intro a0 h
  unfold execJtagInstruction
  repeat' first
    | with_reducible assumption
    | with_reducible apply KeepsOut.next
    | fail_if_no_progress ((with_reducible apply Keeps.upd) <;> try rfl)

end Sys2Proof.Machine
end

