-- ==== Sys2Proof/Laws/KeepsCommands.lean ====
section
/-! SUPPORT. The operations of commands, the update port, ticks and every row, and a step keep what `Keeps` says. -/

namespace Sys2Proof.Machine

variable {s0 s : State}

/-! ## Machine/Command.lean -/

theorem keeps_laneWatch : ∀ a0, Keeps s0 s → Keeps s0 (laneWatch a0 s) := by
  intro a0 h
  unfold laneWatch
  repeat' first
    | with_reducible assumption
    | with_reducible apply keeps_lrefWatch
    | with_reducible apply keeps_alignHook

theorem keeps_laneHooks (s1 : State) : ∀ {r : Res}, KeepsRes s0 r → KeepsRes s0 (laneHooks s1 r)
  | .reply _ _ _, h => keeps_laneWatch s1 h
  | .wait _ _ _ _, h => h
  | .queued _, h => h

theorem keeps_bodyRxSetWatched (p : Packet) (h : Keeps s0 s) : KeepsRes s0 (bodyRxSetWatched p s) :=
  keeps_laneHooks s (keeps_bodyLaneRxSet p h)

theorem keeps_bodyLoopSetWatched (p : Packet) (h : Keeps s0 s) : KeepsRes s0 (bodyLoopSetWatched p s) :=
  keeps_laneHooks s (keeps_bodyLaneLoopSet p h)

theorem keeps_engineSwap : ∀ a0, Keeps s0 s → Keeps s0 (engineSwap a0 s) := by
  intro a0 h
  unfold engineSwap
  repeat' first
    | with_reducible assumption
    | with_reducible apply keeps_sealSwap
    | with_reducible apply keeps_swapBegun
    | with_reducible refine Keeps.snd (by assumption) ?_
    | with_reducible refine Keeps.fst (by assumption) ?_
    | fail_if_no_progress ((with_reducible apply Keeps.upd) <;> try rfl)
    | split

theorem keeps_bodyTribDefectSetRules (p : Packet) (h : Keeps s0 s) : KeepsRes s0 (bodyTribDefectSetRules p s) := by
  have k := keeps_bodyTribDefectSet p h
  unfold bodyTribDefectSetRules
  split
  · rename_i e
    rw [e] at k
    exact keeps_protSync k
  · exact k

theorem keeps_bodySpareSwapHeld (p : Packet) (h : Keeps s0 s) : KeepsRes s0 (bodySpareSwapHeld p s) := by
  have k := keeps_bodyHealthSpareSwap p h
  unfold bodySpareSwapHeld
  split
  · rename_i e
    rw [e] at k
    exact keeps_engineSwap _ k
  · exact k

theorem keeps_bodyConnSetOwned : ∀ a0, Keeps s0 s → KeepsRes s0 (bodyConnSetOwned a0 s) := by
  intro a0 h
  unfold bodyConnSetOwned
  repeat' first
    | with_reducible assumption
    | with_reducible apply keeps_refuse
    | with_reducible apply keeps_bodyConnSet
    | with_reducible apply KeepsRes.reply
    | with_reducible apply KeepsRes.wait
    | with_reducible apply KeepsRes.queued
    | with_reducible apply KeepsRes.ite
    | with_reducible apply Keeps.ite
    | intro _

theorem keeps_bodyConnLoad (p : Packet) (h : Keeps s0 s) : KeepsRes s0 (bodyConnLoad p s) := by
  unfold bodyConnLoad
  dsimp only
  split
  · exact h
  · rename_i e
    exact keeps_takeBuffer _ _ h e
  · rename_i e
    have k := keeps_takeBuffer _ _ h e
    exact KeepsRes.ite (fun _ => k) fun _ => keeps_connLoadTaken _ _ k

theorem keeps_bodyTribSetOwned : ∀ a0, Keeps s0 s → KeepsRes s0 (bodyTribSetOwned a0 s) := by
  intro a0 h
  unfold bodyTribSetOwned
  repeat' first
    | with_reducible assumption
    | with_reducible apply keeps_refuse
    | with_reducible apply keeps_bodyTribSet
    | with_reducible apply KeepsRes.reply
    | with_reducible apply KeepsRes.wait
    | with_reducible apply KeepsRes.queued
    | with_reducible apply KeepsRes.ite
    | with_reducible apply Keeps.ite
    | intro _

theorem keeps_bodyCiphOp : ∀ a0, Keeps s0 s → KeepsRes s0 (bodyCiphOp a0 s) := by
  intro a0 h
  unfold bodyCiphOp
  repeat' first
    | with_reducible assumption
    | with_reducible apply keeps_refuse
    | with_reducible apply keeps_queueOp
    | with_reducible apply KeepsRes.reply
    | with_reducible apply KeepsRes.wait
    | with_reducible apply KeepsRes.queued
    | with_reducible refine Keeps.snd (by assumption) ?_
    | with_reducible refine Keeps.fst (by assumption) ?_
    | split

theorem keeps_bodySysNop : ∀ a0, Keeps s0 s → KeepsRes s0 (bodySysNop a0 s) := by
  intro a0 h
  unfold bodySysNop
  repeat' first
    | with_reducible assumption
    | with_reducible apply KeepsRes.reply

theorem keeps_bodyEvtMark : ∀ a0, Keeps s0 s → KeepsRes s0 (bodyEvtMark a0 s) := by
  intro a0 h
  unfold bodyEvtMark
  repeat' first
    | with_reducible assumption
    | with_reducible apply keeps_done
    | with_reducible apply keeps_raise

theorem keeps_bodySysAuthSet : ∀ a0, Keeps s0 s → KeepsRes s0 (bodySysAuthSet a0 s) := by
  intro a0 h
  unfold bodySysAuthSet
  repeat' first
    | with_reducible assumption
    | with_reducible apply keeps_done
    | with_reducible apply KeepsRes.reply
    | with_reducible apply KeepsRes.wait
    | with_reducible apply KeepsRes.queued
    | fail_if_no_progress ((with_reducible apply Keeps.upd) <;> try rfl)

theorem keeps_wmFilter (p : Host.Cell → Bool) (h : Keeps s0 s) : Keeps s0 { s with wm := s.wm.filter p } :=
  h.updWm rfl rfl rfl rfl (fun w => memFilter_wf w p) rfl rfl

theorem keeps_memTestAbort (j : Job) (first dn rep unrep skip : Nat) (h : Keeps s0 s) :
    Keeps s0 (memTestAbort j first dn rep unrep skip s) := by
  have k : Keeps s0 (fenceDone (borrowDrop (masterReset 5 { s with mem := { s.mem with testing := none } }))) :=
    keeps_fenceDone (keeps_borrowDrop (keeps_masterReset 5 (h.upd rfl rfl rfl rfl rfl rfl rfl)))
  unfold memTestAbort
  generalize fenceDone (borrowDrop (masterReset 5 { s with mem := { s.mem with testing := none } })) = t at k
  dsimp only
  split
  · with_reducible refine keeps_endJob _ _ _ (keeps_draw 0x1370 (Keeps.ite (fun _ => keeps_wmFilter _ ?_) fun _ => ?_))
    · exact keeps_draw 0x1369 k
    · exact keeps_draw 0x1369 k
  · exact keeps_endJob _ _ _ k

theorem keeps_abortJob : ∀ a0, Keeps s0 s → KeepsRes s0 (abortJob a0 s) := by
  intro a0 h
  unfold abortJob
  repeat' first
    | with_reducible assumption
    | with_reducible apply keeps_done
    | with_reducible apply keeps_endJob
    | with_reducible apply keeps_masterReset
    | with_reducible apply keeps_setJob
    | with_reducible apply keeps_handBackOut
    | with_reducible apply keeps_eyeAbort
    | with_reducible apply keeps_memTestAbort
    | with_reducible apply KeepsRes.reply
    | with_reducible apply KeepsRes.wait
    | with_reducible apply KeepsRes.queued
    | with_reducible apply KeepsRes.ite
    | with_reducible apply Keeps.ite
    | with_reducible refine Keeps.snd (by assumption) ?_
    | with_reducible refine Keeps.fst (by assumption) ?_
    | intro _
    | split

theorem keeps_abortOp : ∀ a0, Keeps s0 s → KeepsRes s0 (abortOp a0 s) := by
  intro a0 h
  unfold abortOp
  repeat' first
    | with_reducible assumption
    | with_reducible apply keeps_done
    | with_reducible apply keeps_endOp
    | with_reducible apply KeepsRes.reply
    | with_reducible apply KeepsRes.wait
    | with_reducible apply KeepsRes.queued
    | with_reducible apply KeepsRes.ite
    | with_reducible apply Keeps.ite
    | intro _

theorem keeps_bodySysAbort : ∀ a0, Keeps s0 s → KeepsRes s0 (bodySysAbort a0 s) := by
  intro a0 h
  unfold bodySysAbort
  repeat' first
    | with_reducible assumption
    | with_reducible apply keeps_abortOp
    | with_reducible apply keeps_abortJob
    | with_reducible apply keeps_refuse
    | with_reducible apply KeepsRes.reply
    | with_reducible apply KeepsRes.wait
    | with_reducible apply KeepsRes.queued
    | with_reducible apply KeepsRes.ite
    | with_reducible apply Keeps.ite
    | with_reducible refine Keeps.foldl (fun u x hu => ?_) _ ?_
    | with_reducible refine Keeps.foldlFst (fun u x hu => ?_) _ ?_
    | with_reducible refine Keeps.foldlSnd (fun u x hu => ?_) _ ?_
    | with_reducible refine Keeps.snd (by assumption) ?_
    | with_reducible refine Keeps.fst (by assumption) ?_
    | intro _
    | split
    | dsimp only

theorem keeps_authVerify (n : Nat) (head tag : List Byte) (h : Keeps s0 s) : Keeps s0 (authVerify n head tag s).2 := by
  unfold authVerify
  dsimp only
  split
  · exact h
  · rename_i hl
    simp only [Bool.or_eq_true, Bool.not_eq_true', not_or] at hl
    exact keeps_cmdCount n (by simpa using hl.2) h

theorem keeps_authStage : ∀ a0 a1, Keeps s0 s → Keeps s0 (authStage a0 a1 s).2 := by
  intro a0 a1 h
  unfold authStage
  repeat' first
    | with_reducible assumption
    | with_reducible apply keeps_authVerify
    | with_reducible apply Keeps.ite
    | with_reducible refine Keeps.foldl (fun u x hu => ?_) _ ?_
    | with_reducible refine Keeps.foldlFst (fun u x hu => ?_) _ ?_
    | with_reducible refine Keeps.foldlSnd (fun u x hu => ?_) _ ?_
    | with_reducible refine Keeps.snd (by assumption) ?_
    | with_reducible refine Keeps.fst (by assumption) ?_
    | fail_if_no_progress ((with_reducible apply Keeps.upd) <;> try rfl)
    | intro _
    | split
    | dsimp only

theorem keeps_packetChecks : ∀ a0 a1, Keeps s0 s → Keeps s0 (packetChecks a0 a1 s).2 := by
  intro a0 a1 h
  unfold packetChecks
  repeat' first
    | with_reducible assumption
    | with_reducible apply keeps_authStage
    | with_reducible apply Keeps.ite
    | with_reducible refine Keeps.snd (by assumption) ?_
    | with_reducible refine Keeps.fst (by assumption) ?_
    | fail_if_no_progress ((with_reducible apply Keeps.upd) <;> try rfl)
    | intro _
    | split

def OpKeeps (s0 : State) (o : Op) : Prop := ∀ p {s : State}, Keeps s0 s → KeepsRes s0 (o.body p s)

theorem keeps_decodeRun (o : Op) (p : Packet) (ho : OpKeeps s0 o) (h : Keeps s0 s) : Keeps s0 (decodeRun o p s) := by
  unfold decodeRun
  have k := keeps_packetChecks o p (keeps_jrnl 0 p.ring p.tag h)
  split
  · rename_i e
    rw [e] at k
    exact keeps_writeReply _ _ _ k
  · rename_i t e
    rw [e] at k
    have b := ho p k
    split
    · rename_i e
      rw [e] at b
      exact keeps_writeReply _ _ _ b
    · rename_i e
      rw [e] at b
      exact keeps_setJob _ _ b
    · rename_i e
      rw [e] at b
      exact b

theorem keeps_runCommand (o : Op) (p : Packet) (ho : OpKeeps s0 o) (h : Keeps s0 s) : Keeps s0 (runCommand o p s) :=
  Keeps.ite (fun _ => keeps_decodeRun o p ho h) fun _ => h

theorem opcodes_keep : ∀ o ∈ opcodes, OpKeeps s0 o := by
  unfold opcodes
  simp only [List.forall_mem_append, List.forall_mem_cons, List.not_mem_nil, false_imp_iff, implies_true, and_true]
  repeat' apply And.intro
  · exact fun p => keeps_bodySysNop p
  · exact fun p => keeps_bodySysAbort p
  · exact fun p => keeps_bodySysModeSet p
  · exact fun p => keeps_bodySysModeGet p
  · exact fun p => keeps_bodySysFenceSet p
  · exact fun p => keeps_bodySysAuthSet p
  · exact fun p => keeps_bodySysIoSet p
  · exact fun p => keeps_bodySysIoGet p
  · exact fun p => keeps_bodyLaneFrameSet p
  · exact fun p => keeps_bodyLaneFrameGet p
  · exact fun p => keeps_bodyLaneSeedSet p
  · exact fun p => keeps_bodyLaneMsgSend p
  · exact fun p => keeps_bodyLaneMsgRead p
  · exact fun p => keeps_bodyLaneAlignSet p
  · exact fun p => keeps_bodyLaneAlignGet p
  · exact fun p => keeps_bodyLaneDefectSet p
  · exact fun p => keeps_bodyLaneDefectGet p
  · exact fun p => keeps_bodyLaneTxSet p
  · exact fun p => keeps_bodyRxSetWatched p
  · exact fun p => keeps_bodyLaneSerdesGet p
  · exact fun p => keeps_bodyLoopSetWatched p
  · exact fun p => keeps_bodyTribMapLoad p
  · exact fun p => keeps_bodyTribSetOwned p
  · exact fun p => keeps_bodyTribGet p
  · exact fun p => keeps_bodyTribTimingSet p
  · exact fun p => keeps_bodyTribDefectProfileSet p
  · exact fun p => keeps_bodyTribDefectSetRules p
  · exact fun p => keeps_bodyTribDefectGet p
  · exact fun p => keeps_bodyAccordSet p
  · exact fun p => keeps_bodyAccordMemberSet p
  · exact fun p => keeps_bodyAccordGet p
  · exact fun p => keeps_bodyAccordStoreGet p
  · exact fun p => keeps_bodyConnSetOwned p
  · exact fun p => keeps_bodyConnGet p
  · exact fun p => keeps_bodyConnLoad p
  · exact fun p => keeps_bodyConnDelay p
  · exact fun p => keeps_bodyConnEqSet p
  · exact fun p => keeps_bodyConnEqGet p
  · exact fun p => keeps_bodyConnOccupancyGet p
  · exact fun p => keeps_bodyProtGroupSet p
  · exact fun p => keeps_bodyProtCmd p
  · exact fun p => keeps_bodyProtGet p
  · exact fun p => keeps_bodyTimeRefSet p
  · exact fun p => keeps_bodyTimeRefGet p
  · exact fun p => keeps_bodyTimeSelSet p
  · exact fun p => keeps_bodyTimeDpllGet p
  · exact fun p => keeps_bodyTimeDpllSteer p
  · exact fun p => keeps_bodyTimeOutSet p
  · exact fun p => keeps_bodyTimeTodSet p
  · exact fun p => keeps_bodyTimeTickSet p
  · exact fun p => keeps_bodyTimeTickGet p
  · exact fun p => keeps_bodySealTxSet p
  · exact fun p => keeps_bodySealRxSet p
  · exact fun p => keeps_bodySealFlip p
  · exact fun p => keeps_bodySealGet p
  · exact fun p => keeps_bodyCiphKeyLoad p
  · exact fun p => keeps_bodyCiphKeyErase p
  · exact fun p => keeps_bodyCiphKeyGet p
  · exact fun p => keeps_bodyCiphChanSet p
  · exact fun p => keeps_bodyCiphOp p
  · exact fun p => keeps_bodyMemTestStart p
  · exact fun p => keeps_bodyMemTestGet p
  · exact fun p => keeps_bodyMemFenceSet p
  · exact fun p => keeps_bodyCntSelect p
  · exact fun p => keeps_bodyCntRead p
  · exact fun p => keeps_bodyCntDump p
  · exact fun p => keeps_bodyEvtMark p
  · exact fun p => keeps_bodyEvtLogRead p
  · exact fun p => keeps_bodySaveConfigSet p
  · exact fun p => keeps_bodySaveGet p
  · exact fun p => keeps_bodySaveTest p
  · exact fun p => keeps_bodyTestPrbsSet p
  · exact fun p => keeps_bodyTestPrbsGet p
  · exact fun p => keeps_bodyTestEyeScan p
  · exact fun p => keeps_bodyHealthGet p
  · exact fun p => keeps_bodySpareSwapHeld p
  · exact fun p => keeps_bodyHealthSpareGet p
  · exact fun p => keeps_bodyHealthCpGet p

theorem keeps_execSysNop (p : Packet) (h : Keeps s0 s) : KeepsOut s0 (execSysNop p s) :=
  keeps_runCommand opSysNop p (fun p => keeps_bodySysNop p) h

theorem keeps_execSysAbort (p : Packet) (h : Keeps s0 s) : KeepsOut s0 (execSysAbort p s) :=
  keeps_runCommand opSysAbort p (fun p => keeps_bodySysAbort p) h

theorem keeps_execSysModeSet (p : Packet) (h : Keeps s0 s) : KeepsOut s0 (execSysModeSet p s) :=
  keeps_runCommand opSysModeSet p (fun p => keeps_bodySysModeSet p) h

theorem keeps_execSysModeGet (p : Packet) (h : Keeps s0 s) : KeepsOut s0 (execSysModeGet p s) :=
  keeps_runCommand opSysModeGet p (fun p => keeps_bodySysModeGet p) h

theorem keeps_execSysFenceSet (p : Packet) (h : Keeps s0 s) : KeepsOut s0 (execSysFenceSet p s) :=
  keeps_runCommand opSysFenceSet p (fun p => keeps_bodySysFenceSet p) h

theorem keeps_execSysAuthSet (p : Packet) (h : Keeps s0 s) : KeepsOut s0 (execSysAuthSet p s) :=
  keeps_runCommand opSysAuthSet p (fun p => keeps_bodySysAuthSet p) h

theorem keeps_execSysIoSet (p : Packet) (h : Keeps s0 s) : KeepsOut s0 (execSysIoSet p s) :=
  keeps_runCommand opSysIoSet p (fun p => keeps_bodySysIoSet p) h

theorem keeps_execSysIoGet (p : Packet) (h : Keeps s0 s) : KeepsOut s0 (execSysIoGet p s) :=
  keeps_runCommand opSysIoGet p (fun p => keeps_bodySysIoGet p) h

theorem keeps_execLaneFrameSet (p : Packet) (h : Keeps s0 s) : KeepsOut s0 (execLaneFrameSet p s) :=
  keeps_runCommand opLaneFrameSet p (fun p => keeps_bodyLaneFrameSet p) h

theorem keeps_execLaneFrameGet (p : Packet) (h : Keeps s0 s) : KeepsOut s0 (execLaneFrameGet p s) :=
  keeps_runCommand opLaneFrameGet p (fun p => keeps_bodyLaneFrameGet p) h

theorem keeps_execLaneSeedSet (p : Packet) (h : Keeps s0 s) : KeepsOut s0 (execLaneSeedSet p s) :=
  keeps_runCommand opLaneSeedSet p (fun p => keeps_bodyLaneSeedSet p) h

theorem keeps_execLaneMsgSend (p : Packet) (h : Keeps s0 s) : KeepsOut s0 (execLaneMsgSend p s) :=
  keeps_runCommand opLaneMsgSend p (fun p => keeps_bodyLaneMsgSend p) h

theorem keeps_execLaneMsgRead (p : Packet) (h : Keeps s0 s) : KeepsOut s0 (execLaneMsgRead p s) :=
  keeps_runCommand opLaneMsgRead p (fun p => keeps_bodyLaneMsgRead p) h

theorem keeps_execLaneAlignSet (p : Packet) (h : Keeps s0 s) : KeepsOut s0 (execLaneAlignSet p s) :=
  keeps_runCommand opLaneAlignSet p (fun p => keeps_bodyLaneAlignSet p) h

theorem keeps_execLaneAlignGet (p : Packet) (h : Keeps s0 s) : KeepsOut s0 (execLaneAlignGet p s) :=
  keeps_runCommand opLaneAlignGet p (fun p => keeps_bodyLaneAlignGet p) h

theorem keeps_execLaneDefectSet (p : Packet) (h : Keeps s0 s) : KeepsOut s0 (execLaneDefectSet p s) :=
  keeps_runCommand opLaneDefectSet p (fun p => keeps_bodyLaneDefectSet p) h

theorem keeps_execLaneDefectGet (p : Packet) (h : Keeps s0 s) : KeepsOut s0 (execLaneDefectGet p s) :=
  keeps_runCommand opLaneDefectGet p (fun p => keeps_bodyLaneDefectGet p) h

theorem keeps_execLaneTxSet (p : Packet) (h : Keeps s0 s) : KeepsOut s0 (execLaneTxSet p s) :=
  keeps_runCommand opLaneTxSet p (fun p => keeps_bodyLaneTxSet p) h

theorem keeps_execLaneRxSet (p : Packet) (h : Keeps s0 s) : KeepsOut s0 (execLaneRxSet p s) :=
  keeps_runCommand opLaneRxSet p (fun p => keeps_bodyRxSetWatched p) h

theorem keeps_execLaneSerdesGet (p : Packet) (h : Keeps s0 s) : KeepsOut s0 (execLaneSerdesGet p s) :=
  keeps_runCommand opLaneSerdesGet p (fun p => keeps_bodyLaneSerdesGet p) h

theorem keeps_execLaneLoopSet (p : Packet) (h : Keeps s0 s) : KeepsOut s0 (execLaneLoopSet p s) :=
  keeps_runCommand opLaneLoopSet p (fun p => keeps_bodyLoopSetWatched p) h

theorem keeps_execTribMapLoad (p : Packet) (h : Keeps s0 s) : KeepsOut s0 (execTribMapLoad p s) :=
  keeps_runCommand opTribMapLoad p (fun p => keeps_bodyTribMapLoad p) h

theorem keeps_execTribSet (p : Packet) (h : Keeps s0 s) : KeepsOut s0 (execTribSet p s) :=
  keeps_runCommand opTribSet p (fun p => keeps_bodyTribSetOwned p) h

theorem keeps_execTribGet (p : Packet) (h : Keeps s0 s) : KeepsOut s0 (execTribGet p s) :=
  keeps_runCommand opTribGet p (fun p => keeps_bodyTribGet p) h

theorem keeps_execTribTimingSet (p : Packet) (h : Keeps s0 s) : KeepsOut s0 (execTribTimingSet p s) :=
  keeps_runCommand opTribTimingSet p (fun p => keeps_bodyTribTimingSet p) h

theorem keeps_execTribDefectProfileSet (p : Packet) (h : Keeps s0 s) : KeepsOut s0 (execTribDefectProfileSet p s) :=
  keeps_runCommand opTribDefectProfileSet p (fun p => keeps_bodyTribDefectProfileSet p) h

theorem keeps_execTribDefectSet (p : Packet) (h : Keeps s0 s) : KeepsOut s0 (execTribDefectSet p s) :=
  keeps_runCommand opTribDefectSet p (fun p => keeps_bodyTribDefectSetRules p) h

theorem keeps_execTribDefectGet (p : Packet) (h : Keeps s0 s) : KeepsOut s0 (execTribDefectGet p s) :=
  keeps_runCommand opTribDefectGet p (fun p => keeps_bodyTribDefectGet p) h

theorem keeps_execAccordSet (p : Packet) (h : Keeps s0 s) : KeepsOut s0 (execAccordSet p s) :=
  keeps_runCommand opAccordSet p (fun p => keeps_bodyAccordSet p) h

theorem keeps_execAccordMemberSet (p : Packet) (h : Keeps s0 s) : KeepsOut s0 (execAccordMemberSet p s) :=
  keeps_runCommand opAccordMemberSet p (fun p => keeps_bodyAccordMemberSet p) h

theorem keeps_execAccordGet (p : Packet) (h : Keeps s0 s) : KeepsOut s0 (execAccordGet p s) :=
  keeps_runCommand opAccordGet p (fun p => keeps_bodyAccordGet p) h

theorem keeps_execAccordStoreGet (p : Packet) (h : Keeps s0 s) : KeepsOut s0 (execAccordStoreGet p s) :=
  keeps_runCommand opAccordStoreGet p (fun p => keeps_bodyAccordStoreGet p) h

theorem keeps_execConnSet (p : Packet) (h : Keeps s0 s) : KeepsOut s0 (execConnSet p s) :=
  keeps_runCommand opConnSet p (fun p => keeps_bodyConnSetOwned p) h

theorem keeps_execConnGet (p : Packet) (h : Keeps s0 s) : KeepsOut s0 (execConnGet p s) :=
  keeps_runCommand opConnGet p (fun p => keeps_bodyConnGet p) h

theorem keeps_execConnLoad (p : Packet) (h : Keeps s0 s) : KeepsOut s0 (execConnLoad p s) :=
  keeps_runCommand opConnLoad p (fun p => keeps_bodyConnLoad p) h

theorem keeps_execConnDelay (p : Packet) (h : Keeps s0 s) : KeepsOut s0 (execConnDelay p s) :=
  keeps_runCommand opConnDelay p (fun p => keeps_bodyConnDelay p) h

theorem keeps_execConnEqSet (p : Packet) (h : Keeps s0 s) : KeepsOut s0 (execConnEqSet p s) :=
  keeps_runCommand opConnEqSet p (fun p => keeps_bodyConnEqSet p) h

theorem keeps_execConnEqGet (p : Packet) (h : Keeps s0 s) : KeepsOut s0 (execConnEqGet p s) :=
  keeps_runCommand opConnEqGet p (fun p => keeps_bodyConnEqGet p) h

theorem keeps_execConnOccupancyGet (p : Packet) (h : Keeps s0 s) : KeepsOut s0 (execConnOccupancyGet p s) :=
  keeps_runCommand opConnOccupancyGet p (fun p => keeps_bodyConnOccupancyGet p) h

theorem keeps_execProtGroupSet (p : Packet) (h : Keeps s0 s) : KeepsOut s0 (execProtGroupSet p s) :=
  keeps_runCommand opProtGroupSet p (fun p => keeps_bodyProtGroupSet p) h

theorem keeps_execProtCmd (p : Packet) (h : Keeps s0 s) : KeepsOut s0 (execProtCmd p s) :=
  keeps_runCommand opProtCmd p (fun p => keeps_bodyProtCmd p) h

theorem keeps_execProtGet (p : Packet) (h : Keeps s0 s) : KeepsOut s0 (execProtGet p s) :=
  keeps_runCommand opProtGet p (fun p => keeps_bodyProtGet p) h

theorem keeps_execTimeRefSet (p : Packet) (h : Keeps s0 s) : KeepsOut s0 (execTimeRefSet p s) :=
  keeps_runCommand opTimeRefSet p (fun p => keeps_bodyTimeRefSet p) h

theorem keeps_execTimeRefGet (p : Packet) (h : Keeps s0 s) : KeepsOut s0 (execTimeRefGet p s) :=
  keeps_runCommand opTimeRefGet p (fun p => keeps_bodyTimeRefGet p) h

theorem keeps_execTimeSelSet (p : Packet) (h : Keeps s0 s) : KeepsOut s0 (execTimeSelSet p s) :=
  keeps_runCommand opTimeSelSet p (fun p => keeps_bodyTimeSelSet p) h

theorem keeps_execTimeDpllGet (p : Packet) (h : Keeps s0 s) : KeepsOut s0 (execTimeDpllGet p s) :=
  keeps_runCommand opTimeDpllGet p (fun p => keeps_bodyTimeDpllGet p) h

theorem keeps_execTimeDpllSteer (p : Packet) (h : Keeps s0 s) : KeepsOut s0 (execTimeDpllSteer p s) :=
  keeps_runCommand opTimeDpllSteer p (fun p => keeps_bodyTimeDpllSteer p) h

theorem keeps_execTimeOutSet (p : Packet) (h : Keeps s0 s) : KeepsOut s0 (execTimeOutSet p s) :=
  keeps_runCommand opTimeOutSet p (fun p => keeps_bodyTimeOutSet p) h

theorem keeps_execTimeTodSet (p : Packet) (h : Keeps s0 s) : KeepsOut s0 (execTimeTodSet p s) :=
  keeps_runCommand opTimeTodSet p (fun p => keeps_bodyTimeTodSet p) h

theorem keeps_execTimeTickSet (p : Packet) (h : Keeps s0 s) : KeepsOut s0 (execTimeTickSet p s) :=
  keeps_runCommand opTimeTickSet p (fun p => keeps_bodyTimeTickSet p) h

theorem keeps_execTimeTickGet (p : Packet) (h : Keeps s0 s) : KeepsOut s0 (execTimeTickGet p s) :=
  keeps_runCommand opTimeTickGet p (fun p => keeps_bodyTimeTickGet p) h

theorem keeps_execSealTxSet (p : Packet) (h : Keeps s0 s) : KeepsOut s0 (execSealTxSet p s) :=
  keeps_runCommand opSealTxSet p (fun p => keeps_bodySealTxSet p) h

theorem keeps_execSealRxSet (p : Packet) (h : Keeps s0 s) : KeepsOut s0 (execSealRxSet p s) :=
  keeps_runCommand opSealRxSet p (fun p => keeps_bodySealRxSet p) h

theorem keeps_execSealFlip (p : Packet) (h : Keeps s0 s) : KeepsOut s0 (execSealFlip p s) :=
  keeps_runCommand opSealFlip p (fun p => keeps_bodySealFlip p) h

theorem keeps_execSealGet (p : Packet) (h : Keeps s0 s) : KeepsOut s0 (execSealGet p s) :=
  keeps_runCommand opSealGet p (fun p => keeps_bodySealGet p) h

theorem keeps_execCiphKeyLoad (p : Packet) (h : Keeps s0 s) : KeepsOut s0 (execCiphKeyLoad p s) :=
  keeps_runCommand opCiphKeyLoad p (fun p => keeps_bodyCiphKeyLoad p) h

theorem keeps_execCiphKeyErase (p : Packet) (h : Keeps s0 s) : KeepsOut s0 (execCiphKeyErase p s) :=
  keeps_runCommand opCiphKeyErase p (fun p => keeps_bodyCiphKeyErase p) h

theorem keeps_execCiphKeyGet (p : Packet) (h : Keeps s0 s) : KeepsOut s0 (execCiphKeyGet p s) :=
  keeps_runCommand opCiphKeyGet p (fun p => keeps_bodyCiphKeyGet p) h

theorem keeps_execCiphChanSet (p : Packet) (h : Keeps s0 s) : KeepsOut s0 (execCiphChanSet p s) :=
  keeps_runCommand opCiphChanSet p (fun p => keeps_bodyCiphChanSet p) h

theorem keeps_execCiphOp (p : Packet) (h : Keeps s0 s) : KeepsOut s0 (execCiphOp p s) :=
  keeps_runCommand opCiphOp p (fun p => keeps_bodyCiphOp p) h

theorem keeps_execMemTestStart (p : Packet) (h : Keeps s0 s) : KeepsOut s0 (execMemTestStart p s) :=
  keeps_runCommand opMemTestStart p (fun p => keeps_bodyMemTestStart p) h

theorem keeps_execMemTestGet (p : Packet) (h : Keeps s0 s) : KeepsOut s0 (execMemTestGet p s) :=
  keeps_runCommand opMemTestGet p (fun p => keeps_bodyMemTestGet p) h

theorem keeps_execMemFenceSet (p : Packet) (h : Keeps s0 s) : KeepsOut s0 (execMemFenceSet p s) :=
  keeps_runCommand opMemFenceSet p (fun p => keeps_bodyMemFenceSet p) h

theorem keeps_execCntSelect (p : Packet) (h : Keeps s0 s) : KeepsOut s0 (execCntSelect p s) :=
  keeps_runCommand opCntSelect p (fun p => keeps_bodyCntSelect p) h

theorem keeps_execCntRead (p : Packet) (h : Keeps s0 s) : KeepsOut s0 (execCntRead p s) :=
  keeps_runCommand opCntRead p (fun p => keeps_bodyCntRead p) h

theorem keeps_execCntDump (p : Packet) (h : Keeps s0 s) : KeepsOut s0 (execCntDump p s) :=
  keeps_runCommand opCntDump p (fun p => keeps_bodyCntDump p) h

theorem keeps_execEvtMark (p : Packet) (h : Keeps s0 s) : KeepsOut s0 (execEvtMark p s) :=
  keeps_runCommand opEvtMark p (fun p => keeps_bodyEvtMark p) h

theorem keeps_execEvtLogRead (p : Packet) (h : Keeps s0 s) : KeepsOut s0 (execEvtLogRead p s) :=
  keeps_runCommand opEvtLogRead p (fun p => keeps_bodyEvtLogRead p) h

theorem keeps_execSaveConfigSet (p : Packet) (h : Keeps s0 s) : KeepsOut s0 (execSaveConfigSet p s) :=
  keeps_runCommand opSaveConfigSet p (fun p => keeps_bodySaveConfigSet p) h

theorem keeps_execSaveGet (p : Packet) (h : Keeps s0 s) : KeepsOut s0 (execSaveGet p s) :=
  keeps_runCommand opSaveGet p (fun p => keeps_bodySaveGet p) h

theorem keeps_execSaveTest (p : Packet) (h : Keeps s0 s) : KeepsOut s0 (execSaveTest p s) :=
  keeps_runCommand opSaveTest p (fun p => keeps_bodySaveTest p) h

theorem keeps_execTestPrbsSet (p : Packet) (h : Keeps s0 s) : KeepsOut s0 (execTestPrbsSet p s) :=
  keeps_runCommand opTestPrbsSet p (fun p => keeps_bodyTestPrbsSet p) h

theorem keeps_execTestPrbsGet (p : Packet) (h : Keeps s0 s) : KeepsOut s0 (execTestPrbsGet p s) :=
  keeps_runCommand opTestPrbsGet p (fun p => keeps_bodyTestPrbsGet p) h

theorem keeps_execTestEyeScan (p : Packet) (h : Keeps s0 s) : KeepsOut s0 (execTestEyeScan p s) :=
  keeps_runCommand opTestEyeScan p (fun p => keeps_bodyTestEyeScan p) h

theorem keeps_execHealthGet (p : Packet) (h : Keeps s0 s) : KeepsOut s0 (execHealthGet p s) :=
  keeps_runCommand opHealthGet p (fun p => keeps_bodyHealthGet p) h

theorem keeps_execHealthSpareSwap (p : Packet) (h : Keeps s0 s) : KeepsOut s0 (execHealthSpareSwap p s) :=
  keeps_runCommand opHealthSpareSwap p (fun p => keeps_bodySpareSwapHeld p) h

theorem keeps_execHealthSpareGet (p : Packet) (h : Keeps s0 s) : KeepsOut s0 (execHealthSpareGet p s) :=
  keeps_runCommand opHealthSpareGet p (fun p => keeps_bodyHealthSpareGet p) h

theorem keeps_execHealthCpGet (p : Packet) (h : Keeps s0 s) : KeepsOut s0 (execHealthCpGet p s) :=
  keeps_runCommand opHealthCpGet p (fun p => keeps_bodyHealthCpGet p) h

/-! ## Machine/Slot.lean -/

theorem keeps_slotDone (r : Nat) (h : Keeps s0 s) : Keeps s0 (slotDone r s) := keeps_ringNext r (ring s r) (keeps_wmPut _ _ h)

theorem keeps_slotRun (r : Nat) (bs : List Byte) (h : Keeps s0 s) : Keeps s0 (slotRun r bs s) := by
  unfold slotRun
  split
  · exact keeps_writeReply _ _ _ h
  · split
    · exact keeps_writeReply _ _ _ h
    · rename_i o e
      exact keeps_decodeRun o _ (opcodes_keep o (List.mem_of_find?_eq_some e)) h

theorem keeps_slotDecode : ∀ a0, Keeps s0 s → Keeps s0 (slotDecode a0 s) := by
  intro a0 h
  unfold slotDecode
  repeat' first
    | with_reducible assumption
    | with_reducible apply keeps_ringFault
    | with_reducible apply keeps_slotRun
    | with_reducible apply keeps_slotDone
    | with_reducible apply Keeps.ite
    | intro _

theorem keeps_execCommandDecode : ∀ a0, Keeps s0 s → KeepsOut s0 (execCommandDecode a0 s) := by
  intro a0 h
  unfold execCommandDecode
  repeat' first
    | with_reducible assumption
    | with_reducible apply keeps_slotDecode
    | with_reducible apply KeepsOut.next
    | with_reducible exact KeepsOut.refused
    | with_reducible apply KeepsOut.ite
    | with_reducible apply Keeps.ite
    | intro _

theorem keeps_resume (r : Nat) (j : Job) : ∀ {x : Res}, KeepsRes s0 x → Keeps s0 (resume r j x)
  | .reply _ _ _, h => keeps_endJob _ _ _ h
  | .wait _ _ _ _, h => keeps_setJob _ _ h
  | .queued _, h => h

theorem keeps_jobRecheck (r : Nat) (h : Keeps s0 s) : Keeps s0 (jobRecheck r s) := by
  unfold jobRecheck
  split
  · exact h
  · split
    · refine keeps_resume _ _ (KeepsRes.ite (fun _ => keeps_tribMapReach _ h) fun _ => keeps_bodyConnLoad _ h)
    · exact keeps_dumpRecheck _ _ _ _ h
    · exact h

theorem keeps_execDescriptorRecheck : ∀ a0 a1, Keeps s0 s → KeepsOut s0 (execDescriptorRecheck a0 a1 s) := by
  intro a0 a1 h
  unfold execDescriptorRecheck
  repeat' first
    | with_reducible assumption
    | with_reducible apply keeps_jobRecheck
    | with_reducible apply keeps_opRecheck
    | with_reducible apply KeepsOut.next
    | with_reducible exact KeepsOut.refused
    | with_reducible apply KeepsOut.ite
    | with_reducible apply Keeps.ite
    | intro _

theorem keeps_setDbOr (r v : Nat) (h : Keeps s0 s) :
    Keeps s0 (if (ring s r).fault then s else if slots (ring s r) ≤ v then ringFault r s else setRing r { ring s r with db := v } s) :=
  Keeps.ite (fun _ => h) fun _ => Keeps.ite (fun _ => keeps_ringFault r h) fun _ => keeps_setDb r v h

theorem keeps_commandDoorbell (r v : Nat) (h : Keeps s0 s) : Keeps s0 (commandDoorbell r v s) := by
  have k := keeps_setDbOr r v h
  unfold commandDoorbell
  dsimp only
  split
  · exact h
  · generalize (if (ring s r).fault then s else if slots (ring s r) ≤ v then ringFault r s else setRing r { ring s r with db := v } s) = t at k
    split
    · split
      · exact Keeps.foldl (fun _ c k => keeps_opRecheck c k) _ (keeps_jobRecheck r k)
      · exact keeps_jobRecheck r k
    · exact k

theorem keeps_execCommandDoorbell : ∀ a0 a1, Keeps s0 s → KeepsOut s0 (execCommandDoorbell a0 a1 s) := by
  intro a0 a1 h
  unfold execCommandDoorbell
  repeat' first
    | with_reducible assumption
    | with_reducible apply keeps_commandDoorbell
    | with_reducible apply KeepsOut.next
    | with_reducible exact KeepsOut.refused
    | with_reducible apply KeepsOut.ite
    | with_reducible apply Keeps.ite
    | intro _

/-! ## Machine/PortCommit.lean -/

theorem keeps_stage : ∀ a0 a1 a2, Keeps s0 s → Keeps s0 (stage a0 a1 a2 s) := by
  intro a0 a1 a2 h
  unfold stage
  repeat' first
    | with_reducible assumption
    | fail_if_no_progress ((with_reducible apply Keeps.upd) <;> try rfl)

def KeepsCommit (s : State) : Commit → Prop
  | .refuse _ _ => True
  | .ok _ t => Keeps s t

theorem KeepsCommit.checked {o : Option Status} {c : Commit} (h : KeepsCommit s0 c) : KeepsCommit s0 (checked o c) := by
  unfold Sys2Proof.Machine.checked
  split
  · trivial
  · exact h

theorem Keeps.commitIte {c : Prop} [Decidable c] {ws : List Word} {st : Status} {ws' : List Word} (h : Keeps s0 s) :
    KeepsCommit s0 (if c then .ok ws s else .refuse st ws') := by
  split
  · exact h
  · trivial

theorem keeps_mapLoadCommit (j : Job) (k : Nat) (h : Keeps s0 s) : KeepsCommit s0 (mapLoadCommit j k s) := by
  unfold mapLoadCommit
  dsimp only
  split
  · trivial
  · exact keeps_stage _ _ _ (keeps_mapCommit _ _ _ h)

theorem keeps_cmdCommit (j : Job) (k : Nat) (h : Keeps s0 s) : KeepsCommit s0 (cmdCommit j k s) := by
  unfold cmdCommit
  dsimp only
  split
  case h_1 => exact Keeps.commitIte (keeps_stage _ _ _ h)
  case h_2 => split; · trivial
              · exact keeps_stage _ _ _ h
  case h_3 => exact keeps_stage _ _ _ (keeps_frameSetIn _ _ h)
  case h_4 => refine KeepsCommit.checked ?_; split
              · exact keeps_stage _ _ _ h
              · exact keeps_seedSetIn _ _ h
  case h_5 => exact keeps_alignCommit _ _ h
  case h_6 => exact keeps_mapLoadCommit j k h
  case h_7 => split; · trivial
              · split
                · trivial
                · exact keeps_tribSetCommit _ _ h
  case h_8 => exact keeps_stage _ _ _ (keeps_timingCommit _ _ h)
  case h_9 => exact Keeps.commitIte (keeps_stage _ _ _ (keeps_accordSetCommit _ _ h))
  case h_10 => split; · trivial
               · exact keeps_stage _ _ _ (keeps_memberSetCommit _ _ h)
  case h_11 => exact KeepsCommit.checked (keeps_eqSetCommit _ _ h)
  case h_12 => exact KeepsCommit.checked (keeps_stage _ _ _ h)
  case h_13 => exact KeepsCommit.checked (keeps_stage _ _ _ (keeps_sealReserve _ _ h))

theorem keeps_jobCommit (j : Job) (h : Keeps s0 s) : Keeps s0 (jobCommit j s) := by
  have h := keeps_jrnl 2 j.ring j.tag h
  have k := keeps_cmdCommit j (if tickAligned j then effTickAligned (jrnl 2 j.ring j.tag s) else effTick (jrnl 2 j.ring j.tag s)) h
  unfold jobCommit
  dsimp only
  split
  · exact keeps_endJob _ _ _ h
  · rename_i e
    rw [e] at k
    exact keeps_endJob _ _ _ k

theorem keeps_connDone : ∀ a0 a1 a2 a3 a4 a5, Keeps s0 s → Keeps s0 (connDone a0 a1 a2 a3 a4 a5 s) := by
  intro a0 a1 a2 a3 a4 a5 h
  unfold connDone
  repeat' first
    | with_reducible assumption
    | with_reducible apply keeps_setJob
    | with_reducible apply keeps_endJob
    | with_reducible apply Keeps.ite
    | intro _

theorem keeps_connCommit : ∀ a0 a1 a2 a3 a4, Keeps s0 s → Keeps s0 (connCommit a0 a1 a2 a3 a4 s) := by
  intro a0 a1 a2 a3 a4 h
  unfold connCommit
  repeat' first
    | with_reducible assumption
    | with_reducible apply keeps_endJob
    | with_reducible apply keeps_jrnl
    | with_reducible apply keeps_commitEntry
    | with_reducible apply keeps_connDone
    | with_reducible apply keeps_followCommit
    | with_reducible apply Keeps.ite
    | with_reducible refine Keeps.snd (by assumption) ?_
    | with_reducible refine Keeps.fst (by assumption) ?_
    | fail_if_no_progress ((with_reducible apply Keeps.upd) <;> try rfl)
    | intro _
    | split

theorem keeps_portNext : Keeps s0 s → Keeps s0 (portNext s) := by
  intro h
  unfold portNext
  repeat' first
    | with_reducible assumption
    | with_reducible apply keeps_protCommit
    | with_reducible apply keeps_takeSlot
    | with_reducible apply keeps_apertureServe
    | with_reducible apply keeps_connCommit
    | with_reducible apply keeps_jobCommit
    | with_reducible apply Keeps.ite
    | with_reducible refine Keeps.snd (by assumption) ?_
    | with_reducible refine Keeps.fst (by assumption) ?_
    | fail_if_no_progress ((with_reducible apply Keeps.upd) <;> try rfl)
    | intro _
    | split

theorem keeps_execUpdatePortCommit : Keeps s0 s → KeepsOut s0 (execUpdatePortCommit s) := by
  intro h
  unfold execUpdatePortCommit
  repeat' first
    | with_reducible assumption
    | with_reducible apply keeps_protSync
    | with_reducible apply keeps_portNext
    | with_reducible apply KeepsOut.next
    | with_reducible apply KeepsOut.ite
    | with_reducible apply Keeps.ite
    | intro _

/-! ## Machine/Tick.lean -/

theorem keeps_stagedApply : ∀ a0, Keeps s0 s → Keeps s0 (stagedApply a0 s) := by
  intro a0 h
  unfold stagedApply
  repeat' first
    | with_reducible assumption
    | with_reducible apply keeps_modeApply
    | with_reducible apply keeps_fenceApply
    | with_reducible apply keeps_frameSetEg
    | with_reducible apply keeps_seedSetEg
    | with_reducible apply keeps_mapEffect
    | with_reducible apply keeps_eqTiming
    | with_reducible apply keeps_accordEffect
    | with_reducible apply keeps_sealTxApply
    | with_reducible apply keeps_sealRxApply
    | with_reducible apply Keeps.ite
    | with_reducible refine Keeps.snd (by assumption) ?_
    | with_reducible refine Keeps.fst (by assumption) ?_
    | fail_if_no_progress ((with_reducible apply Keeps.upd) <;> try rfl)
    | intro _
    | split

theorem keeps_stagedDue : Keeps s0 s → Keeps s0 (stagedDue s) := by
  intro h
  unfold stagedDue
  repeat' first
    | with_reducible assumption
    | with_reducible apply keeps_stagedApply
    | with_reducible refine Keeps.foldl (fun u x hu => ?_) _ ?_
    | fail_if_no_progress ((with_reducible apply Keeps.upd) <;> try rfl)

theorem keepsInv_clkNext (s : State) : KeepsInv s { s with clk := clkNext s.clk } := by
  refine ⟨rfl, rfl, fun i => ⟨i.wm, i.rings, i.evt, i.keys, ?_⟩⟩
  unfold clkNext
  dsimp only
  split
  · exact Nat.zero_lt_succ 7
  · exact Nat.mod_lt _ (Nat.zero_lt_succ 7)

theorem keepsAlign_frameWork (m : TickMeas) (s : State) : KeepsAlign (m.ftick = none) s (frameWork m s) := by
  unfold frameWork
  dsimp only
  have k1 := (keeps_sealSample (keeps_sealFrameTick (curCycle s) (Keeps.refl s))).toAlign.trans
    (keepsAlign_tickFrame m.ftick (sealSample (sealFrameTick (curCycle s) s)))
  generalize tickFrame m.ftick (sealSample (sealFrameTick (curCycle s) s)) = u at k1 ⊢
  exact k1.trans (keeps_timeFrame _ (keeps_protFrame (Keeps.foldl (fun _ a k => keeps_accordSkew a k) _ (Keeps.refl u)))).toAlign

theorem keeps_storeSweep : Keeps s0 s → Keeps s0 (storeSweep s) := by
  intro h
  unfold storeSweep
  repeat' first
    | with_reducible assumption
    | with_reducible apply keeps_storeRelease
    | with_reducible refine Keeps.foldl (fun u x hu => ?_) _ ?_

theorem keepsAlign_tickWork (frame : Bool) (m : TickMeas) (s : State) : KeepsAlign (frame = false ∨ m.ftick = none) s (tickWork frame m s) := by
  unfold tickWork
  dsimp only
  refine KeepsAlign.trans (t := raTicks m.phases (storeSweep (connPrune (curCycle s - 4) (bindJobs (txEnables (alignTick (stagedDue (fencesDue s)))))))) (Keeps.toAlign ?_) ?_
  · exact keeps_raTicks _ (keeps_storeSweep (keeps_connPrune _ (keeps_bindJobs (keeps_txEnables (keeps_alignTick (keeps_stagedDue (keeps_fencesDue (Keeps.refl s))))))))
  · generalize raTicks m.phases (storeSweep (connPrune (curCycle s - 4) (bindJobs (txEnables (alignTick (stagedDue (fencesDue s))))))) = u
    refine KeepsAlign.trans (t := if frame = true then frameWork m u else u) ?_ (Keeps.toAlign ((keeps_egressCycle (keeps_timeTick (Keeps.refl _))).upd rfl rfl rfl rfl rfl rfl rfl))
    split
    · rename_i hf
      have k := keepsAlign_frameWork m u
      exact ⟨k.queue, k.ne, k.ticks, fun o => k.time (o.resolve_left (by simp [hf])), k.inv⟩
    · exact KeepsAlign.refl u

theorem keeps_lanesTrim : Keeps s0 s → Keeps s0 (lanesTrim s) := by
  intro h
  unfold lanesTrim
  repeat' first
    | with_reducible assumption
    | fail_if_no_progress ((with_reducible apply Keeps.upd) <;> try rfl)

theorem keeps_tickLead (s : State) :
    Keeps s (sampleTaps (if passPending s then crossPass (curCycle s - 1) [] s else s)) :=
  keeps_sampleTaps (Keeps.ite (fun _ => keeps_crossPass _ _ (Keeps.refl s)) fun _ => Keeps.refl s)

theorem keepsInv_doTick (m : TickMeas) (s : State) : KeepsInv s (doTick m s) := by
  have k1 := keeps_tickLead s
  unfold doTick
  dsimp only
  generalize sampleTaps (if passPending s then crossPass (curCycle s - 1) [] s else s) = t at k1
  have k2 := keeps_haltDue (keeps_genTake (Keeps.refl { t with clk := clkNext t.clk }))
  have k3 := (k1.toInv.trans (keepsInv_clkNext t)).trans k2.toInv
  generalize haltDue (genTake { t with clk := clkNext t.clk }) = u at k3
  split
  · have k4 := keepsAlign_tickWork (frameNext s) m u
    have k5 := keeps_protSync (keeps_laneWatch u (keeps_lanesTrim (Keeps.refl (tickWork (frameNext s) m u))))
    exact k3.trans (KeepsInv.trans ⟨k4.queue, k4.ne, k4.inv⟩ k5.toInv)
  · exact k3

theorem keepsInv_execGrainCycleTick (m : TickMeas) (s : State) : KeepsInvOut s (execGrainCycleTick m s) := by
  unfold execGrainCycleTick
  split
  · exact keepsInv_doTick m s
  · exact (Keeps.refl s).toInv

theorem keepsInv_execFrameTick (m : TickMeas) (s : State) : KeepsInvOut s (execFrameTick m s) := by
  unfold execFrameTick
  split
  · exact keepsInv_doTick m s
  · exact (Keeps.refl s).toInv

/-! ## Machine/Transmit.lean -/

theorem keeps_txChannel : ∀ a0, Keeps s0 s → Keeps s0 (txChannel a0 s).2 := by
  intro a0 h
  unfold txChannel
  repeat' first
    | with_reducible assumption
    | with_reducible apply keeps_modTx
    | with_reducible apply keeps_draw
    | with_reducible apply Keeps.ite
    | with_reducible refine Keeps.foldl (fun u x hu => ?_) _ ?_
    | with_reducible refine Keeps.foldlFst (fun u x hu => ?_) _ ?_
    | with_reducible refine Keeps.foldlSnd (fun u x hu => ?_) _ ?_
    | with_reducible refine Keeps.snd (by assumption) ?_
    | with_reducible refine Keeps.fst (by assumption) ?_
    | fail_if_no_progress ((with_reducible apply Keeps.upd) <;> try rfl)
    | intro _
    | split
    | dsimp only

theorem keeps_sectionTransmit : ∀ a0, Keeps s0 s → Keeps s0 (sectionTransmit a0 s) := by
  intro a0 h
  unfold sectionTransmit
  repeat' first
    | with_reducible assumption
    | with_reducible apply keeps_txChannel
    | with_reducible apply keeps_draw
    | with_reducible apply keeps_modSd
    | with_reducible apply keeps_modTx
    | with_reducible apply Keeps.ite
    | with_reducible refine Keeps.snd (by assumption) ?_
    | with_reducible refine Keeps.fst (by assumption) ?_
    | intro _

theorem keeps_execSectionTransmit : ∀ a0, Keeps s0 s → KeepsOut s0 (execSectionTransmit a0 s) := by
  intro a0 h
  unfold execSectionTransmit
  repeat' first
    | with_reducible assumption
    | with_reducible apply keeps_sectionTransmit
    | with_reducible apply KeepsOut.next
    | with_reducible exact KeepsOut.refused
    | with_reducible apply KeepsOut.ite
    | with_reducible apply Keeps.ite
    | intro _

/-! ## Machine/Late.lean -/

theorem keeps_execLosWindowEnd : ∀ a0 a1, Keeps s0 s → KeepsOut s0 (execLosWindowEnd a0 a1 s) := by
  intro a0 a1 h
  unfold execLosWindowEnd
  repeat' first
    | with_reducible assumption
    | with_reducible apply keeps_laneWatch
    | with_reducible apply keeps_losWindowEnd
    | with_reducible apply KeepsOut.next
    | with_reducible exact KeepsOut.refused
    | with_reducible apply KeepsOut.ite
    | with_reducible apply Keeps.ite
    | intro _

theorem keeps_execCdrLock : ∀ a0 a1, Keeps s0 s → KeepsOut s0 (execCdrLock a0 a1 s) := by
  intro a0 a1 h
  unfold execCdrLock
  repeat' first
    | with_reducible assumption
    | with_reducible apply keeps_laneWatch
    | with_reducible apply keeps_cdrLock
    | with_reducible apply KeepsOut.next
    | with_reducible exact KeepsOut.refused
    | with_reducible apply KeepsOut.ite
    | with_reducible apply Keeps.ite
    | intro _

theorem keeps_execCdrLossOfLock : ∀ a0, Keeps s0 s → KeepsOut s0 (execCdrLossOfLock a0 s) := by
  intro a0 h
  unfold execCdrLossOfLock
  repeat' first
    | with_reducible assumption
    | with_reducible apply keeps_laneWatch
    | with_reducible apply keeps_cdrLoss
    | with_reducible apply KeepsOut.next
    | with_reducible exact KeepsOut.refused
    | with_reducible apply KeepsOut.ite
    | with_reducible apply Keeps.ite
    | intro _

theorem keeps_markerQl : ∀ a0 a1, Keeps s0 s → Keeps s0 (markerQl a0 a1 s) := by
  intro a0 a1 h
  unfold markerQl
  repeat' first
    | with_reducible assumption
    | with_reducible apply keeps_laneQl
    | with_reducible apply Keeps.ite
    | intro _

theorem keeps_execMarkerBlockReceived : ∀ a0, Keeps s0 s → KeepsOut s0 (execMarkerBlockReceived a0 s) := by
  intro a0 h
  unfold execMarkerBlockReceived
  repeat' first
    | with_reducible assumption
    | with_reducible apply keeps_laneWatch
    | with_reducible apply keeps_markerQl
    | with_reducible apply keeps_markerStep
    | with_reducible apply KeepsOut.next
    | with_reducible exact KeepsOut.refused
    | with_reducible apply KeepsOut.ite
    | with_reducible apply Keeps.ite
    | intro _

theorem keeps_execAlignmentLoss : ∀ a0, Keeps s0 s → KeepsOut s0 (execAlignmentLoss a0 s) := by
  intro a0 h
  unfold execAlignmentLoss
  repeat' first
    | with_reducible assumption
    | with_reducible apply keeps_laneWatch
    | with_reducible apply keeps_alignmentLoss
    | with_reducible apply KeepsOut.next
    | with_reducible exact KeepsOut.refused
    | with_reducible apply KeepsOut.ite
    | with_reducible apply Keeps.ite
    | intro _

theorem keeps_pageWrite : ∀ a0 a1, Keeps s0 s → Keeps s0 (pageWrite a0 a1 s) := by
  intro a0 a1 h
  unfold pageWrite
  repeat' first
    | with_reducible assumption
    | with_reducible apply keeps_ringCfgWrite
    | with_reducible apply keeps_commandDoorbell
    | with_reducible apply keeps_replyDoorbell
    | with_reducible apply keeps_consumerWrite
    | with_reducible apply keeps_irqClear
    | with_reducible apply keeps_regWrite
    | with_reducible apply Keeps.ite
    | intro _

theorem keeps_pageRead : ∀ a0, Keeps s0 s → Keeps s0 (pageRead a0 s).2 := by
  intro a0 h
  unfold pageRead
  repeat' first
    | with_reducible assumption
    | with_reducible apply Keeps.ite
    | fail_if_no_progress ((with_reducible apply Keeps.upd) <;> try rfl)
    | intro _

theorem keeps_doorbellPage : ∀ a0, Keeps s0 s → Keeps s0 (doorbellPage a0 s) := by
  intro a0 h
  unfold doorbellPage
  repeat' first
    | with_reducible assumption
    | with_reducible apply keeps_pageWrite
    | with_reducible apply keeps_pageRead
    | with_reducible apply Keeps.ite
    | with_reducible refine Keeps.snd (by assumption) ?_
    | with_reducible refine Keeps.fst (by assumption) ?_
    | fail_if_no_progress ((with_reducible apply Keeps.upd) <;> try rfl)
    | intro _
    | split

theorem keeps_execWindowMemoryAccess (e : Option PortEAccess) (i : Option PortIAccess) (ecc : Option EccHit) (h : Keeps s0 s) :
    KeepsOut s0 (execWindowMemoryAccess e i ecc s) := by
  unfold execWindowMemoryAccess
  refine KeepsOut.ite (fun _ => h) fun _ => ?_
  dsimp only
  generalize i.filter (fun i => lockAllows s 0 i.master) = i
  split
  · split
    · have k := keeps_windowServe none i ecc h
      split
      · rename_i e
        rw [e] at k
        exact keeps_doorbellPage _ k
      · exact k
    · exact keeps_windowServe _ _ _ h
  · exact keeps_windowServe _ _ _ h

theorem keeps_burstPage : ∀ (off : Nat) (bs : List Byte) (n : Nat) {s : State}, Keeps s0 s → Keeps s0 (burstPage off bs n s)
  | _, _, 0, _, h => h
  | off, bs, n + 1, _, h => keeps_burstPage (off + 4) (bs.drop 4) n (keeps_pageWrite _ _ h)

theorem keeps_burstPageRead : ∀ (off n : Nat) {s : State}, Keeps s0 s → Keeps s0 (burstPageRead off n s).2
  | _, 0, _, h => h
  | off, n + 1, _, h => keeps_burstPageRead (off + 4) n (keeps_pageRead off h)

theorem keeps_burstServe : ∀ a0 a1, Keeps s0 s → KeepsOut s0 (burstServe a0 a1 s) := by
  intro a0 a1 h
  unfold burstServe
  repeat' first
    | with_reducible assumption
    | with_reducible apply keeps_burstLock
    | with_reducible apply keeps_burstError
    | with_reducible apply keeps_windowServe
    | with_reducible apply keeps_burstRead
    | with_reducible apply keeps_apertureServe
    | with_reducible apply keeps_burstAperture
    | with_reducible apply keeps_freeBytes
    | with_reducible apply keeps_burstPage
    | with_reducible apply keeps_burstPageRead
    | with_reducible apply KeepsOut.next
    | with_reducible apply KeepsOut.ite
    | with_reducible apply Keeps.ite
    | with_reducible refine Keeps.snd (by assumption) ?_
    | with_reducible refine Keeps.fst (by assumption) ?_
    | intro _
    | split

theorem keeps_execBusMatrixBurst : ∀ a0 a1, Keeps s0 s → KeepsOut s0 (execBusMatrixBurst a0 a1 s) := by
  intro a0 a1 h
  unfold execBusMatrixBurst
  repeat' first
    | with_reducible assumption
    | with_reducible apply keeps_burstServe
    | with_reducible apply KeepsOut.next
    | with_reducible exact KeepsOut.refused
    | with_reducible apply KeepsOut.ite
    | with_reducible apply Keeps.ite
    | with_reducible refine Keeps.snd (by assumption) ?_
    | with_reducible refine Keeps.fst (by assumption) ?_
    | intro _
    | split

theorem keeps_execTickGeneratorFailure : Keeps s0 s → KeepsOut s0 (execTickGeneratorFailure s) := by
  intro h
  unfold execTickGeneratorFailure
  repeat' first
    | with_reducible assumption
    | with_reducible apply keeps_laneWatch
    | with_reducible apply keeps_tickFailure
    | with_reducible apply KeepsOut.next
    | with_reducible apply KeepsOut.ite
    | with_reducible apply Keeps.ite
    | intro _

theorem keeps_monitorFails : ∀ a0, Keeps s0 s → Keeps s0 (monitorFails a0 s) := by
  intro a0 h
  unfold monitorFails
  repeat' first
    | with_reducible assumption
    | with_reducible apply keeps_unitFail
    | with_reducible apply Keeps.ite
    | fail_if_no_progress ((with_reducible apply Keeps.upd) <;> try rfl)
    | intro _

theorem keeps_swapGone : ∀ a0, Keeps s0 s → Keeps s0 (swapGone a0 s) := by
  intro a0 h
  unfold swapGone
  repeat' first
    | with_reducible assumption
    | with_reducible apply keeps_laneResume
    | fail_if_no_progress ((with_reducible apply Keeps.upd) <;> try rfl)
    | split

theorem keeps_execUnitHardFailure : ∀ a0 a1 a2, Keeps s0 s → KeepsOut s0 (execUnitHardFailure a0 a1 a2 s) := by
  intro a0 a1 a2 h
  unfold execUnitHardFailure
  repeat' first
    | with_reducible assumption
    | with_reducible apply keeps_swapGone
    | with_reducible apply keeps_engineSwap
    | with_reducible apply keeps_hardFailure
    | with_reducible apply keeps_monitorFails
    | with_reducible apply keeps_laneWatch
    | with_reducible apply keeps_serdesFail
    | with_reducible apply KeepsOut.next
    | with_reducible exact KeepsOut.refused
    | with_reducible apply KeepsOut.ite
    | with_reducible apply Keeps.ite
    | intro _

theorem keeps_cutoverStep : ∀ a0 a1, Keeps s0 s → Keeps s0 (cutoverStep a0 a1 s) := by
  intro a0 a1 h
  unfold cutoverStep
  repeat' first
    | with_reducible assumption
    | with_reducible apply keeps_swapEnded
    | with_reducible apply keeps_cutover
    | with_reducible apply keeps_sealSwap
    | with_reducible apply keeps_laneHold
    | with_reducible apply Keeps.ite
    | with_reducible refine Keeps.foldl (fun u x hu => ?_) _ ?_
    | with_reducible refine Keeps.foldlFst (fun u x hu => ?_) _ ?_
    | with_reducible refine Keeps.foldlSnd (fun u x hu => ?_) _ ?_
    | with_reducible refine Keeps.snd (by assumption) ?_
    | with_reducible refine Keeps.fst (by assumption) ?_
    | fail_if_no_progress ((with_reducible apply Keeps.upd) <;> try rfl)
    | intro _
    | split
    | dsimp only

theorem keeps_execSpareCutover : ∀ a0, Keeps s0 s → KeepsOut s0 (execSpareCutover a0 s) := by
  intro a0 h
  unfold execSpareCutover
  repeat' first
    | with_reducible assumption
    | with_reducible apply keeps_cutoverStep
    | with_reducible apply KeepsOut.next
    | with_reducible apply KeepsOut.ite
    | with_reducible apply Keeps.ite
    | with_reducible refine Keeps.snd (by assumption) ?_
    | with_reducible refine Keeps.fst (by assumption) ?_
    | intro _
    | split

theorem keeps_execFailoverGapEnd : Keeps s0 s → KeepsOut s0 (execFailoverGapEnd s) := by
  intro h
  unfold execFailoverGapEnd
  repeat' first
    | with_reducible assumption
    | with_reducible apply keeps_protSync
    | with_reducible apply keeps_repliesDue
    | with_reducible apply keeps_handoverReply
    | with_reducible apply keeps_gapEnd
    | with_reducible apply KeepsOut.next
    | with_reducible refine Keeps.snd (by assumption) ?_
    | with_reducible refine Keeps.fst (by assumption) ?_
    | split

/-! ## Machine/Dispatch.lean -/

theorem keepsInv_exec (i : Instr) (s : State) : KeepsInvOut s (exec i s) :=
  match i with
  | .sysNop p => (keeps_execSysNop p (Keeps.refl s)).toInv
  | .sysAbort p => (keeps_execSysAbort p (Keeps.refl s)).toInv
  | .sysModeSet p => (keeps_execSysModeSet p (Keeps.refl s)).toInv
  | .sysModeGet p => (keeps_execSysModeGet p (Keeps.refl s)).toInv
  | .sysFenceSet p => (keeps_execSysFenceSet p (Keeps.refl s)).toInv
  | .sysAuthSet p => (keeps_execSysAuthSet p (Keeps.refl s)).toInv
  | .sysIoSet p => (keeps_execSysIoSet p (Keeps.refl s)).toInv
  | .sysIoGet p => (keeps_execSysIoGet p (Keeps.refl s)).toInv
  | .laneFrameSet p => (keeps_execLaneFrameSet p (Keeps.refl s)).toInv
  | .laneFrameGet p => (keeps_execLaneFrameGet p (Keeps.refl s)).toInv
  | .laneSeedSet p => (keeps_execLaneSeedSet p (Keeps.refl s)).toInv
  | .laneMsgSend p => (keeps_execLaneMsgSend p (Keeps.refl s)).toInv
  | .laneMsgRead p => (keeps_execLaneMsgRead p (Keeps.refl s)).toInv
  | .laneAlignSet p => (keeps_execLaneAlignSet p (Keeps.refl s)).toInv
  | .laneAlignGet p => (keeps_execLaneAlignGet p (Keeps.refl s)).toInv
  | .laneDefectSet p => (keeps_execLaneDefectSet p (Keeps.refl s)).toInv
  | .laneDefectGet p => (keeps_execLaneDefectGet p (Keeps.refl s)).toInv
  | .laneTxSet p => (keeps_execLaneTxSet p (Keeps.refl s)).toInv
  | .laneRxSet p => (keeps_execLaneRxSet p (Keeps.refl s)).toInv
  | .laneSerdesGet p => (keeps_execLaneSerdesGet p (Keeps.refl s)).toInv
  | .laneLoopSet p => (keeps_execLaneLoopSet p (Keeps.refl s)).toInv
  | .tribMapLoad p => (keeps_execTribMapLoad p (Keeps.refl s)).toInv
  | .tribSet p => (keeps_execTribSet p (Keeps.refl s)).toInv
  | .tribGet p => (keeps_execTribGet p (Keeps.refl s)).toInv
  | .tribTimingSet p => (keeps_execTribTimingSet p (Keeps.refl s)).toInv
  | .tribDefectProfileSet p => (keeps_execTribDefectProfileSet p (Keeps.refl s)).toInv
  | .tribDefectSet p => (keeps_execTribDefectSet p (Keeps.refl s)).toInv
  | .tribDefectGet p => (keeps_execTribDefectGet p (Keeps.refl s)).toInv
  | .accordSet p => (keeps_execAccordSet p (Keeps.refl s)).toInv
  | .accordMemberSet p => (keeps_execAccordMemberSet p (Keeps.refl s)).toInv
  | .accordGet p => (keeps_execAccordGet p (Keeps.refl s)).toInv
  | .accordStoreGet p => (keeps_execAccordStoreGet p (Keeps.refl s)).toInv
  | .connSet p => (keeps_execConnSet p (Keeps.refl s)).toInv
  | .connGet p => (keeps_execConnGet p (Keeps.refl s)).toInv
  | .connLoad p => (keeps_execConnLoad p (Keeps.refl s)).toInv
  | .connDelay p => (keeps_execConnDelay p (Keeps.refl s)).toInv
  | .connEqSet p => (keeps_execConnEqSet p (Keeps.refl s)).toInv
  | .connEqGet p => (keeps_execConnEqGet p (Keeps.refl s)).toInv
  | .connOccupancyGet p => (keeps_execConnOccupancyGet p (Keeps.refl s)).toInv
  | .protGroupSet p => (keeps_execProtGroupSet p (Keeps.refl s)).toInv
  | .protCmd p => (keeps_execProtCmd p (Keeps.refl s)).toInv
  | .protGet p => (keeps_execProtGet p (Keeps.refl s)).toInv
  | .timeRefSet p => (keeps_execTimeRefSet p (Keeps.refl s)).toInv
  | .timeRefGet p => (keeps_execTimeRefGet p (Keeps.refl s)).toInv
  | .timeSelSet p => (keeps_execTimeSelSet p (Keeps.refl s)).toInv
  | .timeDpllGet p => (keeps_execTimeDpllGet p (Keeps.refl s)).toInv
  | .timeDpllSteer p => (keeps_execTimeDpllSteer p (Keeps.refl s)).toInv
  | .timeOutSet p => (keeps_execTimeOutSet p (Keeps.refl s)).toInv
  | .timeTodSet p => (keeps_execTimeTodSet p (Keeps.refl s)).toInv
  | .timeTickSet p => (keeps_execTimeTickSet p (Keeps.refl s)).toInv
  | .timeTickGet p => (keeps_execTimeTickGet p (Keeps.refl s)).toInv
  | .sealTxSet p => (keeps_execSealTxSet p (Keeps.refl s)).toInv
  | .sealRxSet p => (keeps_execSealRxSet p (Keeps.refl s)).toInv
  | .sealFlip p => (keeps_execSealFlip p (Keeps.refl s)).toInv
  | .sealGet p => (keeps_execSealGet p (Keeps.refl s)).toInv
  | .ciphKeyLoad p => (keeps_execCiphKeyLoad p (Keeps.refl s)).toInv
  | .ciphKeyErase p => (keeps_execCiphKeyErase p (Keeps.refl s)).toInv
  | .ciphKeyGet p => (keeps_execCiphKeyGet p (Keeps.refl s)).toInv
  | .ciphChanSet p => (keeps_execCiphChanSet p (Keeps.refl s)).toInv
  | .ciphOp p => (keeps_execCiphOp p (Keeps.refl s)).toInv
  | .memTestStart p => (keeps_execMemTestStart p (Keeps.refl s)).toInv
  | .memTestGet p => (keeps_execMemTestGet p (Keeps.refl s)).toInv
  | .memFenceSet p => (keeps_execMemFenceSet p (Keeps.refl s)).toInv
  | .cntSelect p => (keeps_execCntSelect p (Keeps.refl s)).toInv
  | .cntRead p => (keeps_execCntRead p (Keeps.refl s)).toInv
  | .cntDump p => (keeps_execCntDump p (Keeps.refl s)).toInv
  | .evtMark p => (keeps_execEvtMark p (Keeps.refl s)).toInv
  | .evtLogRead p => (keeps_execEvtLogRead p (Keeps.refl s)).toInv
  | .saveConfigSet p => (keeps_execSaveConfigSet p (Keeps.refl s)).toInv
  | .saveGet p => (keeps_execSaveGet p (Keeps.refl s)).toInv
  | .saveTest p => (keeps_execSaveTest p (Keeps.refl s)).toInv
  | .testPrbsSet p => (keeps_execTestPrbsSet p (Keeps.refl s)).toInv
  | .testPrbsGet p => (keeps_execTestPrbsGet p (Keeps.refl s)).toInv
  | .testEyeScan p => (keeps_execTestEyeScan p (Keeps.refl s)).toInv
  | .healthGet p => (keeps_execHealthGet p (Keeps.refl s)).toInv
  | .healthSpareSwap p => (keeps_execHealthSpareSwap p (Keeps.refl s)).toInv
  | .healthSpareGet p => (keeps_execHealthSpareGet p (Keeps.refl s)).toInv
  | .healthCpGet p => (keeps_execHealthCpGet p (Keeps.refl s)).toInv
  | .commandDoorbell ring value => (keeps_execCommandDoorbell ring value (Keeps.refl s)).toInv
  | .replyRingDoorbell value => (keeps_execReplyRingDoorbell value (Keeps.refl s)).toInv
  | .eventConsumerIndexWrite value => (keeps_execEventConsumerIndexWrite value (Keeps.refl s)).toInv
  | .ringEnable ring value => (keeps_execRingEnable ring value (Keeps.refl s)).toInv
  | .ringDisable ring value => (keeps_execRingDisable ring value (Keeps.refl s)).toInv
  | .irqStatusClear value => (keeps_execIrqStatusClear value (Keeps.refl s)).toInv
  | .evtLostRead => (keeps_execEvtLostRead (Keeps.refl s)).toInv
  | .registerWrite offset size value => (keeps_execRegisterWrite offset size value (Keeps.refl s)).toInv
  | .windowMemoryAccess e p ecc => (keeps_execWindowMemoryAccess e p ecc (Keeps.refl s)).toInv
  | .busMatrixBurst reqs target => (keeps_execBusMatrixBurst reqs target (Keeps.refl s)).toInv
  | .matrixLockTimeout target => (keeps_execMatrixLockTimeout target (Keeps.refl s)).toInv
  | .apertureWrite master addr data => (keeps_execApertureWrite master addr data (Keeps.refl s)).toInv
  | .commandDecode ring => (keeps_execCommandDecode ring (Keeps.refl s)).toInv
  | .descriptorRecheck ring chan => (keeps_execDescriptorRecheck ring chan (Keeps.refl s)).toInv
  | .ciphOpStart => (keeps_execCiphOpStart (Keeps.refl s)).toInv
  | .ciphOpResume => (keeps_execCiphOpResume (Keeps.refl s)).toInv
  | .ciphOpComplete => (keeps_execCiphOpComplete (Keeps.refl s)).toInv
  | .eyeScanComplete lane counts centres uv => (keeps_execEyeScanComplete lane counts centres uv (Keeps.refl s)).toInv
  | .memTestComplete repaired unrepaired => (keeps_execMemTestComplete repaired unrepaired (Keeps.refl s)).toInv
  | .grainCycleTick meas => keepsInv_execGrainCycleTick meas s
  | .frameTick meas => keepsInv_execFrameTick meas s
  | .crossoverPass badEntries words => (keeps_execCrossoverPass badEntries words (Keeps.refl s)).toInv
  | .sectionTransmit lane => (keeps_execSectionTransmit lane (Keeps.refl s)).toInv
  | .markerBlockReceived m => (keeps_execMarkerBlockReceived m (Keeps.refl s)).toInv
  | .alignmentLoss lane => (keeps_execAlignmentLoss lane (Keeps.refl s)).toInv
  | .decisionWindowEnd lane => (keeps_execDecisionWindowEnd lane (Keeps.refl s)).toInv
  | .laneAlignRecovery lane => (keeps_execLaneAlignRecovery lane (Keeps.refl s)).toInv
  | .sectionDecoded lane codewords => (keeps_execSectionDecoded lane codewords (Keeps.refl s)).toInv
  | .losWindowEnd lane amplitude => (keeps_execLosWindowEnd lane amplitude (Keeps.refl s)).toInv
  | .cdrLock lane offset => (keeps_execCdrLock lane offset (Keeps.refl s)).toInv
  | .cdrLossOfLock lane => (keeps_execCdrLossOfLock lane (Keeps.refl s)).toInv
  | .goodSetRefresh lane good => (keeps_execGoodSetRefresh lane good (Keeps.refl s)).toInv
  | .laneLoopSlip m => (keeps_execLaneLoopSlip m (Keeps.refl s)).toInv
  | .prbsCheckerLock lane bits => (keeps_execPrbsCheckerLock lane bits (Keeps.refl s)).toInv
  | .prbsCheckerLoss lane bits errors => (keeps_execPrbsCheckerLoss lane bits errors (Keeps.refl s)).toInv
  | .defectDeclare obj bit => (keeps_execDefectDeclare obj bit (Keeps.refl s)).toInv
  | .defectClear obj bit => (keeps_execDefectClear obj bit (Keeps.refl s)).toInv
  | .degWindowEnd ta => (keeps_execDegWindowEnd ta (Keeps.refl s)).toInv
  | .accordRealign accord => (keeps_execAccordRealign accord (Keeps.refl s)).toInv
  | .alignerUnitsReturn => (keeps_execAlignerUnitsReturn (Keeps.refl s)).toInv
  | .connEqLocked bind => (keeps_execConnEqLocked bind (Keeps.refl s)).toInv
  | .connEqLost bind => (keeps_execConnEqLost bind (Keeps.refl s)).toInv
  | .updatePortCommit => (keeps_execUpdatePortCommit (Keeps.refl s)).toInv
  | .protSwitchStart group => (keeps_execProtSwitchStart group (Keeps.refl s)).toInv
  | .protHoldOffExpiry group => (keeps_execProtHoldOffExpiry group (Keeps.refl s)).toInv
  | .protWtrExpiry group => (keeps_execProtWtrExpiry group (Keeps.refl s)).toInv
  | .ftickWordReceived widths => (keeps_execFtickWordReceived widths (Keeps.refl s)).toInv
  | .ppsInEdge phase => (keeps_execPpsInEdge phase (Keeps.refl s)).toInv
  | .todInMessage bytes => (keeps_execTodInMessage bytes (Keeps.refl s)).toInv
  | .todOutMessage => (keeps_execTodOutMessage (Keeps.refl s)).toInv
  | .refActivityLoss ref => (keeps_execRefActivityLoss ref (Keeps.refl s)).toInv
  | .freqMonitorUpdate meas => (keeps_execFreqMonitorUpdate meas (Keeps.refl s)).toInv
  | .macerationExpiry ref => (keeps_execMacerationExpiry ref (Keeps.refl s)).toInv
  | .selectorEvaluation => (keeps_execSelectorEvaluation (Keeps.refl s)).toInv
  | .dpllSwitchTimeout => (keeps_execDpllSwitchTimeout (Keeps.refl s)).toInv
  | .dpllUpdate phase freqErr dpll => (keeps_execDpllUpdate phase freqErr dpll (Keeps.refl s)).toInv
  | .dpllLock => (keeps_execDpllLock (Keeps.refl s)).toInv
  | .drydownUpdate dieTemp => (keeps_execDrydownUpdate dieTemp (Keeps.refl s)).toInv
  | .modelLearnUpdate dieTemp => (keeps_execModelLearnUpdate dieTemp (Keeps.refl s)).toInv
  | .xoFail => (keeps_execXoFail (Keeps.refl s)).toInv
  | .dpllFailure => (keeps_execDpllFailure (Keeps.refl s)).toInv
  | .tickGeneratorFailure => (keeps_execTickGeneratorFailure (Keeps.refl s)).toInv
  | .edgeLinkClockLoss die => (keeps_execEdgeLinkClockLoss die (Keeps.refl s)).toInv
  | .edgeDieFailure die => (keeps_execEdgeDieFailure die (Keeps.refl s)).toInv
  | .keyStoreAlarm causes => (keeps_execKeyStoreAlarm causes (Keeps.refl s)).toInv
  | .guardMeasurement meas => (keeps_execGuardMeasurement meas (Keeps.refl s)).toInv
  | .ioInputSample gpio alm => (keeps_execIoInputSample gpio alm (Keeps.refl s)).toInv
  | .eventAckPhaseEnd key => (keeps_execEventAckPhaseEnd key (Keeps.refl s)).toInv
  | .eventRingWrite => (keeps_execEventRingWrite (Keeps.refl s)).toInv
  | .eventHoldoffExpiry => (keeps_execEventHoldoffExpiry (Keeps.refl s)).toInv
  | .counterTapSample eccBad => (keeps_execCounterTapSample eccBad (Keeps.refl s)).toInv
  | .backgroundTestStripe => (keeps_execBackgroundTestStripe (Keeps.refl s)).toInv
  | .memRepair store kind location => (keeps_execMemRepair store kind location (Keeps.refl s)).toInv
  | .cpHeartbeatTimeout => (keeps_execCpHeartbeatTimeout (Keeps.refl s)).toInv
  | .cpMemoryError uncorrectable => (keeps_execCpMemoryError uncorrectable (Keeps.refl s)).toInv
  | .failoverGapEnd => (keeps_execFailoverGapEnd (Keeps.refl s)).toInv
  | .journalApply => (keeps_execJournalApply (Keeps.refl s)).toInv
  | .standbySelftestPass passed => (keeps_execStandbySelftestPass passed (Keeps.refl s)).toInv
  | .cpDigestExchange matched => (keeps_execCpDigestExchange matched (Keeps.refl s)).toInv
  | .cpRestartComplete cp => (keeps_execCpRestartComplete cp (Keeps.refl s)).toInv
  | .cpRevertHoldoffExpiry => (keeps_execCpRevertHoldoffExpiry (Keeps.refl s)).toInv
  | .svaHeartbeatTimeout => (keeps_execSvaHeartbeatTimeout (Keeps.refl s)).toInv
  | .unitHardFailure pool unit ofSpare => (keeps_execUnitHardFailure pool unit ofSpare (Keeps.refl s)).toInv
  | .spareCutover pool => (keeps_execSpareCutover pool (Keeps.refl s)).toInv
  | .healthWearSample meas => (keeps_execHealthWearSample meas (Keeps.refl s)).toInv
  | .serdesMarginScan lane height width => (keeps_execSerdesMarginScan lane height width (Keeps.refl s)).toInv
  | .capacitorMeasurement dropMv esrDropMv vholdMv => (keeps_execCapacitorMeasurement dropMv esrDropMv vholdMv (Keeps.refl s)).toInv
  | .saveStageRefresh => (keeps_execSaveStageRefresh (Keeps.refl s)).toInv
  | .saveTrigger pwrFail vinLow => (keeps_execSaveTrigger pwrFail vinLow (Keeps.refl s)).toInv
  | .saveComplete => keepsInv_execSaveComplete s
  | .bootStart inp => (keeps_execBootStart inp (Keeps.refl s)).toInv
  | .bootImagePoll => (keeps_execBootImagePoll (Keeps.refl s)).toInv
  | .bootComplete => keepsInv_execBootComplete s
  | .wakeStart inp => (keeps_execWakeStart inp (Keeps.refl s)).toInv
  | .resetAssert => keepsInv_execResetAssert s
  | .perstAssert => (keeps_execPerstAssert (Keeps.refl s)).toInv
  | .railLoss rail => keepsInv_execRailLoss rail s
  | .ppsInEdgeMissing => (keeps_execPpsInEdgeMissing (Keeps.refl s)).toInv
  | .pcieLinkDown => (keeps_execPcieLinkDown (Keeps.refl s)).toInv
  | .journalLag cp => (keeps_execJournalLag cp (Keeps.refl s)).toInv
  | .cceFault => (keeps_execCceFault (Keeps.refl s)).toInv
  | .stripeReturned faults repaired => (keeps_execStripeReturned faults repaired (Keeps.refl s)).toInv
  | .cntDumpBlock ring => (keeps_execCntDumpBlock ring (Keeps.refl s)).toInv
  | .checkpointComplete => (keeps_execCheckpointComplete (Keeps.refl s)).toInv
  | .unitRetestComplete passed => (keeps_execUnitRetestComplete passed (Keeps.refl s)).toInv
  | .adaptationConverged lane => (keeps_execAdaptationConverged lane (Keeps.refl s)).toInv
  | .alarmCauseEnded causes => (keeps_execAlarmCauseEnded causes (Keeps.refl s)).toInv
  | .jtagInstruction j => (keeps_execJtagInstruction j (Keeps.refl s)).toInv

/-! ## Machine/Step.lean -/

theorem keepsInv_idle (s : State) : KeepsInv s (idle s) := by
  unfold idle
  split
  · exact (Keeps.refl s).toInv
  · have k : KeepsInv s { s with clk := { s.clk with now := s.clk.now + 1 } } := ⟨rfl, rfl, fun i => ⟨i.wm, i.rings, i.evt, i.keys, i.cyc⟩⟩
    exact k.trans (keeps_haltDue (Keeps.refl _)).toInv

end Sys2Proof.Machine
end

