-- ==== Sys2Proof/Laws/Clock.lean ====
section
/-! SUPPORT. The rows that do not move the clock keep it, and everything that the invariant speaks of. -/

namespace Sys2Proof.Machine

/-- Every row but the ticks, the end of a save, the end of a boot, reset and the loss of a rail keeps the clock. -/
theorem keeps_exec (s : State) : (i : Instr) → movesClock i = false → KeepsOut s (exec i s)
  | .sysNop p, _ => keeps_execSysNop p (Keeps.refl s)
  | .sysAbort p, _ => keeps_execSysAbort p (Keeps.refl s)
  | .sysModeSet p, _ => keeps_execSysModeSet p (Keeps.refl s)
  | .sysModeGet p, _ => keeps_execSysModeGet p (Keeps.refl s)
  | .sysFenceSet p, _ => keeps_execSysFenceSet p (Keeps.refl s)
  | .sysAuthSet p, _ => keeps_execSysAuthSet p (Keeps.refl s)
  | .sysIoSet p, _ => keeps_execSysIoSet p (Keeps.refl s)
  | .sysIoGet p, _ => keeps_execSysIoGet p (Keeps.refl s)
  | .laneFrameSet p, _ => keeps_execLaneFrameSet p (Keeps.refl s)
  | .laneFrameGet p, _ => keeps_execLaneFrameGet p (Keeps.refl s)
  | .laneSeedSet p, _ => keeps_execLaneSeedSet p (Keeps.refl s)
  | .laneMsgSend p, _ => keeps_execLaneMsgSend p (Keeps.refl s)
  | .laneMsgRead p, _ => keeps_execLaneMsgRead p (Keeps.refl s)
  | .laneAlignSet p, _ => keeps_execLaneAlignSet p (Keeps.refl s)
  | .laneAlignGet p, _ => keeps_execLaneAlignGet p (Keeps.refl s)
  | .laneDefectSet p, _ => keeps_execLaneDefectSet p (Keeps.refl s)
  | .laneDefectGet p, _ => keeps_execLaneDefectGet p (Keeps.refl s)
  | .laneTxSet p, _ => keeps_execLaneTxSet p (Keeps.refl s)
  | .laneRxSet p, _ => keeps_execLaneRxSet p (Keeps.refl s)
  | .laneSerdesGet p, _ => keeps_execLaneSerdesGet p (Keeps.refl s)
  | .laneLoopSet p, _ => keeps_execLaneLoopSet p (Keeps.refl s)
  | .tribMapLoad p, _ => keeps_execTribMapLoad p (Keeps.refl s)
  | .tribSet p, _ => keeps_execTribSet p (Keeps.refl s)
  | .tribGet p, _ => keeps_execTribGet p (Keeps.refl s)
  | .tribTimingSet p, _ => keeps_execTribTimingSet p (Keeps.refl s)
  | .tribDefectProfileSet p, _ => keeps_execTribDefectProfileSet p (Keeps.refl s)
  | .tribDefectSet p, _ => keeps_execTribDefectSet p (Keeps.refl s)
  | .tribDefectGet p, _ => keeps_execTribDefectGet p (Keeps.refl s)
  | .accordSet p, _ => keeps_execAccordSet p (Keeps.refl s)
  | .accordMemberSet p, _ => keeps_execAccordMemberSet p (Keeps.refl s)
  | .accordGet p, _ => keeps_execAccordGet p (Keeps.refl s)
  | .accordStoreGet p, _ => keeps_execAccordStoreGet p (Keeps.refl s)
  | .connSet p, _ => keeps_execConnSet p (Keeps.refl s)
  | .connGet p, _ => keeps_execConnGet p (Keeps.refl s)
  | .connLoad p, _ => keeps_execConnLoad p (Keeps.refl s)
  | .connDelay p, _ => keeps_execConnDelay p (Keeps.refl s)
  | .connEqSet p, _ => keeps_execConnEqSet p (Keeps.refl s)
  | .connEqGet p, _ => keeps_execConnEqGet p (Keeps.refl s)
  | .connOccupancyGet p, _ => keeps_execConnOccupancyGet p (Keeps.refl s)
  | .protGroupSet p, _ => keeps_execProtGroupSet p (Keeps.refl s)
  | .protCmd p, _ => keeps_execProtCmd p (Keeps.refl s)
  | .protGet p, _ => keeps_execProtGet p (Keeps.refl s)
  | .timeRefSet p, _ => keeps_execTimeRefSet p (Keeps.refl s)
  | .timeRefGet p, _ => keeps_execTimeRefGet p (Keeps.refl s)
  | .timeSelSet p, _ => keeps_execTimeSelSet p (Keeps.refl s)
  | .timeDpllGet p, _ => keeps_execTimeDpllGet p (Keeps.refl s)
  | .timeDpllSteer p, _ => keeps_execTimeDpllSteer p (Keeps.refl s)
  | .timeOutSet p, _ => keeps_execTimeOutSet p (Keeps.refl s)
  | .timeTodSet p, _ => keeps_execTimeTodSet p (Keeps.refl s)
  | .timeTickSet p, _ => keeps_execTimeTickSet p (Keeps.refl s)
  | .timeTickGet p, _ => keeps_execTimeTickGet p (Keeps.refl s)
  | .sealTxSet p, _ => keeps_execSealTxSet p (Keeps.refl s)
  | .sealRxSet p, _ => keeps_execSealRxSet p (Keeps.refl s)
  | .sealFlip p, _ => keeps_execSealFlip p (Keeps.refl s)
  | .sealGet p, _ => keeps_execSealGet p (Keeps.refl s)
  | .ciphKeyLoad p, _ => keeps_execCiphKeyLoad p (Keeps.refl s)
  | .ciphKeyErase p, _ => keeps_execCiphKeyErase p (Keeps.refl s)
  | .ciphKeyGet p, _ => keeps_execCiphKeyGet p (Keeps.refl s)
  | .ciphChanSet p, _ => keeps_execCiphChanSet p (Keeps.refl s)
  | .ciphOp p, _ => keeps_execCiphOp p (Keeps.refl s)
  | .memTestStart p, _ => keeps_execMemTestStart p (Keeps.refl s)
  | .memTestGet p, _ => keeps_execMemTestGet p (Keeps.refl s)
  | .memFenceSet p, _ => keeps_execMemFenceSet p (Keeps.refl s)
  | .cntSelect p, _ => keeps_execCntSelect p (Keeps.refl s)
  | .cntRead p, _ => keeps_execCntRead p (Keeps.refl s)
  | .cntDump p, _ => keeps_execCntDump p (Keeps.refl s)
  | .evtMark p, _ => keeps_execEvtMark p (Keeps.refl s)
  | .evtLogRead p, _ => keeps_execEvtLogRead p (Keeps.refl s)
  | .saveConfigSet p, _ => keeps_execSaveConfigSet p (Keeps.refl s)
  | .saveGet p, _ => keeps_execSaveGet p (Keeps.refl s)
  | .saveTest p, _ => keeps_execSaveTest p (Keeps.refl s)
  | .testPrbsSet p, _ => keeps_execTestPrbsSet p (Keeps.refl s)
  | .testPrbsGet p, _ => keeps_execTestPrbsGet p (Keeps.refl s)
  | .testEyeScan p, _ => keeps_execTestEyeScan p (Keeps.refl s)
  | .healthGet p, _ => keeps_execHealthGet p (Keeps.refl s)
  | .healthSpareSwap p, _ => keeps_execHealthSpareSwap p (Keeps.refl s)
  | .healthSpareGet p, _ => keeps_execHealthSpareGet p (Keeps.refl s)
  | .healthCpGet p, _ => keeps_execHealthCpGet p (Keeps.refl s)
  | .commandDoorbell ring value, _ => keeps_execCommandDoorbell ring value (Keeps.refl s)
  | .replyRingDoorbell value, _ => keeps_execReplyRingDoorbell value (Keeps.refl s)
  | .eventConsumerIndexWrite value, _ => keeps_execEventConsumerIndexWrite value (Keeps.refl s)
  | .ringEnable ring value, _ => keeps_execRingEnable ring value (Keeps.refl s)
  | .ringDisable ring value, _ => keeps_execRingDisable ring value (Keeps.refl s)
  | .irqStatusClear value, _ => keeps_execIrqStatusClear value (Keeps.refl s)
  | .evtLostRead, _ => keeps_execEvtLostRead (Keeps.refl s)
  | .registerWrite offset size value, _ => keeps_execRegisterWrite offset size value (Keeps.refl s)
  | .windowMemoryAccess e p ecc, _ => keeps_execWindowMemoryAccess e p ecc (Keeps.refl s)
  | .busMatrixBurst reqs target, _ => keeps_execBusMatrixBurst reqs target (Keeps.refl s)
  | .matrixLockTimeout target, _ => keeps_execMatrixLockTimeout target (Keeps.refl s)
  | .apertureWrite master addr data, _ => keeps_execApertureWrite master addr data (Keeps.refl s)
  | .commandDecode ring, _ => keeps_execCommandDecode ring (Keeps.refl s)
  | .descriptorRecheck ring chan, _ => keeps_execDescriptorRecheck ring chan (Keeps.refl s)
  | .ciphOpStart, _ => keeps_execCiphOpStart (Keeps.refl s)
  | .ciphOpResume, _ => keeps_execCiphOpResume (Keeps.refl s)
  | .ciphOpComplete, _ => keeps_execCiphOpComplete (Keeps.refl s)
  | .eyeScanComplete lane counts centres uv, _ => keeps_execEyeScanComplete lane counts centres uv (Keeps.refl s)
  | .memTestComplete repaired unrepaired, _ => keeps_execMemTestComplete repaired unrepaired (Keeps.refl s)
  | .grainCycleTick _, h => by cases h
  | .frameTick _, h => by cases h
  | .crossoverPass badEntries words, _ => keeps_execCrossoverPass badEntries words (Keeps.refl s)
  | .sectionTransmit lane, _ => keeps_execSectionTransmit lane (Keeps.refl s)
  | .markerBlockReceived m, _ => keeps_execMarkerBlockReceived m (Keeps.refl s)
  | .alignmentLoss lane, _ => keeps_execAlignmentLoss lane (Keeps.refl s)
  | .decisionWindowEnd lane, _ => keeps_execDecisionWindowEnd lane (Keeps.refl s)
  | .laneAlignRecovery lane, _ => keeps_execLaneAlignRecovery lane (Keeps.refl s)
  | .sectionDecoded lane codewords, _ => keeps_execSectionDecoded lane codewords (Keeps.refl s)
  | .losWindowEnd lane amplitude, _ => keeps_execLosWindowEnd lane amplitude (Keeps.refl s)
  | .cdrLock lane offset, _ => keeps_execCdrLock lane offset (Keeps.refl s)
  | .cdrLossOfLock lane, _ => keeps_execCdrLossOfLock lane (Keeps.refl s)
  | .goodSetRefresh lane good, _ => keeps_execGoodSetRefresh lane good (Keeps.refl s)
  | .laneLoopSlip m, _ => keeps_execLaneLoopSlip m (Keeps.refl s)
  | .prbsCheckerLock lane bits, _ => keeps_execPrbsCheckerLock lane bits (Keeps.refl s)
  | .prbsCheckerLoss lane bits errors, _ => keeps_execPrbsCheckerLoss lane bits errors (Keeps.refl s)
  | .defectDeclare obj bit, _ => keeps_execDefectDeclare obj bit (Keeps.refl s)
  | .defectClear obj bit, _ => keeps_execDefectClear obj bit (Keeps.refl s)
  | .degWindowEnd ta, _ => keeps_execDegWindowEnd ta (Keeps.refl s)
  | .accordRealign accord, _ => keeps_execAccordRealign accord (Keeps.refl s)
  | .alignerUnitsReturn, _ => keeps_execAlignerUnitsReturn (Keeps.refl s)
  | .connEqLocked bind, _ => keeps_execConnEqLocked bind (Keeps.refl s)
  | .connEqLost bind, _ => keeps_execConnEqLost bind (Keeps.refl s)
  | .updatePortCommit, _ => keeps_execUpdatePortCommit (Keeps.refl s)
  | .protSwitchStart group, _ => keeps_execProtSwitchStart group (Keeps.refl s)
  | .protHoldOffExpiry group, _ => keeps_execProtHoldOffExpiry group (Keeps.refl s)
  | .protWtrExpiry group, _ => keeps_execProtWtrExpiry group (Keeps.refl s)
  | .ftickWordReceived widths, _ => keeps_execFtickWordReceived widths (Keeps.refl s)
  | .ppsInEdge phase, _ => keeps_execPpsInEdge phase (Keeps.refl s)
  | .todInMessage bytes, _ => keeps_execTodInMessage bytes (Keeps.refl s)
  | .todOutMessage, _ => keeps_execTodOutMessage (Keeps.refl s)
  | .refActivityLoss ref, _ => keeps_execRefActivityLoss ref (Keeps.refl s)
  | .freqMonitorUpdate meas, _ => keeps_execFreqMonitorUpdate meas (Keeps.refl s)
  | .macerationExpiry ref, _ => keeps_execMacerationExpiry ref (Keeps.refl s)
  | .selectorEvaluation, _ => keeps_execSelectorEvaluation (Keeps.refl s)
  | .dpllSwitchTimeout, _ => keeps_execDpllSwitchTimeout (Keeps.refl s)
  | .dpllUpdate phase freqErr dpll, _ => keeps_execDpllUpdate phase freqErr dpll (Keeps.refl s)
  | .dpllLock, _ => keeps_execDpllLock (Keeps.refl s)
  | .drydownUpdate dieTemp, _ => keeps_execDrydownUpdate dieTemp (Keeps.refl s)
  | .modelLearnUpdate dieTemp, _ => keeps_execModelLearnUpdate dieTemp (Keeps.refl s)
  | .xoFail, _ => keeps_execXoFail (Keeps.refl s)
  | .dpllFailure, _ => keeps_execDpllFailure (Keeps.refl s)
  | .tickGeneratorFailure, _ => keeps_execTickGeneratorFailure (Keeps.refl s)
  | .edgeLinkClockLoss die, _ => keeps_execEdgeLinkClockLoss die (Keeps.refl s)
  | .edgeDieFailure die, _ => keeps_execEdgeDieFailure die (Keeps.refl s)
  | .keyStoreAlarm causes, _ => keeps_execKeyStoreAlarm causes (Keeps.refl s)
  | .guardMeasurement meas, _ => keeps_execGuardMeasurement meas (Keeps.refl s)
  | .ioInputSample gpio alm, _ => keeps_execIoInputSample gpio alm (Keeps.refl s)
  | .eventAckPhaseEnd key, _ => keeps_execEventAckPhaseEnd key (Keeps.refl s)
  | .eventRingWrite, _ => keeps_execEventRingWrite (Keeps.refl s)
  | .eventHoldoffExpiry, _ => keeps_execEventHoldoffExpiry (Keeps.refl s)
  | .counterTapSample eccBad, _ => keeps_execCounterTapSample eccBad (Keeps.refl s)
  | .backgroundTestStripe, _ => keeps_execBackgroundTestStripe (Keeps.refl s)
  | .memRepair store kind location, _ => keeps_execMemRepair store kind location (Keeps.refl s)
  | .cpHeartbeatTimeout, _ => keeps_execCpHeartbeatTimeout (Keeps.refl s)
  | .cpMemoryError uncorrectable, _ => keeps_execCpMemoryError uncorrectable (Keeps.refl s)
  | .failoverGapEnd, _ => keeps_execFailoverGapEnd (Keeps.refl s)
  | .journalApply, _ => keeps_execJournalApply (Keeps.refl s)
  | .standbySelftestPass passed, _ => keeps_execStandbySelftestPass passed (Keeps.refl s)
  | .cpDigestExchange matched, _ => keeps_execCpDigestExchange matched (Keeps.refl s)
  | .cpRestartComplete cp, _ => keeps_execCpRestartComplete cp (Keeps.refl s)
  | .cpRevertHoldoffExpiry, _ => keeps_execCpRevertHoldoffExpiry (Keeps.refl s)
  | .svaHeartbeatTimeout, _ => keeps_execSvaHeartbeatTimeout (Keeps.refl s)
  | .unitHardFailure pool unit ofSpare, _ => keeps_execUnitHardFailure pool unit ofSpare (Keeps.refl s)
  | .spareCutover pool, _ => keeps_execSpareCutover pool (Keeps.refl s)
  | .healthWearSample meas, _ => keeps_execHealthWearSample meas (Keeps.refl s)
  | .serdesMarginScan lane height width, _ => keeps_execSerdesMarginScan lane height width (Keeps.refl s)
  | .capacitorMeasurement dropMv esrDropMv vholdMv, _ => keeps_execCapacitorMeasurement dropMv esrDropMv vholdMv (Keeps.refl s)
  | .saveStageRefresh, _ => keeps_execSaveStageRefresh (Keeps.refl s)
  | .saveTrigger pwrFail vinLow, _ => keeps_execSaveTrigger pwrFail vinLow (Keeps.refl s)
  | .saveComplete, h => by cases h
  | .bootStart inp, _ => keeps_execBootStart inp (Keeps.refl s)
  | .bootImagePoll, _ => keeps_execBootImagePoll (Keeps.refl s)
  | .bootComplete, h => by cases h
  | .wakeStart inp, _ => keeps_execWakeStart inp (Keeps.refl s)
  | .resetAssert, h => by cases h
  | .perstAssert, _ => keeps_execPerstAssert (Keeps.refl s)
  | .railLoss _, h => by cases h
  | .ppsInEdgeMissing, _ => keeps_execPpsInEdgeMissing (Keeps.refl s)
  | .pcieLinkDown, _ => keeps_execPcieLinkDown (Keeps.refl s)
  | .journalLag cp, _ => keeps_execJournalLag cp (Keeps.refl s)
  | .cceFault, _ => keeps_execCceFault (Keeps.refl s)
  | .stripeReturned faults repaired, _ => keeps_execStripeReturned faults repaired (Keeps.refl s)
  | .cntDumpBlock ring, _ => keeps_execCntDumpBlock ring (Keeps.refl s)
  | .checkpointComplete, _ => keeps_execCheckpointComplete (Keeps.refl s)
  | .unitRetestComplete passed, _ => keeps_execUnitRetestComplete passed (Keeps.refl s)
  | .adaptationConverged lane, _ => keeps_execAdaptationConverged lane (Keeps.refl s)
  | .alarmCauseEnded causes, _ => keeps_execAlarmCauseEnded causes (Keeps.refl s)
  | .jtagInstruction j, _ => keeps_execJtagInstruction j (Keeps.refl s)

end Sys2Proof.Machine
end

