-- ==== Sys2Proof/Laws/State.lean ====
section
/-! SUPPORT. What each update of State leaves: one lemma per update and field. -/

namespace Sys2Proof.Machine

variable (s : State)

/-! ## wmPut -/

@[simp] theorem wmPut_pending (a bs) : (wmPut a bs s).pending = s.pending := rfl
@[simp] theorem wmPut_clk (a bs) : (wmPut a bs s).clk = s.clk := rfl
@[simp] theorem wmPut_dev (a bs) : (wmPut a bs s).dev = s.dev := rfl
@[simp] theorem wmPut_tick (a bs) : (wmPut a bs s).tick = s.tick := rfl
@[simp] theorem wmPut_evt (a bs) : (wmPut a bs s).evt = s.evt := rfl
@[simp] theorem wmPut_io (a bs) : (wmPut a bs s).io = s.io := rfl
@[simp] theorem wmPut_port (a bs) : (wmPut a bs s).port = s.port := rfl
@[simp] theorem wmPut_lanes (a bs) : (wmPut a bs s).lanes = s.lanes := rfl
@[simp] theorem wmPut_conn (a bs) : (wmPut a bs s).conn = s.conn := rfl
@[simp] theorem wmPut_trib (a bs) : (wmPut a bs s).trib = s.trib := rfl
@[simp] theorem wmPut_data (a bs) : (wmPut a bs s).data = s.data := rfl
@[simp] theorem wmPut_keys (a bs) : (wmPut a bs s).keys = s.keys := rfl
@[simp] theorem wmPut_prot (a bs) : (wmPut a bs s).prot = s.prot := rfl
@[simp] theorem wmPut_cnt (a bs) : (wmPut a bs s).cnt = s.cnt := rfl
@[simp] theorem wmPut_mem (a bs) : (wmPut a bs s).mem = s.mem := rfl
@[simp] theorem wmPut_cp (a bs) : (wmPut a bs s).cp = s.cp := rfl
@[simp] theorem wmPut_spare (a bs) : (wmPut a bs s).spare = s.spare := rfl
@[simp] theorem wmPut_health (a bs) : (wmPut a bs s).health = s.health := rfl
@[simp] theorem wmPut_fio (a bs) : (wmPut a bs s).fio = s.fio := rfl
@[simp] theorem wmPut_save (a bs) : (wmPut a bs s).save = s.save := rfl
@[simp] theorem wmPut_time (a bs) : (wmPut a bs s).time = s.time := rfl

/-! ## setRing -/

@[simp] theorem setRing_pending (r g) : (setRing r g s).pending = s.pending := rfl
@[simp] theorem setRing_clk (r g) : (setRing r g s).clk = s.clk := rfl
@[simp] theorem setRing_dev (r g) : (setRing r g s).dev = s.dev := rfl
@[simp] theorem setRing_tick (r g) : (setRing r g s).tick = s.tick := rfl
@[simp] theorem setRing_evt (r g) : (setRing r g s).evt = s.evt := rfl
@[simp] theorem setRing_wm (r g) : (setRing r g s).wm = s.wm := rfl
@[simp] theorem setRing_port (r g) : (setRing r g s).port = s.port := rfl
@[simp] theorem setRing_lanes (r g) : (setRing r g s).lanes = s.lanes := rfl
@[simp] theorem setRing_conn (r g) : (setRing r g s).conn = s.conn := rfl
@[simp] theorem setRing_trib (r g) : (setRing r g s).trib = s.trib := rfl
@[simp] theorem setRing_data (r g) : (setRing r g s).data = s.data := rfl
@[simp] theorem setRing_keys (r g) : (setRing r g s).keys = s.keys := rfl
@[simp] theorem setRing_prot (r g) : (setRing r g s).prot = s.prot := rfl
@[simp] theorem setRing_cnt (r g) : (setRing r g s).cnt = s.cnt := rfl
@[simp] theorem setRing_mem (r g) : (setRing r g s).mem = s.mem := rfl
@[simp] theorem setRing_cp (r g) : (setRing r g s).cp = s.cp := rfl
@[simp] theorem setRing_spare (r g) : (setRing r g s).spare = s.spare := rfl
@[simp] theorem setRing_health (r g) : (setRing r g s).health = s.health := rfl
@[simp] theorem setRing_fio (r g) : (setRing r g s).fio = s.fio := rfl
@[simp] theorem setRing_save (r g) : (setRing r g s).save = s.save := rfl
@[simp] theorem setRing_time (r g) : (setRing r g s).time = s.time := rfl

/-! ## setJob -/

@[simp] theorem setJob_pending (r j) : (setJob r j s).pending = s.pending := rfl
@[simp] theorem setJob_clk (r j) : (setJob r j s).clk = s.clk := rfl
@[simp] theorem setJob_dev (r j) : (setJob r j s).dev = s.dev := rfl
@[simp] theorem setJob_tick (r j) : (setJob r j s).tick = s.tick := rfl
@[simp] theorem setJob_evt (r j) : (setJob r j s).evt = s.evt := rfl
@[simp] theorem setJob_wm (r j) : (setJob r j s).wm = s.wm := rfl
@[simp] theorem setJob_port (r j) : (setJob r j s).port = s.port := rfl
@[simp] theorem setJob_lanes (r j) : (setJob r j s).lanes = s.lanes := rfl
@[simp] theorem setJob_conn (r j) : (setJob r j s).conn = s.conn := rfl
@[simp] theorem setJob_trib (r j) : (setJob r j s).trib = s.trib := rfl
@[simp] theorem setJob_data (r j) : (setJob r j s).data = s.data := rfl
@[simp] theorem setJob_keys (r j) : (setJob r j s).keys = s.keys := rfl
@[simp] theorem setJob_prot (r j) : (setJob r j s).prot = s.prot := rfl
@[simp] theorem setJob_cnt (r j) : (setJob r j s).cnt = s.cnt := rfl
@[simp] theorem setJob_mem (r j) : (setJob r j s).mem = s.mem := rfl
@[simp] theorem setJob_cp (r j) : (setJob r j s).cp = s.cp := rfl
@[simp] theorem setJob_spare (r j) : (setJob r j s).spare = s.spare := rfl
@[simp] theorem setJob_health (r j) : (setJob r j s).health = s.health := rfl
@[simp] theorem setJob_fio (r j) : (setJob r j s).fio = s.fio := rfl
@[simp] theorem setJob_save (r j) : (setJob r j s).save = s.save := rfl
@[simp] theorem setJob_time (r j) : (setJob r j s).time = s.time := rfl

/-! ## setRole -/

@[simp] theorem setRole_pending (c x) : (setRole c x s).pending = s.pending := rfl
@[simp] theorem setRole_clk (c x) : (setRole c x s).clk = s.clk := rfl
@[simp] theorem setRole_dev (c x) : (setRole c x s).dev = s.dev := rfl
@[simp] theorem setRole_tick (c x) : (setRole c x s).tick = s.tick := rfl
@[simp] theorem setRole_evt (c x) : (setRole c x s).evt = s.evt := rfl
@[simp] theorem setRole_io (c x) : (setRole c x s).io = s.io := rfl
@[simp] theorem setRole_wm (c x) : (setRole c x s).wm = s.wm := rfl
@[simp] theorem setRole_port (c x) : (setRole c x s).port = s.port := rfl
@[simp] theorem setRole_lanes (c x) : (setRole c x s).lanes = s.lanes := rfl
@[simp] theorem setRole_conn (c x) : (setRole c x s).conn = s.conn := rfl
@[simp] theorem setRole_trib (c x) : (setRole c x s).trib = s.trib := rfl
@[simp] theorem setRole_data (c x) : (setRole c x s).data = s.data := rfl
@[simp] theorem setRole_keys (c x) : (setRole c x s).keys = s.keys := rfl
@[simp] theorem setRole_prot (c x) : (setRole c x s).prot = s.prot := rfl
@[simp] theorem setRole_cnt (c x) : (setRole c x s).cnt = s.cnt := rfl
@[simp] theorem setRole_mem (c x) : (setRole c x s).mem = s.mem := rfl
@[simp] theorem setRole_spare (c x) : (setRole c x s).spare = s.spare := rfl
@[simp] theorem setRole_health (c x) : (setRole c x s).health = s.health := rfl
@[simp] theorem setRole_fio (c x) : (setRole c x s).fio = s.fio := rfl
@[simp] theorem setRole_save (c x) : (setRole c x s).save = s.save := rfl
@[simp] theorem setRole_time (c x) : (setRole c x s).time = s.time := rfl

/-! ## setLane -/

@[simp] theorem setLane_pending (l x) : (setLane l x s).pending = s.pending := rfl
@[simp] theorem setLane_clk (l x) : (setLane l x s).clk = s.clk := rfl
@[simp] theorem setLane_dev (l x) : (setLane l x s).dev = s.dev := rfl
@[simp] theorem setLane_tick (l x) : (setLane l x s).tick = s.tick := rfl
@[simp] theorem setLane_evt (l x) : (setLane l x s).evt = s.evt := rfl
@[simp] theorem setLane_io (l x) : (setLane l x s).io = s.io := rfl
@[simp] theorem setLane_wm (l x) : (setLane l x s).wm = s.wm := rfl
@[simp] theorem setLane_port (l x) : (setLane l x s).port = s.port := rfl
@[simp] theorem setLane_conn (l x) : (setLane l x s).conn = s.conn := rfl
@[simp] theorem setLane_trib (l x) : (setLane l x s).trib = s.trib := rfl
@[simp] theorem setLane_data (l x) : (setLane l x s).data = s.data := rfl
@[simp] theorem setLane_keys (l x) : (setLane l x s).keys = s.keys := rfl
@[simp] theorem setLane_prot (l x) : (setLane l x s).prot = s.prot := rfl
@[simp] theorem setLane_cnt (l x) : (setLane l x s).cnt = s.cnt := rfl
@[simp] theorem setLane_mem (l x) : (setLane l x s).mem = s.mem := rfl
@[simp] theorem setLane_cp (l x) : (setLane l x s).cp = s.cp := rfl
@[simp] theorem setLane_spare (l x) : (setLane l x s).spare = s.spare := rfl
@[simp] theorem setLane_health (l x) : (setLane l x s).health = s.health := rfl
@[simp] theorem setLane_fio (l x) : (setLane l x s).fio = s.fio := rfl
@[simp] theorem setLane_save (l x) : (setLane l x s).save = s.save := rfl
@[simp] theorem setLane_time (l x) : (setLane l x s).time = s.time := rfl

/-! ## modSd -/

@[simp] theorem modSd_pending (l f) : (modSd l f s).pending = s.pending := rfl
@[simp] theorem modSd_clk (l f) : (modSd l f s).clk = s.clk := rfl
@[simp] theorem modSd_dev (l f) : (modSd l f s).dev = s.dev := rfl
@[simp] theorem modSd_tick (l f) : (modSd l f s).tick = s.tick := rfl
@[simp] theorem modSd_evt (l f) : (modSd l f s).evt = s.evt := rfl
@[simp] theorem modSd_io (l f) : (modSd l f s).io = s.io := rfl
@[simp] theorem modSd_wm (l f) : (modSd l f s).wm = s.wm := rfl
@[simp] theorem modSd_port (l f) : (modSd l f s).port = s.port := rfl
@[simp] theorem modSd_conn (l f) : (modSd l f s).conn = s.conn := rfl
@[simp] theorem modSd_trib (l f) : (modSd l f s).trib = s.trib := rfl
@[simp] theorem modSd_data (l f) : (modSd l f s).data = s.data := rfl
@[simp] theorem modSd_keys (l f) : (modSd l f s).keys = s.keys := rfl
@[simp] theorem modSd_prot (l f) : (modSd l f s).prot = s.prot := rfl
@[simp] theorem modSd_cnt (l f) : (modSd l f s).cnt = s.cnt := rfl
@[simp] theorem modSd_mem (l f) : (modSd l f s).mem = s.mem := rfl
@[simp] theorem modSd_cp (l f) : (modSd l f s).cp = s.cp := rfl
@[simp] theorem modSd_spare (l f) : (modSd l f s).spare = s.spare := rfl
@[simp] theorem modSd_health (l f) : (modSd l f s).health = s.health := rfl
@[simp] theorem modSd_fio (l f) : (modSd l f s).fio = s.fio := rfl
@[simp] theorem modSd_save (l f) : (modSd l f s).save = s.save := rfl
@[simp] theorem modSd_time (l f) : (modSd l f s).time = s.time := rfl

/-! ## modDef -/

@[simp] theorem modDef_pending (l f) : (modDef l f s).pending = s.pending := rfl
@[simp] theorem modDef_clk (l f) : (modDef l f s).clk = s.clk := rfl
@[simp] theorem modDef_dev (l f) : (modDef l f s).dev = s.dev := rfl
@[simp] theorem modDef_tick (l f) : (modDef l f s).tick = s.tick := rfl
@[simp] theorem modDef_evt (l f) : (modDef l f s).evt = s.evt := rfl
@[simp] theorem modDef_io (l f) : (modDef l f s).io = s.io := rfl
@[simp] theorem modDef_wm (l f) : (modDef l f s).wm = s.wm := rfl
@[simp] theorem modDef_port (l f) : (modDef l f s).port = s.port := rfl
@[simp] theorem modDef_conn (l f) : (modDef l f s).conn = s.conn := rfl
@[simp] theorem modDef_trib (l f) : (modDef l f s).trib = s.trib := rfl
@[simp] theorem modDef_data (l f) : (modDef l f s).data = s.data := rfl
@[simp] theorem modDef_keys (l f) : (modDef l f s).keys = s.keys := rfl
@[simp] theorem modDef_prot (l f) : (modDef l f s).prot = s.prot := rfl
@[simp] theorem modDef_cnt (l f) : (modDef l f s).cnt = s.cnt := rfl
@[simp] theorem modDef_mem (l f) : (modDef l f s).mem = s.mem := rfl
@[simp] theorem modDef_cp (l f) : (modDef l f s).cp = s.cp := rfl
@[simp] theorem modDef_spare (l f) : (modDef l f s).spare = s.spare := rfl
@[simp] theorem modDef_health (l f) : (modDef l f s).health = s.health := rfl
@[simp] theorem modDef_fio (l f) : (modDef l f s).fio = s.fio := rfl
@[simp] theorem modDef_save (l f) : (modDef l f s).save = s.save := rfl
@[simp] theorem modDef_time (l f) : (modDef l f s).time = s.time := rfl

/-! ## modTx -/

@[simp] theorem modTx_pending (l f) : (modTx l f s).pending = s.pending := rfl
@[simp] theorem modTx_clk (l f) : (modTx l f s).clk = s.clk := rfl
@[simp] theorem modTx_dev (l f) : (modTx l f s).dev = s.dev := rfl
@[simp] theorem modTx_tick (l f) : (modTx l f s).tick = s.tick := rfl
@[simp] theorem modTx_evt (l f) : (modTx l f s).evt = s.evt := rfl
@[simp] theorem modTx_io (l f) : (modTx l f s).io = s.io := rfl
@[simp] theorem modTx_wm (l f) : (modTx l f s).wm = s.wm := rfl
@[simp] theorem modTx_port (l f) : (modTx l f s).port = s.port := rfl
@[simp] theorem modTx_conn (l f) : (modTx l f s).conn = s.conn := rfl
@[simp] theorem modTx_trib (l f) : (modTx l f s).trib = s.trib := rfl
@[simp] theorem modTx_data (l f) : (modTx l f s).data = s.data := rfl
@[simp] theorem modTx_keys (l f) : (modTx l f s).keys = s.keys := rfl
@[simp] theorem modTx_prot (l f) : (modTx l f s).prot = s.prot := rfl
@[simp] theorem modTx_cnt (l f) : (modTx l f s).cnt = s.cnt := rfl
@[simp] theorem modTx_mem (l f) : (modTx l f s).mem = s.mem := rfl
@[simp] theorem modTx_cp (l f) : (modTx l f s).cp = s.cp := rfl
@[simp] theorem modTx_spare (l f) : (modTx l f s).spare = s.spare := rfl
@[simp] theorem modTx_health (l f) : (modTx l f s).health = s.health := rfl
@[simp] theorem modTx_fio (l f) : (modTx l f s).fio = s.fio := rfl
@[simp] theorem modTx_save (l f) : (modTx l f s).save = s.save := rfl
@[simp] theorem modTx_time (l f) : (modTx l f s).time = s.time := rfl

/-! ## modRx -/

@[simp] theorem modRx_pending (l f) : (modRx l f s).pending = s.pending := rfl
@[simp] theorem modRx_clk (l f) : (modRx l f s).clk = s.clk := rfl
@[simp] theorem modRx_dev (l f) : (modRx l f s).dev = s.dev := rfl
@[simp] theorem modRx_tick (l f) : (modRx l f s).tick = s.tick := rfl
@[simp] theorem modRx_evt (l f) : (modRx l f s).evt = s.evt := rfl
@[simp] theorem modRx_io (l f) : (modRx l f s).io = s.io := rfl
@[simp] theorem modRx_wm (l f) : (modRx l f s).wm = s.wm := rfl
@[simp] theorem modRx_port (l f) : (modRx l f s).port = s.port := rfl
@[simp] theorem modRx_conn (l f) : (modRx l f s).conn = s.conn := rfl
@[simp] theorem modRx_trib (l f) : (modRx l f s).trib = s.trib := rfl
@[simp] theorem modRx_data (l f) : (modRx l f s).data = s.data := rfl
@[simp] theorem modRx_keys (l f) : (modRx l f s).keys = s.keys := rfl
@[simp] theorem modRx_prot (l f) : (modRx l f s).prot = s.prot := rfl
@[simp] theorem modRx_cnt (l f) : (modRx l f s).cnt = s.cnt := rfl
@[simp] theorem modRx_mem (l f) : (modRx l f s).mem = s.mem := rfl
@[simp] theorem modRx_cp (l f) : (modRx l f s).cp = s.cp := rfl
@[simp] theorem modRx_spare (l f) : (modRx l f s).spare = s.spare := rfl
@[simp] theorem modRx_health (l f) : (modRx l f s).health = s.health := rfl
@[simp] theorem modRx_fio (l f) : (modRx l f s).fio = s.fio := rfl
@[simp] theorem modRx_save (l f) : (modRx l f s).save = s.save := rfl
@[simp] theorem modRx_time (l f) : (modRx l f s).time = s.time := rfl

/-! ## modAl -/

@[simp] theorem modAl_pending (l f) : (modAl l f s).pending = s.pending := rfl
@[simp] theorem modAl_clk (l f) : (modAl l f s).clk = s.clk := rfl
@[simp] theorem modAl_dev (l f) : (modAl l f s).dev = s.dev := rfl
@[simp] theorem modAl_tick (l f) : (modAl l f s).tick = s.tick := rfl
@[simp] theorem modAl_evt (l f) : (modAl l f s).evt = s.evt := rfl
@[simp] theorem modAl_io (l f) : (modAl l f s).io = s.io := rfl
@[simp] theorem modAl_wm (l f) : (modAl l f s).wm = s.wm := rfl
@[simp] theorem modAl_port (l f) : (modAl l f s).port = s.port := rfl
@[simp] theorem modAl_conn (l f) : (modAl l f s).conn = s.conn := rfl
@[simp] theorem modAl_trib (l f) : (modAl l f s).trib = s.trib := rfl
@[simp] theorem modAl_data (l f) : (modAl l f s).data = s.data := rfl
@[simp] theorem modAl_keys (l f) : (modAl l f s).keys = s.keys := rfl
@[simp] theorem modAl_prot (l f) : (modAl l f s).prot = s.prot := rfl
@[simp] theorem modAl_cnt (l f) : (modAl l f s).cnt = s.cnt := rfl
@[simp] theorem modAl_mem (l f) : (modAl l f s).mem = s.mem := rfl
@[simp] theorem modAl_cp (l f) : (modAl l f s).cp = s.cp := rfl
@[simp] theorem modAl_spare (l f) : (modAl l f s).spare = s.spare := rfl
@[simp] theorem modAl_health (l f) : (modAl l f s).health = s.health := rfl
@[simp] theorem modAl_fio (l f) : (modAl l f s).fio = s.fio := rfl
@[simp] theorem modAl_save (l f) : (modAl l f s).save = s.save := rfl
@[simp] theorem modAl_time (l f) : (modAl l f s).time = s.time := rfl

/-! ## setGroup -/

@[simp] theorem setGroup_pending (n g) : (setGroup n g s).pending = s.pending := rfl
@[simp] theorem setGroup_clk (n g) : (setGroup n g s).clk = s.clk := rfl
@[simp] theorem setGroup_dev (n g) : (setGroup n g s).dev = s.dev := rfl
@[simp] theorem setGroup_tick (n g) : (setGroup n g s).tick = s.tick := rfl
@[simp] theorem setGroup_evt (n g) : (setGroup n g s).evt = s.evt := rfl
@[simp] theorem setGroup_io (n g) : (setGroup n g s).io = s.io := rfl
@[simp] theorem setGroup_wm (n g) : (setGroup n g s).wm = s.wm := rfl
@[simp] theorem setGroup_port (n g) : (setGroup n g s).port = s.port := rfl
@[simp] theorem setGroup_lanes (n g) : (setGroup n g s).lanes = s.lanes := rfl
@[simp] theorem setGroup_conn (n g) : (setGroup n g s).conn = s.conn := rfl
@[simp] theorem setGroup_trib (n g) : (setGroup n g s).trib = s.trib := rfl
@[simp] theorem setGroup_data (n g) : (setGroup n g s).data = s.data := rfl
@[simp] theorem setGroup_keys (n g) : (setGroup n g s).keys = s.keys := rfl
@[simp] theorem setGroup_cnt (n g) : (setGroup n g s).cnt = s.cnt := rfl
@[simp] theorem setGroup_mem (n g) : (setGroup n g s).mem = s.mem := rfl
@[simp] theorem setGroup_cp (n g) : (setGroup n g s).cp = s.cp := rfl
@[simp] theorem setGroup_spare (n g) : (setGroup n g s).spare = s.spare := rfl
@[simp] theorem setGroup_health (n g) : (setGroup n g s).health = s.health := rfl
@[simp] theorem setGroup_fio (n g) : (setGroup n g s).fio = s.fio := rfl
@[simp] theorem setGroup_save (n g) : (setGroup n g s).save = s.save := rfl
@[simp] theorem setGroup_time (n g) : (setGroup n g s).time = s.time := rfl

/-! ## modGroup -/

@[simp] theorem modGroup_pending (n f) : (modGroup n f s).pending = s.pending := rfl
@[simp] theorem modGroup_clk (n f) : (modGroup n f s).clk = s.clk := rfl
@[simp] theorem modGroup_dev (n f) : (modGroup n f s).dev = s.dev := rfl
@[simp] theorem modGroup_tick (n f) : (modGroup n f s).tick = s.tick := rfl
@[simp] theorem modGroup_evt (n f) : (modGroup n f s).evt = s.evt := rfl
@[simp] theorem modGroup_io (n f) : (modGroup n f s).io = s.io := rfl
@[simp] theorem modGroup_wm (n f) : (modGroup n f s).wm = s.wm := rfl
@[simp] theorem modGroup_port (n f) : (modGroup n f s).port = s.port := rfl
@[simp] theorem modGroup_lanes (n f) : (modGroup n f s).lanes = s.lanes := rfl
@[simp] theorem modGroup_conn (n f) : (modGroup n f s).conn = s.conn := rfl
@[simp] theorem modGroup_trib (n f) : (modGroup n f s).trib = s.trib := rfl
@[simp] theorem modGroup_data (n f) : (modGroup n f s).data = s.data := rfl
@[simp] theorem modGroup_keys (n f) : (modGroup n f s).keys = s.keys := rfl
@[simp] theorem modGroup_cnt (n f) : (modGroup n f s).cnt = s.cnt := rfl
@[simp] theorem modGroup_mem (n f) : (modGroup n f s).mem = s.mem := rfl
@[simp] theorem modGroup_cp (n f) : (modGroup n f s).cp = s.cp := rfl
@[simp] theorem modGroup_spare (n f) : (modGroup n f s).spare = s.spare := rfl
@[simp] theorem modGroup_health (n f) : (modGroup n f s).health = s.health := rfl
@[simp] theorem modGroup_fio (n f) : (modGroup n f s).fio = s.fio := rfl
@[simp] theorem modGroup_save (n f) : (modGroup n f s).save = s.save := rfl
@[simp] theorem modGroup_time (n f) : (modGroup n f s).time = s.time := rfl

/-! ## setSealSlot -/

@[simp] theorem setSealSlot_pending (n k) : (setSealSlot n k s).pending = s.pending := rfl
@[simp] theorem setSealSlot_clk (n k) : (setSealSlot n k s).clk = s.clk := rfl
@[simp] theorem setSealSlot_dev (n k) : (setSealSlot n k s).dev = s.dev := rfl
@[simp] theorem setSealSlot_tick (n k) : (setSealSlot n k s).tick = s.tick := rfl
@[simp] theorem setSealSlot_evt (n k) : (setSealSlot n k s).evt = s.evt := rfl
@[simp] theorem setSealSlot_io (n k) : (setSealSlot n k s).io = s.io := rfl
@[simp] theorem setSealSlot_wm (n k) : (setSealSlot n k s).wm = s.wm := rfl
@[simp] theorem setSealSlot_port (n k) : (setSealSlot n k s).port = s.port := rfl
@[simp] theorem setSealSlot_lanes (n k) : (setSealSlot n k s).lanes = s.lanes := rfl
@[simp] theorem setSealSlot_conn (n k) : (setSealSlot n k s).conn = s.conn := rfl
@[simp] theorem setSealSlot_trib (n k) : (setSealSlot n k s).trib = s.trib := rfl
@[simp] theorem setSealSlot_data (n k) : (setSealSlot n k s).data = s.data := rfl
@[simp] theorem setSealSlot_prot (n k) : (setSealSlot n k s).prot = s.prot := rfl
@[simp] theorem setSealSlot_cnt (n k) : (setSealSlot n k s).cnt = s.cnt := rfl
@[simp] theorem setSealSlot_mem (n k) : (setSealSlot n k s).mem = s.mem := rfl
@[simp] theorem setSealSlot_cp (n k) : (setSealSlot n k s).cp = s.cp := rfl
@[simp] theorem setSealSlot_spare (n k) : (setSealSlot n k s).spare = s.spare := rfl
@[simp] theorem setSealSlot_health (n k) : (setSealSlot n k s).health = s.health := rfl
@[simp] theorem setSealSlot_fio (n k) : (setSealSlot n k s).fio = s.fio := rfl
@[simp] theorem setSealSlot_save (n k) : (setSealSlot n k s).save = s.save := rfl
@[simp] theorem setSealSlot_time (n k) : (setSealSlot n k s).time = s.time := rfl

/-! ## setCmdSlot -/

@[simp] theorem setCmdSlot_pending (n k) : (setCmdSlot n k s).pending = s.pending := rfl
@[simp] theorem setCmdSlot_clk (n k) : (setCmdSlot n k s).clk = s.clk := rfl
@[simp] theorem setCmdSlot_dev (n k) : (setCmdSlot n k s).dev = s.dev := rfl
@[simp] theorem setCmdSlot_tick (n k) : (setCmdSlot n k s).tick = s.tick := rfl
@[simp] theorem setCmdSlot_evt (n k) : (setCmdSlot n k s).evt = s.evt := rfl
@[simp] theorem setCmdSlot_io (n k) : (setCmdSlot n k s).io = s.io := rfl
@[simp] theorem setCmdSlot_wm (n k) : (setCmdSlot n k s).wm = s.wm := rfl
@[simp] theorem setCmdSlot_port (n k) : (setCmdSlot n k s).port = s.port := rfl
@[simp] theorem setCmdSlot_lanes (n k) : (setCmdSlot n k s).lanes = s.lanes := rfl
@[simp] theorem setCmdSlot_conn (n k) : (setCmdSlot n k s).conn = s.conn := rfl
@[simp] theorem setCmdSlot_trib (n k) : (setCmdSlot n k s).trib = s.trib := rfl
@[simp] theorem setCmdSlot_data (n k) : (setCmdSlot n k s).data = s.data := rfl
@[simp] theorem setCmdSlot_prot (n k) : (setCmdSlot n k s).prot = s.prot := rfl
@[simp] theorem setCmdSlot_cnt (n k) : (setCmdSlot n k s).cnt = s.cnt := rfl
@[simp] theorem setCmdSlot_mem (n k) : (setCmdSlot n k s).mem = s.mem := rfl
@[simp] theorem setCmdSlot_cp (n k) : (setCmdSlot n k s).cp = s.cp := rfl
@[simp] theorem setCmdSlot_spare (n k) : (setCmdSlot n k s).spare = s.spare := rfl
@[simp] theorem setCmdSlot_health (n k) : (setCmdSlot n k s).health = s.health := rfl
@[simp] theorem setCmdSlot_fio (n k) : (setCmdSlot n k s).fio = s.fio := rfl
@[simp] theorem setCmdSlot_save (n k) : (setCmdSlot n k s).save = s.save := rfl
@[simp] theorem setCmdSlot_time (n k) : (setCmdSlot n k s).time = s.time := rfl

/-! ## setPair -/

@[simp] theorem setPair_pending (p x) : (setPair p x s).pending = s.pending := rfl
@[simp] theorem setPair_clk (p x) : (setPair p x s).clk = s.clk := rfl
@[simp] theorem setPair_dev (p x) : (setPair p x s).dev = s.dev := rfl
@[simp] theorem setPair_tick (p x) : (setPair p x s).tick = s.tick := rfl
@[simp] theorem setPair_evt (p x) : (setPair p x s).evt = s.evt := rfl
@[simp] theorem setPair_io (p x) : (setPair p x s).io = s.io := rfl
@[simp] theorem setPair_wm (p x) : (setPair p x s).wm = s.wm := rfl
@[simp] theorem setPair_port (p x) : (setPair p x s).port = s.port := rfl
@[simp] theorem setPair_lanes (p x) : (setPair p x s).lanes = s.lanes := rfl
@[simp] theorem setPair_conn (p x) : (setPair p x s).conn = s.conn := rfl
@[simp] theorem setPair_trib (p x) : (setPair p x s).trib = s.trib := rfl
@[simp] theorem setPair_data (p x) : (setPair p x s).data = s.data := rfl
@[simp] theorem setPair_prot (p x) : (setPair p x s).prot = s.prot := rfl
@[simp] theorem setPair_cnt (p x) : (setPair p x s).cnt = s.cnt := rfl
@[simp] theorem setPair_mem (p x) : (setPair p x s).mem = s.mem := rfl
@[simp] theorem setPair_cp (p x) : (setPair p x s).cp = s.cp := rfl
@[simp] theorem setPair_spare (p x) : (setPair p x s).spare = s.spare := rfl
@[simp] theorem setPair_health (p x) : (setPair p x s).health = s.health := rfl
@[simp] theorem setPair_fio (p x) : (setPair p x s).fio = s.fio := rfl
@[simp] theorem setPair_save (p x) : (setPair p x s).save = s.save := rfl
@[simp] theorem setPair_time (p x) : (setPair p x s).time = s.time := rfl

/-! ## setTx -/

@[simp] theorem setTx_pending (a b) : (setTx a b s).pending = s.pending := rfl
@[simp] theorem setTx_clk (a b) : (setTx a b s).clk = s.clk := rfl
@[simp] theorem setTx_dev (a b) : (setTx a b s).dev = s.dev := rfl
@[simp] theorem setTx_tick (a b) : (setTx a b s).tick = s.tick := rfl
@[simp] theorem setTx_evt (a b) : (setTx a b s).evt = s.evt := rfl
@[simp] theorem setTx_io (a b) : (setTx a b s).io = s.io := rfl
@[simp] theorem setTx_wm (a b) : (setTx a b s).wm = s.wm := rfl
@[simp] theorem setTx_port (a b) : (setTx a b s).port = s.port := rfl
@[simp] theorem setTx_lanes (a b) : (setTx a b s).lanes = s.lanes := rfl
@[simp] theorem setTx_conn (a b) : (setTx a b s).conn = s.conn := rfl
@[simp] theorem setTx_trib (a b) : (setTx a b s).trib = s.trib := rfl
@[simp] theorem setTx_data (a b) : (setTx a b s).data = s.data := rfl
@[simp] theorem setTx_prot (a b) : (setTx a b s).prot = s.prot := rfl
@[simp] theorem setTx_cnt (a b) : (setTx a b s).cnt = s.cnt := rfl
@[simp] theorem setTx_mem (a b) : (setTx a b s).mem = s.mem := rfl
@[simp] theorem setTx_cp (a b) : (setTx a b s).cp = s.cp := rfl
@[simp] theorem setTx_spare (a b) : (setTx a b s).spare = s.spare := rfl
@[simp] theorem setTx_health (a b) : (setTx a b s).health = s.health := rfl
@[simp] theorem setTx_fio (a b) : (setTx a b s).fio = s.fio := rfl
@[simp] theorem setTx_save (a b) : (setTx a b s).save = s.save := rfl
@[simp] theorem setTx_time (a b) : (setTx a b s).time = s.time := rfl

/-! ## setRx -/

@[simp] theorem setRx_pending (a b) : (setRx a b s).pending = s.pending := rfl
@[simp] theorem setRx_clk (a b) : (setRx a b s).clk = s.clk := rfl
@[simp] theorem setRx_dev (a b) : (setRx a b s).dev = s.dev := rfl
@[simp] theorem setRx_tick (a b) : (setRx a b s).tick = s.tick := rfl
@[simp] theorem setRx_evt (a b) : (setRx a b s).evt = s.evt := rfl
@[simp] theorem setRx_io (a b) : (setRx a b s).io = s.io := rfl
@[simp] theorem setRx_wm (a b) : (setRx a b s).wm = s.wm := rfl
@[simp] theorem setRx_port (a b) : (setRx a b s).port = s.port := rfl
@[simp] theorem setRx_lanes (a b) : (setRx a b s).lanes = s.lanes := rfl
@[simp] theorem setRx_conn (a b) : (setRx a b s).conn = s.conn := rfl
@[simp] theorem setRx_trib (a b) : (setRx a b s).trib = s.trib := rfl
@[simp] theorem setRx_data (a b) : (setRx a b s).data = s.data := rfl
@[simp] theorem setRx_prot (a b) : (setRx a b s).prot = s.prot := rfl
@[simp] theorem setRx_cnt (a b) : (setRx a b s).cnt = s.cnt := rfl
@[simp] theorem setRx_mem (a b) : (setRx a b s).mem = s.mem := rfl
@[simp] theorem setRx_cp (a b) : (setRx a b s).cp = s.cp := rfl
@[simp] theorem setRx_spare (a b) : (setRx a b s).spare = s.spare := rfl
@[simp] theorem setRx_health (a b) : (setRx a b s).health = s.health := rfl
@[simp] theorem setRx_fio (a b) : (setRx a b s).fio = s.fio := rfl
@[simp] theorem setRx_save (a b) : (setRx a b s).save = s.save := rfl
@[simp] theorem setRx_time (a b) : (setRx a b s).time = s.time := rfl

/-! ## setEq -/

@[simp] theorem setEq_pending (b x) : (setEq b x s).pending = s.pending := rfl
@[simp] theorem setEq_clk (b x) : (setEq b x s).clk = s.clk := rfl
@[simp] theorem setEq_dev (b x) : (setEq b x s).dev = s.dev := rfl
@[simp] theorem setEq_tick (b x) : (setEq b x s).tick = s.tick := rfl
@[simp] theorem setEq_evt (b x) : (setEq b x s).evt = s.evt := rfl
@[simp] theorem setEq_io (b x) : (setEq b x s).io = s.io := rfl
@[simp] theorem setEq_wm (b x) : (setEq b x s).wm = s.wm := rfl
@[simp] theorem setEq_port (b x) : (setEq b x s).port = s.port := rfl
@[simp] theorem setEq_lanes (b x) : (setEq b x s).lanes = s.lanes := rfl
@[simp] theorem setEq_trib (b x) : (setEq b x s).trib = s.trib := rfl
@[simp] theorem setEq_data (b x) : (setEq b x s).data = s.data := rfl
@[simp] theorem setEq_keys (b x) : (setEq b x s).keys = s.keys := rfl
@[simp] theorem setEq_prot (b x) : (setEq b x s).prot = s.prot := rfl
@[simp] theorem setEq_cnt (b x) : (setEq b x s).cnt = s.cnt := rfl
@[simp] theorem setEq_mem (b x) : (setEq b x s).mem = s.mem := rfl
@[simp] theorem setEq_cp (b x) : (setEq b x s).cp = s.cp := rfl
@[simp] theorem setEq_spare (b x) : (setEq b x s).spare = s.spare := rfl
@[simp] theorem setEq_health (b x) : (setEq b x s).health = s.health := rfl
@[simp] theorem setEq_fio (b x) : (setEq b x s).fio = s.fio := rfl
@[simp] theorem setEq_save (b x) : (setEq b x s).save = s.save := rfl
@[simp] theorem setEq_time (b x) : (setEq b x s).time = s.time := rfl

/-! ## setRef -/

@[simp] theorem setRef_pending (c r) : (setRef c r s).pending = s.pending := rfl
@[simp] theorem setRef_clk (c r) : (setRef c r s).clk = s.clk := rfl
@[simp] theorem setRef_dev (c r) : (setRef c r s).dev = s.dev := rfl
@[simp] theorem setRef_tick (c r) : (setRef c r s).tick = s.tick := rfl
@[simp] theorem setRef_evt (c r) : (setRef c r s).evt = s.evt := rfl
@[simp] theorem setRef_io (c r) : (setRef c r s).io = s.io := rfl
@[simp] theorem setRef_wm (c r) : (setRef c r s).wm = s.wm := rfl
@[simp] theorem setRef_port (c r) : (setRef c r s).port = s.port := rfl
@[simp] theorem setRef_lanes (c r) : (setRef c r s).lanes = s.lanes := rfl
@[simp] theorem setRef_conn (c r) : (setRef c r s).conn = s.conn := rfl
@[simp] theorem setRef_trib (c r) : (setRef c r s).trib = s.trib := rfl
@[simp] theorem setRef_data (c r) : (setRef c r s).data = s.data := rfl
@[simp] theorem setRef_keys (c r) : (setRef c r s).keys = s.keys := rfl
@[simp] theorem setRef_prot (c r) : (setRef c r s).prot = s.prot := rfl
@[simp] theorem setRef_cnt (c r) : (setRef c r s).cnt = s.cnt := rfl
@[simp] theorem setRef_mem (c r) : (setRef c r s).mem = s.mem := rfl
@[simp] theorem setRef_cp (c r) : (setRef c r s).cp = s.cp := rfl
@[simp] theorem setRef_spare (c r) : (setRef c r s).spare = s.spare := rfl
@[simp] theorem setRef_health (c r) : (setRef c r s).health = s.health := rfl
@[simp] theorem setRef_fio (c r) : (setRef c r s).fio = s.fio := rfl
@[simp] theorem setRef_save (c r) : (setRef c r s).save = s.save := rfl

/-! ## modRef -/

@[simp] theorem modRef_pending (c f) : (modRef c f s).pending = s.pending := rfl
@[simp] theorem modRef_clk (c f) : (modRef c f s).clk = s.clk := rfl
@[simp] theorem modRef_dev (c f) : (modRef c f s).dev = s.dev := rfl
@[simp] theorem modRef_tick (c f) : (modRef c f s).tick = s.tick := rfl
@[simp] theorem modRef_evt (c f) : (modRef c f s).evt = s.evt := rfl
@[simp] theorem modRef_io (c f) : (modRef c f s).io = s.io := rfl
@[simp] theorem modRef_wm (c f) : (modRef c f s).wm = s.wm := rfl
@[simp] theorem modRef_port (c f) : (modRef c f s).port = s.port := rfl
@[simp] theorem modRef_lanes (c f) : (modRef c f s).lanes = s.lanes := rfl
@[simp] theorem modRef_conn (c f) : (modRef c f s).conn = s.conn := rfl
@[simp] theorem modRef_trib (c f) : (modRef c f s).trib = s.trib := rfl
@[simp] theorem modRef_data (c f) : (modRef c f s).data = s.data := rfl
@[simp] theorem modRef_keys (c f) : (modRef c f s).keys = s.keys := rfl
@[simp] theorem modRef_prot (c f) : (modRef c f s).prot = s.prot := rfl
@[simp] theorem modRef_cnt (c f) : (modRef c f s).cnt = s.cnt := rfl
@[simp] theorem modRef_mem (c f) : (modRef c f s).mem = s.mem := rfl
@[simp] theorem modRef_cp (c f) : (modRef c f s).cp = s.cp := rfl
@[simp] theorem modRef_spare (c f) : (modRef c f s).spare = s.spare := rfl
@[simp] theorem modRef_health (c f) : (modRef c f s).health = s.health := rfl
@[simp] theorem modRef_fio (c f) : (modRef c f s).fio = s.fio := rfl
@[simp] theorem modRef_save (c f) : (modRef c f s).save = s.save := rfl

/-! ## modDpll -/

@[simp] theorem modDpll_pending (f) : (modDpll f s).pending = s.pending := rfl
@[simp] theorem modDpll_clk (f) : (modDpll f s).clk = s.clk := rfl
@[simp] theorem modDpll_dev (f) : (modDpll f s).dev = s.dev := rfl
@[simp] theorem modDpll_tick (f) : (modDpll f s).tick = s.tick := rfl
@[simp] theorem modDpll_evt (f) : (modDpll f s).evt = s.evt := rfl
@[simp] theorem modDpll_io (f) : (modDpll f s).io = s.io := rfl
@[simp] theorem modDpll_wm (f) : (modDpll f s).wm = s.wm := rfl
@[simp] theorem modDpll_port (f) : (modDpll f s).port = s.port := rfl
@[simp] theorem modDpll_lanes (f) : (modDpll f s).lanes = s.lanes := rfl
@[simp] theorem modDpll_conn (f) : (modDpll f s).conn = s.conn := rfl
@[simp] theorem modDpll_trib (f) : (modDpll f s).trib = s.trib := rfl
@[simp] theorem modDpll_data (f) : (modDpll f s).data = s.data := rfl
@[simp] theorem modDpll_keys (f) : (modDpll f s).keys = s.keys := rfl
@[simp] theorem modDpll_prot (f) : (modDpll f s).prot = s.prot := rfl
@[simp] theorem modDpll_cnt (f) : (modDpll f s).cnt = s.cnt := rfl
@[simp] theorem modDpll_mem (f) : (modDpll f s).mem = s.mem := rfl
@[simp] theorem modDpll_cp (f) : (modDpll f s).cp = s.cp := rfl
@[simp] theorem modDpll_spare (f) : (modDpll f s).spare = s.spare := rfl
@[simp] theorem modDpll_health (f) : (modDpll f s).health = s.health := rfl
@[simp] theorem modDpll_fio (f) : (modDpll f s).fio = s.fio := rfl
@[simp] theorem modDpll_save (f) : (modDpll f s).save = s.save := rfl

/-! ## modTod -/

@[simp] theorem modTod_pending (f) : (modTod f s).pending = s.pending := rfl
@[simp] theorem modTod_clk (f) : (modTod f s).clk = s.clk := rfl
@[simp] theorem modTod_dev (f) : (modTod f s).dev = s.dev := rfl
@[simp] theorem modTod_tick (f) : (modTod f s).tick = s.tick := rfl
@[simp] theorem modTod_evt (f) : (modTod f s).evt = s.evt := rfl
@[simp] theorem modTod_io (f) : (modTod f s).io = s.io := rfl
@[simp] theorem modTod_wm (f) : (modTod f s).wm = s.wm := rfl
@[simp] theorem modTod_port (f) : (modTod f s).port = s.port := rfl
@[simp] theorem modTod_lanes (f) : (modTod f s).lanes = s.lanes := rfl
@[simp] theorem modTod_conn (f) : (modTod f s).conn = s.conn := rfl
@[simp] theorem modTod_trib (f) : (modTod f s).trib = s.trib := rfl
@[simp] theorem modTod_data (f) : (modTod f s).data = s.data := rfl
@[simp] theorem modTod_keys (f) : (modTod f s).keys = s.keys := rfl
@[simp] theorem modTod_prot (f) : (modTod f s).prot = s.prot := rfl
@[simp] theorem modTod_cnt (f) : (modTod f s).cnt = s.cnt := rfl
@[simp] theorem modTod_mem (f) : (modTod f s).mem = s.mem := rfl
@[simp] theorem modTod_cp (f) : (modTod f s).cp = s.cp := rfl
@[simp] theorem modTod_spare (f) : (modTod f s).spare = s.spare := rfl
@[simp] theorem modTod_health (f) : (modTod f s).health = s.health := rfl
@[simp] theorem modTod_fio (f) : (modTod f s).fio = s.fio := rfl
@[simp] theorem modTod_save (f) : (modTod f s).save = s.save := rfl

/-! ## modTin -/

@[simp] theorem modTin_pending (f) : (modTin f s).pending = s.pending := rfl
@[simp] theorem modTin_clk (f) : (modTin f s).clk = s.clk := rfl
@[simp] theorem modTin_dev (f) : (modTin f s).dev = s.dev := rfl
@[simp] theorem modTin_tick (f) : (modTin f s).tick = s.tick := rfl
@[simp] theorem modTin_evt (f) : (modTin f s).evt = s.evt := rfl
@[simp] theorem modTin_io (f) : (modTin f s).io = s.io := rfl
@[simp] theorem modTin_wm (f) : (modTin f s).wm = s.wm := rfl
@[simp] theorem modTin_port (f) : (modTin f s).port = s.port := rfl
@[simp] theorem modTin_lanes (f) : (modTin f s).lanes = s.lanes := rfl
@[simp] theorem modTin_conn (f) : (modTin f s).conn = s.conn := rfl
@[simp] theorem modTin_trib (f) : (modTin f s).trib = s.trib := rfl
@[simp] theorem modTin_data (f) : (modTin f s).data = s.data := rfl
@[simp] theorem modTin_keys (f) : (modTin f s).keys = s.keys := rfl
@[simp] theorem modTin_prot (f) : (modTin f s).prot = s.prot := rfl
@[simp] theorem modTin_cnt (f) : (modTin f s).cnt = s.cnt := rfl
@[simp] theorem modTin_mem (f) : (modTin f s).mem = s.mem := rfl
@[simp] theorem modTin_cp (f) : (modTin f s).cp = s.cp := rfl
@[simp] theorem modTin_spare (f) : (modTin f s).spare = s.spare := rfl
@[simp] theorem modTin_health (f) : (modTin f s).health = s.health := rfl
@[simp] theorem modTin_fio (f) : (modTin f s).fio = s.fio := rfl
@[simp] theorem modTin_save (f) : (modTin f s).save = s.save := rfl

/-! ## modIn -/

@[simp] theorem modIn_pending (a f) : (modIn a f s).pending = s.pending := rfl
@[simp] theorem modIn_clk (a f) : (modIn a f s).clk = s.clk := rfl
@[simp] theorem modIn_dev (a f) : (modIn a f s).dev = s.dev := rfl
@[simp] theorem modIn_tick (a f) : (modIn a f s).tick = s.tick := rfl
@[simp] theorem modIn_evt (a f) : (modIn a f s).evt = s.evt := rfl
@[simp] theorem modIn_io (a f) : (modIn a f s).io = s.io := rfl
@[simp] theorem modIn_wm (a f) : (modIn a f s).wm = s.wm := rfl
@[simp] theorem modIn_port (a f) : (modIn a f s).port = s.port := rfl
@[simp] theorem modIn_lanes (a f) : (modIn a f s).lanes = s.lanes := rfl
@[simp] theorem modIn_conn (a f) : (modIn a f s).conn = s.conn := rfl
@[simp] theorem modIn_data (a f) : (modIn a f s).data = s.data := rfl
@[simp] theorem modIn_keys (a f) : (modIn a f s).keys = s.keys := rfl
@[simp] theorem modIn_prot (a f) : (modIn a f s).prot = s.prot := rfl
@[simp] theorem modIn_cnt (a f) : (modIn a f s).cnt = s.cnt := rfl
@[simp] theorem modIn_mem (a f) : (modIn a f s).mem = s.mem := rfl
@[simp] theorem modIn_cp (a f) : (modIn a f s).cp = s.cp := rfl
@[simp] theorem modIn_spare (a f) : (modIn a f s).spare = s.spare := rfl
@[simp] theorem modIn_health (a f) : (modIn a f s).health = s.health := rfl
@[simp] theorem modIn_fio (a f) : (modIn a f s).fio = s.fio := rfl
@[simp] theorem modIn_save (a f) : (modIn a f s).save = s.save := rfl
@[simp] theorem modIn_time (a f) : (modIn a f s).time = s.time := rfl

/-! ## modEg -/

@[simp] theorem modEg_pending (a f) : (modEg a f s).pending = s.pending := rfl
@[simp] theorem modEg_clk (a f) : (modEg a f s).clk = s.clk := rfl
@[simp] theorem modEg_dev (a f) : (modEg a f s).dev = s.dev := rfl
@[simp] theorem modEg_tick (a f) : (modEg a f s).tick = s.tick := rfl
@[simp] theorem modEg_evt (a f) : (modEg a f s).evt = s.evt := rfl
@[simp] theorem modEg_io (a f) : (modEg a f s).io = s.io := rfl
@[simp] theorem modEg_wm (a f) : (modEg a f s).wm = s.wm := rfl
@[simp] theorem modEg_port (a f) : (modEg a f s).port = s.port := rfl
@[simp] theorem modEg_lanes (a f) : (modEg a f s).lanes = s.lanes := rfl
@[simp] theorem modEg_conn (a f) : (modEg a f s).conn = s.conn := rfl
@[simp] theorem modEg_data (a f) : (modEg a f s).data = s.data := rfl
@[simp] theorem modEg_keys (a f) : (modEg a f s).keys = s.keys := rfl
@[simp] theorem modEg_prot (a f) : (modEg a f s).prot = s.prot := rfl
@[simp] theorem modEg_cnt (a f) : (modEg a f s).cnt = s.cnt := rfl
@[simp] theorem modEg_mem (a f) : (modEg a f s).mem = s.mem := rfl
@[simp] theorem modEg_cp (a f) : (modEg a f s).cp = s.cp := rfl
@[simp] theorem modEg_spare (a f) : (modEg a f s).spare = s.spare := rfl
@[simp] theorem modEg_health (a f) : (modEg a f s).health = s.health := rfl
@[simp] theorem modEg_fio (a f) : (modEg a f s).fio = s.fio := rfl
@[simp] theorem modEg_save (a f) : (modEg a f s).save = s.save := rfl
@[simp] theorem modEg_time (a f) : (modEg a f s).time = s.time := rfl

/-! ## modAcc -/

@[simp] theorem modAcc_pending (a f) : (modAcc a f s).pending = s.pending := rfl
@[simp] theorem modAcc_clk (a f) : (modAcc a f s).clk = s.clk := rfl
@[simp] theorem modAcc_dev (a f) : (modAcc a f s).dev = s.dev := rfl
@[simp] theorem modAcc_tick (a f) : (modAcc a f s).tick = s.tick := rfl
@[simp] theorem modAcc_evt (a f) : (modAcc a f s).evt = s.evt := rfl
@[simp] theorem modAcc_io (a f) : (modAcc a f s).io = s.io := rfl
@[simp] theorem modAcc_wm (a f) : (modAcc a f s).wm = s.wm := rfl
@[simp] theorem modAcc_port (a f) : (modAcc a f s).port = s.port := rfl
@[simp] theorem modAcc_lanes (a f) : (modAcc a f s).lanes = s.lanes := rfl
@[simp] theorem modAcc_conn (a f) : (modAcc a f s).conn = s.conn := rfl
@[simp] theorem modAcc_data (a f) : (modAcc a f s).data = s.data := rfl
@[simp] theorem modAcc_keys (a f) : (modAcc a f s).keys = s.keys := rfl
@[simp] theorem modAcc_prot (a f) : (modAcc a f s).prot = s.prot := rfl
@[simp] theorem modAcc_cnt (a f) : (modAcc a f s).cnt = s.cnt := rfl
@[simp] theorem modAcc_mem (a f) : (modAcc a f s).mem = s.mem := rfl
@[simp] theorem modAcc_cp (a f) : (modAcc a f s).cp = s.cp := rfl
@[simp] theorem modAcc_spare (a f) : (modAcc a f s).spare = s.spare := rfl
@[simp] theorem modAcc_health (a f) : (modAcc a f s).health = s.health := rfl
@[simp] theorem modAcc_fio (a f) : (modAcc a f s).fio = s.fio := rfl
@[simp] theorem modAcc_save (a f) : (modAcc a f s).save = s.save := rfl
@[simp] theorem modAcc_time (a f) : (modAcc a f s).time = s.time := rfl

/-! ## setCounter -/

@[simp] theorem setCounter_pending (n c) : (setCounter n c s).pending = s.pending := rfl
@[simp] theorem setCounter_clk (n c) : (setCounter n c s).clk = s.clk := rfl
@[simp] theorem setCounter_dev (n c) : (setCounter n c s).dev = s.dev := rfl
@[simp] theorem setCounter_tick (n c) : (setCounter n c s).tick = s.tick := rfl
@[simp] theorem setCounter_evt (n c) : (setCounter n c s).evt = s.evt := rfl
@[simp] theorem setCounter_io (n c) : (setCounter n c s).io = s.io := rfl
@[simp] theorem setCounter_wm (n c) : (setCounter n c s).wm = s.wm := rfl
@[simp] theorem setCounter_port (n c) : (setCounter n c s).port = s.port := rfl
@[simp] theorem setCounter_lanes (n c) : (setCounter n c s).lanes = s.lanes := rfl
@[simp] theorem setCounter_conn (n c) : (setCounter n c s).conn = s.conn := rfl
@[simp] theorem setCounter_trib (n c) : (setCounter n c s).trib = s.trib := rfl
@[simp] theorem setCounter_data (n c) : (setCounter n c s).data = s.data := rfl
@[simp] theorem setCounter_keys (n c) : (setCounter n c s).keys = s.keys := rfl
@[simp] theorem setCounter_prot (n c) : (setCounter n c s).prot = s.prot := rfl
@[simp] theorem setCounter_mem (n c) : (setCounter n c s).mem = s.mem := rfl
@[simp] theorem setCounter_cp (n c) : (setCounter n c s).cp = s.cp := rfl
@[simp] theorem setCounter_spare (n c) : (setCounter n c s).spare = s.spare := rfl
@[simp] theorem setCounter_health (n c) : (setCounter n c s).health = s.health := rfl
@[simp] theorem setCounter_fio (n c) : (setCounter n c s).fio = s.fio := rfl
@[simp] theorem setCounter_save (n c) : (setCounter n c s).save = s.save := rfl
@[simp] theorem setCounter_time (n c) : (setCounter n c s).time = s.time := rfl

/-! ## setPin -/

@[simp] theorem setPin_pending (n g) : (setPin n g s).pending = s.pending := rfl
@[simp] theorem setPin_clk (n g) : (setPin n g s).clk = s.clk := rfl
@[simp] theorem setPin_dev (n g) : (setPin n g s).dev = s.dev := rfl
@[simp] theorem setPin_tick (n g) : (setPin n g s).tick = s.tick := rfl
@[simp] theorem setPin_evt (n g) : (setPin n g s).evt = s.evt := rfl
@[simp] theorem setPin_io (n g) : (setPin n g s).io = s.io := rfl
@[simp] theorem setPin_wm (n g) : (setPin n g s).wm = s.wm := rfl
@[simp] theorem setPin_port (n g) : (setPin n g s).port = s.port := rfl
@[simp] theorem setPin_lanes (n g) : (setPin n g s).lanes = s.lanes := rfl
@[simp] theorem setPin_conn (n g) : (setPin n g s).conn = s.conn := rfl
@[simp] theorem setPin_trib (n g) : (setPin n g s).trib = s.trib := rfl
@[simp] theorem setPin_data (n g) : (setPin n g s).data = s.data := rfl
@[simp] theorem setPin_keys (n g) : (setPin n g s).keys = s.keys := rfl
@[simp] theorem setPin_prot (n g) : (setPin n g s).prot = s.prot := rfl
@[simp] theorem setPin_cnt (n g) : (setPin n g s).cnt = s.cnt := rfl
@[simp] theorem setPin_mem (n g) : (setPin n g s).mem = s.mem := rfl
@[simp] theorem setPin_cp (n g) : (setPin n g s).cp = s.cp := rfl
@[simp] theorem setPin_spare (n g) : (setPin n g s).spare = s.spare := rfl
@[simp] theorem setPin_health (n g) : (setPin n g s).health = s.health := rfl
@[simp] theorem setPin_save (n g) : (setPin n g s).save = s.save := rfl
@[simp] theorem setPin_time (n g) : (setPin n g s).time = s.time := rfl

/-! ## A free value is drawn -/

@[simp] theorem draw_pending (k) : (draw k s).2.pending = s.pending := rfl
@[simp] theorem draw_dev (k) : (draw k s).2.dev = s.dev := rfl
@[simp] theorem draw_tick (k) : (draw k s).2.tick = s.tick := rfl
@[simp] theorem draw_evt (k) : (draw k s).2.evt = s.evt := rfl
@[simp] theorem draw_io (k) : (draw k s).2.io = s.io := rfl
@[simp] theorem draw_wm (k) : (draw k s).2.wm = s.wm := rfl
@[simp] theorem draw_port (k) : (draw k s).2.port = s.port := rfl
@[simp] theorem draw_lanes (k) : (draw k s).2.lanes = s.lanes := rfl
@[simp] theorem draw_conn (k) : (draw k s).2.conn = s.conn := rfl
@[simp] theorem draw_trib (k) : (draw k s).2.trib = s.trib := rfl
@[simp] theorem draw_data (k) : (draw k s).2.data = s.data := rfl
@[simp] theorem draw_keys (k) : (draw k s).2.keys = s.keys := rfl
@[simp] theorem draw_prot (k) : (draw k s).2.prot = s.prot := rfl
@[simp] theorem draw_cnt (k) : (draw k s).2.cnt = s.cnt := rfl
@[simp] theorem draw_mem (k) : (draw k s).2.mem = s.mem := rfl
@[simp] theorem draw_cp (k) : (draw k s).2.cp = s.cp := rfl
@[simp] theorem draw_spare (k) : (draw k s).2.spare = s.spare := rfl
@[simp] theorem draw_health (k) : (draw k s).2.health = s.health := rfl
@[simp] theorem draw_fio (k) : (draw k s).2.fio = s.fio := rfl
@[simp] theorem draw_save (k) : (draw k s).2.save = s.save := rfl
@[simp] theorem draw_time (k) : (draw k s).2.time = s.time := rfl

/-! ## An `IRQ_STATUS` bit -/

@[simp] theorem irqRaise_pending (b) : (irqRaise b s).pending = s.pending := by
  unfold irqRaise irqEdge; split <;> [rfl; (split <;> [rfl; (split <;> rfl)])]
@[simp] theorem irqRaise_clk (b) : (irqRaise b s).clk = s.clk := by
  unfold irqRaise irqEdge; split <;> [rfl; (split <;> [rfl; (split <;> rfl)])]
@[simp] theorem irqRaise_dev (b) : (irqRaise b s).dev = s.dev := by
  unfold irqRaise irqEdge; split <;> [rfl; (split <;> [rfl; (split <;> rfl)])]
@[simp] theorem irqRaise_tick (b) : (irqRaise b s).tick = s.tick := by
  unfold irqRaise irqEdge; split <;> [rfl; (split <;> [rfl; (split <;> rfl)])]
@[simp] theorem irqRaise_evt (b) : (irqRaise b s).evt = s.evt := by
  unfold irqRaise irqEdge; split <;> [rfl; (split <;> [rfl; (split <;> rfl)])]
@[simp] theorem irqRaise_wm (b) : (irqRaise b s).wm = s.wm := by
  unfold irqRaise irqEdge; split <;> [rfl; (split <;> [rfl; (split <;> rfl)])]
@[simp] theorem irqRaise_port (b) : (irqRaise b s).port = s.port := by
  unfold irqRaise irqEdge; split <;> [rfl; (split <;> [rfl; (split <;> rfl)])]
@[simp] theorem irqRaise_lanes (b) : (irqRaise b s).lanes = s.lanes := by
  unfold irqRaise irqEdge; split <;> [rfl; (split <;> [rfl; (split <;> rfl)])]
@[simp] theorem irqRaise_conn (b) : (irqRaise b s).conn = s.conn := by
  unfold irqRaise irqEdge; split <;> [rfl; (split <;> [rfl; (split <;> rfl)])]
@[simp] theorem irqRaise_trib (b) : (irqRaise b s).trib = s.trib := by
  unfold irqRaise irqEdge; split <;> [rfl; (split <;> [rfl; (split <;> rfl)])]
@[simp] theorem irqRaise_data (b) : (irqRaise b s).data = s.data := by
  unfold irqRaise irqEdge; split <;> [rfl; (split <;> [rfl; (split <;> rfl)])]
@[simp] theorem irqRaise_keys (b) : (irqRaise b s).keys = s.keys := by
  unfold irqRaise irqEdge; split <;> [rfl; (split <;> [rfl; (split <;> rfl)])]
@[simp] theorem irqRaise_prot (b) : (irqRaise b s).prot = s.prot := by
  unfold irqRaise irqEdge; split <;> [rfl; (split <;> [rfl; (split <;> rfl)])]
@[simp] theorem irqRaise_cnt (b) : (irqRaise b s).cnt = s.cnt := by
  unfold irqRaise irqEdge; split <;> [rfl; (split <;> [rfl; (split <;> rfl)])]
@[simp] theorem irqRaise_mem (b) : (irqRaise b s).mem = s.mem := by
  unfold irqRaise irqEdge; split <;> [rfl; (split <;> [rfl; (split <;> rfl)])]
@[simp] theorem irqRaise_cp (b) : (irqRaise b s).cp = s.cp := by
  unfold irqRaise irqEdge; split <;> [rfl; (split <;> [rfl; (split <;> rfl)])]
@[simp] theorem irqRaise_spare (b) : (irqRaise b s).spare = s.spare := by
  unfold irqRaise irqEdge; split <;> [rfl; (split <;> [rfl; (split <;> rfl)])]
@[simp] theorem irqRaise_health (b) : (irqRaise b s).health = s.health := by
  unfold irqRaise irqEdge; split <;> [rfl; (split <;> [rfl; (split <;> rfl)])]
@[simp] theorem irqRaise_fio (b) : (irqRaise b s).fio = s.fio := by
  unfold irqRaise irqEdge; split <;> [rfl; (split <;> [rfl; (split <;> rfl)])]
@[simp] theorem irqRaise_save (b) : (irqRaise b s).save = s.save := by
  unfold irqRaise irqEdge; split <;> [rfl; (split <;> [rfl; (split <;> rfl)])]
@[simp] theorem irqRaise_time (b) : (irqRaise b s).time = s.time := by
  unfold irqRaise irqEdge; split <;> [rfl; (split <;> [rfl; (split <;> rfl)])]

/-! ## A synchroniser -/

@[simp] theorem setSync_pending (k y) : (setSync k y s).pending = s.pending := rfl
@[simp] theorem setSync_clk (k y) : (setSync k y s).clk = s.clk := rfl
@[simp] theorem setSync_dev (k y) : (setSync k y s).dev = s.dev := rfl
@[simp] theorem setSync_tick (k y) : (setSync k y s).tick = s.tick := rfl
@[simp] theorem setSync_io (k y) : (setSync k y s).io = s.io := rfl
@[simp] theorem setSync_wm (k y) : (setSync k y s).wm = s.wm := rfl
@[simp] theorem setSync_port (k y) : (setSync k y s).port = s.port := rfl
@[simp] theorem setSync_lanes (k y) : (setSync k y s).lanes = s.lanes := rfl
@[simp] theorem setSync_conn (k y) : (setSync k y s).conn = s.conn := rfl
@[simp] theorem setSync_trib (k y) : (setSync k y s).trib = s.trib := rfl
@[simp] theorem setSync_data (k y) : (setSync k y s).data = s.data := rfl
@[simp] theorem setSync_keys (k y) : (setSync k y s).keys = s.keys := rfl
@[simp] theorem setSync_prot (k y) : (setSync k y s).prot = s.prot := rfl
@[simp] theorem setSync_cnt (k y) : (setSync k y s).cnt = s.cnt := rfl
@[simp] theorem setSync_mem (k y) : (setSync k y s).mem = s.mem := rfl
@[simp] theorem setSync_cp (k y) : (setSync k y s).cp = s.cp := rfl
@[simp] theorem setSync_spare (k y) : (setSync k y s).spare = s.spare := rfl
@[simp] theorem setSync_health (k y) : (setSync k y s).health = s.health := rfl
@[simp] theorem setSync_fio (k y) : (setSync k y s).fio = s.fio := rfl
@[simp] theorem setSync_save (k y) : (setSync k y s).save = s.save := rfl
@[simp] theorem setSync_time (k y) : (setSync k y s).time = s.time := rfl

/-! ## A journal record -/

@[simp] theorem jrnl_pending (k r tag) : (jrnl k r tag s).pending = s.pending := rfl
@[simp] theorem jrnl_clk (k r tag) : (jrnl k r tag s).clk = s.clk := rfl
@[simp] theorem jrnl_dev (k r tag) : (jrnl k r tag s).dev = s.dev := rfl
@[simp] theorem jrnl_tick (k r tag) : (jrnl k r tag s).tick = s.tick := rfl
@[simp] theorem jrnl_evt (k r tag) : (jrnl k r tag s).evt = s.evt := rfl
@[simp] theorem jrnl_io (k r tag) : (jrnl k r tag s).io = s.io := rfl
@[simp] theorem jrnl_wm (k r tag) : (jrnl k r tag s).wm = s.wm := rfl
@[simp] theorem jrnl_port (k r tag) : (jrnl k r tag s).port = s.port := rfl
@[simp] theorem jrnl_lanes (k r tag) : (jrnl k r tag s).lanes = s.lanes := rfl
@[simp] theorem jrnl_conn (k r tag) : (jrnl k r tag s).conn = s.conn := rfl
@[simp] theorem jrnl_trib (k r tag) : (jrnl k r tag s).trib = s.trib := rfl
@[simp] theorem jrnl_data (k r tag) : (jrnl k r tag s).data = s.data := rfl
@[simp] theorem jrnl_keys (k r tag) : (jrnl k r tag s).keys = s.keys := rfl
@[simp] theorem jrnl_prot (k r tag) : (jrnl k r tag s).prot = s.prot := rfl
@[simp] theorem jrnl_cnt (k r tag) : (jrnl k r tag s).cnt = s.cnt := rfl
@[simp] theorem jrnl_mem (k r tag) : (jrnl k r tag s).mem = s.mem := rfl
@[simp] theorem jrnl_spare (k r tag) : (jrnl k r tag s).spare = s.spare := rfl
@[simp] theorem jrnl_health (k r tag) : (jrnl k r tag s).health = s.health := rfl
@[simp] theorem jrnl_fio (k r tag) : (jrnl k r tag s).fio = s.fio := rfl
@[simp] theorem jrnl_save (k r tag) : (jrnl k r tag s).save = s.save := rfl
@[simp] theorem jrnl_time (k r tag) : (jrnl k r tag s).time = s.time := rfl

/-! ## A reply: it changes the Window Memory, the rings and host interface, and the journal -/

@[simp] theorem putReply_pending (e st ws) : (putReply e st ws s).pending = s.pending := by
  unfold putReply; simp only [irqRaise_pending, jrnl_pending]; rfl
@[simp] theorem putReply_clk (e st ws) : (putReply e st ws s).clk = s.clk := by
  unfold putReply; simp only [irqRaise_clk, jrnl_clk]; rfl
@[simp] theorem putReply_dev (e st ws) : (putReply e st ws s).dev = s.dev := by
  unfold putReply; simp only [irqRaise_dev, jrnl_dev]; rfl
@[simp] theorem putReply_tick (e st ws) : (putReply e st ws s).tick = s.tick := by
  unfold putReply; simp only [irqRaise_tick, jrnl_tick]; rfl
@[simp] theorem putReply_evt (e st ws) : (putReply e st ws s).evt = s.evt := by
  unfold putReply; simp only [irqRaise_evt, jrnl_evt]; rfl
@[simp] theorem putReply_port (e st ws) : (putReply e st ws s).port = s.port := by
  unfold putReply; simp only [irqRaise_port, jrnl_port]; rfl
@[simp] theorem putReply_lanes (e st ws) : (putReply e st ws s).lanes = s.lanes := by
  unfold putReply; simp only [irqRaise_lanes, jrnl_lanes]; rfl
@[simp] theorem putReply_conn (e st ws) : (putReply e st ws s).conn = s.conn := by
  unfold putReply; simp only [irqRaise_conn, jrnl_conn]; rfl
@[simp] theorem putReply_trib (e st ws) : (putReply e st ws s).trib = s.trib := by
  unfold putReply; simp only [irqRaise_trib, jrnl_trib]; rfl
@[simp] theorem putReply_data (e st ws) : (putReply e st ws s).data = s.data := by
  unfold putReply; simp only [irqRaise_data, jrnl_data]; rfl
@[simp] theorem putReply_keys (e st ws) : (putReply e st ws s).keys = s.keys := by
  unfold putReply; simp only [irqRaise_keys, jrnl_keys]; rfl
@[simp] theorem putReply_prot (e st ws) : (putReply e st ws s).prot = s.prot := by
  unfold putReply; simp only [irqRaise_prot, jrnl_prot]; rfl
@[simp] theorem putReply_cnt (e st ws) : (putReply e st ws s).cnt = s.cnt := by
  unfold putReply; simp only [irqRaise_cnt, jrnl_cnt]; rfl
@[simp] theorem putReply_mem (e st ws) : (putReply e st ws s).mem = s.mem := by
  unfold putReply; simp only [irqRaise_mem, jrnl_mem]; rfl
@[simp] theorem putReply_spare (e st ws) : (putReply e st ws s).spare = s.spare := by
  unfold putReply; simp only [irqRaise_spare, jrnl_spare]; rfl
@[simp] theorem putReply_health (e st ws) : (putReply e st ws s).health = s.health := by
  unfold putReply; simp only [irqRaise_health, jrnl_health]; rfl
@[simp] theorem putReply_fio (e st ws) : (putReply e st ws s).fio = s.fio := by
  unfold putReply; simp only [irqRaise_fio, jrnl_fio]; rfl
@[simp] theorem putReply_save (e st ws) : (putReply e st ws s).save = s.save := by
  unfold putReply; simp only [irqRaise_save, jrnl_save]; rfl
@[simp] theorem putReply_time (e st ws) : (putReply e st ws s).time = s.time := by
  unfold putReply; simp only [irqRaise_time, jrnl_time]; rfl
@[simp] theorem writeReply_pending (e st ws) : (writeReply e st ws s).pending = s.pending := by
  unfold writeReply; split <;> simp only [putReply_pending]
@[simp] theorem writeReply_clk (e st ws) : (writeReply e st ws s).clk = s.clk := by
  unfold writeReply; split <;> simp only [putReply_clk]
@[simp] theorem writeReply_dev (e st ws) : (writeReply e st ws s).dev = s.dev := by
  unfold writeReply; split <;> simp only [putReply_dev]
@[simp] theorem writeReply_tick (e st ws) : (writeReply e st ws s).tick = s.tick := by
  unfold writeReply; split <;> simp only [putReply_tick]
@[simp] theorem writeReply_evt (e st ws) : (writeReply e st ws s).evt = s.evt := by
  unfold writeReply; split <;> simp only [putReply_evt]
@[simp] theorem writeReply_port (e st ws) : (writeReply e st ws s).port = s.port := by
  unfold writeReply; split <;> simp only [putReply_port]
@[simp] theorem writeReply_lanes (e st ws) : (writeReply e st ws s).lanes = s.lanes := by
  unfold writeReply; split <;> simp only [putReply_lanes]
@[simp] theorem writeReply_conn (e st ws) : (writeReply e st ws s).conn = s.conn := by
  unfold writeReply; split <;> simp only [putReply_conn]
@[simp] theorem writeReply_trib (e st ws) : (writeReply e st ws s).trib = s.trib := by
  unfold writeReply; split <;> simp only [putReply_trib]
@[simp] theorem writeReply_data (e st ws) : (writeReply e st ws s).data = s.data := by
  unfold writeReply; split <;> simp only [putReply_data]
@[simp] theorem writeReply_keys (e st ws) : (writeReply e st ws s).keys = s.keys := by
  unfold writeReply; split <;> simp only [putReply_keys]
@[simp] theorem writeReply_prot (e st ws) : (writeReply e st ws s).prot = s.prot := by
  unfold writeReply; split <;> simp only [putReply_prot]
@[simp] theorem writeReply_cnt (e st ws) : (writeReply e st ws s).cnt = s.cnt := by
  unfold writeReply; split <;> simp only [putReply_cnt]
@[simp] theorem writeReply_mem (e st ws) : (writeReply e st ws s).mem = s.mem := by
  unfold writeReply; split <;> simp only [putReply_mem]
@[simp] theorem writeReply_spare (e st ws) : (writeReply e st ws s).spare = s.spare := by
  unfold writeReply; split <;> simp only [putReply_spare]
@[simp] theorem writeReply_health (e st ws) : (writeReply e st ws s).health = s.health := by
  unfold writeReply; split <;> simp only [putReply_health]
@[simp] theorem writeReply_fio (e st ws) : (writeReply e st ws s).fio = s.fio := by
  unfold writeReply; split <;> simp only [putReply_fio]
@[simp] theorem writeReply_save (e st ws) : (writeReply e st ws s).save = s.save := by
  unfold writeReply; split <;> simp only [putReply_save]
@[simp] theorem writeReply_time (e st ws) : (writeReply e st ws s).time = s.time := by
  unfold writeReply; split <;> simp only [putReply_time]

/-! ## A record enters the event queue -/

@[simp] theorem enqueue_pending (r) : (enqueue r s).pending = s.pending := by
  unfold enqueue; dsimp only; generalize (if isFaultRec r then _ else _) = e; split <;> [rfl; simp only [irqRaise_pending]]
@[simp] theorem raise_pending (c k i d b) : (raise c k i d b s).pending = s.pending := enqueue_pending s _
@[simp] theorem enqueue_clk (r) : (enqueue r s).clk = s.clk := by
  unfold enqueue; dsimp only; generalize (if isFaultRec r then _ else _) = e; split <;> [rfl; simp only [irqRaise_clk]]
@[simp] theorem raise_clk (c k i d b) : (raise c k i d b s).clk = s.clk := enqueue_clk s _
@[simp] theorem enqueue_dev (r) : (enqueue r s).dev = s.dev := by
  unfold enqueue; dsimp only; generalize (if isFaultRec r then _ else _) = e; split <;> [rfl; simp only [irqRaise_dev]]
@[simp] theorem raise_dev (c k i d b) : (raise c k i d b s).dev = s.dev := enqueue_dev s _
@[simp] theorem enqueue_tick (r) : (enqueue r s).tick = s.tick := by
  unfold enqueue; dsimp only; generalize (if isFaultRec r then _ else _) = e; split <;> [rfl; simp only [irqRaise_tick]]
@[simp] theorem raise_tick (c k i d b) : (raise c k i d b s).tick = s.tick := enqueue_tick s _
@[simp] theorem enqueue_wm (r) : (enqueue r s).wm = s.wm := by
  unfold enqueue; dsimp only; generalize (if isFaultRec r then _ else _) = e; split <;> [rfl; simp only [irqRaise_wm]]
@[simp] theorem raise_wm (c k i d b) : (raise c k i d b s).wm = s.wm := enqueue_wm s _
@[simp] theorem enqueue_port (r) : (enqueue r s).port = s.port := by
  unfold enqueue; dsimp only; generalize (if isFaultRec r then _ else _) = e; split <;> [rfl; simp only [irqRaise_port]]
@[simp] theorem raise_port (c k i d b) : (raise c k i d b s).port = s.port := enqueue_port s _
@[simp] theorem enqueue_lanes (r) : (enqueue r s).lanes = s.lanes := by
  unfold enqueue; dsimp only; generalize (if isFaultRec r then _ else _) = e; split <;> [rfl; simp only [irqRaise_lanes]]
@[simp] theorem raise_lanes (c k i d b) : (raise c k i d b s).lanes = s.lanes := enqueue_lanes s _
@[simp] theorem enqueue_conn (r) : (enqueue r s).conn = s.conn := by
  unfold enqueue; dsimp only; generalize (if isFaultRec r then _ else _) = e; split <;> [rfl; simp only [irqRaise_conn]]
@[simp] theorem raise_conn (c k i d b) : (raise c k i d b s).conn = s.conn := enqueue_conn s _
@[simp] theorem enqueue_trib (r) : (enqueue r s).trib = s.trib := by
  unfold enqueue; dsimp only; generalize (if isFaultRec r then _ else _) = e; split <;> [rfl; simp only [irqRaise_trib]]
@[simp] theorem raise_trib (c k i d b) : (raise c k i d b s).trib = s.trib := enqueue_trib s _
@[simp] theorem enqueue_data (r) : (enqueue r s).data = s.data := by
  unfold enqueue; dsimp only; generalize (if isFaultRec r then _ else _) = e; split <;> [rfl; simp only [irqRaise_data]]
@[simp] theorem raise_data (c k i d b) : (raise c k i d b s).data = s.data := enqueue_data s _
@[simp] theorem enqueue_keys (r) : (enqueue r s).keys = s.keys := by
  unfold enqueue; dsimp only; generalize (if isFaultRec r then _ else _) = e; split <;> [rfl; simp only [irqRaise_keys]]
@[simp] theorem raise_keys (c k i d b) : (raise c k i d b s).keys = s.keys := enqueue_keys s _
@[simp] theorem enqueue_prot (r) : (enqueue r s).prot = s.prot := by
  unfold enqueue; dsimp only; generalize (if isFaultRec r then _ else _) = e; split <;> [rfl; simp only [irqRaise_prot]]
@[simp] theorem raise_prot (c k i d b) : (raise c k i d b s).prot = s.prot := enqueue_prot s _
@[simp] theorem enqueue_cnt (r) : (enqueue r s).cnt = s.cnt := by
  unfold enqueue; dsimp only; generalize (if isFaultRec r then _ else _) = e; split <;> [rfl; simp only [irqRaise_cnt]]
@[simp] theorem raise_cnt (c k i d b) : (raise c k i d b s).cnt = s.cnt := enqueue_cnt s _
@[simp] theorem enqueue_mem (r) : (enqueue r s).mem = s.mem := by
  unfold enqueue; dsimp only; generalize (if isFaultRec r then _ else _) = e; split <;> [rfl; simp only [irqRaise_mem]]
@[simp] theorem raise_mem (c k i d b) : (raise c k i d b s).mem = s.mem := enqueue_mem s _
@[simp] theorem enqueue_cp (r) : (enqueue r s).cp = s.cp := by
  unfold enqueue; dsimp only; generalize (if isFaultRec r then _ else _) = e; split <;> [rfl; simp only [irqRaise_cp]]
@[simp] theorem raise_cp (c k i d b) : (raise c k i d b s).cp = s.cp := enqueue_cp s _
@[simp] theorem enqueue_spare (r) : (enqueue r s).spare = s.spare := by
  unfold enqueue; dsimp only; generalize (if isFaultRec r then _ else _) = e; split <;> [rfl; simp only [irqRaise_spare]]
@[simp] theorem raise_spare (c k i d b) : (raise c k i d b s).spare = s.spare := enqueue_spare s _
@[simp] theorem enqueue_health (r) : (enqueue r s).health = s.health := by
  unfold enqueue; dsimp only; generalize (if isFaultRec r then _ else _) = e; split <;> [rfl; simp only [irqRaise_health]]
@[simp] theorem raise_health (c k i d b) : (raise c k i d b s).health = s.health := enqueue_health s _
@[simp] theorem enqueue_fio (r) : (enqueue r s).fio = s.fio := by
  unfold enqueue; dsimp only; generalize (if isFaultRec r then _ else _) = e; split <;> [rfl; simp only [irqRaise_fio]]
@[simp] theorem raise_fio (c k i d b) : (raise c k i d b s).fio = s.fio := enqueue_fio s _
@[simp] theorem enqueue_save (r) : (enqueue r s).save = s.save := by
  unfold enqueue; dsimp only; generalize (if isFaultRec r then _ else _) = e; split <;> [rfl; simp only [irqRaise_save]]
@[simp] theorem raise_save (c k i d b) : (raise c k i d b s).save = s.save := enqueue_save s _
@[simp] theorem enqueue_time (r) : (enqueue r s).time = s.time := by
  unfold enqueue; dsimp only; generalize (if isFaultRec r then _ else _) = e; split <;> [rfl; simp only [irqRaise_time]]
@[simp] theorem raise_time (c k i d b) : (raise c k i d b s).time = s.time := enqueue_time s _

/-! ## An event crosses its synchroniser (14 R379) -/

@[simp] theorem syncSettle_pending (k : EventKey) (t n : Nat) (s : State) : (syncSettle k t n s).pending = s.pending := by
  induction n generalizing s with
  | zero => rfl
  | succ n ih => unfold syncSettle; split <;> [rfl; (split <;> [rfl; (split <;> [rfl; rw [ih, enqueue_pending, setSync_pending]])])]
@[simp] theorem pulse_pending (c k i d b) : (pulse c k i d b s).pending = s.pending := by
  unfold pulse pulseRec; dsimp only; split <;> [(rw [enqueue_pending]; split <;> simp only [setSync_pending, syncSettle_pending]); simp only [setSync_pending, syncSettle_pending]]
@[simp] theorem syncSettle_clk (k : EventKey) (t n : Nat) (s : State) : (syncSettle k t n s).clk = s.clk := by
  induction n generalizing s with
  | zero => rfl
  | succ n ih => unfold syncSettle; split <;> [rfl; (split <;> [rfl; (split <;> [rfl; rw [ih, enqueue_clk, setSync_clk]])])]
@[simp] theorem pulse_clk (c k i d b) : (pulse c k i d b s).clk = s.clk := by
  unfold pulse pulseRec; dsimp only; split <;> [(rw [enqueue_clk]; split <;> simp only [setSync_clk, syncSettle_clk]); simp only [setSync_clk, syncSettle_clk]]
@[simp] theorem syncSettle_dev (k : EventKey) (t n : Nat) (s : State) : (syncSettle k t n s).dev = s.dev := by
  induction n generalizing s with
  | zero => rfl
  | succ n ih => unfold syncSettle; split <;> [rfl; (split <;> [rfl; (split <;> [rfl; rw [ih, enqueue_dev, setSync_dev]])])]
@[simp] theorem pulse_dev (c k i d b) : (pulse c k i d b s).dev = s.dev := by
  unfold pulse pulseRec; dsimp only; split <;> [(rw [enqueue_dev]; split <;> simp only [setSync_dev, syncSettle_dev]); simp only [setSync_dev, syncSettle_dev]]
@[simp] theorem syncSettle_tick (k : EventKey) (t n : Nat) (s : State) : (syncSettle k t n s).tick = s.tick := by
  induction n generalizing s with
  | zero => rfl
  | succ n ih => unfold syncSettle; split <;> [rfl; (split <;> [rfl; (split <;> [rfl; rw [ih, enqueue_tick, setSync_tick]])])]
@[simp] theorem pulse_tick (c k i d b) : (pulse c k i d b s).tick = s.tick := by
  unfold pulse pulseRec; dsimp only; split <;> [(rw [enqueue_tick]; split <;> simp only [setSync_tick, syncSettle_tick]); simp only [setSync_tick, syncSettle_tick]]
@[simp] theorem syncSettle_wm (k : EventKey) (t n : Nat) (s : State) : (syncSettle k t n s).wm = s.wm := by
  induction n generalizing s with
  | zero => rfl
  | succ n ih => unfold syncSettle; split <;> [rfl; (split <;> [rfl; (split <;> [rfl; rw [ih, enqueue_wm, setSync_wm]])])]
@[simp] theorem pulse_wm (c k i d b) : (pulse c k i d b s).wm = s.wm := by
  unfold pulse pulseRec; dsimp only; split <;> [(rw [enqueue_wm]; split <;> simp only [setSync_wm, syncSettle_wm]); simp only [setSync_wm, syncSettle_wm]]
@[simp] theorem syncSettle_port (k : EventKey) (t n : Nat) (s : State) : (syncSettle k t n s).port = s.port := by
  induction n generalizing s with
  | zero => rfl
  | succ n ih => unfold syncSettle; split <;> [rfl; (split <;> [rfl; (split <;> [rfl; rw [ih, enqueue_port, setSync_port]])])]
@[simp] theorem pulse_port (c k i d b) : (pulse c k i d b s).port = s.port := by
  unfold pulse pulseRec; dsimp only; split <;> [(rw [enqueue_port]; split <;> simp only [setSync_port, syncSettle_port]); simp only [setSync_port, syncSettle_port]]
@[simp] theorem syncSettle_lanes (k : EventKey) (t n : Nat) (s : State) : (syncSettle k t n s).lanes = s.lanes := by
  induction n generalizing s with
  | zero => rfl
  | succ n ih => unfold syncSettle; split <;> [rfl; (split <;> [rfl; (split <;> [rfl; rw [ih, enqueue_lanes, setSync_lanes]])])]
@[simp] theorem pulse_lanes (c k i d b) : (pulse c k i d b s).lanes = s.lanes := by
  unfold pulse pulseRec; dsimp only; split <;> [(rw [enqueue_lanes]; split <;> simp only [setSync_lanes, syncSettle_lanes]); simp only [setSync_lanes, syncSettle_lanes]]
@[simp] theorem syncSettle_conn (k : EventKey) (t n : Nat) (s : State) : (syncSettle k t n s).conn = s.conn := by
  induction n generalizing s with
  | zero => rfl
  | succ n ih => unfold syncSettle; split <;> [rfl; (split <;> [rfl; (split <;> [rfl; rw [ih, enqueue_conn, setSync_conn]])])]
@[simp] theorem pulse_conn (c k i d b) : (pulse c k i d b s).conn = s.conn := by
  unfold pulse pulseRec; dsimp only; split <;> [(rw [enqueue_conn]; split <;> simp only [setSync_conn, syncSettle_conn]); simp only [setSync_conn, syncSettle_conn]]
@[simp] theorem syncSettle_trib (k : EventKey) (t n : Nat) (s : State) : (syncSettle k t n s).trib = s.trib := by
  induction n generalizing s with
  | zero => rfl
  | succ n ih => unfold syncSettle; split <;> [rfl; (split <;> [rfl; (split <;> [rfl; rw [ih, enqueue_trib, setSync_trib]])])]
@[simp] theorem pulse_trib (c k i d b) : (pulse c k i d b s).trib = s.trib := by
  unfold pulse pulseRec; dsimp only; split <;> [(rw [enqueue_trib]; split <;> simp only [setSync_trib, syncSettle_trib]); simp only [setSync_trib, syncSettle_trib]]
@[simp] theorem syncSettle_data (k : EventKey) (t n : Nat) (s : State) : (syncSettle k t n s).data = s.data := by
  induction n generalizing s with
  | zero => rfl
  | succ n ih => unfold syncSettle; split <;> [rfl; (split <;> [rfl; (split <;> [rfl; rw [ih, enqueue_data, setSync_data]])])]
@[simp] theorem pulse_data (c k i d b) : (pulse c k i d b s).data = s.data := by
  unfold pulse pulseRec; dsimp only; split <;> [(rw [enqueue_data]; split <;> simp only [setSync_data, syncSettle_data]); simp only [setSync_data, syncSettle_data]]
@[simp] theorem syncSettle_keys (k : EventKey) (t n : Nat) (s : State) : (syncSettle k t n s).keys = s.keys := by
  induction n generalizing s with
  | zero => rfl
  | succ n ih => unfold syncSettle; split <;> [rfl; (split <;> [rfl; (split <;> [rfl; rw [ih, enqueue_keys, setSync_keys]])])]
@[simp] theorem pulse_keys (c k i d b) : (pulse c k i d b s).keys = s.keys := by
  unfold pulse pulseRec; dsimp only; split <;> [(rw [enqueue_keys]; split <;> simp only [setSync_keys, syncSettle_keys]); simp only [setSync_keys, syncSettle_keys]]
@[simp] theorem syncSettle_prot (k : EventKey) (t n : Nat) (s : State) : (syncSettle k t n s).prot = s.prot := by
  induction n generalizing s with
  | zero => rfl
  | succ n ih => unfold syncSettle; split <;> [rfl; (split <;> [rfl; (split <;> [rfl; rw [ih, enqueue_prot, setSync_prot]])])]
@[simp] theorem pulse_prot (c k i d b) : (pulse c k i d b s).prot = s.prot := by
  unfold pulse pulseRec; dsimp only; split <;> [(rw [enqueue_prot]; split <;> simp only [setSync_prot, syncSettle_prot]); simp only [setSync_prot, syncSettle_prot]]
@[simp] theorem syncSettle_cnt (k : EventKey) (t n : Nat) (s : State) : (syncSettle k t n s).cnt = s.cnt := by
  induction n generalizing s with
  | zero => rfl
  | succ n ih => unfold syncSettle; split <;> [rfl; (split <;> [rfl; (split <;> [rfl; rw [ih, enqueue_cnt, setSync_cnt]])])]
@[simp] theorem pulse_cnt (c k i d b) : (pulse c k i d b s).cnt = s.cnt := by
  unfold pulse pulseRec; dsimp only; split <;> [(rw [enqueue_cnt]; split <;> simp only [setSync_cnt, syncSettle_cnt]); simp only [setSync_cnt, syncSettle_cnt]]
@[simp] theorem syncSettle_mem (k : EventKey) (t n : Nat) (s : State) : (syncSettle k t n s).mem = s.mem := by
  induction n generalizing s with
  | zero => rfl
  | succ n ih => unfold syncSettle; split <;> [rfl; (split <;> [rfl; (split <;> [rfl; rw [ih, enqueue_mem, setSync_mem]])])]
@[simp] theorem pulse_mem (c k i d b) : (pulse c k i d b s).mem = s.mem := by
  unfold pulse pulseRec; dsimp only; split <;> [(rw [enqueue_mem]; split <;> simp only [setSync_mem, syncSettle_mem]); simp only [setSync_mem, syncSettle_mem]]
@[simp] theorem syncSettle_cp (k : EventKey) (t n : Nat) (s : State) : (syncSettle k t n s).cp = s.cp := by
  induction n generalizing s with
  | zero => rfl
  | succ n ih => unfold syncSettle; split <;> [rfl; (split <;> [rfl; (split <;> [rfl; rw [ih, enqueue_cp, setSync_cp]])])]
@[simp] theorem pulse_cp (c k i d b) : (pulse c k i d b s).cp = s.cp := by
  unfold pulse pulseRec; dsimp only; split <;> [(rw [enqueue_cp]; split <;> simp only [setSync_cp, syncSettle_cp]); simp only [setSync_cp, syncSettle_cp]]
@[simp] theorem syncSettle_spare (k : EventKey) (t n : Nat) (s : State) : (syncSettle k t n s).spare = s.spare := by
  induction n generalizing s with
  | zero => rfl
  | succ n ih => unfold syncSettle; split <;> [rfl; (split <;> [rfl; (split <;> [rfl; rw [ih, enqueue_spare, setSync_spare]])])]
@[simp] theorem pulse_spare (c k i d b) : (pulse c k i d b s).spare = s.spare := by
  unfold pulse pulseRec; dsimp only; split <;> [(rw [enqueue_spare]; split <;> simp only [setSync_spare, syncSettle_spare]); simp only [setSync_spare, syncSettle_spare]]
@[simp] theorem syncSettle_health (k : EventKey) (t n : Nat) (s : State) : (syncSettle k t n s).health = s.health := by
  induction n generalizing s with
  | zero => rfl
  | succ n ih => unfold syncSettle; split <;> [rfl; (split <;> [rfl; (split <;> [rfl; rw [ih, enqueue_health, setSync_health]])])]
@[simp] theorem pulse_health (c k i d b) : (pulse c k i d b s).health = s.health := by
  unfold pulse pulseRec; dsimp only; split <;> [(rw [enqueue_health]; split <;> simp only [setSync_health, syncSettle_health]); simp only [setSync_health, syncSettle_health]]
@[simp] theorem syncSettle_fio (k : EventKey) (t n : Nat) (s : State) : (syncSettle k t n s).fio = s.fio := by
  induction n generalizing s with
  | zero => rfl
  | succ n ih => unfold syncSettle; split <;> [rfl; (split <;> [rfl; (split <;> [rfl; rw [ih, enqueue_fio, setSync_fio]])])]
@[simp] theorem pulse_fio (c k i d b) : (pulse c k i d b s).fio = s.fio := by
  unfold pulse pulseRec; dsimp only; split <;> [(rw [enqueue_fio]; split <;> simp only [setSync_fio, syncSettle_fio]); simp only [setSync_fio, syncSettle_fio]]
@[simp] theorem syncSettle_save (k : EventKey) (t n : Nat) (s : State) : (syncSettle k t n s).save = s.save := by
  induction n generalizing s with
  | zero => rfl
  | succ n ih => unfold syncSettle; split <;> [rfl; (split <;> [rfl; (split <;> [rfl; rw [ih, enqueue_save, setSync_save]])])]
@[simp] theorem pulse_save (c k i d b) : (pulse c k i d b s).save = s.save := by
  unfold pulse pulseRec; dsimp only; split <;> [(rw [enqueue_save]; split <;> simp only [setSync_save, syncSettle_save]); simp only [setSync_save, syncSettle_save]]
@[simp] theorem syncSettle_time (k : EventKey) (t n : Nat) (s : State) : (syncSettle k t n s).time = s.time := by
  induction n generalizing s with
  | zero => rfl
  | succ n ih => unfold syncSettle; split <;> [rfl; (split <;> [rfl; (split <;> [rfl; rw [ih, enqueue_time, setSync_time]])])]
@[simp] theorem pulse_time (c k i d b) : (pulse c k i d b s).time = s.time := by
  unfold pulse pulseRec; dsimp only; split <;> [(rw [enqueue_time]; split <;> simp only [setSync_time, syncSettle_time]); simp only [setSync_time, syncSettle_time]]

end Sys2Proof.Machine
end

