-- ==== Sys2Proof/Laws/Command.lean ====
section
/-! SUPPORT. What a host command does once its packet is accepted, said once for every opcode. -/

namespace Sys2Proof.Machine

variable {o : Op} {p : Packet} {s s1 t : State} {st : Status} {ws : List Word} {w : Work} {i : List Byte} {k : List Nat}

/-- A packet that is not decoded now waits: nothing changes. -/
theorem runCommand_waits (h : canDecode o p s = false) : runCommand o p s = s := by simp [runCommand, h]

/-- A packet that a check refuses is answered with that status and no words. -/
theorem runCommand_refused (h : canDecode o p s = true) (hc : packetChecks o p (jrnl 0 p.ring p.tag s) = (some st, s1)) :
    runCommand o p s = writeReply (packetEcho o p) st [] s1 := by
  simp only [runCommand, h, if_true, decodeRun, hc]

/-- An accepted command whose effect ends with a reply. -/
theorem runCommand_reply (h : Accepted o p s s1) (hb : o.body p s1 = .reply st ws t) :
    (.next (runCommand o p s) : Host.Outcome State Fault Refusal) = answered o p st ws t := by
  simp only [runCommand, h.1, if_true, decodeRun, h.2, hb, answered]

/-- An accepted command that goes on. -/
theorem runCommand_wait (h : Accepted o p s s1) (hb : o.body p s1 = .wait w i k t) :
    (.next (runCommand o p s) : Host.Outcome State Fault Refusal) = goesOn o p w i k t := by
  simp only [runCommand, h.1, if_true, decodeRun, h.2, hb, goesOn]

/-- An accepted cipher operation that has entered its channel's queue. -/
theorem runCommand_queued (h : Accepted o p s s1) (hb : o.body p s1 = .queued t) : runCommand o p s = t := by
  simp only [runCommand, h.1, if_true, decodeRun, h.2, hb]

/-- The form of an accepted packet has been checked. -/
theorem accepted_form (h : Accepted o p s s1) : formStage o p s1 = true := by
  have h2 := h.2
  unfold packetChecks at h2
  split at h2
  · simp at h2
  · split at h2
    · simp at h2
    · simp only [Prod.mk.injEq, ite_eq_left_iff] at h2
      obtain ⟨h3, rfl⟩ := h2
      by_contra h4
      exact absurd (h3 (by simpa using h4)) (by simp)

/-- How a packet comes to be accepted. -/
theorem accepted_of (h : canDecode o p s = true) (hc : (packetChecks o p (jrnl 0 p.ring p.tag s)).1 = none) :
    Accepted o p s (packetChecks o p (jrnl 0 p.ring p.tag s)).2 := ⟨h, Prod.ext hc rfl⟩

end Sys2Proof.Machine
end

