-- ==== Sys2Proof/Laws/PerInstr.lean ====
section
/-! SUPPORT. Every host command's row has the opcode of Table 12.10 and is well-formed just when its packet is (12 R329, R334). -/

namespace Sys2Proof.Laws.Opcode

open Sys2Proof.Machine

/-- A row of the host's command table is found under its class and action, and its form is its packet's. -/
def Statement (i : Instr) : Prop := ∀ o p, hostOp i = some (o, p) → opOf o.cls o.act = some o ∧ i.wf = packetWf p

theorem sysNop (p : Packet) : Statement (.sysNop p) := fun _ _ h => by cases h; exact ⟨rfl, rfl⟩
theorem sysAbort (p : Packet) : Statement (.sysAbort p) := fun _ _ h => by cases h; exact ⟨rfl, rfl⟩
theorem sysModeSet (p : Packet) : Statement (.sysModeSet p) := fun _ _ h => by cases h; exact ⟨rfl, rfl⟩
theorem sysModeGet (p : Packet) : Statement (.sysModeGet p) := fun _ _ h => by cases h; exact ⟨rfl, rfl⟩
theorem sysFenceSet (p : Packet) : Statement (.sysFenceSet p) := fun _ _ h => by cases h; exact ⟨rfl, rfl⟩
theorem sysAuthSet (p : Packet) : Statement (.sysAuthSet p) := fun _ _ h => by cases h; exact ⟨rfl, rfl⟩
theorem sysIoSet (p : Packet) : Statement (.sysIoSet p) := fun _ _ h => by cases h; exact ⟨rfl, rfl⟩
theorem sysIoGet (p : Packet) : Statement (.sysIoGet p) := fun _ _ h => by cases h; exact ⟨rfl, rfl⟩
theorem laneFrameSet (p : Packet) : Statement (.laneFrameSet p) := fun _ _ h => by cases h; exact ⟨rfl, rfl⟩
theorem laneFrameGet (p : Packet) : Statement (.laneFrameGet p) := fun _ _ h => by cases h; exact ⟨rfl, rfl⟩
theorem laneSeedSet (p : Packet) : Statement (.laneSeedSet p) := fun _ _ h => by cases h; exact ⟨rfl, rfl⟩
theorem laneMsgSend (p : Packet) : Statement (.laneMsgSend p) := fun _ _ h => by cases h; exact ⟨rfl, rfl⟩
theorem laneMsgRead (p : Packet) : Statement (.laneMsgRead p) := fun _ _ h => by cases h; exact ⟨rfl, rfl⟩
theorem laneAlignSet (p : Packet) : Statement (.laneAlignSet p) := fun _ _ h => by cases h; exact ⟨rfl, rfl⟩
theorem laneAlignGet (p : Packet) : Statement (.laneAlignGet p) := fun _ _ h => by cases h; exact ⟨rfl, rfl⟩
theorem laneDefectSet (p : Packet) : Statement (.laneDefectSet p) := fun _ _ h => by cases h; exact ⟨rfl, rfl⟩
theorem laneDefectGet (p : Packet) : Statement (.laneDefectGet p) := fun _ _ h => by cases h; exact ⟨rfl, rfl⟩
theorem laneTxSet (p : Packet) : Statement (.laneTxSet p) := fun _ _ h => by cases h; exact ⟨rfl, rfl⟩
theorem laneRxSet (p : Packet) : Statement (.laneRxSet p) := fun _ _ h => by cases h; exact ⟨rfl, rfl⟩
theorem laneSerdesGet (p : Packet) : Statement (.laneSerdesGet p) := fun _ _ h => by cases h; exact ⟨rfl, rfl⟩
theorem laneLoopSet (p : Packet) : Statement (.laneLoopSet p) := fun _ _ h => by cases h; exact ⟨rfl, rfl⟩
theorem tribMapLoad (p : Packet) : Statement (.tribMapLoad p) := fun _ _ h => by cases h; exact ⟨rfl, rfl⟩
theorem tribSet (p : Packet) : Statement (.tribSet p) := fun _ _ h => by cases h; exact ⟨rfl, rfl⟩
theorem tribGet (p : Packet) : Statement (.tribGet p) := fun _ _ h => by cases h; exact ⟨rfl, rfl⟩
theorem tribTimingSet (p : Packet) : Statement (.tribTimingSet p) := fun _ _ h => by cases h; exact ⟨rfl, rfl⟩
theorem tribDefectProfileSet (p : Packet) : Statement (.tribDefectProfileSet p) := fun _ _ h => by cases h; exact ⟨rfl, rfl⟩
theorem tribDefectSet (p : Packet) : Statement (.tribDefectSet p) := fun _ _ h => by cases h; exact ⟨rfl, rfl⟩
theorem tribDefectGet (p : Packet) : Statement (.tribDefectGet p) := fun _ _ h => by cases h; exact ⟨rfl, rfl⟩
theorem accordSet (p : Packet) : Statement (.accordSet p) := fun _ _ h => by cases h; exact ⟨rfl, rfl⟩
theorem accordMemberSet (p : Packet) : Statement (.accordMemberSet p) := fun _ _ h => by cases h; exact ⟨rfl, rfl⟩
theorem accordGet (p : Packet) : Statement (.accordGet p) := fun _ _ h => by cases h; exact ⟨rfl, rfl⟩
theorem accordStoreGet (p : Packet) : Statement (.accordStoreGet p) := fun _ _ h => by cases h; exact ⟨rfl, rfl⟩
theorem connSet (p : Packet) : Statement (.connSet p) := fun _ _ h => by cases h; exact ⟨rfl, rfl⟩
theorem connGet (p : Packet) : Statement (.connGet p) := fun _ _ h => by cases h; exact ⟨rfl, rfl⟩
theorem connLoad (p : Packet) : Statement (.connLoad p) := fun _ _ h => by cases h; exact ⟨rfl, rfl⟩
theorem connDelay (p : Packet) : Statement (.connDelay p) := fun _ _ h => by cases h; exact ⟨rfl, rfl⟩
theorem connEqSet (p : Packet) : Statement (.connEqSet p) := fun _ _ h => by cases h; exact ⟨rfl, rfl⟩
theorem connEqGet (p : Packet) : Statement (.connEqGet p) := fun _ _ h => by cases h; exact ⟨rfl, rfl⟩
theorem connOccupancyGet (p : Packet) : Statement (.connOccupancyGet p) := fun _ _ h => by cases h; exact ⟨rfl, rfl⟩
theorem protGroupSet (p : Packet) : Statement (.protGroupSet p) := fun _ _ h => by cases h; exact ⟨rfl, rfl⟩
theorem protCmd (p : Packet) : Statement (.protCmd p) := fun _ _ h => by cases h; exact ⟨rfl, rfl⟩
theorem protGet (p : Packet) : Statement (.protGet p) := fun _ _ h => by cases h; exact ⟨rfl, rfl⟩
theorem timeRefSet (p : Packet) : Statement (.timeRefSet p) := fun _ _ h => by cases h; exact ⟨rfl, rfl⟩
theorem timeRefGet (p : Packet) : Statement (.timeRefGet p) := fun _ _ h => by cases h; exact ⟨rfl, rfl⟩
theorem timeSelSet (p : Packet) : Statement (.timeSelSet p) := fun _ _ h => by cases h; exact ⟨rfl, rfl⟩
theorem timeDpllGet (p : Packet) : Statement (.timeDpllGet p) := fun _ _ h => by cases h; exact ⟨rfl, rfl⟩
theorem timeDpllSteer (p : Packet) : Statement (.timeDpllSteer p) := fun _ _ h => by cases h; exact ⟨rfl, rfl⟩
theorem timeOutSet (p : Packet) : Statement (.timeOutSet p) := fun _ _ h => by cases h; exact ⟨rfl, rfl⟩
theorem timeTodSet (p : Packet) : Statement (.timeTodSet p) := fun _ _ h => by cases h; exact ⟨rfl, rfl⟩
theorem timeTickSet (p : Packet) : Statement (.timeTickSet p) := fun _ _ h => by cases h; exact ⟨rfl, rfl⟩
theorem timeTickGet (p : Packet) : Statement (.timeTickGet p) := fun _ _ h => by cases h; exact ⟨rfl, rfl⟩
theorem sealTxSet (p : Packet) : Statement (.sealTxSet p) := fun _ _ h => by cases h; exact ⟨rfl, rfl⟩
theorem sealRxSet (p : Packet) : Statement (.sealRxSet p) := fun _ _ h => by cases h; exact ⟨rfl, rfl⟩
theorem sealFlip (p : Packet) : Statement (.sealFlip p) := fun _ _ h => by cases h; exact ⟨rfl, rfl⟩
theorem sealGet (p : Packet) : Statement (.sealGet p) := fun _ _ h => by cases h; exact ⟨rfl, rfl⟩
theorem ciphKeyLoad (p : Packet) : Statement (.ciphKeyLoad p) := fun _ _ h => by cases h; exact ⟨rfl, rfl⟩
theorem ciphKeyErase (p : Packet) : Statement (.ciphKeyErase p) := fun _ _ h => by cases h; exact ⟨rfl, rfl⟩
theorem ciphKeyGet (p : Packet) : Statement (.ciphKeyGet p) := fun _ _ h => by cases h; exact ⟨rfl, rfl⟩
theorem ciphChanSet (p : Packet) : Statement (.ciphChanSet p) := fun _ _ h => by cases h; exact ⟨rfl, rfl⟩
theorem ciphOp (p : Packet) : Statement (.ciphOp p) := fun _ _ h => by cases h; exact ⟨rfl, rfl⟩
theorem memTestStart (p : Packet) : Statement (.memTestStart p) := fun _ _ h => by cases h; exact ⟨rfl, rfl⟩
theorem memTestGet (p : Packet) : Statement (.memTestGet p) := fun _ _ h => by cases h; exact ⟨rfl, rfl⟩
theorem memFenceSet (p : Packet) : Statement (.memFenceSet p) := fun _ _ h => by cases h; exact ⟨rfl, rfl⟩
theorem cntSelect (p : Packet) : Statement (.cntSelect p) := fun _ _ h => by cases h; exact ⟨rfl, rfl⟩
theorem cntRead (p : Packet) : Statement (.cntRead p) := fun _ _ h => by cases h; exact ⟨rfl, rfl⟩
theorem cntDump (p : Packet) : Statement (.cntDump p) := fun _ _ h => by cases h; exact ⟨rfl, rfl⟩
theorem evtMark (p : Packet) : Statement (.evtMark p) := fun _ _ h => by cases h; exact ⟨rfl, rfl⟩
theorem evtLogRead (p : Packet) : Statement (.evtLogRead p) := fun _ _ h => by cases h; exact ⟨rfl, rfl⟩
theorem saveConfigSet (p : Packet) : Statement (.saveConfigSet p) := fun _ _ h => by cases h; exact ⟨rfl, rfl⟩
theorem saveGet (p : Packet) : Statement (.saveGet p) := fun _ _ h => by cases h; exact ⟨rfl, rfl⟩
theorem saveTest (p : Packet) : Statement (.saveTest p) := fun _ _ h => by cases h; exact ⟨rfl, rfl⟩
theorem testPrbsSet (p : Packet) : Statement (.testPrbsSet p) := fun _ _ h => by cases h; exact ⟨rfl, rfl⟩
theorem testPrbsGet (p : Packet) : Statement (.testPrbsGet p) := fun _ _ h => by cases h; exact ⟨rfl, rfl⟩
theorem testEyeScan (p : Packet) : Statement (.testEyeScan p) := fun _ _ h => by cases h; exact ⟨rfl, rfl⟩
theorem healthGet (p : Packet) : Statement (.healthGet p) := fun _ _ h => by cases h; exact ⟨rfl, rfl⟩
theorem healthSpareSwap (p : Packet) : Statement (.healthSpareSwap p) := fun _ _ h => by cases h; exact ⟨rfl, rfl⟩
theorem healthSpareGet (p : Packet) : Statement (.healthSpareGet p) := fun _ _ h => by cases h; exact ⟨rfl, rfl⟩
theorem healthCpGet (p : Packet) : Statement (.healthCpGet p) := fun _ _ h => by cases h; exact ⟨rfl, rfl⟩
theorem commandDoorbell (ring : Nat) (value : Word) : Statement (.commandDoorbell ring value) := fun _ _ h => by cases h
theorem replyRingDoorbell (value : Word) : Statement (.replyRingDoorbell value) := fun _ _ h => by cases h
theorem eventConsumerIndexWrite (value : Word) : Statement (.eventConsumerIndexWrite value) := fun _ _ h => by cases h
theorem ringEnable (ring : Nat) (value : Word) : Statement (.ringEnable ring value) := fun _ _ h => by cases h
theorem ringDisable (ring : Nat) (value : Word) : Statement (.ringDisable ring value) := fun _ _ h => by cases h
theorem irqStatusClear (value : Word) : Statement (.irqStatusClear value) := fun _ _ h => by cases h
theorem evtLostRead : Statement (.evtLostRead) := fun _ _ h => by cases h
theorem registerWrite (offset size : Nat) (value : Word) : Statement (.registerWrite offset size value) := fun _ _ h => by cases h
theorem windowMemoryAccess (e : Option PortEAccess) (i : Option PortIAccess) (ecc : Option EccHit) : Statement (.windowMemoryAccess e i ecc) := fun _ _ h => by cases h
theorem busMatrixBurst (reqs : List Burst) (target : Nat) : Statement (.busMatrixBurst reqs target) := fun _ _ h => by cases h
theorem matrixLockTimeout (target : Nat) : Statement (.matrixLockTimeout target) := fun _ _ h => by cases h
theorem apertureWrite (master addr : Nat) (data : Word) : Statement (.apertureWrite master addr data) := fun _ _ h => by cases h
theorem commandDecode (ring : Nat) : Statement (.commandDecode ring) := fun _ _ h => by cases h
theorem descriptorRecheck (ring chan : Nat) : Statement (.descriptorRecheck ring chan) := fun _ _ h => by cases h
theorem ciphOpStart : Statement (.ciphOpStart) := fun _ _ h => by cases h
theorem ciphOpResume : Statement (.ciphOpResume) := fun _ _ h => by cases h
theorem ciphOpComplete : Statement (.ciphOpComplete) := fun _ _ h => by cases h
theorem eyeScanComplete (lane : Nat) (counts centres : List Nat) (uv : Nat) : Statement (.eyeScanComplete lane counts centres uv) := fun _ _ h => by cases h
theorem memTestComplete (rows columns : List Nat) : Statement (.memTestComplete rows columns) := fun _ _ h => by cases h
theorem grainCycleTick (meas : TickMeas) : Statement (.grainCycleTick meas) := fun _ _ h => by cases h
theorem frameTick (meas : TickMeas) : Statement (.frameTick meas) := fun _ _ h => by cases h
theorem crossoverPass (badEntries : List Nat) (words : WordErrors) : Statement (.crossoverPass badEntries words) := fun _ _ h => by cases h
theorem sectionTransmit (lane : Nat) : Statement (.sectionTransmit lane) := fun _ _ h => by cases h
theorem markerBlockReceived (m : Marker) : Statement (.markerBlockReceived m) := fun _ _ h => by cases h
theorem alignmentLoss (lane : Nat) : Statement (.alignmentLoss lane) := fun _ _ h => by cases h
theorem decisionWindowEnd (lane : Nat) : Statement (.decisionWindowEnd lane) := fun _ _ h => by cases h
theorem laneAlignRecovery (lane : Nat) : Statement (.laneAlignRecovery lane) := fun _ _ h => by cases h
theorem sectionDecoded (lane : Nat) (codewords : List (List (BitVec 10))) : Statement (.sectionDecoded lane codewords) := fun _ _ h => by cases h
theorem losWindowEnd (lane amplitude : Nat) : Statement (.losWindowEnd lane amplitude) := fun _ _ h => by cases h
theorem cdrLock (lane : Nat) (offset : Int) : Statement (.cdrLock lane offset) := fun _ _ h => by cases h
theorem cdrLossOfLock (lane : Nat) : Statement (.cdrLossOfLock lane) := fun _ _ h => by cases h
theorem goodSetRefresh (lane : Nat) (good : GoodSet) : Statement (.goodSetRefresh lane good) := fun _ _ h => by cases h
theorem laneLoopSlip (m : LoopWander) : Statement (.laneLoopSlip m) := fun _ _ h => by cases h
theorem prbsCheckerLock (lane : Nat) (bits : List Bool) : Statement (.prbsCheckerLock lane bits) := fun _ _ h => by cases h
theorem prbsCheckerLoss (lane bits : Nat) (errors : PrbsErrors) : Statement (.prbsCheckerLoss lane bits errors) := fun _ _ h => by cases h
theorem defectDeclare (obj : DefectObj) (bit : Nat) : Statement (.defectDeclare obj bit) := fun _ _ h => by cases h
theorem defectClear (obj : DefectObj) (bit : Nat) : Statement (.defectClear obj bit) := fun _ _ h => by cases h
theorem degWindowEnd (ta : Nat) : Statement (.degWindowEnd ta) := fun _ _ h => by cases h
theorem accordRealign (accord : Nat) : Statement (.accordRealign accord) := fun _ _ h => by cases h
theorem alignerUnitsReturn : Statement (.alignerUnitsReturn) := fun _ _ h => by cases h
theorem connEqLocked (bind : Nat) : Statement (.connEqLocked bind) := fun _ _ h => by cases h
theorem connEqLost (bind : Nat) : Statement (.connEqLost bind) := fun _ _ h => by cases h
theorem updatePortCommit : Statement (.updatePortCommit) := fun _ _ h => by cases h
theorem protSwitchStart (group : Nat) : Statement (.protSwitchStart group) := fun _ _ h => by cases h
theorem protHoldOffExpiry (group : Nat) : Statement (.protHoldOffExpiry group) := fun _ _ h => by cases h
theorem protWtrExpiry (group : Nat) : Statement (.protWtrExpiry group) := fun _ _ h => by cases h
theorem ftickWordReceived (widths : List Nat) : Statement (.ftickWordReceived widths) := fun _ _ h => by cases h
theorem ppsInEdge (phase : Int) : Statement (.ppsInEdge phase) := fun _ _ h => by cases h
theorem todInMessage (bytes : List Byte) : Statement (.todInMessage bytes) := fun _ _ h => by cases h
theorem todOutMessage : Statement (.todOutMessage) := fun _ _ h => by cases h
theorem refActivityLoss (ref : Nat) : Statement (.refActivityLoss ref) := fun _ _ h => by cases h
theorem freqMonitorUpdate (meas : List RefMeas) : Statement (.freqMonitorUpdate meas) := fun _ _ h => by cases h
theorem macerationExpiry (ref : Nat) : Statement (.macerationExpiry ref) := fun _ _ h => by cases h
theorem selectorEvaluation : Statement (.selectorEvaluation) := fun _ _ h => by cases h
theorem dpllSwitchTimeout : Statement (.dpllSwitchTimeout) := fun _ _ h => by cases h
theorem dpllUpdate (phase freqErr : Int) (dpll : Nat) : Statement (.dpllUpdate phase freqErr dpll) := fun _ _ h => by cases h
theorem dpllLock : Statement (.dpllLock) := fun _ _ h => by cases h
theorem drydownUpdate (dieTemp : Int) : Statement (.drydownUpdate dieTemp) := fun _ _ h => by cases h
theorem modelLearnUpdate (dieTemp : Int) : Statement (.modelLearnUpdate dieTemp) := fun _ _ h => by cases h
theorem xoFail : Statement (.xoFail) := fun _ _ h => by cases h
theorem dpllFailure : Statement (.dpllFailure) := fun _ _ h => by cases h
theorem tickGeneratorFailure : Statement (.tickGeneratorFailure) := fun _ _ h => by cases h
theorem edgeLinkClockLoss (die : Nat) : Statement (.edgeLinkClockLoss die) := fun _ _ h => by cases h
theorem edgeDieFailure (die : Nat) : Statement (.edgeDieFailure die) := fun _ _ h => by cases h
theorem keyStoreAlarm (causes : BitVec 5) : Statement (.keyStoreAlarm causes) := fun _ _ h => by cases h
theorem guardMeasurement (meas : List GuardMeas) : Statement (.guardMeasurement meas) := fun _ _ h => by cases h
theorem ioInputSample (gpio : PinSense 16) (alm : PinSense 4) : Statement (.ioInputSample gpio alm) := fun _ _ h => by cases h
theorem eventAckPhaseEnd (key : EventKey) : Statement (.eventAckPhaseEnd key) := fun _ _ h => by cases h
theorem eventRingWrite : Statement (.eventRingWrite) := fun _ _ h => by cases h
theorem eventHoldoffExpiry : Statement (.eventHoldoffExpiry) := fun _ _ h => by cases h
theorem counterTapSample (eccBad : List Nat) : Statement (.counterTapSample eccBad) := fun _ _ h => by cases h
theorem backgroundTestStripe : Statement (.backgroundTestStripe) := fun _ _ h => by cases h
theorem memRepair (store kind location : Nat) : Statement (.memRepair store kind location) := fun _ _ h => by cases h
theorem cpHeartbeatTimeout : Statement (.cpHeartbeatTimeout) := fun _ _ h => by cases h
theorem cpMemoryError (uncorrectable : Bool) : Statement (.cpMemoryError uncorrectable) := fun _ _ h => by cases h
theorem failoverGapEnd : Statement (.failoverGapEnd) := fun _ _ h => by cases h
theorem journalApply : Statement (.journalApply) := fun _ _ h => by cases h
theorem standbySelftestPass (passed : Bool) : Statement (.standbySelftestPass passed) := fun _ _ h => by cases h
theorem cpDigestExchange (matched : Bool) : Statement (.cpDigestExchange matched) := fun _ _ h => by cases h
theorem cpRestartComplete (cp : Nat) : Statement (.cpRestartComplete cp) := fun _ _ h => by cases h
theorem cpRevertHoldoffExpiry : Statement (.cpRevertHoldoffExpiry) := fun _ _ h => by cases h
theorem svaHeartbeatTimeout : Statement (.svaHeartbeatTimeout) := fun _ _ h => by cases h
theorem unitHardFailure (pool unit : Nat) (ofSpare : Bool) : Statement (.unitHardFailure pool unit ofSpare) := fun _ _ h => by cases h
theorem spareCutover (pool : Nat) : Statement (.spareCutover pool) := fun _ _ h => by cases h
theorem healthWearSample (meas : List WearMeas) : Statement (.healthWearSample meas) := fun _ _ h => by cases h
theorem serdesMarginScan (lane height width : Nat) : Statement (.serdesMarginScan lane height width) := fun _ _ h => by cases h
theorem capacitorMeasurement (dropMv esrDropMv vholdMv : Nat) : Statement (.capacitorMeasurement dropMv esrDropMv vholdMv) := fun _ _ h => by cases h
theorem saveStageRefresh : Statement (.saveStageRefresh) := fun _ _ h => by cases h
theorem saveTrigger (pwrFail vinLow : Bool) : Statement (.saveTrigger pwrFail vinLow) := fun _ _ h => by cases h
theorem saveComplete : Statement (.saveComplete) := fun _ _ h => by cases h
theorem bootStart (inp : BootInputs) : Statement (.bootStart inp) := fun _ _ h => by cases h
theorem bootImagePoll : Statement (.bootImagePoll) := fun _ _ h => by cases h
theorem bootComplete : Statement (.bootComplete) := fun _ _ h => by cases h
theorem wakeStart (inp : BootInputs) : Statement (.wakeStart inp) := fun _ _ h => by cases h
theorem resetAssert : Statement (.resetAssert) := fun _ _ h => by cases h
theorem perstAssert : Statement (.perstAssert) := fun _ _ h => by cases h
theorem railLoss (rail : Rail) : Statement (.railLoss rail) := fun _ _ h => by cases h
theorem ppsInEdgeMissing : Statement (.ppsInEdgeMissing) := fun _ _ h => by cases h
theorem pcieLinkDown : Statement (.pcieLinkDown) := fun _ _ h => by cases h
theorem journalLag (cp : Nat) : Statement (.journalLag cp) := fun _ _ h => by cases h
theorem cceFault : Statement (.cceFault) := fun _ _ h => by cases h
theorem stripeReturned (rows columns : List Nat) : Statement (.stripeReturned rows columns) := fun _ _ h => by cases h
theorem cntDumpBlock (ring : Nat) : Statement (.cntDumpBlock ring) := fun _ _ h => by cases h
theorem checkpointComplete : Statement (.checkpointComplete) := fun _ _ h => by cases h
theorem unitRetestComplete (passed : Bool) : Statement (.unitRetestComplete passed) := fun _ _ h => by cases h
theorem adaptationConverged (lane : Nat) : Statement (.adaptationConverged lane) := fun _ _ h => by cases h
theorem alarmCauseEnded (causes : BitVec 5) : Statement (.alarmCauseEnded causes) := fun _ _ h => by cases h
theorem jtagInstruction (i : JtagInstr) : Statement (.jtagInstruction i) := fun _ _ h => by cases h

end Sys2Proof.Laws.Opcode
end

