-- ==== Sys2Proof/Laws/Port.lean ====
section
/-! SUPPORT. The update port: what a command whose turn it is gives, once for every class of commands. -/

namespace Sys2Proof.Machine

variable {j : Job} {k : Nat} {s s1 : State}

/-- The command whose turn it is commits its settings. -/
theorem portTurn_commit (h : PortTurn j s s1) (hw : j.work = .port) : execUpdatePortCommit s = .next (protSync (jobCommit j s1)) := by
  obtain ⟨h1, h2, h3, h4, rfl⟩ := h
  simp [execUpdatePortCommit, h1, portNext, h2, h3, h4, hw]

/-- The connection command whose turn it is commits its next entry. -/
theorem portTurn_conn {n : Nat} {f l : Word × Nat} {g : List Nat} (h : PortTurn j s s1) (hw : j.work = .conn n f l g) :
    execUpdatePortCommit s = .next (protSync (connCommit j n f l g s1)) := by
  obtain ⟨h1, h2, h3, h4, rfl⟩ := h
  simp [execUpdatePortCommit, h1, portNext, h2, h3, h4, hw]

/-- A rewrite of a protection group goes first. -/
theorem portTurn_group {g : Nat} (h : portOpen s = true) (hg : nextGroup s = some g) :
    execUpdatePortCommit s = .next (protSync (protCommit g (takeSlot s))) := by
  simp only [execUpdatePortCommit, h, if_true, portNext, hg]

/-- Settings accepted at the port: the reply reports the cycle (12 R471). The journal record comes first (15 R393). -/
theorem jobCommit_ok {ws : List Word} {s t : State} (hc : j.cls ≠ 8) (h : cmdCommit j (effTick s) s = .ok ws t) (hs : s = jrnl 2 j.ring j.tag s1) :
    jobCommit j s1 = endJob j.ring .ok (ws ++ effWords t (effTick s)) t := by
  have : tickAligned j = false := by simp [tickAligned, hc]
  simp only [jobCommit, this, Bool.false_eq_true, if_false, ← hs, h]

/-- Settings refused at the port. -/
theorem jobCommit_refuse {st : Status} {ws : List Word} {s : State} (hc : j.cls ≠ 8) (h : cmdCommit j (effTick s) s = .refuse st ws)
    (hs : s = jrnl 2 j.ring j.tag s1) : jobCommit j s1 = endJob j.ring st ws s := by
  have : tickAligned j = false := by simp [tickAligned, hc]
  simp only [jobCommit, this, Bool.false_eq_true, if_false, ← hs, h]

/-- Tick-aligned settings accepted at the port (02 R54). -/
theorem jobCommit_aligned_ok {ws : List Word} {s t : State} (hc : j.cls = 8) (h : cmdCommit j (effTickAligned s) s = .ok ws t)
    (hs : s = jrnl 2 j.ring j.tag s1) : jobCommit j s1 = endJob j.ring .ok (ws ++ effWords t (effTickAligned s)) t := by
  simp only [jobCommit, tickAligned, hc, beq_self_eq_true, if_true, ← hs, h]

/-- Tick-aligned settings refused at the port. -/
theorem jobCommit_aligned_refuse {st : Status} {ws : List Word} {s : State} (hc : j.cls = 8) (h : cmdCommit j (effTickAligned s) s = .refuse st ws)
    (hs : s = jrnl 2 j.ring j.tag s1) : jobCommit j s1 = endJob j.ring st ws s := by
  simp only [jobCommit, tickAligned, hc, beq_self_eq_true, if_true, ← hs, h]

/-- A setting that supersedes none is staged behind the others (01 R24). -/
theorem stage_behind {e : Bool} (h1 : j.cls ≠ 1) (h3 : j.cls = 3 → j.act = 0x10 ∨ j.act = 0x11) (h8 : j.cls ≠ 8) : stage k e j s =
    { s with port := { s.port with staged := s.port.staged ++ [{ tick := k, egress := e, w := .cmd j.cls j.act j.params j.image }] } } := by
  have h : supersede k j = some := by
    funext x
    unfold supersede
    split
    · rfl
    · split
      · rename_i c a ws img _
        by_cases hc : c = j.cls
        · by_cases ha : a = j.act
          · subst hc; subst ha
            by_cases hj : j.cls = 3
            · rcases h3 hj with q | q <;> simp [hj, q]
            · simp [h1, hj, h8]
          · simp [ha]
        · simp [hc]
      · rfl
  simp only [stage, h, List.filterMap_some]

/-- Seal settings staged for a tick take the place of those of the same tributary and direction committed for it before (01 R24). -/
theorem stage_seal {e : Bool} (h8 : j.cls = 8) : stage k e j s = { s with port := { s.port with
    staged := s.port.staged.filter (fun x => !(x.tick == k && (match x.w with | .cmd 8 a w _ => a == j.act && pf w 0 17 0 == pf j.params 0 17 0 | _ => false)))
      ++ [{ tick := k, egress := e, w := .cmd 8 j.act j.params j.image }] } } := by
  have hf : ∀ (p : Staged → Bool) (l : List Staged), l.filterMap (fun x => if p x then none else some x) = l.filter (fun x => !p x) := fun p l => by
    induction l with
    | nil => rfl
    | cons a l ih => cases h : p a <;> simp [h] at ih ⊢ <;> exact ih
  have h : supersede k j = fun x => if (x.tick == k && (match x.w with | .cmd 8 a w _ => a == j.act && pf w 0 17 0 == pf j.params 0 17 0 | _ => false)) then none else some x := by
    funext x
    unfold supersede
    rw [h8]
    by_cases h1 : x.tick = k
    · rw [if_neg (by simpa using h1)]
      cases hx : x.w with
      | cmd c a w img =>
        dsimp only
        by_cases hc : c = 8
        · subst hc
          by_cases ha : a = j.act
          · simp [ha, h1]
          · simp [ha]
        · rw [if_pos (by simp [hc])]
          split <;> simp_all
      | _ => simp
    · simp [h1]
  unfold stage; rw [h, hf, h8]

/-- Class SYS at the port. -/
theorem cmdCommit_sys (hc : j.cls = 1) : cmdCommit j k s =
    if j.act = 0x20 then (if modeCommitOk j.params s then .ok [] (stage k false j s) else .refuse .notInMode [])
    else if releasesFailed j.params s then .refuse .notInMode [] else .ok [] (stage k false j s) := by
  by_cases ha : j.act = 0x20
  · rw [if_pos ha]; unfold cmdCommit; rw [hc, ha]; rfl
  · rw [if_neg ha]; unfold cmdCommit; rw [hc]; split <;> first | rfl | simp_all

/-- Class LANE at the port. -/
theorem cmdCommit_lane (hc : j.cls = 2) : cmdCommit j k s =
    if j.act = 0x10 then .ok [] (stage (k + 3) true j (frameSetIn j.params k s))
    else if j.act = 0x12 then
      checked (seedCommit j.params s) (if pb j.params 0 8 then .ok [] (stage (k + 3) true j s) else .ok [] (seedSetIn j.params k s))
    else .ok [] (alignCommit j.params k s) := by
  by_cases ha : j.act = 0x10
  · rw [if_pos ha]; unfold cmdCommit; rw [hc, ha]; rfl
  · rw [if_neg ha]
    by_cases hb : j.act = 0x12
    · rw [if_pos hb]; unfold cmdCommit; rw [hc, hb]; rfl
    · rw [if_neg hb]; unfold cmdCommit; rw [hc]; split <;> first | rfl | simp_all

/-- Class TRIB at the port. -/
theorem cmdCommit_trib (hc : j.cls = 3) : cmdCommit j k s =
    if j.act = 0x10 then mapLoadCommit j k s
    else if j.act = 0x11 then
      (if protTribSet s j.params then .refuse .notInMode []
       else if pb j.params 0 18 && setClash (pf j.params 0 17 0) (egSetOf j.params) k s then .refuse .badParam [] else .ok [] (tribSetCommit j.params k s))
    else .ok [] (stage k false j (timingCommit j.params k s)) := by
  by_cases ha : j.act = 0x10
  · rw [if_pos ha]; unfold cmdCommit; rw [hc, ha]; rfl
  · rw [if_neg ha]
    by_cases hb : j.act = 0x11
    · rw [if_pos hb]; unfold cmdCommit; rw [hc, hb]; rfl
    · rw [if_neg hb]; unfold cmdCommit; rw [hc]; split <;> first | rfl | simp_all

/-- Class ACCORD at the port. -/
theorem cmdCommit_accord (hc : j.cls = 4) : cmdCommit j k s =
    if j.act = 0x10 then (if accordSetOk j.params s then .ok [] (stage k false j (accordSetCommit j.params k s)) else .refuse .notInMode [])
    else match memberSetCheck j.params k s with
      | some st => .refuse st [wd (freeUnits s k)]
      | none => .ok [wd (freeUnits (stage k false j (memberSetCommit j.params k s)) k)] (stage k false j (memberSetCommit j.params k s)) := by
  by_cases ha : j.act = 0x10
  · rw [if_pos ha]; unfold cmdCommit; rw [hc, ha]; rfl
  · rw [if_neg ha]; unfold cmdCommit; rw [hc]; split <;> first | rfl | simp_all

/-- Class CONN at the port. -/
theorem cmdCommit_conn (hc : j.cls = 5) : cmdCommit j k s = checked (eqSetCheck j.params k s) (.ok [] (eqSetCommit j.params k s)) := by
  unfold cmdCommit; rw [hc]; split <;> first | rfl | simp_all

/-- Class SEAL at the port. -/
theorem cmdCommit_seal (hc : j.cls = 8) : cmdCommit j k s =
    if j.act = 0x10 then checked (sealSetCheck false j.params k s) (.ok [] (stage k false j s))
    else checked (sealSetCheck true j.params k s) (.ok [] (stage k false j (sealReserve j.params k s))) := by
  by_cases ha : j.act = 0x10
  · rw [if_pos ha]; unfold cmdCommit; rw [hc, ha]; rfl
  · rw [if_neg ha]; unfold cmdCommit; rw [hc]; split <;> first | rfl | simp_all

end Sys2Proof.Machine
end

