-- ==== Sys2Proof/Tests/Slice0.lean ====
section
/-! SUPPORT. The model's own tests: ill-formed commands, values that the spec gives, and for every statement with hypotheses a
state and operands that meet them. -/

namespace Sys2Proof.Tests

open Sys2Proof Sys2Proof.Machine

set_option maxRecDepth 100000
set_option Elab.async false

/-- A device that takes commands on ring 0: commissioning mode, `READY`, 64 reply slots offered. -/
def ready : State :=
  { State.reset with
    dev := { State.reset.dev with mode := .commissioning, ready := true, resetLow := false }
    io := { State.reset.io with offered := 64 } }

/-- `ready` with the reply slot at `DEV_INDEX` of ring 4 offered. -/
def offering : State :=
  { ready with wm := [(0x25002, 0x80)] }

/-- A packet on ring 0. -/
def pk (ws : List Word) : Packet := { ring := 0, tag := 7, abortable := false, auth := none, rsv := 0, params := ws, extra := [] }

/-- The state that the packet checks leave. -/
def after (o : Op) (p : Packet) (s : State) : State := (packetChecks o p (jrnl 0 p.ring p.tag s)).2

/-- The packet is taken. -/
def takes (o : Op) (p : Packet) (s : State) : Bool := canDecode o p s && (packetChecks o p (jrnl 0 p.ring p.tag s)).1.isNone

theorem accepted_takes {o : Op} {p : Packet} {s : State} (h : takes o p s = true) : Accepted o p s (after o p s) := by
  simp only [takes, Bool.and_eq_true, Option.isNone_iff_eq_none] at h
  exact accepted_of h.1 h.2

/-- `ready` with lane 0 as given. -/
def lane0 (x : Lane) : State := { ready with lanes := [(0, x)] }

/-- A command at the head of the update port's turn. -/
def atPort (cls act : Nat) (ws : List Word) (img : List Byte) (s : State) : State :=
  setJob 0 (some { ring := 0, cls, act, tag := 7, abortable := false, authed := false, params := ws, image := img, taken := [], accepted := 0, work := .port })
    { s with clk := { s.clk with ticks := 1 } }
/-- The job of `atPort`. -/
def portJob (cls act : Nat) (ws : List Word) (img : List Byte) : Job :=
  { ring := 0, cls, act, tag := 7, abortable := false, authed := false, params := ws, image := img, taken := [], accepted := 0, work := .port }

/-! ## Witnesses of the statements -/

/-! ### StepRunsFront -/
theorem test_witness_StepRunsFront : { State.reset with pending := [Instr.evtLostRead] }.pending = Instr.evtLostRead :: [] := rfl

/-! ### StepIdles -/
theorem test_witness_StepIdles : State.reset.pending = [] := rfl

/-! ### QueueFirstInFirstOut -/
theorem test_witness_QueueFirstInFirstOut : ∃ t, step { State.reset with pending := [Instr.evtLostRead] } = .next t := ⟨_, rfl⟩

/-! ### IdentificationIsReadOnly -/
theorem test_witness_IdentificationIsReadOnly : ∃ t, step State.reset = .next t := ⟨_, rfl⟩

/-! ### InvariantKeptByEveryStep -/
theorem test_witness_InvariantKeptByEveryStep : ∃ t, step { State.reset with pending := [Instr.evtLostRead] } = .next t := ⟨_, rfl⟩

/-! ### WellFormedCommandsComplete -/
theorem test_witness_WellFormedCommandsComplete : Instr.evtLostRead.wf = true ∧ (Instr.windowMemoryAccess none none none).wf = true := ⟨rfl, rfl⟩

/-! ### PacketCheckOrder -/
theorem test_witness_PacketCheckOrder_waits : canDecode opSysNop (pk []) State.reset = false := by decide
theorem test_witness_PacketCheckOrder_absent : canDecode opSealGet (pk [0]) { ready with dev := { ready.dev with ne := true } } = true ∧
    present_ opSealGet.cls { ready with dev := { ready.dev with ne := true } } = false := by decide
theorem test_witness_PacketCheckOrder_auth : canDecode opSysNop (pk []) ready = true ∧ present_ opSysNop.cls ready = true ∧
    (authStage opSysNop { pk [] with auth := some [] } (jrnl 0 0 7 ready)).1 = some .authFail := by decide
theorem test_witness_PacketCheckOrder_form : canDecode opSysNop (pk [1]) ready = true ∧ present_ opSysNop.cls ready = true ∧
    (authStage opSysNop (pk [1]) (jrnl 0 0 7 ready)).1 = none ∧ formStage opSysNop (pk [1]) (jrnl 0 0 7 ready) = false := by decide

/-! ### AuthenticatorRequired -/
theorem test_witness_AuthenticatorRequired_se : ready.dev.ne = false ∧ canDecode opSysNop (pk []) { ready with io := { ready.io with require := true } } = true := by decide
theorem test_witness_AuthenticatorRequired_set : (packetChecks opSysAuthSet (pk [0]) ready).1 = none ∧ canDecode opSysAuthSet (pk [0]) ready = true := by decide
theorem test_witness_AuthenticatorRequired_fails : (authVerify 0 [] [] { ready with io := { ready.io with authSlot := some 0 } }).1 = some .authFail := by decide
theorem test_witness_AuthenticatorRequired_ne : canDecode opSysAuthSet (pk [1]) { ready with dev := { ready.dev with ne := true } } = true ∧
    present_ opSysAuthSet.cls { ready with dev := { ready.dev with ne := true } } = true := by decide

/-! ### AuthenticatorCountsOnce -/
theorem test_witness_AuthenticatorCountsOnce : let s := setCmdSlot 0 { cmdSlot State.reset 0 with loaded := true, use := 1, limM1 := 9, key := List.replicate 32 0 } State.reset
    (cmdSlot s 0).loaded = true ∧ (cmdSlot s 0).use = 1 ∧ slotLeft (cmdSlot s 0) 1 = true ∧ (cmdSlot s 1).loaded = false := by decide

/-! ### ReplyWrittenWhole -/
theorem test_witness_ReplyWrittenWhole_now : Memory.wf offering.wm = true ∧ tblWf ringReset 0 offering.io.rings = true ∧ answers offering = true ∧
    replySlotOpen offering = true ∧ offering.io.late = [] ∧ offering.mem.testing = none := by decide
theorem test_witness_ReplyWrittenWhole_held : answers { ready with dev := { ready.dev with failover := true } } = false ∧ replySlotOpen State.reset = false := by decide
theorem test_witness_ReplyWrittenWhole : Memory.wf ready.wm = true ∧ tblWf ringReset 0 ready.io.rings = true ∧ ([] : List Word).length ≤ 12 := by decide

/-! ### CrcIsThePolynomialsRemainder -/
theorem test_witness_CrcIsThePolynomialsRemainder : (List.replicate 64 (0 : Byte)).length = 64 ∧ ((List.replicate 64 (0 : Byte)).getD 2 0).getLsbD 7 = false ∧
    ([] : List Word).length ≤ 12 := by decide

/-! ### RingRegisterWrites -/
theorem test_witness_RingRegisterWrites_enable : let s := setRing 0 { ringReset 0 with en := false } ready
    s.dev.ready = true ∧ (ring s 0).en = false ∧ ringCheck 0 { ring s 0 with size := 6 } s = true ∧ ringCheck 0 { ring s 0 with size := 1 } s = false ∧
      (0x106 : Word).getLsbD 8 = true ∧ (0x006 : Word).getLsbD 8 = false := by decide
theorem test_witness_RingRegisterWrites_enabled : ready.dev.ready = true ∧ (ring ready 0).en = true ∧ State.reset.dev.ready = false := by decide

/-! ### DoorbellWrites -/
theorem test_witness_DoorbellWrites_late : let s := { offering with io := { offering.io with late := [{ echo := packetEcho opSysNop (pk []), st := .ok, words := [] }] } }
    s.io.late = [{ echo := packetEcho opSysNop (pk []), st := .ok, words := [] }] ∧ answers s = true ∧ replySlotOpen s = true ∧ offering.io.late = [] := by decide
theorem test_witness_DoorbellWrites : ready.dev.ready = true ∧ (ring ready 0).en = true ∧ (ring ready 0).fault = false ∧ job ready 0 = none ∧ ready.keys.ops = [] ∧ (ring (setRing 0 { ringReset 0 with fault := true } ready) 0).fault = true ∧ (ring (setRing 0 { ringReset 0 with en := false } ready) 0).en = false ∧
    (ring (setRing 4 { ringReset 4 with en := false } ready) 4).en = false ∧
    (5 : Word).toNat % 65536 < slots (ring ready 0) ∧ slots (ring ready 0) ≤ (64 : Word).toNat % 65536 ∧ (ring ready 4).en = true ∧
    (5 : Word).toNat % 65536 < slots (ring ready 5) ∧ slots (ring ready 5) ≤ (16384 : Word).toNat % 65536 ∧ State.reset.dev.ready = false := by decide

/-! ### InterruptRegisters -/
theorem test_witness_InterruptRegisters : let s := setRing 0 { ringReset 0 with en := false } ready
    s.dev.ready = true ∧ (ring s 0).en = false ∧ ((ring s 1).en = true ∨ s.dev.ready = false) := by decide
theorem test_witness_InterruptRegisters_msix : let s := { ready with io := { ready.io with msix := [(1, { msixReset 1 with pend := true })] } }
    (0 : Word).getLsbD 0 = false ∧ (tget msixReset s.io.msix 1).pend = true ∧ s.io.pcie.msixOn = true ∧ s.io.pcie.msixMask = false ∧ irqSilent s.dev.mode = false := by decide

/-! ### SlotDecode -/
/-- `ready` with one posted slot: `SYS_NOP` with tag 7 at slot 0 of ring 0 (12 Table 12.6). -/
def posted (b2 : Byte) (crc : List Byte) (cls : Byte) : State :=
  { setRing 0 { ringReset 0 with db := 1 } ready with wm := writeBytes [] 0 ([cls, 0, b2, 0, 7, 0, 0, 0] ++ List.replicate 48 0 ++ crc) }
theorem test_witness_SlotDecode_owned : let s := posted 0x80 (leBytes 4 (crc32c ([1, 0, 0, 0, 7] ++ List.replicate 51 0)).toNat) 1
    let bs := readBytes s.wm 0 64
    (plansOpen s && ringOpen 0 s) = true ∧ (ring s 0).index ≠ (ring s 0).db ∧ (bs.getD 2 0).getLsbD 7 = true ∧ slotWaits 0 bs s = false ∧
      packetCrcOk bs = true ∧ (opOf (bs.getD 0 0).toNat (bs.getD 1 0).toNat).isSome = true := by decide +kernel
theorem test_witness_SlotDecode_unknown : let s := posted 0x80 (leBytes 4 (crc32c ([0x7F, 0, 0, 0, 7] ++ List.replicate 51 0)).toNat) 0x7F
    let bs := readBytes s.wm 0 64
    slotWaits 0 bs s = false ∧ packetCrcOk bs = true ∧ (opOf (bs.getD 0 0).toNat (bs.getD 1 0).toNat).isNone = true := by decide +kernel
theorem test_witness_SlotDecode_crc : let s := posted 0x80 [] 1
    slotWaits 0 (readBytes s.wm 0 64) s = false ∧ packetCrcOk (readBytes s.wm 0 64) = false := by decide +kernel
theorem test_witness_SlotDecode_unowned : let s := posted 0 [] 1
    (plansOpen s && ringOpen 0 s) = true ∧ (ring s 0).index ≠ (ring s 0).db ∧ ((readBytes s.wm 0 64).getD 2 0).getLsbD 7 = false := by decide +kernel

/-! ### SystemCommandReplies -/
theorem test_witness_SystemCommandReplies : takes opSysNop (pk []) ready = true ∧ takes opSysModeGet (pk []) ready = true ∧ takes opSysIoSet (pk [0xFFFF, 0, 0]) ready = true ∧
    takes opSysIoGet (pk [1]) ready = true ∧ takes opEvtMark (pk [5]) ready = true ∧ takes opEvtLogRead (pk [0x885000]) ready = true := by decide

/-! ### ModeAndFenceCommands -/
theorem test_witness_ModeAndFenceCommands : takes opSysModeSet (pk [4]) ready = true ∧ takes opSysModeSet (pk [8]) ready = true ∧ takes opSysModeSet (pk [2]) ready = true ∧
    takes opSysFenceSet (pk [1]) ready = true ∧ modeCode ready.dev.mode ≠ 8 ∧ failFences ready = false ∧ releasesFailed [1] ready = false ∧
    takes opSysModeSet (pk [4]) { ready with dev := { ready.dev with mode := .service } } = true := by decide
theorem test_witness_ModeAndFenceCommands_port : PortTurn (portJob 1 0x20 [4] []) (atPort 1 0x20 [4] [] ready) (takeSlot (atPort 1 0x20 [4] [] ready)) ∧
    (let s := atPort 1 0x20 [4] [] ready; failFences s = false ∧ committedMode s = .commissioning ∧ loopGenActive s = false ∧ alignPending s = false) ∧
    PortTurn (portJob 1 0x22 [1] []) (atPort 1 0x22 [1] [] ready) (takeSlot (atPort 1 0x22 [1] [] ready)) :=
  ⟨⟨by decide, by decide, by decide, by decide, rfl⟩, by decide, by decide, by decide, by decide, by decide, rfl⟩

/-! ### AbortOutcomes -/
/-- `ready` with a command in progress on ring 1. -/
def busyOn1 (cls act : Nat) (ab : Bool) (w : Work) : State :=
  setJob 1 (some { ring := 1, cls, act, tag := 9, abortable := ab, authed := false, params := [], image := [], taken := [], accepted := 0, work := w }) ready
theorem test_witness_AbortOutcomes_none : takes opSysAbort (pk [1, 9]) ready = true ∧ (job ready 1).isNone = true := by decide
theorem test_witness_AbortOutcomes_desc : takes opSysAbort (pk [1, 9]) (busyOn1 5 0x12 false (.desc 0)) = true ∧ (job (busyOn1 5 0x12 false (.desc 0)) 1).isSome = true := by decide
theorem test_witness_AbortOutcomes_conn : takes opSysAbort (pk [1, 9]) (busyOn1 5 0x10 true (.conn 0 (0, 0) (0, 0) [])) = true ∧ abortMarked 5 0x10 = true ∧ abortMarked 0x0E 0x12 = true ∧
    takes opSysAbort (pk [1, 9]) (busyOn1 5 0x10 false (.conn 0 (0, 0) (0, 0) [])) = true ∧ takes opSysAbort (pk [1, 9]) (busyOn1 0x0E 0x12 true (.eye 0)) = true := by decide
theorem test_witness_AbortOutcomes_more : takes opSysAbort (pk [1, 9]) (busyOn1 0x0B 0x12 true (.dump 1 0x85000 64 0)) = true ∧ takes opSysAbort (pk [1, 9]) (busyOn1 0x0B 0x12 true (.dumpWait 1 0)) = true ∧
    takes opSysAbort (pk [1, 9]) (busyOn1 0x0B 0x12 false (.dumpWait 0 0)) = true ∧ takes opSysAbort (pk [1, 9]) (busyOn1 0x0A 0x10 true (.memTest 1 0 0 0 0 0)) = true ∧
    abortMarked 0x0B 0x12 = true ∧ abortMarked 0x0A 0x10 = true := by decide
theorem test_witness_AbortOutcomes_later : let s := busyOn1 1 1 false (.abort false 2)
    answers s = true ∧ tblWf noJob 0 s.io.jobs = true ∧ (job s 1).isSome = true ∧ [0, 2, 3].all (fun q => (job s q).isNone) = true := by decide
/-- A queued cipher operation on channel 0. -/
def queuedOp (st : Nat) (ab : Bool) : CceOp :=
  { id := 0, job := { ring := 3, cls := 9, act := 0x14, tag := 9, abortable := ab, authed := false, params := [], image := [], taken := [], accepted := 0, work := .port },
    chan := 0, prio := 0, st, begun := decide (st ≠ 0), sAt := 0, gen := 0, iv := [], inv := 0, aad := [], src := 0, inp := [], dst := 0, held := false,
    fill := 0, wrote := 0, ctx := none }
theorem test_witness_AbortOutcomes_op (st : Nat) (ab : Bool) : takes opSysAbort (pk [3, 9]) { ready with keys := { ready.keys with ops := [queuedOp st ab] } } = true ∧
    ([queuedOp st ab].filter (fun o => o.job.tag == 9)).length = 1 := ⟨by rfl, by rfl⟩

/-! ### LaneSettings -/
theorem test_witness_LaneSettings : takes opLaneFrameSet (pk [0, 0]) ready = true ∧ takes opLaneSeedSet (pk [0x1C00, 5]) ready = true ∧
    takes opLaneAlignSet (pk [0x00843000 + 0x200000, 100]) ready = true := by decide
theorem test_witness_LaneSettings_port : PortTurn (portJob 2 0x10 [0, 0] []) (atPort 2 0x10 [0, 0] [] ready) (takeSlot (atPort 2 0x10 [0, 0] [] ready)) ∧ PortTurn (portJob 2 0x12 [0x1D00, 5] []) (atPort 2 0x12 [0x1D00, 5] [] ready) (takeSlot (atPort 2 0x12 [0x1D00, 5] [] ready)) ∧
    PortTurn (portJob 2 0x20 [0, 100] []) (atPort 2 0x20 [0, 100] [] ready) (takeSlot (atPort 2 0x20 [0, 100] [] ready)) ∧
    (seedView ready 0 true).2.1.epoch ≠ pf [0x1D00, 5] 0 13 10 ∧ (seedView ready 0 false).1.epoch = 0 ∧ txActive ready 0 = false ∧ isAligned (lane ready 0) = false := by
  refine ⟨⟨?_, ?_, ?_, ?_, rfl⟩, ⟨?_, ?_, ?_, ?_, rfl⟩, ⟨?_, ?_, ?_, ?_, rfl⟩, ?_, ?_, ?_, ?_⟩ <;> decide

/-! ### LaneReports -/
theorem test_witness_LaneReports : takes opLaneFrameGet (pk [0]) ready = true ∧ takes opLaneAlignGet (pk [0x100]) ready = true ∧ takes opLaneDefectSet (pk [0x4000, 0]) ready = true ∧
    takes opLaneDefectGet (pk [0]) ready = true ∧ takes opLaneMsgSend (pk [0x01000100, 0x85000]) ready = true ∧ takes opLaneMsgRead (pk [0x100, 0x85000]) ready = true ∧
    takes opLaneSerdesGet (pk [0, 0]) ready = true ∧ (lane ready 0).tx.queue.length < 4 ∧ laneFenced ready 0 = false ∧
    laneFenced { ready with dev := { ready.dev with fence := [(0, 1)] } } 0 = true ∧
    4 ≤ (lane (lane0 { laneReset 0 with tx := { txReset 0 with queue := List.replicate 4 { typ := 1, seq := 0, data := [], left := 1 } } }) 0).tx.queue.length := by decide

/-! ### SerdesSettings -/
theorem test_witness_SerdesSettings : takes opLaneTxSet (pk [0x100, 0, 0]) ready = true ∧ takes opLaneTxSet (pk [0x0FF, 0, 0]) ready = true ∧ takes opLaneRxSet (pk [0x100]) ready = true ∧
    takes opLaneLoopSet (pk [0x100]) ready = true ∧ laneFenced ready 0 = false ∧ (lane ready 0).sd.txEn = false ∧ loopMode ready = true ∧
    (lane (lane0 { laneReset 0 with sd := { serdesReset with txEn := true } }) 0).sd.txEn = true := by decide

/-! ### TestPatterns -/
theorem test_witness_TestPatterns : takes opTestPrbsSet (pk [0x100]) ready = true ∧ takes opTestPrbsGet (pk [0x100]) ready = true ∧ takes opTestEyeScan (pk [0x0A00, 0x85000, 0]) ready = true ∧
    laneFenced ready 0 = false ∧ loopMode ready = true ∧ (lane ready 0).sd.chkLock = false ∧ (lane ready 0).sd.bits ≤ cntMax ∧ (lane ready 0).sd.loop ≠ 3 ∧
    (lane (lane0 { laneReset 0 with sd := { serdesReset with chkEn := true, chkLock := true } }) 0).sd.chkLock = true ∧ takes opTestPrbsSet (pk [0x400]) (lane0 { laneReset 0 with sd := { serdesReset with chkEn := true, chkLock := true } }) = true ∧
    takes opTestPrbsGet (pk [0]) (lane0 { laneReset 0 with sd := { serdesReset with chkEn := true, chkLock := true } }) = true ∧ takes opTestPrbsSet (pk [0x500]) (lane0 { laneReset 0 with sd := { serdesReset with chkEn := true, chkLock := true } }) = true ∧
    (eyeJob ready 0).isNone = true ∧ (eyeJob (busyOn1 0x0E 0x12 false (.eye 0)) 0).isSome = true ∧ (List.replicate 4096 0).length = 4096 := by decide +kernel
theorem test_witness_TestPatterns_checker : let d := { serdesReset with chkEn := true }
    (lane (lane0 { laneReset 0 with sd := d }) 0).sd.chkEn = true ∧ (lane (lane0 { laneReset 0 with sd := d }) 0).sd.rxEn = true ∧
    (lane (lane0 { laneReset 0 with sd := d }) 0).sd.chkLock = false ∧ (lane (lane0 { laneReset 0 with sd := { d with chkLock := true } }) 0).sd.chkLock = true := by decide

/-! ### SerdesEvents -/
theorem test_witness_SerdesEvents : running ready = true ∧ (lane ready 0).sd.rxEn = true ∧ laneFenced ready 0 = false ∧ (lane ready 0).sd.los = true ∧ (lane ready 0).sd.above = 0 ∧
    (let d := { serdesReset with los := false, loop := 3, locked := true }
     let s := lane0 { laneReset 0 with sd := d }
     (lane s 0).sd.los = false ∧ (lane s 0).sd.hold = false ∧ lineLol (lane s 0).sd = false ∧ (lane s 0).sd.loop = 3) ∧
    (lane (lane0 { laneReset 0 with sd := { serdesReset with above := 1 } }) 0).sd.above = 1 ∧
    (lane (lane0 { laneReset 0 with sd := { serdesReset with los := false, hold := true } }) 0).sd.hold = true := by decide

/-! ### AlignmentEvents -/
/-- A lane with these alignment values. -/
def alignedAs (f : Align → Align) : Lane := { laneReset 0 with al := f alignReset, sd := { serdesReset with los := false, locked := true } }
/-- A tracker of a test. -/
def track (p : Nat) (q : Bool) : Tracker := { pos := p, cnt := 0, rev := false, qual := q, sec := 0, cyc := 0, fc := 0, epoch := 0 }
theorem test_witness_AlignmentEvents_lanes (f : Align → Align) : tblWf laneReset 0 (lane0 (alignedAs f)).lanes = true := by
  have h : alignedAs f ≠ laneReset 0 := fun h => absurd (show false = true from congrArg (fun x => x.sd.los) h) (by decide)
  change (decide (0 ≤ 0) && decide (alignedAs f ≠ laneReset 0) && true) = true
  simp [h]
theorem test_witness_AlignmentEvents_pattern : let s := lane0 (alignedAs (fun a => { a with header := false }))
    let bs (p : List Bool) : List Bool := p ++ List.replicate 1030 false
    (lane s 0).al.header = false ∧ 1 < (lane s 0).al.cfg.n ∧ (lane s 0).al.cfg.pol = 0 ∧ hamming patternN ((bs patternN).take 120) ≤ 3 ∧
    3 < hamming patternN ((bs patternR).take 120) ∧ hamming patternR ((bs patternR).take 120) ≤ 3 ∧
    3 < hamming patternN ((bs []).take 120) ∧ 3 < hamming patternR ((bs []).take 120) ∧ (bs patternN).length = 1150 := by decide +kernel
theorem test_witness_AlignmentEvents_new : let s := lane0 (alignedAs (fun a => { a with header := true }))
    let m : Marker := { lane := 0, pos := 5, arrival := 0, bits := List.replicate 1150 false }
    markerOk m = true ∧ running s = true ∧ (lane s 0).sd.rxEn = true ∧ laneFenced s 0 = false ∧ (lane s 0).al.pos.isNone = true ∧ (lane s 0).al.header = true ∧
    (lane s 0).al.next = [] ∧ (lane s 0).al.window.isNone = true ∧ lolCond s 0 = false ∧ (lane s 0).al.trk.length < 8 ∧ 0 < (lane s 0).al.cfg.delta ∧
    ((lane s 0).al.trk.find? (fun t => t.pos == 5)).isNone = true := by decide +kernel
theorem test_witness_AlignmentEvents_aligned : let s := lane0 (alignedAs (fun a => { a with pos := some 5 }))
    (lane s 0).al.pos = some 5 ∧ (lane s 0).al.gain = false ∧ (lane s 0).al.err < errLimit (lane s 0).al ∧ (lane s 0).al.window.isNone = true ∧
    (let s := lane0 (alignedAs (fun a => { a with pos := some 5, err := 9 })); errLimit (lane s 0).al ≤ (lane s 0).al.err) ∧
    (lane (lane0 { laneReset 0 with sd := { serdesReset with rxEn := false } }) 0).sd.rxEn = false := by decide
theorem test_witness_AlignmentEvents_window : let s (l : List Tracker) := lane0 (alignedAs (fun a => { a with window := some 5, trk := l }))
    ((lane (s [track 5 true]) 0).al.trk.filter (fun t => t.qual)).length = 1 ∧ ((lane (s []) 0).al.trk.filter (fun t => t.qual)).length = 0 ∧
    2 ≤ ((lane (s [track 5 true, track 6 true]) 0).al.trk.filter (fun t => t.qual)).length ∧ (lane (s []) 0).al.window.isSome = true ∧ (lane (s []) 0).al.pos.isNone = true := by decide
theorem test_witness_AlignmentEvents_recovery : let s (n : Nat) := { lane0 (alignedAs (fun a => { a with header := true, hunt := some 0, cfg := { a.cfg with recEn := true } })) with
      clk := { ready.clk with now := n } }
    (lane (s 0) 0).al.hunt = some 0 ∧ (lane (s 0) 0).al.header = true ∧ (lane (s 0) 0).al.pos.isNone = true ∧ (lane (s 0) 0).al.cfg.recEn = true ∧
    0 + 1000000 * (lane (s 0) 0).al.cfg.recMs ≤ (s 100000000).clk.now ∧ (s 5).clk.now < 0 + 1000000 * (lane (s 5) 0).al.cfg.recMs := by decide
theorem test_witness_AlignmentEvents_tracked : let s (hd : Bool) := lane0 (alignedAs (fun a => { a with header := hd, trk := [track 5 false] }))
    (lane (s true) 0).al.trk.find? (fun t => t.pos == 5) = some (track 5 false) ∧ (∀ u, u ∈ (lane (s true) 0).al.trk → u.pos = 5 → u.qual = false) ∧
    (lane (s true) 0).al.header = true ∧ (lane (s false) 0).al.header = false ∧ lolCond (s true) 0 = false ∧ (lane (s true) 0).al.pos = none ∧
    lolCond (lane0 { alignedAs (fun a => { a with trk := [track 5 false] }) with sd := { serdesReset with locked := false } }) 0 = true ∧
    (headerOf (List.replicate 1150 false)).ok = false := by decide +kernel

/-! ### SectionEvents -/
/-- A lane that transmits, with one message queued. -/
def sending : State :=
  { lane0 { laneReset 0 with sd := { serdesReset with txEn := true }, tx := { txReset 0 with queue := [{ typ := 1, seq := 0, data := [], left := 1 }] } } with
    clk := { ready.clk with ticks := 1 } }
theorem test_witness_SectionEvents_lanes : tblWf laneReset 0 sending.lanes = true := by
  have h : (lane sending 0) ≠ laneReset 0 := fun h => absurd (congrArg (fun x => x.tx.queue.length) h) (by decide)
  change (decide (0 ≤ 0) && decide (lane sending 0 ≠ laneReset 0) && true) = true
  simp [h]
theorem test_witness_SectionEvents_idle : let s (t : Tx → Tx) := { sending with lanes := [(0, { (lane sending 0) with tx := t { (txReset 0) with queue := [] } })] }
    (lane (s id) 0).tx.queue = [] ∧ (lane (s id) 0).tx.last = none ∧ (lane (s (fun t => { t with last := some 4 })) 0).tx.last = some 4 ∧ framerRuns (s id) 0 = true ∧
    engineDown { sending with spare := { sending.spare with wait := [(0, 0)] } } 0 = true := by decide +kernel
theorem test_witness_SectionEvents : framerRuns sending 0 = true ∧ (lane sending 0).tx.sec < 8 ∧ (lane sending 0).tx.queue.length = 1 ∧ engineDown sending 0 = false ∧
    framerRuns ready 0 = false ∧ 0 < sending.clk.ticks ∧ running sending = true ∧ (lane sending 0).rx.due = false ∧
    isAligned (alignedAs (fun a => { a with pos := some 5 })) = true ∧ nearLoop sending 0 = false ∧
    (let s := lane0 { laneReset 0 with sd := { serdesReset with loop := 1 } }; nearLoop s 0 = true ∧ (loopWords 0 s).isNone = true ∧ (loopBlock 0 5 s).isNone = true) := by
  decide +kernel

/-! ### DefectEvents -/
theorem test_witness_DefectEvents_lane : let s (n : Nat) (c d : BitVec 6) := { lane0 { laneReset 0 with ldef := { ldefReset with cond := c, decl := d } } with clk := { ready.clk with now := n } }
    running (s 0 1 0) = true ∧ (lane (s 0 1 0) 0).ldef.heldAt.isNone = true ∧ (lane (s 0 1 0) 0).ldef.cond.getLsbD 0 = true ∧ (lane (s 0 1 0) 0).ldef.decl.getLsbD 0 = false ∧
    max (tget zeroN (lane (s 0 1 0) 0).ldef.since 0) ready.dev.upAt + (lane (s 0 1 0) 0).ldef.tset * 125000 ≤ (s 2500000 1 0).clk.now ∧
    (s 0 1 0).clk.now < max (tget zeroN (lane (s 0 1 0) 0).ldef.since 0) ready.dev.upAt + (lane (s 0 1 0) 0).ldef.tset * 125000 ∧
    (lane (s 0 0 1) 0).ldef.cond.getLsbD 0 = false ∧ (lane (s 0 0 1) 0).ldef.decl.getLsbD 0 = true ∧
    max (tget zeroN (lane (s 0 0 1) 0).ldef.since 0) ready.dev.upAt + (lane (s 0 0 1) 0).ldef.tclear * 125000 ≤ (s 10000000 0 1).clk.now := by decide +kernel
theorem test_witness_DefectEvents_records : let s (e : BitVec 6) := lane0 { laneReset 0 with ldef := { ldefReset with en := e } }
    (lane (s 1) 0).ldef.en.getLsbD 0 = true ∧ (lane (s 0) 0).ldef.en.getLsbD 0 = false ∧
    (taDef (modTd false 5 (fun d => { d with en := 2 }) ready) false 5).en.getLsbD 1 = true ∧ (taDef (modTd false 5 (fun d => { d with en := 2 }) ready) false 5).en.getLsbD 3 = false := by decide +kernel
theorem test_witness_DefectEvents_egress : let s (n : Nat) (d : BitVec 4) (i : Option (Nat × Nat × Bool)) := { modTd true 5 (fun x => { x with decl := d, intAt := i }) ready with clk := { ready.clk with now := n } }
    running (s 0 8 none) = true ∧ (egTa (s 0 8 none) 5).df.decl.getLsbD 3 = true ∧ (egTa (s 0 8 none) 5).df.intAt = none ∧
    (egTa (s 10000000 8 (some (0, 1, true))) 5).df.intAt = some (0, 1, true) ∧ (egTa (s 0 8 (some (0, 1, true))) 5).df.decl.getLsbD 3 = true ∧ (egTa (s 0 0 none) 5).df.decl.getLsbD 3 = false ∧
    (let x := s 10000000 8 (some (0, 1, true)); 0 + (profile x (egTa x 5).df.prof).tclear * 125000 ≤ x.clk.now) ∧
    (let x := s 0 8 (some (0, 1, true)); x.clk.now < 0 + (profile x (egTa x 5).df.prof).tclear * 125000) := by decide
theorem test_witness_DefectEvents_ta : let s (c d : BitVec 4) := modTd false 5 (fun x => { x with cond := c, decl := d }) ready
    (inTa (s 1 0) 5).df.cond.getLsbD 0 = true ∧ (inTa (s 1 0) 5).df.decl.getLsbD 0 = false ∧ (inTa (s 0 1) 5).df.cond.getLsbD 0 = false ∧ (inTa (s 0 1) 5).df.decl.getLsbD 0 = true ∧
    (lane (s 1 0) 0).ldef.heldAt.isNone = true ∧ running (s 1 0) = true := by decide
/-- A tributary of 8 grains whose `DEG` window has ended. -/
def degOver (c e : Nat) (d : BitVec 4) : State :=
  modTd false 5 (fun x => { x with checked := c, errors := e, decl := d }) { ready with
    clk := { ready.clk with ticks := 64010 }, trib := { ready.trib with inMap := [(0, [(0, { gen := 0, ents := (List.range 8).map (fun i => (i, 5)) })])] } }
theorem test_witness_DefectEvents_window : degDue (degOver 0 0 0) 5 = true ∧ degDue (degOver 64000 64000 0) 5 = true ∧ degDue ready 5 = false ∧
    (inTa (degOver 0 0 0) 5).df.checked < 32000 * (inTa (degOver 0 0 0) 5).df.winS ∧
    (let s := degOver 64000 32000 0; (degN (taSize s false 5 (curCycle s)) (inTa s 5).df.winExp (inTa s 5).df.winS).1 ≤ (inTa s 5).df.errors) ∧
    (let s := degOver 64000 0 2; (inTa s 5).df.errors < (degN (taSize s false 5 (curCycle s)) (inTa s 5).df.winExp (inTa s 5).df.winS).1 ∧ (inTa s 5).df.decl.getLsbD 1 = true) := by
  decide +kernel

/-! ### TribSettings -/
theorem test_witness_TribSettings : takes opTribMapLoad (pk [0, 0x85000]) ready = true ∧ takes opTribSet (pk [0x40000, 0x180000 + 0x3FFFF, 0]) ready = true ∧ takes opTribTimingSet (pk [0x100]) ready = true ∧
    mapBusy ready [0, 0x85000] = false ∧ (readDesc ready 0x85000).own = false ∧ mapBusy (atPort 3 0x10 [0, 0] [] ready) [0, 0x85000] = true := by decide
theorem test_witness_TribSettings_desc : let s (w3 : Nat) (len : Nat) := wmPut 0x85000 (leBytes 4 0x86000 ++ leBytes 4 len ++ leBytes 4 0 ++ leBytes 4 w3) ready
    (readDesc (s 0xC0000000 0) 0x85000).own = true ∧ (readDesc (s 0xC0000000 0) 0x85000).bad = false ∧ (readDesc (s 0xC0000000 0) 0x85000).last = true ∧
    (crc32c (readBytes (s 0xC0000000 0).wm 0x86000 0)).toNat = (readDesc (s 0xC0000000 0) 0x85000).dcrc ∧ (readDesc (s 0x80000000 0) 0x85000).last = false ∧ (readDesc (s 0xC0000000 0) 0x85000).len ≠ 196608 ∧ (readDesc (s 0xC0000000 196608) 0x85000).len = 196608 ∧
    (crc32c (readBytes (s 0xC0000000 8).wm 0x86000 8)).toNat ≠ (readDesc (s 0xC0000000 8) 0x85000).dcrc ∧ ([] : List Byte).length ≠ 196608 := by decide +kernel
theorem map_zeros : ∀ (n g : Nat), (parseMap g (List.replicate (2 * n) (0 : Byte))).isSome = true
  | 0, _ => rfl
  | n + 1, g => by
    have := map_zeros n (g + 1)
    rw [show 2 * (n + 1) = 2 * n + 1 + 1 by omega, List.replicate_succ, List.replicate_succ]
    unfold parseMap
    simp only [show ((0 : Byte).toNat / 4 % 32 ≠ 0) = False by decide, if_false]
    cases h : parseMap (g + 1) (List.replicate (2 * n) (0 : Byte)) with
    | none => rw [h] at this; simp at this
    | some l => simp
theorem test_witness_TribSettings_map : (List.replicate 196608 (0 : Byte)).length = 196608 ∧ (parseMap 0 (List.replicate 196608 (0 : Byte))).isSome = true :=
  ⟨List.length_replicate .., map_zeros 98304 0⟩
theorem test_witness_TribSettings_port : PortTurn (portJob 3 0x10 [0, 0] []) (atPort 3 0x10 [0, 0] [] ready) (takeSlot (atPort 3 0x10 [0, 0] [] ready)) ∧ PortTurn (portJob 3 0x11 [0x40000, 0x180000 + 0x3FFFF, 0] []) (atPort 3 0x11 [0x40000, 0x180000 + 0x3FFFF, 0] [] ready) (takeSlot (atPort 3 0x11 [0x40000, 0x180000 + 0x3FFFF, 0] [] ready)) ∧
    PortTurn (portJob 3 0x13 [0] []) (atPort 3 0x13 [0] [] ready) (takeSlot (atPort 3 0x13 [0] [] ready)) ∧
    mapBad [0, 0] { gen := 0, ents := [] } 1 (atPort 3 0x10 [0, 0] [] ready) ++ protMapBad [0, 0] { gen := 0, ents := [] } (atPort 3 0x10 [0, 0] [] ready) = [] ∧
    protTribSet ready [0x40000, 0x180000 + 0x3FFFF, 0] = false := by
  refine ⟨⟨?_, ?_, ?_, ?_, rfl⟩, ⟨?_, ?_, ?_, ?_, rfl⟩, ⟨?_, ?_, ?_, ?_, rfl⟩, ?_, ?_⟩ <;> decide

/-! ### TribReportsAndDefects -/
/-- `ready` with tributary 5 of 8 grains, both ways. -/
def withTrib : State := { ready with trib := { ready.trib with
  inMap := [(0, [(0, { gen := 0, ents := (List.range 8).map (fun i => (i, 5)) })])], egMap := [(0, [(0, { gen := 0, ents := (List.range 8).map (fun i => (i, 5)) })])] } }
theorem test_witness_TribReportsAndDefects : takes opTribGet (pk [5]) withTrib = true ∧ takes opTribGet (pk [0x40005]) withTrib = true ∧ 0 < taSize withTrib true 5 (curCycle withTrib) ∧ taSize ready false 5 (curCycle ready) = 0 ∧ taSize ready true 5 (curCycle ready) = 0 ∧
    takes opTribGet (pk [5]) ready = true ∧ takes opTribGet (pk [0x40005]) ready = true ∧
    0 < taSize withTrib false 5 (curCycle withTrib) ∧ takes opTribDefectProfileSet (pk [0xA8, 0]) ready = true ∧ takes opTribDefectSet (pk [0x40005, 0]) ready = true ∧
    takes opTribDefectSet (pk [5, 0x10]) ready = true ∧ takes opTribDefectGet (pk [5]) ready = true := by decide

/-! ### AccordCommands -/
theorem test_witness_AccordCommands : takes opAccordSet (pk [0xC000, 1, 1]) ready = true ∧ takes opAccordMemberSet (pk [0x100000, 0]) ready = true ∧ takes opAccordGet (pk [0, 0x85000]) ready = true ∧
    (accNew ready 0).en = false ∧ memberNew withTrib 5 = none ∧ taSize withTrib false 5 1 ≠ 0 ∧
    (let s := putAcc 0 0 { accSetReset with en := true, aligned := true, depth := 1 } withTrib; (accNew s 0).aligned = true ∧ tget noMember (accNew s 0).mem 0 = noTa ∧ s.conn.eq.any (fun x => x.2.ta == 5 && x.2.st != 0) = false ∧
      unitsFor (taSize s false 5 1) (accNew s 0).depth ≤ freeUnits s 1 ∧ (accNew s 0).depth ≤ 48) ∧
    (accNew (putAcc 0 0 { accSetReset with en := true } ready) 0).en = true ∧ (accNew (putAcc 0 0 { accSetReset with en := true } ready) 0).aligned = false := by decide
theorem test_witness_AccordCommands_port : PortTurn (portJob 4 0x10 [0xC000, 1, 1] []) (atPort 4 0x10 [0xC000, 1, 1] [] ready) (takeSlot (atPort 4 0x10 [0xC000, 1, 1] [] ready)) ∧ PortTurn (portJob 4 0x10 [0, 0, 0] []) (atPort 4 0x10 [0, 0, 0] [] ready) (takeSlot (atPort 4 0x10 [0, 0, 0] [] ready)) ∧
    PortTurn (portJob 4 0x11 [0x100000, 0] []) (atPort 4 0x11 [0x100000, 0] [] ready) (takeSlot (atPort 4 0x11 [0x100000, 0] [] ready)) ∧ memberSetCheck [0x100000, 0] 1 ready = some .notInMode := by
  refine ⟨⟨?_, ?_, ?_, ?_, rfl⟩, ⟨?_, ?_, ?_, ?_, rfl⟩, ⟨?_, ?_, ?_, ?_, rfl⟩, ?_⟩ <;> decide
theorem test_witness_AccordCommands_enabled : let s := putAcc 0 0 { accSetReset with en := true, aligned := true } (atPort 4 0x10 [0xC000, 1, 1] [] ready)
    (accNow s 0).en = true ∧ (accNow s 0).aligned = true ∧ (accNew s 0).en = true ∧ s.clk.cyc = 0 ∧ running s = true ∧ (accNew s 0).depth ≠ pf [0xC000, 1, 1] 1 6 0 ∧
    ((List.range 64).filter (fun p => (accordAct 0 s).2.contains p)) = [] ∧ memberSetCheck [0x100000, 0] 1 s = none ∧ taSize s false 0 1 = 0 := by decide +kernel

/-! ### StoreReport -/
theorem test_witness_StoreReport : takes opAccordStoreGet (pk []) ready = true ∧ accordUnits ready 0 + eqUnits ready 0 + checkedUnits ready 0 ≤ 65536 := by decide

/-! ### ConnCommands -/
/-- A command on ring 0 that has committed `n` entries. -/
def connJob (act n : Nat) (ws : List Word) : Job := { portJob 5 act ws [] with work := .conn n (0, 0) (0, 0) [] }
/-- The port's turn is that command's. -/
def atConn (act n : Nat) (ws : List Word) (s : State) : State := setJob 0 (some (connJob act n ws)) { s with clk := { s.clk with ticks := 1 } }
theorem test_witness_ConnCommands : takes opConnSet (pk [1, 0, 0x1000000]) ready = true ∧ takes opConnLoad (pk [0x85000, 0]) ready = true ∧ takes opConnLoad (pk [0x85000, 1]) ready = true ∧
    takes opConnGet (pk [5]) ready = true ∧ takes opConnDelay (pk [5]) ready = true ∧ takes opConnOccupancyGet (pk [0x85000]) ready = true ∧
    ¬ (∃ r < pf [1, 0, 0x1000000] 0 2 0, protOwns ready (pf [1, 0, 0x1000000] (1 + 2 * r) 23 0) = true) ∧ (readDesc ready 0x85000).own = false := by decide
theorem test_witness_ConnCommands_port : PortTurn (connJob 0x10 0 [1, 0, 0x1000000]) (atConn 0x10 0 [1, 0, 0x1000000] ready) (takeSlot (atConn 0x10 0 [1, 0, 0x1000000] ready)) ∧ connNext (connJob 0x10 0 [1, 0, 0x1000000]) 0 = some (.conn 0 0x1000000 false) ∧
    connNext (connJob 0x10 1 [1, 0, 0x1000000]) 1 = none ∧ connNext (connJob 0x10 0 [1, 0x1000000, 0]) 0 = some (.conn 0 0 true) ∧ followTa 0 0 1 ready = none ∧
    blockReason ready 0 (wd 0x1000000) = 0 ∧ ready.conn.bad.contains 0 = false := by
  refine ⟨⟨?_, ?_, ?_, ?_, rfl⟩, ?_, ?_, ?_, ?_, ?_, ?_⟩ <;> decide
theorem test_witness_ConnCommands_image : let d := leBytes 4 0x0601 ++ leBytes 4 1 ++ leBytes 8 0 ++ leBytes 8 0
    let s := wmPut 0x86000 d (wmPut 0x85000 (leBytes 4 0x86000 ++ leBytes 4 24 ++ leBytes 4 (crc32c d).toNat ++ leBytes 4 0xC0000000) ready)
    (readDesc s 0x85000).own = true ∧ (readDesc s 0x85000).bad = false ∧ (readDesc s 0x85000).last = true ∧ (crc32c (readBytes s.wm 0x86000 24)).toNat = (readDesc s 0x85000).dcrc ∧
    imageOk (readBytes s.wm 0x86000 24) 24 = true ∧ imageOwned (readBytes s.wm 0x86000 24) s = false ∧ imageOk [] 0 = false := by decide +kernel

/-! ### BlockReasons -/
theorem test_witness_BlockReasons : tblWf connReset 0 (atConn 0x10 0 [1, 0, 0] ready).conn.com = true ∧ PortTurn (connJob 0x10 0 [1, 0, 0]) (atConn 0x10 0 [1, 0, 0] ready) (takeSlot (atConn 0x10 0 [1, 0, 0] ready)) ∧
    connNext (connJob 0x10 0 [1, 0, 0]) 0 = some (.conn 0 0 false) ∧ isSource (wd 0) = true ∧ isSource (committed (atConn 0x10 0 [1, 0, 0] ready) 0).data = false ∧ (atConn 0x10 0 [1, 0, 0] ready).conn.bad.contains 0 = false := by
  refine ⟨?_, ⟨?_, ?_, ?_, ?_, rfl⟩, ?_, ?_, ?_, ?_⟩ <;> decide
/-- `n` destinations of lane 0, from 1 on, read source grain 0 with the multiplier `m` (0: one source, 1: a source each). -/
def routes (n m : Nat) : Tbl ConnRec := (List.range' 1 n).map (fun g => (g, { connReset 0 with data := wd (m * (g - 1)) }))
theorem test_witness_BlockReasons_wide : let s : State := { ready with conn := { ready.conn with com := routes 256 0 } }
    tblWf connReset 0 s.conn.com = true ∧ fanOut s 0 = 256 ∧ blockReason s 0 (wd 0) = 2 := by decide +kernel

/-! ### RouteLimitsKept -/
theorem test_witness_RouteLimitsKept : blockReason State.reset 0 (wd 0x1000000) = 0 ∧ reachesT2 0 = true ∧ portOpen (atConn 0x10 0 [1, 0, 0] ready) = true ∧
    tblWf connReset 0 (routes 256 0) = true := by decide +kernel

/-! ### EqCommands -/
/-- Binding 0 in a given state. -/
def bound (x : EqBind) (s : State) : State := setEq 0 x s
theorem test_witness_EqCommands : takes opConnEqSet (pk [0x2000, 0x40000 * 64, 5]) ready = true ∧ takes opConnEqGet (pk [0x2000]) ready = true ∧
    (let x := { eqReset 0 with st := 2, lockAt := some 9, omega := 3 }; (eqForce (bound x ready) 0).st = 2 ∧ (eqForce (bound x ready) 0).lockAt = some 9 ∧ eqUntil (bound x ready) 0 = none ∧
      eqUntil (eqCommit 0 7 x (bound x ready)) 0 = some 7 ∧ (eqForce (eqCommit 0 7 x (bound x ready)) 0).lockAt = some 9) ∧
    (let x := { eqReset 0 with st := 3, fails := 16 }; (eqForce (bound x ready) 0).st = 3 ∧ (eqForce (bound x ready) 0).matchN ≤ (eqForce (bound x ready) 0).fails) ∧
    (eqBind ready 0).st = 0 ∧ running ready = true := by decide
theorem test_witness_EqCommands_set : let s (ws : List Word) := atPort 5 0x15 ws [] withTrib
    eqSetCheck [0x2000, 0x1000005, 5] 1 (s [0x2000, 0x1000005, 5]) = none ∧ eqSetCheck [0x6000, 0x1000005, 0x20000005] 1 (s [0x6000, 0x1000005, 0x20000005]) = none ∧
    effTick (s []) = 1 ∧ eqSame (eqReset 0) [0x2000, 0x1000005, 5] = false ∧ eqSame { eqReset 0 with st := 1, ta := 5, s := 5 } [0x2000, 0x1000005, 5] = true := by decide +kernel
theorem test_witness_EqCommands_port : PortTurn (portJob 5 0x15 [0, 0, 0] []) (atPort 5 0x15 [0, 0, 0] [] ready) (takeSlot (atPort 5 0x15 [0, 0, 0] [] ready)) ∧ PortTurn (portJob 5 0x15 [0x2000, 0x1000000, 5] []) (atPort 5 0x15 [0x2000, 0x1000000, 5] [] ready) (takeSlot (atPort 5 0x15 [0x2000, 0x1000000, 5] [] ready)) ∧
    taSize ready false 0 1 = 0 ∧ eqSetCheck [0x2000, 0x1000000, 5] 1 ready = some .badParam := by
  refine ⟨⟨?_, ?_, ?_, ?_, rfl⟩, ⟨?_, ?_, ?_, ?_, rfl⟩, ?_, ?_⟩ <;> decide

/-! ### CrossoverPassWrites -/
/-- Half a cycle into cycle 2. -/
def midCycle (s : State) : State := { s with clk := { s.clk with ticks := 3, now := s.clk.now + 8000 } }
theorem test_witness_CrossoverPassWrites : tblWf connReset 0 (routes 4 1) = true ∧ running (midCycle ready) = true ∧ passPending (midCycle ready) = true ∧ 3907 ≤ nsOf (midCycle ready).clk ∧
    [0, 14155775].all gaOk = true ∧ [({ store := 1, bank := 2, addr := 3, grains := [(5, 7)], after := 0 } : BadWord)].all badWordWf = true ∧ relBuf (midCycle ready) 4 = none ∧ passPending ready = false ∧
    (let s (w : Word) : State := { ready with conn := { ready.conn with com := [(5, { connReset 0 with data := w })] } }
     entryFill (inForce (s 0x01000000) 0 5).data = 1 ∧ entryFill (inForce (s 0x02000000) 0 5).data = 2 ∧ entryFill (inForce (s 0) 0 5).data = 0 ∧ entryFill (inForce (s 0) 0 6).data = 3) := by decide +kernel

/-! ### ApertureWrites -/
theorem test_witness_ApertureWrites_locked : lockAllows ready 2 1 = true ∧ lockAllows { ready with mem := { ready.mem with locks := [(2, some 0)] } } 2 1 = false ∧
    apertureRead ready 0x4000000 = 0x03000000 := by decide
theorem test_witness_ApertureWrites : portOpen ready = false ∧ (atConn 0x10 0 [1, 0, 0] ready).port.waiting = [] ∧ portOpen (atConn 0x10 0 [1, 0, 0] ready) = true ∧ tblWf connReset 0 (atConn 0x10 0 [1, 0, 0] ready).conn.com = true ∧
    blockReason (atConn 0x10 0 [1, 0, 0] ready) 14155775 0x1000000 = 0 ∧ blockReason (atConn 0x10 0 [1, 0, 0] ready) 0 5 = 0 ∧ fld (0x1000000 : Word) 26 24 ≤ 3 ∧ 14155776 ≤ fld (0xFFFFFF : Word) 23 0 ∧ isSource 0x1000000 = false := by decide

/-! ### ProtectionCommands -/
/-- Group 0 as given. -/
def groupAs (g : PGroup) (s : State) : State := setGroup 0 g s
theorem test_witness_ProtectionCommands : takes opProtGroupSet (pk [0, 0, 0, 0, 0, 0, 0, 0]) ready = true ∧ takes opProtGroupSet (pk [0x10000, 0, 1, 2, 0, 0, 0, 0]) ready = true ∧
    takes opProtCmd (pk [0x10000]) ready = true ∧ takes opProtCmd (pk [0x40000]) ready = true ∧ takes opProtGet (pk [0x10000]) ready = true ∧ (group ready 0).en = false ∧
    enableOk ready 0 (groupOf [0x10000, 0, 1, 2, 0, 0, 0, 0] (groupReset 0)) = false ∧
    (let s := groupAs { groupReset 0 with en := true } ready; (group s 0).en = true ∧ (group s 0).requireEq = false ∧ highReq (present s 0) = none ∧ (group s 0).typ ≠ 2 ∧ (group s 0).ext ≠ 0xA) := by decide
theorem test_witness_ProtectionCommands_enable : enableOk withTrib 0 (groupOf [0x10000, 5, 5, 5, 0, 0, 0, 0] (groupReset 0)) = true := by decide +kernel

/-! ### ProtectionRows -/
/-- Group 0 enabled, with a switch of one write waiting. -/
def running1 (follow : Bool) : State := groupAs { groupReset 0 with en := true, run := some { alt := true, left := [.conn 0 0x1000000 follow], started := false, chain := false, written := 0 } } (atConn 0x10 0 [1, 0, 0] ready)
theorem test_witness_ProtectionRows_rdi : let s := groupAs { groupReset 0 with en := true, run := some { alt := true, left := [.rdi 5 true], started := false, chain := false, written := 0 } } (atConn 0x10 0 [1, 0, 0] ready)
    portOpen s = true ∧ nextGroup s = some 0 ∧ (group s 0).run.isSome = true := by decide
theorem test_witness_ProtectionRows : portOpen (running1 false) = true ∧ nextGroup (running1 false) = some 0 ∧ nextGroup (running1 true) = some 0 ∧ (group (running1 false) 0).run.isSome = true ∧
    followTa 0 0x1000000 (effTick (running1 true)) (running1 true) = none ∧ blockReason (running1 false) 0 (wd 0x1000000) = 0 ∧ (running1 false).conn.bad.contains 0 = false ∧
    (let s := groupAs { groupReset 0 with en := true, rev := 1, requireEq := true, req := 2, wtrS := 0 } ready
     (group s (setHead s 0)).rev = 1 ∧ (group s (setHead s 0)).held = false ∧ (group s (setHead s 0)).wtrAt + (group s (setHead s 0)).wtrS * 1000000000 ≤ s.clk.now ∧ setEqualised s 0 = false ∧
       (group s (setHead s 0)).req = 2 ∧ running s = true ∧ s.dev.failover = false ∧ (group s 0).en = true) := by decide
/-- A reverting set whose wait to restore runs for `w` seconds. -/
def reverting (w : Nat) (h q : Bool) : State := groupAs { groupReset 0 with en := true, rev := 1, requireEq := q, req := 2, wtrS := w, held := h } ready
theorem test_witness_ProtectionRows_revert : running (reverting 0 false false) = true ∧ (reverting 0 false false).cp.none_ = false ∧ (group (reverting 0 false false) 0).en = true ∧
    (group (reverting 0 false false) (setHead (reverting 0 false false) 0)).requireEq = false ∧
    (let s := reverting 1 false true; s.clk.now < (group s (setHead s 0)).wtrAt + (group s (setHead s 0)).wtrS * 1000000000) ∧
    (group (reverting 0 true true) (setHead (reverting 0 true true) 0)).held = true := by decide
/-- An enabled group with a trigger declared at 0 that `HOLD_OFF` = 1 (100 ms) keeps back, at elapsed time `t`. -/
def holding (t : Nat) : State := let s := groupAs { groupReset 0 with en := true, holdOff := 1, since := [(0, some 0)] } ready
  { s with clk := { s.clk with now := t } }
theorem test_witness_ProtectionRows_hold : running (holding 0) = true ∧ (∀ i < 6, ∀ t ∈ tget noTime (group (holding 0) 0).since i, (holding 0).clk.now < t + (group (holding 0) 0).holdOff * 100000000) ∧
    (∃ t ∈ tget noTime (group (holding 100000000) 0).since 0, t + (group (holding 100000000) 0).holdOff * 100000000 ≤ (holding 100000000).clk.now) ∧ (group (holding 100000000) 0).ok = 0 := by decide
/-- Groups 0 and 1 due, of which 1 has the higher priority. -/
def twoDue : State := { ready with prot := [(0, { groupReset 0 with en := true, due := true }), (1, { groupReset 1 with en := true, due := true, prio := 9 })] }
theorem test_witness_ProtectionRows_start : running twoDue = true ∧ (group twoDue 0).en = true ∧ setHead twoDue 1 = 1 ∧ (group twoDue 0).due = true ∧ (group twoDue 1).due = true ∧
    (group twoDue (setHead twoDue 0)).prio < (group twoDue 1).prio := by decide

/-! ### TimeCommands -/
theorem test_witness_TimeCommands : takes opTimeRefSet (pk [0xB4A0, 8000, 0]) ready = true ∧ takes opTimeRefSet (pk [0xB480, 8000, 0]) ready = true ∧ takes opTimeRefGet (pk [0x20]) ready = true ∧
    takes opTimeDpllGet (pk []) ready = true ∧ takes opTimeDpllSteer (pk [0, 0, 0]) ready = true ∧ takes opTimeDpllSteer (pk [1, 5, 0]) ready = true ∧ takes opTimeDpllSteer (pk [2, 0, 0]) ready = true ∧
    takes opTimeDpllSteer (pk [3, 5, 0]) ready = true ∧ takes opTimeDpllSteer (pk [4, 0x85000, 8]) ready = true ∧ takes opTimeOutSet (pk [0x48, 0]) ready = true ∧ takes opTimeOutSet (pk [0xC, 0x100000]) ready = true ∧
    takes opTimeTodSet (pk [3, 5, 0]) ready = true ∧ takes opTimeTodSet (pk [0, 0, 0]) ready = true := by decide
theorem test_witness_TimeCommands_sel : takes opTimeSelSet (pk [0, 1 + 1024 + 262144, 1 + 65536, 0x916]) ready = true ∧ (refC ready 0).en = false ∧ ready.time.dpll.st ≠ .steered ∧
    (let s := { ready with time := { ready.time with dpll := { ready.time.dpll with st := .steered }, sel := { ready.time.sel with host := true } } }
     takes opTimeDpllSteer (pk [1, 5, 0]) s = true ∧ s.time.dpll.st = .steered ∧ s.time.sel.host = true ∧ takes opTimeDpllSteer (pk [3, 5, 0]) s = true) ∧ ready.time.sel.host = false ∧
    (let s := setRef 9 { refC ready 9 with lane := some 0 } ready; takes opTimeRefSet (pk [0xB4A8, 0, 0]) s = true ∧ (refC s 9).lane = (refSettings [0xB4A8, 0, 0] (refC s 8)).lane) ∧
    (let s := setRef 0 { refC ready 0 with en := true } ready; takes opTimeRefSet (pk [0xB4A0, 8000, 0]) s = true ∧ (refC s 0).en = true ∧ (refSettings [0xB4A0, 8000, 0] (refC s 0)).freq ≠ (refC s 0).freq) := by decide

/-! ### TickCommands -/
/-- A word of `FTICK_IN` that carries FC 5 at its marker. -/
def word5 : List Nat := 3000 :: (List.replicate 29 1000 ++ [2000, 1000, 2000] ++ List.replicate 31 1000)
theorem test_witness_TickCommands : takes opTimeTickSet (pk [0, 0, 0, 1]) ready = true ∧ takes opTimeTickSet (pk [4, 0, 0, 1]) ready = true ∧ takes opTimeTickGet (pk [1]) ready = true ∧
    ready.dev.mode = .commissioning ∧ allSquelched ready = true ∧ ftickWord word5 = some 5 ∧ ftickWord [] = none ∧ running ready = true ∧ ready.tick.failed = 0 ∧ ready.cp.svaOk = true ∧ ready.clk.ticks = 0 ∧
    (let s := { ready with tick := { ready.tick with follower := true, link := { ready.tick.link with prev := some (5 - 64) } }, clk := { ready.clk with ticks := 9, fc := 68, cyc := 3 } }
     ftickListens s = true ∧ 0 < s.clk.ticks ∧ s.tick.follower = true ∧ s.tick.link.prev = some (5 - 64) ∧ (5 : Word) = s.clk.fc - 63) ∧ ftickListens ready = false ∧
    (let s := setJob 0 (some { portJob 7 0x18 [5, 0, 0, 1] [] with work := .tick 40000000 }) { ready with tick := { ready.tick with link := { ready.tick.link with prev := some 5, valid := true, good := 2 } } }
     ftickListens s = true ∧ s.tick.follower = false ∧ s.tick.link.valid = true ∧ 2 ≤ s.tick.link.good ∧ pb [5, 0, 0, 1] 0 2 = true) := by decide
theorem test_witness_TickCommands_squelch : allSquelched (lane0 { laneReset 0 with sd := { serdesReset with txEn := true } }) = false ∧
    (let s := setJob 0 (some { portJob 7 0x18 [1, 0, 0, 1] [] with work := .tick 0 }) ready; (job s 0).isSome = true ∧ pb [1, 0, 0, 1] 0 2 = false) := by decide

/-! ### ReferenceRows -/
/-- Candidate 0 as given. -/
def refAs (r : RefC) : State := setRef 0 r ready
theorem test_witness_ReferenceRows : running ready = true ∧ (refC (refAs { refReset 0 with en := true }) 0).en = true ∧ (refC ready 0).en = false ∧
    (let s := refAs { refReset 0 with en := true, st := 2, offset := some 5 }; (refC s 0).en = true ∧ (refC s 0).st = 2 ∧ (refC s 0).macAt ≤ s.clk.now ∧ (refC s 0).offset.isSome = true) ∧
    (let s := refAs { refReset 0 with en := true, cause := 1, st := 3 }; (refC s 0).cause ≠ 0 ∧ (refC s 0).st ≠ 1) ∧
    (let s := { ready with time := { ready.time with dpll := { ready.time.dpll with swAt := some 0 } }, clk := { ready.clk with now := 60000000000 } }; s.time.dpll.swAt = some 0 ∧ 0 + 60000000000 ≤ s.clk.now) ∧
    ready.time.dpll.swAt = none ∧ [({ ref := 0, phase := 0, gate := none, edges := false } : RefMeas)].all (fun m => decide (m.ref < 25)) = true := by decide
theorem test_witness_ReferenceRows_select : (let s := { ready with time := { ready.time with sel := { ready.time.sel with mode := 2, ref := 0 } } }; s.time.sel.mode = 2 ∧ selectRef s ≠ some 0 ∧ selectRef s = s.time.dpll.sel) ∧
    (let s := { refAs { refReset 0 with en := true, st := 3, qlFixed := 2 } with time := { (refAs { refReset 0 with en := true, st := 3, qlFixed := 2 }).time with sel := { ready.time.sel with mode := 1, ref := 0 } } }
     refState s 0 = 3 ∧ (refC s 0).lockout = false ∧ qlRank (effQl (refC s 0)) ≠ 0 ∧ selectRef s = some 0 ∧ s.time.dpll.sel = none ∧ s.time.dpll.swAt = none) := by decide
theorem test_witness_ReferenceRows_auto : (let s := refAs { refReset 0 with en := true, st := 3, qlFixed := 2 }
    refState s 0 = 3 ∧ (refC s 0).lockout = false ∧ qlRank (effQl (refC s 0)) ≠ 0 ∧ pickAuto s = some 0) ∧ pickAuto ready = none := by decide

/-! ### LoopRows -/
/-- The DPLL in a state. -/
def dpllAs (f : Dpll → Dpll) : State := { ready with time := { ready.time with dpll := f ready.time.dpll } }
theorem test_witness_LoopRows : running ready = true ∧ ready.time.dpll.active < 2 ∧ 1 ≠ ready.time.dpll.active ∧ (dpllAs (fun d => { d with st := .locked })).time.dpll.st = .locked ∧ ready.time.dpll.st ≠ .locked ∧
    (let s := { dpllAs (fun d => { d with st := .acquire, sel := some 0, okAt := some 0 }) with clk := { ready.clk with now := 2000000000000000 } }
     s.time.dpll.okAt = some 0 ∧ s.time.dpll.sel.isSome = true ∧ 0 + lockTime s ≤ s.clk.now) ∧ (dpllAs (fun d => { d with st := .drydown })).time.dpll.st = .drydown ∧
    ready.time.dpll.failed = 0 ∧ ready.cp.svaOk = true ∧ (dpllAs (fun d => { d with failed := 1 })).time.dpll.failed < 2 := by decide

/-! ### TimeOfDayRows -/
/-- A time message: seconds 5, level 2. -/
def todBytes : List Byte := let b : List Byte := [0xC7, 0x3E, 0x01, 2] ++ beBytes 6 5 ++ [0, 0, 0, 0]; b ++ beBytes 2 (hcrc b).toNat
/-- The time input 100 ms after an edge. -/
def tinAs (f : Tin → Tin) (now : Nat) : State := { ready with time := { ready.time with tin := f ready.time.tin }, clk := { ready.clk with now } }
theorem test_witness_TimeOfDayRows : running ready = true ∧ ready.time.tin.edge = none ∧ todValid todBytes (tinAs (fun t => { t with edge := some 0 }) 100000000) = true ∧ todValid [] ready = false ∧
    (let s := tinAs (fun t => { t with edge := some 0, sec := some 4, run := 2 }) 100000000; todValid todBytes s = true ∧ beNat ((todBytes.drop 4).take 6) = (4 + 1) % 2 ^ 48 ∧ 2 ≤ s.time.tin.run) ∧
    (let s := tinAs (fun t => { t with edge := some 0 }) 2000000000; s.time.tin.edge = some 0 ∧ 0 + 1000020000 < s.clk.now) ∧
    (let s := { ready with time := { ready.time with tod := { ready.time.tod with bndAt := some 0, sent := false } }, clk := { ready.clk with now := 10000000 } }; s.time.tod.bndAt = some 0 ∧ s.time.tod.sent = false ∧ 0 + 10000000 ≤ s.clk.now + s.time.ppsAdv / 1000) := by decide +kernel

/-! ### OnlyTicksMoveTheClock -/
theorem test_witness_OnlyTicksMoveTheClock : movesClock (.crossoverPass [] { bad := [], corrected := [] }) = false := rfl
theorem test_witness_OnlyTicksMoveTheClock_state : running ready = true ∧ ready.tick.failed < 2 ∧ ready.clk.ticks = 0 ∧ ready.pending = [] ∧ ready.clk.now < ready.clk.tickAt + 15625 ∧ movesClock (.sysNop (pk [])) = false := by decide

/-! ### EffectiveCycle -/
theorem test_witness_EffectiveCycle : let s := { ready with clk := { ready.clk with ticks := 5, cyc := 4, now := 65600, tickAt := 62500 } }
    0 < s.clk.ticks ∧ s.clk.tickAt ≤ s.clk.now ∧ s.clk.now < s.clk.tickAt + 15625 ∧ s.clk.cyc < 8 ∧ curCycle s ≤ effTick s ∧ effTick s = 6 ∧ ready.clk.ticks = 0 := by decide

/-! ### TickAlignedCycle -/
theorem test_witness_TickAlignedCycle : PortTurn (portJob 8 0x10 [0x40000, 0, 5, 0, 0] []) (atPort 8 0x10 [0x40000, 0, 5, 0, 0] [] ready) (takeSlot (atPort 8 0x10 [0x40000, 0, 5, 0, 0] [] ready)) ∧ PortTurn (portJob 8 0x11 [0xC0000, 0, 5, 0, 0] []) (atPort 8 0x11 [0xC0000, 0, 5, 0, 0] [] ready) (takeSlot (atPort 8 0x11 [0xC0000, 0, 5, 0, 0] [] ready)) ∧
    sealSetCheck false [0x40000, 0, 5, 0, 0] 8 (atPort 8 0x10 [0x40000, 0, 5, 0, 0] [] ready) = none ∧ sealSetCheck true [0xC0000, 0, 5, 0, 0] 8 (atPort 8 0x11 [0xC0000, 0, 5, 0, 0] [] ready) = none ∧
    (let s : State := { ready with keys := { ready.keys with rx := [(9, some { rxNew [9, 0, 5, 0, 0] false with pair := 0 })] } }; sealSetCheck false [0x40000, 0, 5, 0, 0] 8 s = some .badParam) := by
  refine ⟨⟨?_, ?_, ?_, ?_, rfl⟩, ⟨?_, ?_, ?_, ?_, rfl⟩, ?_, ?_, ?_⟩ <;> decide

/-! ### SealCommands -/
/-- A device with egress tributary 5 sealed by pair 0 and ingress tributary 5 opened by pair 1. -/
def sealed5 : State := { ready with keys := { ready.keys with
  tx := [(5, some (txNew [0x40005, 0, 7, 0, 0]))], rx := [(5, some (rxNew [0xC0005, 1, 8, 0, 0] false))], sealS := [(1, { slotReset 0 with loaded := true, key := [1] })] } }
theorem test_witness_SealCommands : takes opSealTxSet (pk [0x40000, 0, 5, 0, 0]) ready = true ∧ takes opSealRxSet (pk [0xC0000, 0, 5, 0, 0]) ready = true ∧ takes opSealFlip (pk [0, 0]) ready = true ∧
    takes opSealFlip (pk [0, 0]) sealed5 = true ∧ takes opSealGet (pk [0x40005]) sealed5 = true ∧ takes opSealGet (pk [5]) sealed5 = true ∧ takes opSealGet (pk [5]) ready = true ∧ pairTx sealed5 0 ≠ [] ∧ (sealSlot sealed5 1).loaded = true ∧
    (txSeal sealed5 5).isSome = true ∧ (rxSeal sealed5 5).isSome = true ∧ tblWf (fun _ => none) 0 sealed5.keys.tx = true ∧ tblWf (fun _ => none) 0 sealed5.keys.rx = true ∧ txSeal ready 5 = none ∧ rxSeal ready 5 = none ∧ pairTx ready 0 = [] := by decide

/-! ### KeyCommands -/
/-- Command slot 3 for channel 2's operations, loaded. -/
def keyed : State := { ready with keys := { ready.keys with cmdS := [(3, { slotReset 0 with loaded := true, use := 1, mask := 4, key := List.replicate 16 1 })] }, io := { ready.io with offered := 64 } }
/-- A packet on ring 3. -/
def pk3 (ws : List Word) : Packet := { pk ws with ring := 3 }
theorem test_witness_KeyCommands_wrap : let s := { ready with keys := { ready.keys with cmdS := [(3, { slotReset 0 with loaded := true, use := 2, mask := 0, key := List.replicate 32 1 })] } }
    takes opCiphKeyLoad (pk [0x18001, 0x85000, 9, 1]) s = true ∧ (cmdSlot s 3).use = 2 ∧ (cmdSlot s 3).loaded = true ∧ pf [0x18001, 0x85000, 9, 1] 0 21 15 = 3 ∧ (cmdSlot ready 3).use ≠ 2 ∧ takes opCiphKeyLoad (pk [0x18001, 0x85000, 9, 1]) ready = true ∧
    ((3 : Nat) ≠ 0x7F ∧ cmdInUse s 0 = false) := by decide
/-- A wrapped command key under slot 3, at 0x85000. -/
def wrapped : State := wmPut 0x85000 (kwWrap (List.replicate 32 1) ([1, 1, 1, 0, 0, 0, 0, 0] ++ List.replicate 16 7))
  { ready with keys := { ready.keys with cmdS := [(3, { slotReset 0 with loaded := true, use := 2, mask := 1, key := List.replicate 32 1 })] } }
theorem unwrap_wrapped : unwrapAt wrapped (List.replicate 32 1) 0x85000 = some ([1, 1, 1, 0, 0, 0, 0, 0] ++ List.replicate 16 7) :=
  Sys2Proof.Laws.unwrapAt_put (by unfold Sys2Proof.Laws.RoundKeys; decide +kernel) rfl _ _ rfl rfl
theorem test_witness_KeyCommands_load : takes opCiphKeyLoad (pk [0x18001, 0x85000, 9, 1]) wrapped = true ∧ (cmdSlot wrapped 3).use = 2 ∧ (cmdSlot wrapped 3).loaded = true ∧ (cmdSlot wrapped 3).mask.testBit (pf [0x18001, 0x85000, 9, 1] 0 14 14) = true ∧
    (cmdInUse wrapped 0 || (3 : Nat) == 0) = false ∧ (cmdSlot wrapped 3).key = List.replicate 32 1 ∧ headerOk true ([1, 1, 1, 0, 0, 0, 0, 0] ++ List.replicate 16 7) = true := by decide +kernel
theorem test_witness_KeyCommands : takes opCiphKeyLoad (pk [0x3F8001, 0x85000, 9, 1]) ready = true ∧ takes opCiphKeyLoad (pk [0x3F8000, 0x85000, 9, 0]) ready = true ∧ takes opCiphKeyErase (pk [4]) ready = true ∧ takes opCiphKeyErase (pk [0]) ready = true ∧
    takes opCiphKeyErase (pk [1]) ready = true ∧ takes opCiphKeyErase (pk [2]) ready = true ∧ takes opCiphKeyGet (pk [7]) ready = true ∧ takes opCiphChanSet (pk [0x32, 16, 0]) ready = true ∧ headOp ready 2 = none ∧
    ready.keys.alarm = 0 ∧ cmdInUse ready 0 = false ∧ sealInUse ready 0 = false ∧ headerOk true (1 :: 1 :: 1 :: List.replicate 21 0) = true ∧ headerOk true [] = false := by decide
theorem test_witness_KeyCommands_op : takes opCiphOp (pk3 [0x18182, 0x86000, 0x87000, 16, 0x8A000, 0, 0x88000, 0x89000]) keyed = true ∧ takes opCiphOp (pk [0x18182, 0x86000, 0x87000, 16, 0x8A000, 0, 0x88000, 0x89000]) keyed = true ∧
    takes opCiphOp (pk3 [0x18002, 0x86000, 0x87000, 16, 0x8A000, 0, 0x88000, 0x89000]) keyed = true ∧ (cmdSlot keyed 3).use = 1 ∧ (cmdSlot keyed 3).mask.testBit 2 = true := by decide +kernel

/-! ### CipherRows -/
/-- An operation of channel `c` with key slot 3 and no bytes. -/
def cipherOf (id c st : Nat) : CceOp := { id, job := { portJob 9 0x14 [wd (c + 384), 0, 0, 0, 0, 0, 0, 0] [] with ring := 3 }, chan := c, prio := 0, st, begun := decide (0 < st), sAt := 0, gen := 0, iv := [], inv := 0, aad := [], src := 0x86000, inp := [], dst := 0x87000, held := false, fill := 0, wrote := 0, ctx := none }
/-- The engine with these operations. -/
def cce (l : List CceOp) : State := { keyed with keys := { keyed.keys with ops := l } }
theorem test_witness_CipherRows : running keyed = true ∧ (let s := cce [cipherOf 0 2 0]; privNext s = none ∧ privRunning s = none ∧ suspended s = [] ∧ (ordNext s).isSome = true) ∧
    (let s := cce [cipherOf 0 0 0]; (privNext s).isSome = true ∧ privRunning s = none ∧ suspended s = []) ∧ (let s := cce [cipherOf 0 0 2]; (suspended s).length = 1 ∧ privRunning s = none ∧ privNext s = none) ∧
    (let s := cce [{ cipherOf 0 0 2 with sAt := 1 }, { cipherOf 1 0 2 with sAt := 2, prio := 1 }, { cipherOf 2 0 1 with prio := 2 }, { cipherOf 3 0 0 with prio := 3 }]
     (suspended s).length = 2 ∧ (privRunning s).isSome = true ∧ (privNext s).isSome = true ∧ (chan s 0).ctx = 0 ∧ (suspendOp { cipherOf 2 0 1 with prio := 2 } s).isNone = true) ∧
    answers keyed = true ∧
    (let s := cce [cipherOf 0 0 1]; (privRunning s).isSome = true ∧ (opDone s).isSome = true) ∧ (let s := cce [cipherOf 0 0 3]; (suspended s).length = 1) ∧ opDone keyed = none ∧
    (let s := cce [cipherOf 0 0 1, { cipherOf 1 1 0 with prio := 1 }]; (privNext s).isSome = true ∧ (privRunning s).isSome = true ∧ (suspendOp (cipherOf 0 0 1) s).isSome = true) ∧
    keyed.dev.powered = true ∧ keyed.dev.resetLow = false ∧ opLen (cipherOf 0 2 0) = 0 ∧ (cmdSlot keyed 3).loaded = true ∧ (cmdSlot keyed 3).count ≤ (cmdSlot keyed 3).limM1 := by decide +kernel

/-! ### MemoryCommands -/
/-- A stripe borrowed, for a background or an on-request test. -/
def borrowed (st n ph : Nat) (r : Bool) (bl : Option (Nat × Nat)) : State := { ready with mem := { ready.mem with borrow := some { store := st, stripe := n, onReq := r, phase := ph, block := bl } } }
/-- The job of a memory test with these stripes left. -/
def testJob (ws : List Word) (l : Nat) : Job := { ring := 0, cls := 0x0A, act := 0x10, tag := 7, abortable := false, authed := false, params := ws, image := [], taken := [], accepted := 0, work := .memTest 4 l 0 0 0 0 }
/-- A memory test goes on. -/
def testing (ws : List Word) (l : Nat) (s : State) : State := { s with io := { s.io with jobs := [(0, some (testJob ws l))] } }
/-- A background stripe is due, of this store from this stripe on. -/
def due (st n : Nat) : State := { ready with conn := { ready.conn with blocks := [(0, 9)] }, mem := { ready.mem with bgStore := st, bgNext := n }, clk := { ready.clk with now := 10000000 + ready.mem.bgAt } }
/-- The running memory test. -/
def isTest (j : Job) : Bool := match j.work with | .memTest .. => true | _ => false
theorem test_witness_MemoryCommands : takes opMemTestGet (pk [1]) ready = true ∧ takes opMemTestStart (pk [0x20, 500, 0]) ready = true ∧ takes opMemTestStart (pk [0x10, 4, 1]) ready = true ∧ takes opMemTestStart (pk [0, 0, 1]) ready = true ∧
    onRequest ready = false ∧ onRequest (testing [0, 0, 1] 1 ready) = true ∧ takes opMemTestStart { pk [0, 0, 1] with ring := 1 } (testing [0, 0, 1] 1 ready) = true ∧
    destructiveBlocked 0x100 1 ready = false ∧ destructiveBlocked 0x7FC 1 ready = true ∧ ready.mem.borrow = none ∧
    takes opMemFenceSet (pk [0x10, 0, 0]) ready = true ∧ takes opMemFenceSet (pk [0x11, 0x4000, 0x4000]) (borrowed 0 4 0 false none) = true ∧ takes opMemFenceSet (pk [0x11, 0x4000, 0x4000]) ready = true := by decide +kernel
theorem test_witness_MemoryCommands_background : bgDue (due 0 7) = true ∧ skipStripe 0 7 (due 0 7) = false ∧ fenced (due 0 0x7FC) 0x7FC = true ∧ bgDue (due 0 0x7FC) = true ∧ bgDue ready = false ∧
    bgDue (due 3 9) = true ∧ skipStripe 3 9 (due 3 9) = false ∧ liveBlock (due 3 9) 9 = some 0 ∧ (pickSpare 7 0 (due 3 9)).isSome = true := by decide +kernel
theorem test_witness_MemoryCommands_few : let s := { due 3 9 with conn := { (due 3 9).conn with spares := 1 } }; bgDue s = true ∧ skipStripe 3 9 s = true ∧ poolFree s < 2 := by decide +kernel
theorem test_witness_MemoryCommands_returned : tget blockReset (due 3 9).conn.blocks 0 % 4096 = 9 ∧ (9 : Nat) ≠ 3456 % 4096 ∧ (borrowed 3 9 1 false (some (0, 3456))).mem.borrow.isSome = true ∧
    findJob (testing [0, 0, 2] 1 (borrowed 0 3 1 true none)) isTest = some (testJob [0, 0, 2] 1) ∧ nextStripe 0 (testing [0, 0, 2] 1 ready) 4 1 = (some 4, 0) ∧ nextStripe 0 ready 0x7FC 1 = (none, 1) := by decide +kernel
theorem test_witness_MemoryCommands_complete : findJob (testing [0x10, 4, 1] 1 ready) isTest = some (testJob [0x10, 4, 1] 1) ∧ pf (testJob [0x10, 4, 1] 1).params 0 5 4 = 1 ∧ pf (testJob [0x10, 4, 1] 1).params 0 3 0 = 0 ∧
    findJob (testing [0, 0, 1] 0 ready) isTest = some (testJob [0, 0, 1] 0) ∧ pf (testJob [0, 0, 1] 0).params 0 5 4 ≠ 1 ∧ findJob (testing [0, 0, 1] 1 (borrowed 0 3 1 true none)) isTest ≠ none := by decide +kernel

/-! ### WindowAccesses -/
/-- A write of word 0x100000's upper half, and accesses by the bulk DMA. -/
def ewr : PortEAccess := { write := true, addr := 0x100004, be := 5, data := 0x11223344 }
def erd : PortEAccess := { write := false, addr := 0x100004, be := 0, data := 0 }
def iwr : PortIAccess := { master := 3, write := true, addr := 0x100005, len := 2, data := [1, 2] }
/-- T0 locked by M6. -/
def locked0 : State := { ready with mem := { ready.mem with locks := [(0, some 6)] } }
theorem test_witness_WindowAccesses : Machine.accessWf (some ewr) none none = true ∧ hostBreaks (some ewr) none ready = false ∧ Memory.wf ready.wm = true ∧ wmOpen ready = true ∧ underTest ready 0x100004 = false ∧
    reachesT0 3 = true ∧ Machine.accessWf none (some iwr) none = true ∧ hostBreaks none (some iwr) ready = false ∧ Machine.accessWf (some erd) (some iwr) none = true ∧ sameWord erd iwr = true ∧
    hostBreaks (some erd) (some iwr) ready = false ∧ fallBack ready 0x100004 = false ∧ fallBack (borrowed 0 0x100 1 false none) 0x100004 = true ∧ hostBreaks (some erd) (some iwr) (borrowed 0 0x100 1 false none) = false ∧ portsUp ready.dev = true ∧ lockAllows ready 0 3 = true ∧ portsUp { ready.dev with powered := false } = false ∧ lockAllows locked0 0 3 = false := by decide +kernel

/-! ### MatrixCommands -/
/-- A burst of two beats by master `m` at `a`. -/
def burst (m a : Nat) (w : Bool) : Burst := { master := m, addr := a, beats := 2, write := w, lock := false, data := if w then [1, 2] else [] }
/-- Target 1 locked by M3. -/
def locked : State := { ready with mem := { ready.mem with locks := [(1, some 3)] } }
theorem test_witness_MatrixCommands : burstOk 0 (burst 3 0x100000 true) = true ∧ granted ready 0 [burst 5 0x100000 true, burst 3 0x100000 true] = some (burst 3 0x100000 true) ∧
    granted locked 1 [burst 6 0x1000000 false] = none ∧ burstOk 1 (burst 6 0x1000000 false) = true ∧ tget noLock locked.mem.locks 1 = some 3 ∧ burstOk 8 (burst 3 0x900000 false) = true ∧
    burstOk 2 (burst 3 0x4000000 false) = true ∧ burstOk 3 (burst 3 0x8000000 false) = true ∧ burstOk 4 (burst 1 0xC000000 false) = true ∧ burstOk 7 (burst 2 0xF000000 true) = true ∧
    (priorities ready)[1]? ≠ some 1 ∧ granted ready 4 [burst 1 0xC000000 false] ≠ none ∧ granted ready 4 [burst 4 0xC000000 true] ≠ none ∧ granted ready 2 [burst 3 0x4000000 true] ≠ none ∧ granted ready 1 [burst 3 0x1000000 true] ≠ none ∧ burstOk 1 (burst 3 0x1000000 true) = true ∧ burstOk 5 (burst 0 0xD000000 false) = true ∧
    burstOk 4 (burst 4 0xC000000 false) = true ∧ ready.dev.bootPhase ≠ 1 ∧ portsUp ready.dev = true ∧ hostBreaks none (some { master := 3, write := true, addr := 0x100000, len := 16, data := burstBytes (burst 3 0x100000 true) }) (burstLock 0 (burst 3 0x100000 true) ready) = false ∧ tget noLock locked.mem.locks 1 = some 3 ∧ tget noLock locked.mem.locks 0 ≠ some 3 ∧ activeCp ready ≠ none := by decide +kernel

/-! ### CounterCommands -/
/-- A dump of two blocks with this much of its buffer filled. -/
def dumping (cap fill : Nat) : State := { ready with io := { ready.io with jobs := [(0, some { ring := 0, cls := 0x0B, act := 0x12, tag := 7, abortable := false, authed := false, params := [1, 0x100000], image := [], taken := [0x100000], accepted := 0, work := .dump 0 0x100000 cap fill })] } }
/-- An output descriptor at 0x100000 of this capacity. -/
def descOf (len : Nat) : State := { ready with wm := writeBytes [] 0x100000 (leBytes 4 0x101000 ++ leBytes 4 len ++ leBytes 4 0x100010 ++ leBytes 4 0x80000000) }
theorem test_witness_CounterCommands : takes opCntSelect (pk [0x100000, 0x10]) ready = true ∧ takes opCntRead (pk [0x100005, 0x100000]) ready = true ∧ takes opCntRead (pk [0x8100005, 0x100000]) ready = true ∧ Memory.wf ready.wm = true ∧
    takes opCntDump (pk [0, 0x100000]) ready = true ∧ (readDesc ready 0x100000).own = false ∧ takes opCntDump (pk [0, 0x100000]) (descOf 528) = true ∧ takes opCntDump (pk [0, 0x100000]) (descOf 500) = true ∧
    (readDesc (descOf 528) 0x100000).own = true ∧ (readDesc (descOf 528) 0x100000).bad = false ∧ (readDesc (descOf 528) 0x100000).len = 528 ∧ (readDesc (descOf 500) 0x100000).own = true ∧
    (job (dumping 528 0) 0).isSome = true ∧ (job (dumping 1056 0) 0).isSome = true ∧ running (dumping 528 0) = true ∧ (dumping 528 0).dev.failover = false ∧ job ready 0 = none := by decide +kernel

/-! ### EventRows -/
/-- A record, and events in the queue and in a synchroniser. -/
def rec1 : Rec := mkRec ready 0x0A 0x02 3 9
def inQueue (n : Nat) : State := { ready with evt := { ready.evt with queue := List.replicate n rec1, ovf := some (rec1, 2) } }
def inSync (q : Option Rec) : State := { ready with evt := { ready.evt with syncs := [{ key := { cls := 0x0A, code := 0x02, index := 3 }, at_ := 0, pend := q }] } }
theorem test_witness_EventRows : (inQueue 1).evt.queue ≠ [] ∧ running ready = true ∧ (ring ready 5).en = true ∧ ((ring ready 5).index + 1) % slots (ring ready 5) ≠ (ring ready 5).db ∧
    findSync { cls := 0x0A, code := 0x02, index := 3 } ready.evt.syncs = none ∧ (findSync { cls := 0x0A, code := 0x02, index := 3 } (inSync none).evt.syncs).isSome = true ∧
    (findSync { cls := 0x0A, code := 0x02, index := 3 } (inSync (some rec1)).evt.syncs).isSome = true ∧ ready.dev.mode ≠ .boot ∧ ready.dev.mode ≠ .retention ∧ State.reset.dev.mode = .boot ∧
    (findSync { cls := 0x0A, code := 0x02, index := 3 } (syncSettle { cls := 0x0A, code := 0x02, index := 3 } 4000 2 (inSync none)).evt.syncs).isSome = true ∧ findSync { cls := 0x0A, code := 0x02, index := 3 } (syncSettle { cls := 0x0A, code := 0x02, index := 3 } 9000 2 (inSync none)).evt.syncs = none := by decide +kernel
theorem test_witness_EventRows_halt : let s := { inQueue 1 with dev := { ready.dev with mode := .halt, prevMode := 3 } }; running s = false ∧ s.dev.mode = .halt ∧ s.dev.prevMode ∈ [3, 4, 5, 6] := by decide +kernel
theorem test_witness_EventRows_full : 4096 ≤ (inQueue 4096).evt.queue.length ∧ (inQueue 4096).evt.ovf = some (rec1, 2) ∧ ready.evt.queue.length < 4096 ∧ ready.evt.ovf = none := ⟨by rw [inQueue]; simp, rfl, by decide, rfl⟩

/-! ### SaveCommands -/
/-- The save store answers and the save is enabled. -/
def storeUp : State := { ready with save := { ready.save with storeOk := true, en := true, pfnEn := true } }
/-- A SAVE_TEST of this kind runs. -/
def saveRuns (k : Nat) : State := { storeUp with io := { storeUp.io with jobs := [(1, some { ring := 1, cls := 0x0D, act := 0x12, tag := 7, abortable := false, authed := false, params := [wd k], image := [], taken := [], accepted := 0, work := .saveTest k })] } }
theorem test_witness_SaveCommands : takes opSaveGet (pk []) ready = true ∧ takes opSaveConfigSet (pk [7, 100]) ready = true ∧ takes opSaveTest (pk [2]) ready = true ∧ takes opSaveTest (pk [0]) storeUp = true ∧ takes opSaveTest (pk [1]) (saveRuns 0) = true ∧ saveTestRuns (saveRuns 0) = true ∧
    ready.save.storeOk = false ∧ (findJob (saveRuns 1) (fun j => j.work = .saveTest 1)).isSome = true ∧ (findJob (saveRuns 0) (fun j => j.work = .saveTest 0)).isSome = true ∧
    triggerActs true false storeUp = true ∧ triggerActs false false storeUp = false ∧ activeCp ready ≠ none ∧ running ready = true ∧ ready.save.saving = none ∧
    armRule { storeUp.save with holdFault := 0, measured := true, cUf := 220, vhold := 16000 } = true ∧ armRule { storeUp.save with holdFault := 0, measured := true, cUf := 220, vhold := 9000 } = false ∧
    running (saveRuns 0) = true ∧ ready.save.capAt = none ∧ 1000000000 ≤ (1000000000 : Nat) := by decide +kernel
/-- A slot written by a save counts as valid. -/
theorem test_witness_SaveCommands_valid : (newestFlacon { ready.save with slot0 := some (mkFlacon 0 0 0 ready) }) = some (0, mkFlacon 0 0 0 ready) := by
  have hv : flaconValid (mkFlacon 0 0 0 ready) = true := by
    have hl : 64 ≤ (mkFlacon 0 0 0 ready).len ∧ (mkFlacon 0 0 0 ready).len ≤ 94788 := by
      change 64 ≤ 64 + ((((Config.sectionBytes 0 _).take 256) ++ (((Config.sectionBytes 1 _).take 256) ++ ([] ++ (((Config.sectionBytes 3 _).take 24576) ++ ([] ++ []))))).length) + 4 ∧
        64 + ((((Config.sectionBytes 0 _).take 256) ++ (((Config.sectionBytes 1 _).take 256) ++ ([] ++ (((Config.sectionBytes 3 _).take 24576) ++ ([] ++ []))))).length) + 4 ≤ 94788
      simp only [List.length_append, List.length_take, List.length_nil]
      omega
    have hg : (mkFlacon 0 0 0 ready).gen = 1 := rfl
    have hm : (mkFlacon 0 0 0 ready).magic = flaconMagic := rfl
    have hc : (mkFlacon 0 0 0 ready).fcrc = crc32c (flaconBody (mkFlacon 0 0 0 ready)) := rfl
    unfold flaconValid
    rw [hg, hm, hc, decide_eq_true hl.1, decide_eq_true hl.2]
    simp
  have h0 : slotFlacon (some (mkFlacon 0 0 0 ready)) = some (mkFlacon 0 0 0 ready) := by unfold slotFlacon; exact if_pos hv
  unfold newestFlacon
  rw [h0]; rfl

/-! ### HealthCommands -/
/-- A unit of pool 4 out of service, a retest of it running, or a swap of it running. -/
def outOf : State := { ready with spare := { ready.spare with out := [(4, 3)] } }
def retesting : State := { outOf with io := { outOf.io with jobs := [(1, some { ring := 1, cls := 0x0F, act := 0x11, tag := 7, abortable := false, authed := false, params := [], image := [], taken := [], accepted := 0, work := .retest 4 3 })] } }
def swapping (p u : Nat) : State := startSwap p u 0 true 4 ready
theorem test_witness_HealthCommands : takes opHealthGet (pk [9]) ready = true ∧ takes opHealthSpareGet (pk [4]) ready = true ∧ takes opHealthCpGet (pk []) ready = true ∧ takes opHealthSpareSwap (pk [0x28, 60]) ready = true ∧ takes opHealthSpareSwap (pk [0x14, 3]) outOf = true ∧ unitOut 4 3 outOf = true ∧ takes opHealthSpareSwap (pk [0x14, 3]) ready = true ∧ unitOut 4 3 ready = false ∧
    takes opHealthSpareSwap (pk [8, 1]) ready = true ∧ standbyFit ready = false ∧ takes opHealthSpareSwap (pk [4, 3]) ready = true ∧ pickSpare 4 3 ready = some 0 ∧ swapOf ready 4 = none ∧ pickSpare 4 3 (swapping 4 2) = some 0 ∧
    takes opHealthSpareSwap (pk [4, 3]) (swapping 4 2) = true ∧ (swapOf (swapping 4 2) 4).isSome = true ∧ unitFenced 4 3 ready = false ∧ poolUnits 4 = 16 ∧ ready.health.failed = false ∧ ready.spare.wait = [] := by decide +kernel
theorem test_witness_HealthCommands_rows : (findJob retesting (fun j => match j.work with | .retest .. => true | _ => false)).isSome = true ∧ tget noTime ready.health.scanAt 5 = none ∧ tget noBase ready.health.base 5 = none ∧
    (swapOf (swapping 0 2) 0).isSome = true ∧ findJob ready (fun j => j.work = .eye 5) = none ∧ running ready = true ∧ 5 ∉ ready.health.baseDue ∧ ready.clk.now < ready.health.hourAt + 3600000000000 := by decide +kernel
theorem test_witness_HealthCommands_spare : servedBy 4 3 ready = none ∧ servedBy 4 3 { ready with spare := { ready.spare with out := [(4, 3)], used := [(4, 0, 3)] } } = some 0 ∧ servedBy 4 3 outOf = none ∧
    pickSpare 4 3 { ready with spare := { ready.spare with dead := [(4, 0)] } } = none ∧ pickSpare 0 3 { ready with spare := { ready.spare with dead := [(0, 0)] } } = some 1 ∧
    (4, 5) ∉ (swapping 4 2).spare.wait ∧ tget noTime { ready.conn with outBlk := [(9, some 9)] }.outBlk 9 = some 9 ∧ 9 ∉ ready.conn.bad ∧ tget noTime ready.conn.outBlk 9 = none := by decide +kernel
theorem test_witness_HealthCommands_eye : (findJob { ready with io := { ready.io with jobs := [(1, some { ring := 1, cls := 0x06, act := 0x12, tag := 7, abortable := false, authed := false, params := [], image := [], taken := [], accepted := 0, work := .eye 5 })] } } (fun j => j.work = .eye 5)).isSome = true := by decide +kernel

/-! ### ProcessorRows -/
/-- CP-B is the standby, fit or not; a gap is open. -/
def withStandby (fit : Bool) : State := { ready with cp := { ready.cp with role := [(1, .standby)], passOk := fit, lagOk := fit, digestOk := fit, fitSince := if fit then some 0 else none } }
def inGap : State := { ready with cp := { ready.cp with gap := some (0, 1, 0, 1) } }
/-- The standby's journal lags. -/
def lagging : State := { withStandby true with cp := { (withStandby true).cp with journal := [{ kind := 0, ring := 0, tag := 0, at_ := 0 }] }, clk := { ready.clk with now := 30000 } }
theorem test_witness_ProcessorRows_lag : standby lagging = some 1 ∧ lagWithin lagging = false ∧ lagging.cp.lagOk = true ∧ lagWithin (withStandby true) = true ∧ role { ready with cp := { ready.cp with role := [(1, .failed), (2, .cold)] } } 2 = .cold ∧
    successor 0 { ready with cp := { ready.cp with role := [(1, .failed), (2, .cold)] } } = some 2 ∧ role ready 2 ≠ .restarting := by decide +kernel
theorem test_witness_ProcessorRows : svaJudges ready = true ∧ svaJudges inGap = false ∧ inGap.cp.gap.isSome = true ∧ activeCp ready = some 0 ∧ standby (withStandby true) = some 1 ∧ standbyFit (withStandby true) = true ∧ standbyFit ready = false ∧
    role ready 1 = .restarting ∧ standby ready = none ∧ (successor 0 ready).isSome = true ∧ ready.cp.holdoff ≠ 0 ∧ (withStandby true).cp.lagOk = true ∧ (withStandby false).cp.lagOk = false ∧
    role { withStandby true with cp := { (withStandby true).cp with m0 := 1 } } 1 = .standby ∧ successor 0 { ready with cp := { ready.cp with role := [(1, .failed), (2, .failed)] } } = none := by decide +kernel

/-! ### PinAndFailureRows -/
/-- A command of this class that waits on ring 0. -/
def waitsFor (cls : Nat) (w : Work) : State := { ready with io := { ready.io with jobs := [(0, some { ring := 0, cls := cls, act := 0x10, tag := 7, abortable := false, authed := false, params := [0x100000, 0x100000], image := [], taken := [], accepted := 0, work := w })] } }
/-- TAMPER_N shows a fault, or has shown it twice. -/
def tampered (k n : Nat) : State := setPin 30 { kind := k, seen := 1, count := n, miss := 0, swapped := false, gateAt := 0 } ready
def cut : GuardMeas := { pin := 30, kind := 1, pol := .none, mv := 0 }
theorem test_witness_PinAndFailureRows : running ready = true ∧ tamperFault ready = false ∧ tamperFault (tampered 1 0) = true ∧ tamperFault (guardWatch ([cut].foldl (fun s m => guardOne m s) (tampered 0 2))) = true ∧
    tamperFault (guardWatch ([cut].foldl (fun s m => guardOne m s) (tampered 1 0))) = true ∧ fenceCause ready 2 = 0 ∧ (job (waitsFor 3 (.desc 0x100000)) 0).isSome = true ∧ (job (waitsFor 0x0B (.dumpWait 0 0x100000)) 0).isSome = true ∧
    job ready 3 = none ∧ job ready 0 = none ∧ ready.fio.dir.getLsbD 3 = false ∧ (guardPin ready 13).kind = 0 ∧ ready.dev.powered = true ∧ ready.dev.resetLow = false := by decide +kernel

/-! ### BootRows -/
/-- Every input good; BOOT_MODE `m`, the boot SPI device answering or not. -/
def inputs (m : BitVec 3) (spi : Bool) : BootInputs := { bootMode := m, fuseOk := true, xoOk := true, coreOk := true, badDies := 0, cpAOk := true, cpBOk := true, cpSOk := true, spiOk := spi, imageA := [], imageB := [], recOk := true, connBad := [], flaconOk := true, storeOk := false, storeKb := 0, storeId := 0 }
/-- The retention flag stands; a boot has reached this phase. -/
def retained : State := { State.reset with dev := { State.reset.dev with retFlag := true } }
def phase (n : Nat) : State := { State.reset with dev := { State.reset.dev with resetLow := false, bootInp := some (inputs 1 false), bootPhase := n }, clk := { State.reset.clk with now := 20000 } }
theorem test_witness_BootRows : ready.dev.mode ≠ .save ∧ (after opSysNop (pk []) { ready with dev := { ready.dev with mode := .save } }).dev.mode = .save ∧ State.reset.dev.resetLow = true ∧ State.reset.dev.retFlag = false ∧ ready.dev.resetLow = false ∧
    retained.dev.retFlag = true ∧ retained.dev.resetLow = true ∧ (inputs 4 true).bootMode.getLsbD 2 = true ∧ (phase 1).dev.bootPhase = 1 ∧ (phase 1).dev.pollAt + 10000 ≤ (phase 1).clk.now ∧ (readDesc (phase 1) 0x6FFFF0).own = false ∧
    (phase 2).dev.bootPhase = 2 ∧ (phase 2).dev.woke = false ∧ fenceCause (phase 2) 0 = 0 := by decide +kernel

/-! ## Ill-formed commands that `Instr.wf` refuses, one for each of its checks -/

/-- A packet with 12 words of room. -/
def p12 : Packet := { ring := 0, tag := 0, abortable := false, auth := none, rsv := 0, params := [], extra := List.replicate 12 0 }

theorem test_wf_packet : (Instr.sysNop p12).wf = true ∧ (Instr.sysNop { p12 with ring := 4 }).wf = false ∧ (Instr.sysNop { p12 with rsv := 32 }).wf = false ∧
    (Instr.sysNop { p12 with params := List.replicate 256 0 }).wf = false ∧ (Instr.sysNop { p12 with extra := [] }).wf = false ∧
    (Instr.sysNop { p12 with auth := some [] }).wf = false ∧ (Instr.sysNop { p12 with auth := some (List.replicate 16 0), extra := List.replicate 7 0 }).wf = false := by decide +kernel

theorem test_wf_registers : (Instr.commandDoorbell 4 0).wf = false ∧ (Instr.ringEnable 6 0x100).wf = false ∧ (Instr.ringEnable 0 0).wf = false ∧ (Instr.ringDisable 6 0).wf = false ∧
    (Instr.ringDisable 0 0x100).wf = false ∧ (Instr.commandDecode 4).wf = false ∧ (Instr.descriptorRecheck 4 0).wf = false ∧ (Instr.descriptorRecheck 3 16).wf = false := by decide

theorem test_wf_window : (Instr.windowMemoryAccess (some { write := false, addr := 2, be := 15, data := 0 }) none none).wf = false ∧
    (Instr.windowMemoryAccess (some { write := false, addr := 0x1000000, be := 15, data := 0 }) none none).wf = false ∧
    (Instr.windowMemoryAccess none (some { master := 2, write := false, addr := 0, len := 0, data := [] }) none).wf = false ∧
    (Instr.windowMemoryAccess none (some { master := 2, write := false, addr := 0, len := 257, data := [] }) none).wf = false ∧
    (Instr.windowMemoryAccess none (some { master := 2, write := false, addr := 0x7FFFFF, len := 2, data := [] }) none).wf = false ∧
    (Instr.windowMemoryAccess none (some { master := 8, write := false, addr := 0, len := 1, data := [] }) none).wf = false ∧
    (Instr.windowMemoryAccess none (some { master := 2, write := true, addr := 0, len := 2, data := [1] }) none).wf = false ∧
    (Instr.windowMemoryAccess none none (some { addr := 0x800000, uncorrectable := true })).wf = false := by decide

/-- A burst of one beat. -/
def b1 : Burst := { master := 0, addr := 0, beats := 1, write := false, lock := false, data := [] }

theorem test_wf_matrix : (Instr.busMatrixBurst [{ b1 with master := 8 }] 0).wf = false ∧ (Instr.busMatrixBurst [{ b1 with beats := 0 }] 0).wf = false ∧ (Instr.busMatrixBurst [{ b1 with beats := 9 }] 0).wf = false ∧
    (Instr.busMatrixBurst [{ b1 with addr := 4 }] 0).wf = false ∧ (Instr.busMatrixBurst [{ b1 with addr := 0x100000000 }] 8).wf = false ∧ (Instr.busMatrixBurst [{ b1 with addr := 56, beats := 2 }] 0).wf = false ∧
    (Instr.busMatrixBurst [{ b1 with write := true }] 0).wf = false ∧ (Instr.busMatrixBurst [b1] 1).wf = false ∧ (Instr.matrixLockTimeout 8).wf = false ∧
    (Instr.apertureWrite 0 0x4000002 0).wf = false ∧ (Instr.apertureWrite 0 0x3FFFFFC 0).wf = false ∧ (Instr.apertureWrite 0 0x8000000 0).wf = false ∧ (Instr.apertureWrite 8 0x4000000 0).wf = false := by decide

theorem test_wf_lanes : (Instr.sectionTransmit 144).wf = false ∧ (Instr.alignmentLoss 144).wf = false ∧ (Instr.decisionWindowEnd 144).wf = false ∧ (Instr.laneAlignRecovery 144).wf = false ∧ (Instr.losWindowEnd 144 0).wf = false ∧
    (Instr.cdrLock 144 0).wf = false ∧ (Instr.cdrLossOfLock 144).wf = false ∧ (Instr.goodSetRefresh 144 { coefs := List.replicate 32 0, clean := true }).wf = false ∧ (Instr.goodSetRefresh 0 { coefs := [], clean := true }).wf = false ∧ (Instr.laneLoopSlip { lane := 144, symbols := 0 }).wf = false ∧
    (Instr.adaptationConverged 144).wf = false ∧ (Instr.prbsCheckerLock 144 []).wf = false ∧ (Instr.prbsCheckerLoss 144 0 { count := 0, window := 0 }).wf = false ∧ (Instr.serdesMarginScan 144 0 0).wf = false ∧ (Instr.sectionDecoded 144 []).wf = false ∧ (Instr.sectionDecoded 0 []).wf = false ∧
    (Instr.sectionDecoded 0 (List.replicate 40 [])).wf = false ∧ (Instr.markerBlockReceived { lane := 144, pos := 0, bits := [], arrival := 0 }).wf = false ∧
    (Instr.markerBlockReceived { lane := 0, pos := 218750, bits := [], arrival := 0 }).wf = false ∧ (Instr.markerBlockReceived { lane := 0, pos := 0, bits := [], arrival := 0 }).wf = false := by decide +kernel

theorem test_wf_data : (Instr.crossoverPass [14155776] { bad := [], corrected := [] }).wf = false ∧ (Instr.crossoverPass [] { bad := [{ store := 0, after := 0, bank := 0, addr := 0, grains := [] }], corrected := [] }).wf = false ∧
    (Instr.crossoverPass [] { bad := [{ store := 1, after := 0, bank := 16, addr := 0, grains := [] }], corrected := [] }).wf = false ∧ (Instr.crossoverPass [] { bad := [], corrected := [7] }).wf = false ∧ (Instr.defectDeclare (.lane 144) 0).wf = false ∧
    (Instr.defectDeclare (.lane 0) 6).wf = false ∧ (Instr.defectClear (.ingress 147456) 0).wf = false ∧ (Instr.defectClear (.ingress 0) 3).wf = false ∧ (Instr.defectClear (.egress 0) 2).wf = false ∧
    (Instr.degWindowEnd 147456).wf = false ∧ (Instr.accordRealign 16384).wf = false ∧ (Instr.connEqLocked 8192).wf = false ∧ (Instr.connEqLost 8192).wf = false ∧ (Instr.protSwitchStart 65536).wf = false ∧
    (Instr.protHoldOffExpiry 65536).wf = false ∧ (Instr.protWtrExpiry 65536).wf = false ∧ (Instr.counterTapSample [1048576]).wf = false := by decide

theorem test_wf_services : (Instr.refActivityLoss 8).wf = false ∧ (Instr.macerationExpiry 25).wf = false ∧ (Instr.edgeLinkClockLoss 4).wf = false ∧ (Instr.edgeDieFailure 4).wf = false ∧
    (Instr.keyStoreAlarm 0).wf = false ∧ (Instr.dpllUpdate 0 0 2).wf = false ∧ (Instr.journalLag 3).wf = false ∧ (Instr.cpRestartComplete 3).wf = false ∧ (Instr.guardMeasurement [{ pin := 32, kind := 0, pol := .none, mv := 0 }]).wf = false ∧
    (Instr.guardMeasurement [{ pin := 0, kind := 6, pol := .none, mv := 0 }]).wf = false ∧ (Instr.guardMeasurement [{ pin := 0, kind := 4, pol := .none, mv := 0 }]).wf = false ∧
    (Instr.unitHardFailure 8 0 false).wf = false ∧ (Instr.unitHardFailure 0 144 false).wf = false ∧ (Instr.unitHardFailure 15 144 false).wf = false := by decide

/-! ## Values that the spec gives -/

/-- 07 R201: the check value of the packet CRC. -/
theorem test_crc32c_check_value : crc32c [0x31, 0x32, 0x33, 0x34, 0x35, 0x36, 0x37, 0x38, 0x39] = 0xE3069283 := by decide +kernel

/-- 03, Check values: `HCRC` and `FTAG` of "123456789". -/
theorem test_crc16_check_values : hcrc [0x31, 0x32, 0x33, 0x34, 0x35, 0x36, 0x37, 0x38, 0x39] = 0x29B1 ∧
    ftagOf (bitsOfBytes [0x31, 0x32, 0x33, 0x34, 0x35, 0x36, 0x37, 0x38, 0x39]) = 0xAEE7 := by decide +kernel

/-- 03 Table 3.9: keystream of lane 130's section 2, and the whitened header bytes. -/
theorem test_scrambler_start : scramblerStart 2 76865 0x9B4E2175 = 0x1412C419B4E2175 ∧
    bytesOfBits (xorBits (bitsOfBytes [0x3A, 0x02, 0x00, 0x07]) (lfsr (scramblerStart 2 76865 0x9B4E2175) 32)) = [0x6A, 0x49, 0x10, 0x61] ∧
    bytesOfBits (xorBits (bitsOfBytes [0x12, 0x82]) (whitening.take 16)) = [0xAE, 0x64] := by decide +kernel

/-- 07 Table 7.4: the five thresholds. -/
theorem test_deg_thresholds : degN 1024 6 1 = (1045, false) ∧ degN 1024 9 10 = (11, false) ∧ degN 4 9 10 = (1, false) ∧ degN 98304 8 1 = (1007, false) ∧ degN 98304 5 1 = (32000, true) := by decide +kernel

/-- 10 Table 10.6: the drydown prediction after 24 h. -/
theorem test_drydown_prediction : predict { ready with
    clk := { ready.clk with now := 864000000000000 + 86400000000000 }
    time := { ready.time with
      f0 := 1842000000, thA := 2500, tA := 864000000000000, die := 2650, hostT := none
      model := { a := -350000, b1 := -12000000, b2 := 800000, span := 864000000000000, temps := some (2000, 3000) } } } = 1825450000 := by decide +kernel

/-- 15 Table 15.10: 470 µF at 12.0 V holds 18.80 mJ and arms; 300 µF is the smallest that does. -/
theorem test_save_arming : eAvail { storeUp.save with cUf := 470, vhold := 12000 } = 1880 ∧
    armRule { storeUp.save with holdFault := 0, measured := true, cUf := 300, vhold := 12000 } = true ∧
    armRule { storeUp.save with holdFault := 0, measured := true, cUf := 299, vhold := 12000 } = false := by decide +kernel

/-- 12, worked example: a write committed 3,100 ns after the tick of cycle 4 takes effect at cycle 6. -/
theorem test_effective_cycle : let s := { ready with clk := { ready.clk with ticks := 9, fc := 76864, cyc := 4, now := 3100, tickAt := 0 } }
    effWords s (effTick s) = [76864, 6] := by decide +kernel

/-- 12 Table 12.14: bytes 0 to 31 of the reply. -/
theorem test_reply_bytes : (replyHead { ring := 1, cls := 5, act := 0x10, tag := 0xA5C30017, abortable := false, authed := false } .ok [1, 76864, 6, 76864, 6, 3]).take 32 =
    [0x05, 0x10, 0x06, 0x00, 0x17, 0x00, 0xC3, 0xA5, 0x01, 0, 0, 0, 0x40, 0x2C, 0x01, 0, 0x06, 0, 0, 0, 0x40, 0x2C, 0x01, 0, 0x06, 0, 0, 0, 0x03, 0, 0, 0] := by decide +kernel

/-- 12 Table 12.13: the packet of the worked example in slot 5 of ring 1. -/
def slot5 : State :=
  let head : List Byte := [0x05, 0x10, 0x80, 0x03, 0x17, 0x00, 0xC3, 0xA5, 1, 0, 0, 0, 0x40, 0x9C, 0xC3, 0x00, 0xE8, 0x83, 0x07, 0x00] ++ List.replicate 36 0
  { setRing 1 { ringReset 1 with index := 5, db := 6 } ready with wm := writeBytes [] 0x1140 (head ++ leBytes 4 (crc32c (head.set 2 0)).toNat ++ [0, 0, 0, 0]) }

/-- The slot is handed back with byte 2 cleared, `DEV_INDEX` becomes 6, and the command is in progress under its tag. -/
theorem test_slot_decode : (match exec (.commandDecode 1) slot5 with
    | .next t => decide (readBytes t.wm 0x1140 8 = [0x05, 0x10, 0x00, 0x03, 0x17, 0x00, 0xC3, 0xA5]) && decide ((ring t 1).index = 6)
        && decide ((job t 1).map (fun j => j.tag) = some 0xA5C30017)
    | _ => false) = true := by decide +kernel

/-- 13 Table 13.5: the targets of the address map. -/
theorem test_targets : [0, 0x800000, 0x1000000, 0x2000000, 0x3000000, 0x4000000, 0x8000000, 0x8800000, 0xC000000, 0xD000000, 0xE000000, 0xF000000, 0xF010000].map targetOf =
    [0, 8, 1, 1, 8, 2, 3, 8, 4, 5, 6, 7, 8] := by decide +kernel

/-- 12 Table 12.4: the interrupt registers at reset. -/
theorem test_reset_interrupts : State.reset.io.irq = 0 ∧ State.reset.io.mask = 0b11110 ∧ State.reset.io.thresh = 1 ∧ State.reset.io.holdoff = 0 ∧ State.reset.io.lost = 0 := by decide

/-- 17 Table 17.5: the lane balls of three lanes. -/
theorem test_lane_balls : ballRole 2 24 = .lane 5 true true ∧ ballRole 2 25 = .lane 5 true false ∧ ballRole 4 24 = .lane 5 false true ∧ ballRole 4 25 = .lane 5 false false ∧
    ballRole 21 67 = .lane 40 true true ∧ ballRole 22 65 = .lane 40 false false ∧ rowName 21 = ['A', 'B'] ∧
    ballRole 48 6 = .lane 130 true true ∧ ballRole 47 8 = .lane 130 false false ∧ rowName 48 = ['B', 'K'] := by decide +kernel

/-- No row of the opcode table gives bits. -/
theorem test_no_words (n w : Nat) (s : State) : decodeTableWord n w = none ∧ s.withFetchWord n w = s := ⟨rfl, rfl⟩

end Sys2Proof.Tests
end

/-! PROOFS. Scope of the model (00_scope.md R6): which commands answer a next state, and where an access can stop. -/

namespace Sys2Proof.Machine

variable {s : State}

/-! ## Answers -/

/-- The outcome is a next state: neither a fault nor a refusal. -/
def Answers (o : Host.Outcome State Fault Refusal) : Prop := ∃ t, o = .next t

theorem Answers.next (t : State) : Answers (.next t) := ⟨t, rfl⟩

section Branches
variable {c : Prop} [Decidable c] {a b : Host.Outcome State Fault Refusal}

/-- A row that answers on both sides of a condition on the state. -/
theorem Answers.ite (ha : Answers a) (hb : Answers b) : Answers (if c then a else b) := by
  split
  · exact ha
  · exact hb

/-- A row whose operands pass their check. -/
theorem Answers.passes (h : c) (ha : Answers a) : Answers (if c then a else b) := by rwa [if_pos h]

/-- A row whose operands are not the ones it refuses. -/
theorem Answers.notRefused (h : ¬c) (hb : Answers b) : Answers (if c then a else b) := by rwa [if_neg h]

/-- A row that refuses operands without a form that these have. -/
theorem Answers.hasForm {ok : Bool} (h : ok = true) (hb : Answers b) : Answers (if !ok then a else b) :=
  .notRefused (by simp [h]) hb

end Branches

/-! ## The checks of rows against the well-formedness of commands -/

theorem defectOk_eq_defectWf (o : DefectObj) (b : Nat) : defectOk o b = defectWf o b := by cases o <;> rfl

theorem targetOf_eq_burstTarget (a : Nat) : targetOf a = burstTarget a := rfl

theorem burstOk_eq_burstWf (n : Nat) (b : Burst) : burstOk n b = burstWf n b := by
  simp only [burstOk, burstWf, inR, Bool.and_assoc, targetOf_eq_burstTarget]

/-- The swappable pools have the units of Table 15.4 in both readings. -/
theorem poolUnits_eq_poolSize {p : Nat} (h : p < 8) : poolUnits p = poolSize p := by
  interval_cases p <;> rfl

/-! ## Rows that look up a part of the state -/

theorem answers_execCntDumpBlock (r : Nat) (s : State) : Answers (execCntDumpBlock r s) := by
  unfold execCntDumpBlock
  split
  · split <;> exact .next _
  · exact .next _

theorem answers_execMemRepair (k n l : Nat) (s : State) : Answers (execMemRepair k n l s) := by
  unfold execMemRepair
  split
  · exact .ite (.next _) (.next _)
  · exact .next _

theorem answers_execCpRevertHoldoffExpiry (s : State) : Answers (execCpRevertHoldoffExpiry s) := by
  unfold execCpRevertHoldoffExpiry
  split
  · exact .ite (.next _) (.next _)
  · exact .next _

theorem answers_execUnitRetestComplete (ok : Bool) (s : State) : Answers (execUnitRetestComplete ok s) := by
  unfold execUnitRetestComplete
  split
  · split <;> exact .next _
  · exact .next _

theorem answers_execSerdesMarginScan {l : Nat} (h w : Nat) (s : State) (hl : laneOk l = true) :
    Answers (execSerdesMarginScan l h w s) := by
  refine .hasForm hl (.ite (.next _) ?_)
  split
  · exact .ite (.next _) (.next _)
  · exact .next _

theorem answers_execCheckpointComplete (s : State) : Answers (execCheckpointComplete s) := by
  unfold execCheckpointComplete
  split
  · exact .ite (.next _) (.next _)
  · exact .next _

theorem answers_execStripeReturned (rows cols : List Nat) (s : State) : Answers (execStripeReturned rows cols s) := by
  unfold execStripeReturned
  split
  · exact .ite (.next _) (.next _)
  · exact .next _

theorem answers_execMemTestComplete (rows cols : List Nat) (s : State) : Answers (execMemTestComplete rows cols s) := by
  refine .ite (.next _) ?_
  split
  · exact .next _
  · split
    · exact .ite (.next _) (.ite (.next _) (.ite (.next _) (.next _)))
    · exact .next _

theorem answers_execEventRingWrite (s : State) : Answers (execEventRingWrite s) := by
  unfold execEventRingWrite
  split
  · exact .next _
  · exact .ite (.next _) (.next _)

theorem answers_execEventAckPhaseEnd (k : EventKey) (s : State) : Answers (execEventAckPhaseEnd k s) := by
  unfold execEventAckPhaseEnd
  split <;> exact .next _

theorem answers_execEyeScanComplete {l : Nat} {counts centres : List Nat} (uv : Nat) (s : State)
    (h : (Instr.eyeScanComplete l counts centres uv).wf = true) : Answers (execEyeScanComplete l counts centres uv s) := by
  simp only [Instr.wf, Bool.and_eq_true, beq_iff_eq] at h
  obtain ⟨⟨⟨hl, hcounts⟩, hcentres⟩, hrange⟩ := h
  have hlane : laneOk l = true := hl
  refine .notRefused (by simp [hlane, hcounts, hcentres, hrange]) ?_
  split
  · exact .ite (.next _) (.next _)
  · exact .next _

theorem answers_execMatrixLockTimeout {n : Nat} (s : State) (h : n < 8) : Answers (execMatrixLockTimeout n s) := by
  refine .notRefused (Nat.not_le.mpr h) ?_
  split <;> exact .next _

theorem answers_execDpllSwitchTimeout (s : State) : Answers (execDpllSwitchTimeout s) := by
  unfold execDpllSwitchTimeout
  split
  · exact .ite (.next _) (.next _)
  · exact .next _

theorem answers_execDpllLock (s : State) : Answers (execDpllLock s) := by
  unfold execDpllLock
  dsimp only
  split
  · exact .ite (.next _) (.next _)
  · exact .next _

theorem answers_execPpsInEdgeMissing (s : State) : Answers (execPpsInEdgeMissing s) := by
  unfold execPpsInEdgeMissing
  split
  · exact .ite (.next _) (.next _)
  · exact .next _

theorem answers_execTodOutMessage (s : State) : Answers (execTodOutMessage s) := by
  unfold execTodOutMessage
  split
  · exact .ite (.next _) (.next _)
  · exact .next _

theorem answers_execSaveComplete (s : State) : Answers (execSaveComplete s) := by
  unfold execSaveComplete
  split <;> exact .next _

theorem answers_execBootImagePoll (s : State) : Answers (execBootImagePoll s) := by
  unfold execBootImagePoll
  split
  · exact .ite (.next _) (.next _)
  · exact .next _

theorem answers_execSpareCutover (p : Nat) (s : State) : Answers (execSpareCutover p s) := by
  unfold execSpareCutover
  split
  · exact .next _
  · exact .ite (.next _) (.next _)

theorem answers_execFailoverGapEnd (s : State) : Answers (execFailoverGapEnd s) := by
  unfold execFailoverGapEnd
  split <;> exact .next _

/-- A unit that can fail is one of a swappable pool, the monitor, or the SerDes of a lane (15 R403, R406; 09 R253). -/
theorem answers_execUnitHardFailure {p u : Nat} (ofSpare : Bool) (s : State) (h : unitWf p u = true) :
    Answers (execUnitHardFailure p u ofSpare s) := by
  simp only [unitWf, Bool.or_eq_true, Bool.and_eq_true, decide_eq_true_eq] at h
  unfold execUnitHardFailure
  by_cases hp : p < 8
  · have hu : u < poolUnits p := by
      rw [poolUnits_eq_poolSize hp]
      omega
    exact .passes (by simp [hp, hu]) (.ite (.next _) (.next _))
  · refine .notRefused (by simp [hp]) ?_
    rcases h with (⟨h8, -⟩ | h14) | ⟨h15, hl⟩
    · exact absurd h8 hp
    · exact .passes h14 (.next _)
    · have hlane : laneOk u = true := hl
      exact .notRefused (by omega) (.passes (by simp [h15, hlane]) (.ite (.next _) (.next _)))

/-! ## All rows but the two accesses -/

/-- A row of the host's command table runs its packet (12 R334). -/
theorem exec_of_hostOp {i : Instr} {o : Op} {p : Packet} (h : hostOp i = some (o, p)) (s : State) :
    exec i s = .next (runCommand o p s) := by
  cases i <;> cases h <;> rfl

/-- A well-formed row that is neither an access to the Window Memory nor a burst answers a next state: the conditions on the
state that it looks at all answer one, and its operands pass its check. -/
theorem answers_exec (i : Instr) (s : State) (hwf : i.wf = true) (hw : ∀ e p h, i ≠ .windowMemoryAccess e p h)
    (hb : ∀ b n, i ≠ .busMatrixBurst b n) : Answers (exec i s) := by
  rcases hop : hostOp i with _ | ⟨o, p⟩
  case some => exact ⟨_, exec_of_hostOp hop s⟩
  case none =>
    cases i with
    | windowMemoryAccess e p h => exact absurd rfl (hw e p h)
    | busMatrixBurst b n => exact absurd rfl (hb b n)
    -- no operand is checked, and no condition asked
    | replyRingDoorbell | eventConsumerIndexWrite | irqStatusClear | evtLostRead | cpMemoryError | standbySelftestPass
    | cpDigestExchange | eventHoldoffExpiry | alignerUnitsReturn | ciphOpStart | ciphOpResume | ciphOpComplete | cceFault
    | alarmCauseEnded | perstAssert | pcieLinkDown | railLoss | jtagInstruction => exact .next _
    -- no operand is checked, and the state decides whether the row acts
    | cpHeartbeatTimeout | svaHeartbeatTimeout | registerWrite | ioInputSample | capacitorMeasurement | saveStageRefresh
    | backgroundTestStripe | ftickWordReceived | selectorEvaluation | ppsInEdge | todInMessage | xoFail | dpllFailure
    | saveTrigger | resetAssert | bootStart | wakeStart | bootComplete | updatePortCommit | grainCycleTick | frameTick
    | tickGeneratorFailure | journalApply => exact .ite (.next _) (.next _)
    | drydownUpdate | modelLearnUpdate => exact .ite (.ite (.next _) (.next _)) (.next _)
    -- a lane, or what a lane brings
    | losWindowEnd | cdrLock | cdrLossOfLock | markerBlockReceived | alignmentLoss | decisionWindowEnd | laneAlignRecovery
    | laneLoopSlip | prbsCheckerLock | prbsCheckerLoss | sectionDecoded => exact .passes hwf (.next _)
    | sectionTransmit => exact .passes hwf (.ite (.next _) (.next _))
    | adaptationConverged => exact .hasForm hwf (.ite (.next _) (.next _))
    | goodSetRefresh l g =>
      simp only [Instr.wf, Bool.and_eq_true, beq_iff_eq] at hwf
      have hlane : laneOk l = true := hwf.1
      exact .notRefused (by simp [hlane, hwf.2]) (.ite (.next _) (.next _))
    | eyeScanComplete => exact answers_execEyeScanComplete _ s hwf
    | serdesMarginScan => exact answers_execSerdesMarginScan _ _ s hwf
    -- a defect, and the lists of measurements
    | defectDeclare o b | defectClear o b => exact .passes ((defectOk_eq_defectWf o b).trans hwf) (.next _)
    | counterTapSample => exact .passes hwf (.next _)
    | crossoverPass | freqMonitorUpdate | guardMeasurement => exact .passes hwf (.ite (.next _) (.next _))
    | healthWearSample => exact .hasForm hwf (.ite (.next _) (.next _))
    -- an index below its bound
    | commandDoorbell | accordRealign | connEqLost | connEqLocked | cpRestartComplete | edgeLinkClockLoss
    | edgeDieFailure => exact .passes (of_decide_eq_true hwf) (.next _)
    | journalLag => exact .notRefused (Nat.not_le.mpr (of_decide_eq_true hwf)) (.next _)
    | refActivityLoss | macerationExpiry | dpllUpdate =>
      exact .notRefused (Nat.not_le.mpr (of_decide_eq_true hwf)) (.ite (.next _) (.next _))
    | protSwitchStart | protHoldOffExpiry | protWtrExpiry | degWindowEnd | commandDecode | descriptorRecheck =>
      exact .hasForm hwf (.ite (.next _) (.next _))
    | matrixLockTimeout => exact answers_execMatrixLockTimeout s (of_decide_eq_true hwf)
    | keyStoreAlarm => exact .notRefused (of_decide_eq_true hwf) (.ite (.next _) (.next _))
    | unitHardFailure => exact answers_execUnitHardFailure _ s hwf
    | ringEnable | ringDisable => exact .passes hwf (.next _)
    | apertureWrite m a v =>
      simp only [Instr.wf, Bool.and_eq_true, decide_eq_true_eq] at hwf
      obtain ⟨⟨⟨halign, hlow⟩, hhigh⟩, hmaster⟩ := hwf
      exact .notRefused (by simp; omega) (.ite (.next _) (.next _))
    -- the state's own jobs, timers and ports
    | cntDumpBlock r => exact answers_execCntDumpBlock r s
    | memRepair k n l => exact answers_execMemRepair k n l s
    | cpRevertHoldoffExpiry => exact answers_execCpRevertHoldoffExpiry s
    | unitRetestComplete ok => exact answers_execUnitRetestComplete ok s
    | checkpointComplete => exact answers_execCheckpointComplete s
    | stripeReturned rows cols => exact answers_execStripeReturned rows cols s
    | memTestComplete rows cols => exact answers_execMemTestComplete rows cols s
    | eventRingWrite => exact answers_execEventRingWrite s
    | eventAckPhaseEnd k => exact answers_execEventAckPhaseEnd k s
    | dpllSwitchTimeout => exact answers_execDpllSwitchTimeout s
    | dpllLock => exact answers_execDpllLock s
    | ppsInEdgeMissing => exact answers_execPpsInEdgeMissing s
    | todOutMessage => exact answers_execTodOutMessage s
    | saveComplete => exact answers_execSaveComplete s
    | bootImagePoll => exact answers_execBootImagePoll s
    | spareCutover p => exact answers_execSpareCutover p s
    | failoverGapEnd => exact answers_execFailoverGapEnd s
    -- the rows of the host's command table
    | _ => cases hop

/-! ## A bank cycle of the Window Memory (13 R352 to R356) -/

section BankCycle
variable {e : Option PortEAccess} {i : Option PortIAccess} {ecc : Option EccHit}

theorem windowServe_breaks (hok : accessWf e i ecc = true) (hb : hostBreaks e i s = true) :
    windowServe e i ecc s = .fault (.obligationBroken "12 R327, R341") := by
  simp [windowServe, hok, hb]

theorem windowServe_serves (hok : accessWf e i ecc = true) (hb : hostBreaks e i s = false) :
    windowServe e i ecc s = .next (windowAccess e i ecc s) := by
  simp [windowServe, hok, hb]

/-- The port I access has a length, range, master and data that an access can have (13 R354). -/
def PortIForm (x : PortIAccess) : Prop :=
  1 ≤ x.len ∧ x.len ≤ 256 ∧ x.addr + x.len ≤ 0x800000 ∧ x.master < 8 ∧ (x.write = true → x.data.length = x.len)

/-- What a bank cycle asks of its accesses. -/
theorem accessWf_iff : accessWf e i ecc = true ↔
    (∀ a ∈ e, a.addr % 4 = 0 ∧ a.addr < 0x800000) ∧ (∀ x ∈ i, PortIForm x) ∧ ∀ x ∈ ecc, x.addr < 0x800000 := by
  cases e <;> cases i <;> cases ecc <;> simp [accessWf, PortIForm, inR, and_assoc, or_iff_not_imp_left]

/-- A well-formed row gives the same accesses, but for the doorbell page at port E (12 R319). -/
theorem rowAccessWf_iff : Sys2Proof.accessWf e i ecc = true ↔
    (∀ a ∈ e, a.addr % 4 = 0 ∧ a.addr < 0x1000000) ∧ (∀ x ∈ i, PortIForm x) ∧ ∀ x ∈ ecc, x.addr < 0x800000 := by
  cases e <;> cases i <;> cases ecc <;> simp [Sys2Proof.accessWf, PortIForm, and_assoc, or_iff_not_imp_left]

/-- Of well-formed accesses, those left for the bank cycle have the form it asks: an access to the doorbell page is put aside,
and one of a master held off. -/
theorem accessWf_filter (f : PortIAccess → Bool) (h : Sys2Proof.accessWf e i ecc = true) :
    accessWf (e.filter (fun a => decide (a.addr < 0x800000))) (i.filter f) ecc = true := by
  obtain ⟨he, hi, hecc⟩ := rowAccessWf_iff.mp h
  refine accessWf_iff.mpr ⟨fun a ha => ?_, fun x hx => ?_, hecc⟩
  · obtain ⟨hmem, hlow⟩ := Option.mem_filter_iff.mp ha
    exact ⟨(he a hmem).1, of_decide_eq_true hlow⟩
  · exact hi x (Option.mem_filter_iff.mp hx).1

/-! ## WINDOW_MEMORY_ACCESS -/

/-- What follows a bank cycle that is served; a cycle that stops is stopped. -/
def afterCycle (f : State → State) : Host.Outcome State Fault Refusal → Host.Outcome State Fault Refusal
  | .next t => .next (f t)
  | o => o

/-- A row whose ports have their supply is the bank cycle of the accesses left for it, and the doorbell page after that. -/
theorem execWindowMemoryAccess_supplied (hwf : Sys2Proof.accessWf e i ecc = true) (hup : portsUp s.dev = true) :
    ∃ f, execWindowMemoryAccess e i ecc s = afterCycle f
      (windowServe (e.filter (fun a => decide (a.addr < 0x800000))) (i.filter (fun i => lockAllows s 0 i.master)) ecc s) := by
  have hid : ∀ o, afterCycle id o = o := fun o => by cases o <;> rfl
  unfold execWindowMemoryAccess
  simp only [hup, Bool.not_true, Bool.false_eq_true, if_false]
  cases e with
  | none => exact ⟨id, (hid _).symm⟩
  | some a =>
    obtain ⟨halign, hhigh⟩ := (rowAccessWf_iff.mp hwf).1 a rfl
    by_cases hlow : a.addr < 0x800000
    · have hpage : ¬0x800000 ≤ a.addr := Nat.not_le.mpr hlow
      refine ⟨id, ?_⟩
      rw [hid, Option.filter_some_pos (by simpa using hlow)]
      simp [hpage]
    · refine ⟨doorbellPage a, ?_⟩
      rw [Option.filter_some_neg (by simpa using hlow)]
      simp only [Nat.not_lt.mp hlow, halign, hhigh, decide_true, Bool.and_self, if_true]
      rfl

theorem execWindowMemoryAccess_unsupplied (hup : portsUp s.dev = false) : execWindowMemoryAccess e i ecc s = .next s := by
  simp [execWindowMemoryAccess, hup]

end BankCycle

/-! ## BUS_MATRIX_BURST -/

section Burst
variable {reqs : List Burst} {n : Nat} {b : Burst}

theorem leBytes_length : ∀ k v, (leBytes k v).length = k
  | 0, _ => rfl
  | k + 1, v => congrArg (· + 1) (leBytes_length k (v / 256))

theorem burstBytes_length (b : Burst) : (burstBytes b).length = 8 * b.data.length := by
  simp [burstBytes, List.length_flatMap, leBytes_length, Nat.mul_comm]

/-- The burst that a target grants is one of those that wait at it. -/
theorem mem_of_granted (h : granted s n reqs = some b) : b ∈ reqs := by
  obtain ⟨m, -, hm⟩ := List.exists_of_findSome?_eq_some h
  split at hm
  · exact List.mem_of_find?_eq_some hm
  · cases hm

/-- The port I access that a burst to T0 makes. -/
def burstAccess (b : Burst) : PortIAccess :=
  { master := b.master, write := b.write, addr := b.addr, len := 8 * b.beats, data := burstBytes b }

/-- The Window Memory is the target of the addresses below its end (13 Table 13.5). -/
theorem targetOf_eq_zero {a : Nat} : targetOf a = 0 ↔ a < 0x800000 := by
  refine ⟨fun h => ?_, fun h => if_pos h⟩
  by_contra hge
  rw [targetOf, if_neg hge] at h
  split_ifs at h

/-- A burst for T0 stays in its 64-byte block, and so in the Window Memory. -/
theorem accessWf_burstAccess (h : burstOk 0 b = true) : accessWf none (some (burstAccess b)) none = true := by
  simp only [burstOk, inR, Bool.and_eq_true, decide_eq_true_eq, beq_iff_eq, targetOf_eq_zero, Bool.or_eq_true,
    Bool.not_eq_true'] at h
  obtain ⟨⟨⟨⟨⟨⟨hmaster, hfirst, hlast⟩, -⟩, -⟩, hblock⟩, hdata⟩, hlow⟩ := h
  refine accessWf_iff.mpr ⟨by simp, fun x hx => ?_, by simp⟩
  obtain rfl := Option.mem_some.mp hx
  have hlen : b.write = true → (burstBytes b).length = 8 * b.beats := fun hw => by
    rw [burstBytes_length, hdata.resolve_left (by simp [hw])]
  exact ⟨by simp only [burstAccess]; omega, by simp only [burstAccess]; omega, by simp only [burstAccess]; omega, hmaster, hlen⟩

/-- A burst to T0 is refused by the address map, or is a bank cycle of its own. -/
theorem burstServe_T0 (b : Burst) (s : State) : burstServe 0 b s = .next (burstError b s) ∨
    burstServe 0 b s = windowServe none (some (burstAccess b)) none (burstLock 0 b s) := by
  unfold burstServe
  dsimp only
  split
  · exact .inl rfl
  · exact .inr rfl

/-- A burst to T0 that is not a write of the host answers a next state. -/
theorem answers_burstServe_T0 (h : burstOk 0 b = true) (hw : (b.write && b.master == 2) = false) (s : State) :
    Answers (burstServe 0 b s) := by
  have hbreaks : hostBreaks none (some (burstAccess b)) (burstLock 0 b s) = false := by simp [hostBreaks, burstAccess, hw]
  rcases burstServe_T0 b s with hserve | hserve <;> rw [hserve]
  · exact .next _
  · rw [windowServe_serves (accessWf_burstAccess h) hbreaks]
    exact .next _

/-- The only stop of a burst to T0 is the host's write of bytes that the device owns. -/
theorem answers_or_fault_burstServe_T0 (h : burstOk 0 b = true) (s : State) :
    Answers (burstServe 0 b s) ∨ burstServe 0 b s = .fault (.obligationBroken "12 R327, R341") := by
  rcases burstServe_T0 b s with hserve | hserve <;> rw [hserve]
  · exact .inl (.next _)
  · cases hb : hostBreaks none (some (burstAccess b)) (burstLock 0 b s) with
    | true => exact .inr (windowServe_breaks (accessWf_burstAccess h) hb)
    | false =>
      rw [windowServe_serves (accessWf_burstAccess h) hb]
      exact .inl (.next _)

/-- Every target but the Window Memory answers a next state. -/
theorem answers_burstServe (hn : n ≠ 0) (b : Burst) (s : State) : Answers (burstServe n b s) := by
  refine .ite (.next _) ?_
  split
  · exact absurd rfl hn
  · exact .ite (.next _) (.next _)
  · exact .ite (.next _) (.next _)
  · exact .ite (.next _) (.ite (.next _) (.next _))
  · exact .ite (.next _) (.next _)
  · exact .ite (.next _) (.next _)

/-- What a row of well-formed bursts does: nothing, without supply or with no burst granted, or it serves one of them. -/
theorem execBusMatrixBurst_cases (hwf : reqs.all (burstWf n) = true) (s : State) :
    execBusMatrixBurst reqs n s = .next s ∨
      ∃ b, portsUp s.dev = true ∧ granted s n reqs = some b ∧ burstOk n b = true ∧ execBusMatrixBurst reqs n s = burstServe n b s := by
  have hok : reqs.all (burstOk n) = true := by rwa [funext (burstOk_eq_burstWf n)]
  cases hup : portsUp s.dev with
  | false => exact .inl (by simp [execBusMatrixBurst, hok, hup])
  | true =>
    cases hg : granted s n reqs with
    | none => exact .inl (by simp [execBusMatrixBurst, hok, hup, hg])
    | some b =>
      exact .inr ⟨b, rfl, rfl, List.all_eq_true.mp hok b (mem_of_granted hg), by simp [execBusMatrixBurst, hok, hup, hg]⟩

end Burst

/-! ## The statement -/

/-- A supplied access faults just where the host breaks its obligation (00 R6; 12 R327, R341), and else answers. -/
theorem windowMemoryAccess_outcomes (e : Option PortEAccess) (p : Option PortIAccess) (h : Option EccHit) (s : State)
    (hwf : Sys2Proof.accessWf e p h = true) (hup : portsUp s.dev = true) :
    (hostBreaks (e.filter (fun a => decide (a.addr < 0x800000))) (p.filter (fun i => lockAllows s 0 i.master)) s = true →
      exec (.windowMemoryAccess e p h) s = .fault (.obligationBroken "12 R327, R341")) ∧
    (hostBreaks (e.filter (fun a => decide (a.addr < 0x800000))) (p.filter (fun i => lockAllows s 0 i.master)) s = false →
      Answers (exec (.windowMemoryAccess e p h) s)) := by
  obtain ⟨f, hf⟩ := execWindowMemoryAccess_supplied hwf hup
  have hexec : exec (.windowMemoryAccess e p h) s = execWindowMemoryAccess e p h s := rfl
  have hok := accessWf_filter (fun i => lockAllows s 0 i.master) hwf
  refine ⟨fun hb => ?_, fun hb => ?_⟩
  · rw [hexec, hf, windowServe_breaks hok hb]
    rfl
  · rw [hexec, hf, windowServe_serves hok hb]
    exact .next _

/-- Away from T0, without supply, and with no write of PCIe granted at T0, a burst answers. -/
theorem answers_busMatrixBurst (b : List Burst) (n : Nat) (s : State) (hwf : b.all (burstWf n) = true)
    (h : n ≠ 0 ∨ portsUp s.dev = false ∨ ∀ x, granted s 0 b = some x → (x.write && x.master == 2) = false) :
    Answers (exec (.busMatrixBurst b n) s) := by
  change Answers (execBusMatrixBurst b n s)
  rcases execBusMatrixBurst_cases hwf s with hstays | ⟨x, hup, hgrant, hok, hserve⟩
  · exact ⟨s, hstays⟩
  rw [hserve]
  by_cases hn : n = 0
  · subst hn
    rcases h with hne | hdown | hread
    · exact absurd rfl hne
    · rw [hup] at hdown
      cases hdown
    · exact answers_burstServe_T0 hok (hread x hgrant) s
  · exact answers_burstServe hn x s

/-- No burst is refused, and none faults but for the host's broken obligation. -/
theorem answers_or_fault_busMatrixBurst (b : List Burst) (n : Nat) (s : State) (hwf : b.all (burstWf n) = true) :
    Answers (exec (.busMatrixBurst b n) s) ∨ exec (.busMatrixBurst b n) s = .fault (.obligationBroken "12 R327, R341") := by
  change Answers (execBusMatrixBurst b n s) ∨ execBusMatrixBurst b n s = _
  rcases execBusMatrixBurst_cases hwf s with hstays | ⟨x, -, -, hok, hserve⟩
  · exact .inl ⟨s, hstays⟩
  rw [hserve]
  by_cases hn : n = 0
  · subst hn
    exact answers_or_fault_burstServe_T0 hok s
  · exact .inl (answers_burstServe hn x s)

/-- Settles O7: rows other than the two accesses have only branches that answer, once their operands pass; an access is a bank
cycle, which stops only where the host writes what the device owns; a burst stops only where it is such a cycle. -/
theorem wellFormedCommandsComplete : Obligations.WellFormedCommandsComplete :=
  ⟨answers_exec,
    fun e p h s hwf => ⟨fun hdown => execWindowMemoryAccess_unsupplied hdown, windowMemoryAccess_outcomes e p h s hwf⟩,
    fun b n s hwf => ⟨answers_busMatrixBurst b n s hwf, answers_or_fault_busMatrixBurst b n s hwf⟩⟩

end Sys2Proof.Machine


/-! PROOFS. Settings of tributaries (05_tributaries_and_accords.md): a map load's descriptor, and what their commands give at the
update port. -/

namespace Sys2Proof.Machine

/-! ## A buffer of one descriptor (12 R341) -/

section Buffer
variable {len : Nat → Bool} {a : Nat} {s : State}

theorem takeBuffer_notHandedOver (h : (readDesc s a).own = false) : takeBuffer len a s = none := by
  simp [takeBuffer, h]

theorem takeBuffer_badDesc (h : (readDesc s a).own = true)
    (hbad : (readDesc s a).bad = true ∨ (readDesc s a).last = false ∨ len (readDesc s a).len = false) :
    takeBuffer len a s = some (some .badParam, [], handBack a s) := by
  have hrefused : ((readDesc s a).bad || !(readDesc s a).last || !len (readDesc s a).len) = true := by
    rcases hbad with hb | hl | hn <;> simp [*]
  simp [takeBuffer, h, hrefused]

/-- A descriptor in order and handed over is taken; its data then stand or fall by their CRC. -/
theorem takeBuffer_goodDesc (h : (readDesc s a).own = true) (hbad : (readDesc s a).bad = false) (hlast : (readDesc s a).last = true)
    (hlen : len (readDesc s a).len = true) : takeBuffer len a s =
      if (crc32c (wmGet s (readDesc s a).addr (readDesc s a).len)).toNat ≠ (readDesc s a).dcrc then some (some .badCrc, [], handBack a s)
      else some (none, wmGet s (readDesc s a).addr (readDesc s a).len, handBack a s) := by
  simp [takeBuffer, h, hbad, hlast, hlen]

end Buffer

/-! ## `TRIB_MAP_LOAD` at its descriptor (05 R122, R151) -/

section MapLoad
variable {p : Packet} {s t : State} {st : Status} {img : List Byte}

theorem bodyTribMapLoad_busy (h : mapBusy s p.params = true) : bodyTribMapLoad p s = refuse .busy s := by
  simp [bodyTribMapLoad, h]

theorem bodyTribMapLoad_waits (h : mapBusy s p.params = false) (hb : takeBuffer (· == 196608) (pf p.params 1 22 0) s = none) :
    bodyTribMapLoad p s = .wait (.desc (pf p.params 1 22 0)) [] [] s := by
  simp [bodyTribMapLoad, h, tribMapReach, hb]

theorem bodyTribMapLoad_badBuffer (h : mapBusy s p.params = false)
    (hb : takeBuffer (· == 196608) (pf p.params 1 22 0) s = some (some st, img, t)) : bodyTribMapLoad p s = refuse st t := by
  simp [bodyTribMapLoad, h, tribMapReach, hb]

/-- With a good buffer the entries' reserved bits decide. -/
theorem bodyTribMapLoad_goodBuffer (h : mapBusy s p.params = false)
    (hb : takeBuffer (· == 196608) (pf p.params 1 22 0) s = some (none, img, t)) :
    bodyTribMapLoad p s = if (parseMap 0 img).isNone then refuse .badParam t else .wait .port img [] t := by
  simp [bodyTribMapLoad, h, tribMapReach, hb]

end MapLoad

/-! ## The reply of the command whose turn it is (12 R471) -/

section Turn
variable {j : Job} {s0 s1 s t : State} {st : Status} {ws : List Word}

/-- Settings accepted at the port: their words, then the effective cycle. -/
theorem exec_updatePortCommit_ok (h : PortTurn j s0 s1) (hw : j.work = .port) (hc : j.cls ≠ 8) (hs : s = jrnl 2 j.ring j.tag s1)
    (hok : cmdCommit j (effTick s) s = .ok ws t) :
    exec .updatePortCommit s0 = .next (protSync (endJob j.ring .ok (ws ++ effWords t (effTick s)) t)) := by
  rw [← jobCommit_ok hc hok hs]
  exact portTurn_commit h hw

/-- Settings refused at the port. -/
theorem exec_updatePortCommit_refuse (h : PortTurn j s0 s1) (hw : j.work = .port) (hc : j.cls ≠ 8) (hs : s = jrnl 2 j.ring j.tag s1)
    (hno : cmdCommit j (effTick s) s = .refuse st ws) :
    exec .updatePortCommit s0 = .next (protSync (endJob j.ring st ws s)) := by
  rw [← jobCommit_refuse hc hno hs]
  exact portTurn_commit h hw

end Turn

/-! ## Class TRIB at the update port -/

/-- The staged write `x` is a timing mode of the lane that `ws` names, for tick `k`. -/
def stagesTiming (k : Nat) (ws : List Word) (x : Staged) : Bool :=
  x.tick == k && (match x.w with | .cmd 3 0x13 w _ => pf w 0 7 0 == pf ws 0 7 0 | _ => false)

/-- The map that a load's image gives its lane (05 R151). -/
def loadedMap (j : Job) : TMap := { gen := pf j.params 0 31 16, ents := (parseMap 0 j.image).getD [] }

/-- The tributaries for which a load is refused at its commit (05 R137, R149; 08 R226). -/
def loadBad (j : Job) (k : Nat) (s : State) : List Nat := mapBad j.params (loadedMap j) k s ++ protMapBad j.params (loadedMap j) s

section Port
variable {j : Job} {k : Nat} {s : State}

/-- A timing mode supersedes those of its lane for the same tick, and no other staged write (01 R24). -/
theorem supersede_timing (hc : j.cls = 3) (ha : j.act = 0x13) :
    supersede k j = Option.guard (fun x => !stagesTiming k j.params x) := by
  funext x
  unfold supersede
  rw [hc, ha]
  by_cases htick : x.tick = k
  · rw [if_neg (by simpa using htick)]
    cases hx : x.w with
    | cmd c a w img =>
      by_cases hca : c = 3 ∧ a = 0x13
      · obtain ⟨rfl, rfl⟩ := hca
        by_cases hl : pf w 0 7 0 = pf j.params 0 7 0 <;> simp [stagesTiming, Option.guard, hx, htick, hl]
      · have hother : stagesTiming k j.params x = false := by
          simp only [stagesTiming, hx]
          split <;> simp_all
        have hdiff : (decide (c ≠ 3) || decide (a ≠ 0x13)) = true := by
          by_cases hc3 : c = 3 <;> simp_all
        simp only [Option.guard, hother, Bool.not_false, if_true]
        exact if_pos (by simpa using hdiff)
    | _ => simp [stagesTiming, Option.guard, hx]
  · simp [stagesTiming, Option.guard, htick]

theorem stage_timing (hc : j.cls = 3) (ha : j.act = 0x13) : stage k false j s = { s with port := { s.port with
    staged := s.port.staged.filter (fun x => !stagesTiming k j.params x)
      ++ [{ tick := k, egress := false, w := .cmd j.cls j.act j.params j.image }] } } := by
  simp only [stage, supersede_timing hc ha, List.filterMap_eq_filter]

theorem cmdCommit_timing (hc : j.cls = 3) (ha : j.act = 0x13) :
    cmdCommit j k s = .ok [] (stage k false j (timingCommit j.params k s)) := by
  simp [cmdCommit_trib hc, ha]

theorem cmdCommit_map_refuse (hc : j.cls = 3) (ha : j.act = 0x10) (hbad : loadBad j k s ≠ []) :
    cmdCommit j k s = .refuse .badParam [wd (tribIds (loadedMap j)).length, wd (lowest (loadBad j k s))] := by
  rw [cmdCommit_trib hc, if_pos ha]
  have hne : (!(loadBad j k s).isEmpty) = true := by simpa using hbad
  exact if_pos hne

theorem cmdCommit_map_ok (hc : j.cls = 3) (ha : j.act = 0x10) (hbad : loadBad j k s = []) :
    cmdCommit j k s = .ok [wd (tribIds (loadedMap j)).length, 0]
      (stage (if pb j.params 0 8 then k + 3 else k) (pb j.params 0 8) j (mapCommit j.params (loadedMap j) k s)) := by
  rw [cmdCommit_trib hc, if_pos ha]
  have he : ¬ (!(loadBad j k s).isEmpty) = true := by simpa using hbad
  exact if_neg he

theorem cmdCommit_trib_owned (hc : j.cls = 3) (ha : j.act = 0x11) (hown : protTribSet s j.params = true) :
    cmdCommit j k s = .refuse .notInMode [] := by
  simp [cmdCommit_trib hc, ha, hown]

theorem cmdCommit_trib_clash (hc : j.cls = 3) (ha : j.act = 0x11) (hown : protTribSet s j.params = false)
    (hclash : (pb j.params 0 18 && setClash (pf j.params 0 17 0) (egSetOf j.params) k s) = true) :
    cmdCommit j k s = .refuse .badParam [] := by
  rw [cmdCommit_trib hc, if_neg (by simp [ha]), if_pos ha, hown, if_neg Bool.false_ne_true, if_pos hclash]

theorem cmdCommit_trib_ok (hc : j.cls = 3) (ha : j.act = 0x11) (hown : protTribSet s j.params = false)
    (hclash : (pb j.params 0 18 && setClash (pf j.params 0 17 0) (egSetOf j.params) k s) = false) :
    cmdCommit j k s = .ok [] (tribSetCommit j.params k s) := by
  rw [cmdCommit_trib hc, if_neg (by simp [ha]), if_pos ha, hown, hclash, if_neg Bool.false_ne_true, if_neg Bool.false_ne_true]

end Port

/-- Settles O28: each row's body decides the answer of an accepted packet, and `cmdCommit` that of a command at the port; what is
staged there stands behind the others, but for a timing mode, which takes the place of its lane's. -/
theorem tribSettings : Obligations.TribSettings := by
  refine ⟨fun p s s1 hp => ?_, fun p s s1 hp => ?_, fun p s s1 hp => runCommand_wait hp rfl, fun j s0 s1 hturn hw hc => ?_⟩
  · refine ⟨fun hbusy => runCommand_reply hp (bodyTribMapLoad_busy hbusy), fun hfree => ⟨fun hown => ?_, fun hown hbad => ?_,
      fun hown hok hlast hlen => ?_⟩⟩
    · exact runCommand_wait hp (bodyTribMapLoad_waits hfree (takeBuffer_notHandedOver hown))
    · exact runCommand_reply hp (bodyTribMapLoad_badBuffer hfree (takeBuffer_badDesc hown (by simpa using hbad)))
    · have htake := takeBuffer_goodDesc (len := (· == 196608)) hown hok hlast (by simpa using hlen)
      have htaken hcrc := bodyTribMapLoad_goodBuffer hfree (htake.trans (if_neg (not_not_intro hcrc)))
      refine ⟨fun hcrc => ?_, fun hcrc hmap => ?_, fun hcrc hmap => ?_⟩
      · exact runCommand_reply hp (bodyTribMapLoad_badBuffer hfree (htake.trans (if_pos hcrc)))
      · exact runCommand_reply hp ((htaken hcrc).trans (if_pos (by simpa using hmap)))
      · exact runCommand_wait hp ((htaken hcrc).trans (if_neg (by simpa [Option.isSome_iff_ne_none] using hmap)))
  · by_cases hown : protTribSet s1 p.params = true
    · rw [if_pos hown]
      exact runCommand_reply hp (if_pos hown)
    · rw [if_neg hown]
      exact runCommand_wait hp (if_neg hown)
  · have h8 : j.cls ≠ 8 := by omega
    refine ⟨fun ha hbad => ?_, fun ha hbad => ?_, fun ha hown => ?_, fun ha hown hclash => ?_, fun ha hown hclash => ?_, fun ha => ?_⟩
    · exact exec_updatePortCommit_refuse hturn hw h8 rfl (cmdCommit_map_refuse hc ha hbad)
    · have hstage {k : Nat} {e : Bool} {t : State} := stage_behind (k := k) (e := e) (s := t) (j := j) (by omega) (fun _ => .inl ha) h8
      rw [exec_updatePortCommit_ok hturn hw h8 rfl (cmdCommit_map_ok hc ha hbad), hstage]
      cases pb j.params 0 8 <;> rfl
    · exact exec_updatePortCommit_refuse hturn hw h8 rfl (cmdCommit_trib_owned hc ha hown)
    · exact exec_updatePortCommit_refuse hturn hw h8 rfl (cmdCommit_trib_clash hc ha hown hclash)
    · exact exec_updatePortCommit_ok hturn hw h8 rfl (cmdCommit_trib_ok hc ha hown hclash)
    · rw [exec_updatePortCommit_ok hturn hw h8 rfl (cmdCommit_timing hc ha), stage_timing hc ha]
      rfl

end Sys2Proof.Machine


/-! PROOFS. The grain cycle (02_grain_cycle.md): the clock that only ticks move, and the cycle at which a write takes effect. -/

namespace Sys2Proof.Machine

/-! ## What moves the clock (02 R39, R40) -/

section Clock
variable {s t : State} {m : TickMeas}

theorem clockOf_clkNext (c : Clk) : clockOf (clkNext c) =
    (c.ticks + 1, if c.ticks = 0 then 0 else (c.cyc + 1) % 8, c.tickAt + 15625, c.tickAt + 15625) := by
  unfold clkNext
  split <;> simp [clockOf, cycleNs, *]

theorem clockOf_clkNext_congr {a b : Clk} (h : clockOf a = clockOf b) : clockOf (clkNext a) = clockOf (clkNext b) := by
  simp only [clockOf, Prod.mk.injEq] at h
  obtain ⟨hticks, hcyc, -, hat⟩ := h
  rw [clockOf_clkNext, clockOf_clkNext, hticks, hcyc, hat]

/-- The clock that a tick begins, from which ALIGN alone may step it, at a frame tick with an edge (02 R61). -/
theorem clockOf_doTick (m : TickMeas) (s : State) :
    (doTick m s).clk.ticks = s.clk.ticks + 1 ∧
      (frameNext s = false ∨ m.ftick = none → clockOf (doTick m s).clk = clockOf (clkNext s.clk)) := by
  have hlead := keeps_tickLead s
  unfold doTick
  dsimp only
  generalize sampleTaps (if passPending s then crossPass (curCycle s - 1) [] s else s) = u at hlead
  have hnext : clockOf (clkNext u.clk) = clockOf (clkNext s.clk) := clockOf_clkNext_congr hlead.time
  have hhalt := keeps_haltDue (keeps_genTake (Keeps.refl { u with clk := clkNext u.clk }))
  generalize haltDue (genTake { u with clk := clkNext u.clk }) = v at hhalt
  have hv : clockOf v.clk = clockOf (clkNext s.clk) := hhalt.time.trans hnext
  have hticks : v.clk.ticks = s.clk.ticks + 1 := congrArg Prod.fst (hv.trans (clockOf_clkNext s.clk))
  split
  · have hwork := (keepsAlign_tickWork (frameNext s) m v).trans
      (keeps_protSync (keeps_laneWatch v (keeps_lanesTrim (Keeps.refl _)))).toAlign
    exact ⟨hwork.ticks.trans hticks, fun h => (hwork.time h).trans hv⟩
  · exact ⟨hticks, fun _ => hv⟩

theorem frameNext_eq_false_iff : frameNext s = false ↔ s.clk.ticks ≠ 0 ∧ s.clk.cyc ≠ 7 := by
  simp [frameNext]

theorem ticking_iff : ticking s = true ↔ running s = true ∧ s.tick.failed < 2 := by simp [ticking]

theorem frameNext_iff : frameNext s = true ↔ s.clk.ticks = 0 ∨ s.clk.cyc = 7 := by simp [frameNext]

theorem exec_grainCycleTick (h : ticking s = true) : exec (.grainCycleTick m) s = .next (doTick m s) := if_pos h

theorem exec_grainCycleTick_still (h : ticking s = false) : exec (.grainCycleTick m) s = .next s := if_neg (by simp [h])

theorem exec_frameTick (h : ticking s = true) (hf : frameNext s = true) : exec (.frameTick m) s = .next (doTick m s) :=
  if_pos (by simp [h, hf])

theorem exec_frameTick_still (h : ticking s = false ∨ frameNext s = false) : exec (.frameTick m) s = .next s :=
  if_neg (by rcases h with h | h <;> simp [h])

/-- A row that is no tick and does not stop or restart the device leaves the clock. -/
theorem clockOf_exec {i : Instr} (hi : movesClock i = false) (h : exec i s = .next t) : clockOf t.clk = clockOf s.clk := by
  have hkeeps := keeps_exec s i hi
  rw [h] at hkeeps
  exact hkeeps.time

end Clock

/-! ## The empty queue (log 1) -/

section Idle
variable {s : State}

/-- Time stands at the last nanosecond before a tick that is due. -/
def waitsForTick (s : State) : Prop := ticking s = true ∧ s.clk.tickAt + 15625 ≤ s.clk.now + 1

theorem step_of_empty (h : s.pending = []) : step s = .next (idle s) := by simp [step, h]

theorem idle_waits (h : waitsForTick s) : idle s = s := if_pos (by simpa [waitsForTick, cycleNs] using h)

theorem idle_passes (h : ¬waitsForTick s) : idle s = haltDue { s with clk := { s.clk with now := s.clk.now + 1 } } :=
  if_neg (by simpa [waitsForTick, cycleNs] using h)

theorem clockOf_idle_passes (h : ¬waitsForTick s) :
    clockOf (idle s).clk = (s.clk.ticks, s.clk.cyc, s.clk.now + 1, s.clk.tickAt) := by
  rw [idle_passes h]
  exact (keeps_haltDue (Keeps.refl _)).time

/-- Settles O2: both branches of `idle`. -/
theorem stepIdles : Obligations.StepIdles := by
  intro s h
  rw [step_of_empty h]
  by_cases hw : waitsForTick s
  · rw [idle_waits hw]
    exact congrArg _ (if_pos hw).symm
  · rw [idle_passes hw]
    exact congrArg _ (if_neg hw).symm

end Idle

/-- Settles O45: `Keeps` holds of every row that does not move the clock; a tick's own work leaves the clock that `clkNext` gives, but
for ALIGN; idling stops short of a tick that is due. -/
theorem onlyTicksMoveTheClock : Obligations.OnlyTicksMoveTheClock := by
  refine ⟨fun i s t hi h => ?_, fun m s i t hrun hgen hi h => ?_, fun s h => ⟨idle s, step_of_empty h, ?_⟩⟩
  · simpa only [clockOf, Prod.mk.injEq] using clockOf_exec hi h
  · have htick : ticking s = true := ticking_iff.mpr ⟨hrun, hgen⟩
    have hexec : exec i s = .next (doTick m s) := by
      rcases hi with rfl | ⟨rfl, hf⟩
      · exact exec_grainCycleTick htick
      · exact exec_frameTick htick (frameNext_iff.mpr hf)
    obtain rfl : doTick m s = t := Host.Outcome.next.inj (hexec.symm.trans h)
    obtain ⟨hticks, hclock⟩ := clockOf_doTick m s
    refine ⟨hticks, fun hno => ?_⟩
    have heq := (hclock (hno.imp_left frameNext_eq_false_iff.mpr)).trans (clockOf_clkNext _)
    simp only [clockOf, Prod.mk.injEq] at heq
    obtain ⟨-, hcyc, hnow, hat⟩ := heq
    exact ⟨hcyc, hat, hnow.trans hat.symm⟩
  · by_cases hw : waitsForTick s
    · rw [idle_waits hw]
      exact ⟨rfl, rfl, rfl, le_rfl, by omega, fun _ _ h => h⟩
    · have hclock := clockOf_idle_passes hw
      simp only [clockOf, Prod.mk.injEq] at hclock
      obtain ⟨hticks, hcyc, hnow, hat⟩ := hclock
      refine ⟨hticks, hcyc, hat, by omega, by omega, fun hrun hgen _ => ?_⟩
      have : ¬s.clk.tickAt + 15625 ≤ s.clk.now + 1 := fun hle => hw ⟨ticking_iff.mpr ⟨hrun, hgen⟩, hle⟩
      omega

/-! ## The effective cycle (02 R40, R52, R54) -/

section Effective
variable {s : State} {k : Nat}

theorem nsOf_of_cycle {c : Clk} (hticks : 0 < c.ticks) (hlt : c.now < c.tickAt + 15625) : nsOf c = c.now - c.tickAt := by
  have : c.ticks ≠ 0 := by omega
  simp only [nsOf, this, if_false, cycleNs]
  omega

/-- A cycle's index, 8 times its FC plus its number, modulo 2^35 (02 R40). -/
theorem index_fcOf (s : State) (k : Nat) : 8 * (fcOf s k).1.toNat + (fcOf s k).2 =
    if s.clk.ticks = 0 then k % 2 ^ 35 else absIdx s k := by
  have hlt : (if s.clk.ticks = 0 then k % 2 ^ 35 else absIdx s k) < 2 ^ 35 := by
    split <;> exact Nat.mod_lt _ (by decide)
  simp only [fcOf, wd, BitVec.toNat_ofNat]
  generalize (if s.clk.ticks = 0 then k % 2 ^ 35 else absIdx s k) = i at hlt
  omega

theorem fcOf_cyc_lt (s : State) (k : Nat) : (fcOf s k).2 < 8 := Nat.mod_lt _ (by decide)

/-- Cycle numbers run on from tick to tick. -/
theorem fcOf_cyc_add (h : curCycle s ≤ k) (n : Nat) : (fcOf s (k + n)).2 = ((fcOf s k).2 + n) % 8 := by
  simp only [fcOf]
  split
  · omega
  · unfold curCycle at h
    unfold absIdx
    omega

theorem curCycle_le_effTick (s : State) : curCycle s ≤ effTick s := by
  unfold effTick curCycle
  split <;> omega

/-- A commit on a tick's edge, or within its cycle (02 R52). -/
theorem effTick_eq (hticks : 0 < s.clk.ticks) (hlt : s.clk.now < s.clk.tickAt + 15625) :
    effTick s = if s.clk.now ≤ s.clk.tickAt then s.clk.ticks else s.clk.ticks + 1 := by
  simp only [effTick, nsOf_of_cycle hticks hlt, Nat.sub_eq_zero_iff_le]

/-- 02 R52: the first cycle whose tick falls at least 15,625 ns after this moment. -/
theorem effTick_isLeast (hticks : 0 < s.clk.ticks) (hge : s.clk.tickAt ≤ s.clk.now) (hlt : s.clk.now < s.clk.tickAt + 15625) :
    IsLeast {k : Nat | (s.clk.now : Int) + 15625 ≤ s.clk.tickAt + 15625 * ((k : Int) - curCycle s)} (effTick s) := by
  have hcur : curCycle s = s.clk.ticks - 1 := rfl
  rw [effTick_eq hticks hlt, hcur]
  refine ⟨?_, fun k hk => ?_⟩
  · rw [Set.mem_ofPred_eq]
    split <;> omega
  · rw [Set.mem_ofPred_eq] at hk
    split <;> omega

/-- 02 R54: from the cycle of R52, the next one with cycle number 0. -/
theorem effTickAligned_isLeast (s : State) : IsLeast {k : Nat | effTick s ≤ k ∧ (fcOf s k).2 = 0} (effTickAligned s) := by
  have hcyc := fcOf_cyc_lt s (effTick s)
  have hnext := fcOf_cyc_add (curCycle_le_effTick s)
  unfold effTickAligned
  refine ⟨⟨Nat.le_add_right _ _, ?_⟩, fun k ⟨hle, hzero⟩ => ?_⟩
  · rw [hnext]
    omega
  · obtain ⟨n, rfl⟩ := Nat.exists_eq_add_of_le hle
    rw [hnext] at hzero
    show effTick s + _ ≤ _
    omega

theorem exec_updatePortCommit_closed (h : portOpen s = false) : exec .updatePortCommit s = .next s := if_neg (by simp [h])

/-- Settles O46: the port stays shut before the first tick; from then on the ticks' times and indices decide by arithmetic. -/
theorem effectiveCycle : Obligations.EffectiveCycle := by
  refine ⟨fun s hticks hge hlt => ?_, fun s hticks => ?_, fun s k hticks hk hcyc => ?_⟩
  · refine ⟨effTick_isLeast hticks hge hlt, fun hedge => ?_⟩
    rw [effTick_eq hticks hlt, if_pos hedge.le]
    unfold curCycle
    omega
  · exact exec_updatePortCommit_closed (by simp [portOpen, hticks])
  · refine ⟨?_, fcOf_cyc_lt s k⟩
    rw [index_fcOf, if_neg hticks.ne']
    unfold curCycle at hk ⊢
    unfold absIdx
    omega

end Effective

/-! ## Tick-aligned settings at the port (02 R54; Table 12.10) -/

section Aligned
variable {j : Job} {s0 s1 s t : State} {st : Status} {ws : List Word}

theorem exec_updatePortCommit_aligned_ok (h : PortTurn j s0 s1) (hw : j.work = .port) (hc : j.cls = 8) (hs : s = jrnl 2 j.ring j.tag s1)
    (hok : cmdCommit j (effTickAligned s) s = .ok ws t) :
    exec .updatePortCommit s0 = .next (protSync (endJob j.ring .ok (ws ++ effWords t (effTickAligned s)) t)) := by
  rw [← jobCommit_aligned_ok hc hok hs]
  exact portTurn_commit h hw

theorem exec_updatePortCommit_aligned_refuse (h : PortTurn j s0 s1) (hw : j.work = .port) (hc : j.cls = 8)
    (hs : s = jrnl 2 j.ring j.tag s1) (hno : cmdCommit j (effTickAligned s) s = .refuse st ws) :
    exec .updatePortCommit s0 = .next (protSync (endJob j.ring st ws s)) := by
  rw [← jobCommit_aligned_refuse hc hno hs]
  exact portTurn_commit h hw

/-- A seal setting is checked for its direction; a receive setting reserves its units when it is staged (11 R292). -/
theorem cmdCommit_seal_checked (hc : j.cls = 8) (k : Nat) (s : State) : let rx := decide (j.act ≠ 0x10)
    cmdCommit j k s = checked (sealSetCheck rx j.params k s) (.ok [] (stage k false j (if rx then sealReserve j.params k s else s))) := by
  rw [cmdCommit_seal hc]
  by_cases ha : j.act = 0x10 <;> simp [ha]

/-- Settles O47: cycle numbers run on by one, and every seal setting goes the way of a tick-aligned commit. -/
theorem tickAlignedCycle : Obligations.TickAlignedCycle := by
  refine ⟨effTickAligned_isLeast, fun j s0 s1 hturn hw hc => ⟨fun st hno => ?_, fun hok => ?_⟩⟩
  · refine exec_updatePortCommit_aligned_refuse hturn hw hc rfl ?_
    rw [cmdCommit_seal_checked hc, hno]
    rfl
  · have hcommit := cmdCommit_seal_checked hc (effTickAligned (jrnl 2 j.ring j.tag s1)) (jrnl 2 j.ring j.tag s1)
    dsimp only at hcommit
    rw [hok] at hcommit
    rw [exec_updatePortCommit_aligned_ok hturn hw hc rfl hcommit, stage_seal hc]
    rfl

end Aligned

end Sys2Proof.Machine


/-! PROOFS. The crossover pass (02_grain_cycle.md R43 to R45; 06_switching_core.md R157 to R161): what it writes, and what the row reports. -/

namespace Sys2Proof.Machine

/-! ## Rows and jobs that leave the data plane's stores -/

section Stores
variable {α : Type}

theorem foldl_data {f : State → α → State} (hf : ∀ s x, (f s x).data = s.data) : ∀ (l : List α) (s : State), (l.foldl f s).data = s.data
  | [], _ => rfl
  | x :: l, s => (foldl_data hf l (f s x)).trans (hf s x)

@[simp] theorem endJobOne_data (r : Nat) (st : Status) (ws : List Word) (s : State) : (endJobOne r st ws s).data = s.data := by
  unfold endJobOne
  split
  · rfl
  · rw [writeReply_data, setJob_data]
    exact foldl_data (f := fun s a => handBack a s) (fun _ _ => rfl) _ s

@[simp] theorem answerAborts_data (k : Nat) (isOp : Bool) (n : Nat) (s : State) : (answerAborts k isOp n s).data = s.data := by
  induction k generalizing isOp n s with
  | zero => rfl
  | succ k ih =>
    refine foldl_data (fun u q => ?_) _ s
    split
    · split
      · rw [ih, endJobOne_data]
      · rfl
    · rfl

@[simp] theorem endJob_data (r : Nat) (st : Status) (ws : List Word) (s : State) : (endJob r st ws s).data = s.data := by
  unfold endJob
  split
  · rw [answerAborts_data, endJobOne_data]
  · split <;> rfl

@[simp] theorem delayServe_data (n : Nat) (j : Job) (s : State) : (delayServe n j s).data = s.data := by
  unfold delayServe
  dsimp only
  split <;> exact endJob_data _ _ _ _

theorem delayJobs_data (n : Nat) (s : State) : (delayJobs n s).data = s.data := by
  refine foldl_data (fun u r => ?_) _ s
  split
  · split
    · split
      · exact delayServe_data n _ u
      · rfl
    · rfl
  · rfl

@[simp] theorem setForce_data (b : Nat) (x : EqBind) (s : State) : (setForce b x s).data = s.data := by
  unfold setForce
  dsimp only
  split <;> rfl

@[simp] theorem eqHist_data (b : Nat) (h : BitVec 3) (s : State) : (eqHist b h s).data = s.data := rfl

@[simp] theorem eqMeasure_data (b j : Nat) (x : EqBind) (s : State) : (eqMeasure b j x s).data = s.data := by
  unfold eqMeasure
  dsimp only
  split_ifs <;> simp

theorem eqData_data (j b : Nat) (s : State) : (eqData j b s).data = s.data := by
  unfold eqData
  dsimp only
  split
  · exact eqMeasure_data b j _ s
  · split
    · split
      · rfl
      · exact setForce_data b _ s
    · exact setForce_data b _ s
    · rfl
  · rfl

theorem eqPass_data (n : Nat) (s : State) : (eqPass n s).data = s.data := by
  unfold eqPass
  split
  · rfl
  · exact foldl_data (fun u b => eqData_data (n - 1) b u) _ s

end Stores

/-! ## The table of written grains (06 R161) -/

/-- The grains that `f` writes at the listed destinations of a table, those of 0x0000 left out. -/
def writtenGrains {α : Type} (f : Nat → Grain) (t : Tbl α) : Tbl Grain :=
  t.filterMap (fun x => let v := f x.1; if v = 0 then none else some (x.1, v))

/-- Grains carried as read take the place of those written. -/
def carryGrains (bad : List (Nat × Grain)) (t : Tbl Grain) : Tbl Grain := bad.foldl (fun t x => tset noGrain x.1 x.2 t) t

section Grains
variable {α : Type} {d : Nat → α} {f : Nat → Grain}

theorem writtenGrains_cons (j : Nat) (v : α) (t : Tbl α) :
    writtenGrains f ((j, v) :: t) = if f j = 0 then writtenGrains f t else (j, f j) :: writtenGrains f t := by
  unfold writtenGrains
  rw [List.filterMap_cons]
  by_cases h : f j = 0
  · simp only [h, if_true]
  · simp only [h, if_false]

variable [DecidableEq α]

theorem writtenGrains_wf {lo : Nat} {t : Tbl α} (ht : tblWf d lo t = true) : tblWf noGrain lo (writtenGrains f t) = true := by
  induction t generalizing lo with
  | nil => rfl
  | cons x t ih =>
    obtain ⟨j, v⟩ := x
    simp only [tblWf, Bool.and_eq_true, decide_eq_true_eq] at ht
    obtain ⟨⟨hlo, -⟩, ht⟩ := ht
    have hrest := ih ht
    rw [writtenGrains_cons]
    split
    case isTrue => exact tblWf_mono (by omega) hrest
    case isFalse h =>
      simp only [tblWf, Bool.and_eq_true, decide_eq_true_eq]
      exact ⟨⟨hlo, h⟩, hrest⟩

/-- A destination that the table does not list gets no grain. -/
theorem tget_writtenGrains (g : Nat) {lo : Nat} {t : Tbl α} (ht : tblWf d lo t = true) :
    tget noGrain (writtenGrains f t) g = if tget d t g = d g then 0 else f g := by
  induction t generalizing lo with
  | nil => simp [writtenGrains, tget, noGrain]
  | cons x t ih =>
    obtain ⟨j, v⟩ := x
    simp only [tblWf, Bool.and_eq_true, decide_eq_true_eq] at ht
    obtain ⟨⟨-, hv⟩, ht⟩ := ht
    have hrest := ih ht
    have hbelow : g < j + 1 → tget noGrain (writtenGrains f t) g = 0 := fun h => tget_below h (writtenGrains_wf ht)
    rw [writtenGrains_cons, tget]
    rcases lt_trichotomy g j with h | rfl | h
    · rw [if_neg h.ne, if_pos h, if_pos rfl]
      split
      · exact hbelow (by omega)
      · rw [tget, if_neg h.ne, if_pos h]
        rfl
    · rw [if_pos rfl, if_neg hv]
      split
      case isTrue h0 => rw [hbelow (by omega), h0]
      case isFalse => rw [tget, if_pos rfl]
    · rw [if_neg h.ne', if_neg h.not_gt, ← hrest]
      split
      · rfl
      · rw [tget, if_neg h.ne', if_neg h.not_gt]

theorem carryGrains_wf {t : Tbl Grain} (ht : tblWf noGrain 0 t = true) :
    ∀ bad : List (Nat × Grain), tblWf noGrain 0 (carryGrains bad t) = true := by
  intro bad
  induction bad generalizing t with
  | nil => exact ht
  | cons x bad ih => exact ih (tset_wf (Nat.zero_le _) ht)

theorem tget_carryGrains_last {t : Tbl Grain} (ht : tblWf noGrain 0 t = true) (bad : List (Nat × Grain)) (g : Nat) (v : Grain) :
    tget noGrain (carryGrains (bad ++ [(g, v)]) t) g = v := by
  have hset : carryGrains (bad ++ [(g, v)]) t = tset noGrain g v (carryGrains bad t) := by simp [carryGrains]
  rw [hset, tget_tset (carryGrains_wf ht bad), if_pos rfl]

theorem tget_carryGrains_other {t : Tbl Grain} {g : Nat} (ht : tblWf noGrain 0 t = true) {bad : List (Nat × Grain)}
    (h : ∀ x ∈ bad, x.1 ≠ g) : tget noGrain (carryGrains bad t) g = tget noGrain t g := by
  induction bad generalizing t with
  | nil => rfl
  | cons x bad ih =>
    obtain ⟨hx, hbad⟩ := List.forall_mem_cons.mp h
    refine (ih (tset_wf (Nat.zero_le _) ht) hbad).trans ?_
    rw [tget_tset ht, if_neg hx.symm]

end Grains

/-! ## The release buffer that a pass writes (02 R45) -/

section Pass
variable {s : State} {n : Nat} {bad : List (Nat × Grain)}

/-- The grains of egress cycle `n` + 3. -/
def passGrains (n : Nat) (bad : List (Nat × Grain)) (s : State) : Tbl Grain :=
  carryGrains bad (writtenGrains (passGrain s.clk.free s n) s.conn.com)

theorem crossPass_eq (n : Nat) (bad : List (Nat × Grain)) (s : State) : crossPass n bad s =
    delayJobs n (eqPass n (relPut { m := n + 3, gr := passGrains n bad s } { s with clk := { s.clk with free := s.clk.free + 1 } })) := rfl

theorem relPut_eq (b : RelBuf) (s : State) : relPut b s =
    { s with data := if s.data.relNext = true then { s.data with rel1 := some b, relNext := false }
                     else { s.data with rel0 := some b, relNext := true } } := by
  unfold relPut
  cases s.data.relNext <;> rfl

/-- A cycle that no buffer holds is found in the buffer written for it. -/
theorem released_relPut {b : RelBuf} (h : relBuf s b.m = none) : released (relPut b s) b.m = b.gr := by
  have hfound : relBuf (relPut b s) b.m = some b := by
    have hown : Option.filter (fun x => x.m == b.m) (some b) = some b := by simp
    simp only [relBuf, List.findSome?_cons, List.findSome?_nil] at h
    rw [relPut_eq]
    cases s.data.relNext
    · simp [relBuf]
    · cases h0 : Option.filter (fun x => x.m == b.m) s.data.rel0 with
      | none => simp [relBuf, h0]
      | some c => simp [h0] at h
  simp [released, hfound]

theorem released_congr {s t : State} (h : t.data = s.data) (m : Nat) : released t m = released s m := by
  simp only [released, relBuf, h]

theorem released_crossPass (h : relBuf s (n + 3) = none) : released (crossPass n bad s) (n + 3) = passGrains n bad s := by
  rw [crossPass_eq, released_congr ((delayJobs_data n _).trans (eqPass_data n _))]
  exact released_relPut (b := { m := n + 3, gr := passGrains n bad s }) h

/-- A destination at its start-up entry is in force with `FILL` ZERO (06 R186). -/
theorem passGrain_unlisted {c g : Nat} (h : committed s g = connReset g) : passGrain c s n g = 0 := by
  have hforce : inForce s n g = connReset g := by simp [inForce, h, connReset]
  have hfill : entryFill (connReset g).data = 3 := show entryFill 0x03000000 = 3 by decide
  simp [passGrain, hforce, hfill]

/-- What the pass writes where no word was bad. -/
theorem tget_passGrains (hwf : tblWf connReset 0 s.conn.com = true) {g : Nat} (h : ∀ x ∈ bad, x.1 ≠ g) :
    tget noGrain (passGrains n bad s) g = passGrain s.clk.free s n g := by
  unfold passGrains
  rw [tget_carryGrains_other (writtenGrains_wf hwf) h, tget_writtenGrains g hwf]
  split
  case isTrue hreset => exact (passGrain_unlisted hreset).symm
  case isFalse => rfl

end Pass

/-! ## CROSSOVER_PASS (02 R43) -/

section Row
variable {s : State} {be : List Nat} {bw : List BadWord} {co : List Nat}

/-- The entries, words and stores that a pass can name. -/
def PassOperands (be : List Nat) (bw : List BadWord) (co : List Nat) : Prop :=
  be.all gaOk = true ∧ bw.all badWordWf = true ∧ ∀ x ∈ co, 1 ≤ x ∧ x ≤ 6

theorem exec_crossoverPass (h : PassOperands be bw co) : exec (.crossoverPass be { bad := bw, corrected := co }) s =
    if running s && passPending s && decide (3907 ≤ nsOf s.clk) then
      .next (passErrors be bw co (crossPass (curCycle s - 1) (bw.flatMap (·.grains)) s)) else .next s := by
  obtain ⟨hbe, hbw, hco⟩ := h
  have hstores : co.all (fun x => decide (1 ≤ x) && decide (x ≤ 6)) = true := by simpa using hco
  exact if_pos (by simp only [hbe, hbw, hstores, Bool.and_self])

end Row

/-- Settles O36: the buffer for cycle `n` + 3 lists what `passGrain` writes, with the grains read of bad words put in; neither
`CONN_DELAY` nor the Path Equaliser touches it. -/
theorem crossoverPassWrites : Obligations.CrossoverPassWrites := by
  refine ⟨fun n bad s hwf hfree => ⟨fun g v bad' hbad => ?_, fun g hg => ?_⟩, fun n bad s => ?_,
    fun be bw co s hbe hbw hco => ⟨fun hrun hdue hns => ?_, fun h => ?_⟩⟩
  · subst hbad
    rw [released_crossPass hfree]
    exact tget_carryGrains_last (writtenGrains_wf hwf) bad' g v
  · have hgrain : tget noGrain (released (crossPass n bad s) (n + 3)) g = passGrain s.clk.free s n g := by
      rw [released_crossPass hfree, tget_passGrains hwf hg]
    dsimp only
    rw [hgrain]
    unfold passGrain
    refine ⟨fun hd => ?_, fun hd => ?_, fun hd => ?_, fun hd => ?_⟩ <;> simp only [hd]
    cases sourceGrain s n (inForce s n g).data <;> rfl
  · rw [crossPass_eq, relPut_eq]
    rfl
  · rw [exec_crossoverPass ⟨hbe, hbw, hco⟩]
    exact if_pos (by simp [hrun, hdue, hns])
  · rw [exec_crossoverPass ⟨hbe, hbw, hco⟩]
    refine if_neg ?_
    rcases h with h | h | h <;> simp [h]

end Sys2Proof.Machine


/-! PROOFS. Sharing ticks between devices (02_grain_cycle.md R55 to R65). -/

namespace Sys2Proof.Machine

/-! ## TIME_TICK_SET and TIME_TICK_GET (02 R61 to R63) -/

section Commands
variable {p : Packet} {s : State}

/-- ALIGN is admitted: the mode, the one that committed changes lead to, and every transmitter squelched (02 R61; 16 R426). -/
def alignAdmitted (s : State) : Prop :=
  (s.dev.mode = .commissioning ∨ s.dev.mode = .maintenance) ∧ (committedMode s = .commissioning ∨ committedMode s = .maintenance) ∧
    allSquelched s = true

theorem bodyTimeTickSet_plain (h : pb p.params 0 2 = false) : bodyTimeTickSet p s = .wait (.tick 0) [] [] s := by
  simp [bodyTimeTickSet, h]

theorem bodyTimeTickSet_align (h : pb p.params 0 2 = true) (hmay : alignAdmitted s) :
    bodyTimeTickSet p s = .wait (.tick (s.clk.now + 40000000)) [] [] s := by
  obtain ⟨hmode, hlead, hquiet⟩ := hmay
  simp [bodyTimeTickSet, h, loopMode, hmode, hlead, hquiet]

theorem bodyTimeTickSet_refused (h : pb p.params 0 2 = true) (hmay : ¬alignAdmitted s) :
    bodyTimeTickSet p s = .reply .notInMode [] s := by
  rw [bodyTimeTickSet, if_pos h]
  refine if_neg fun hok => hmay ?_
  simp only [loopMode, Bool.and_eq_true, Bool.or_eq_true, beq_iff_eq] at hok
  obtain ⟨⟨hlead, hmode⟩, hquiet⟩ := hok
  exact ⟨hmode, hlead, hquiet⟩

end Commands

/-! ## A TIME_TICK_SET at a frame tick (02 R55, R61) -/

section Job
variable {s : State} {r : Nat} {j : Job} {dl : Nat} {edge : Option Int}

/-- The FTICK link that ALIGN needs (02 R61). -/
def linkUsable (s : State) : Prop := s.tick.link.valid = true ∧ 2 ≤ s.tick.link.good

theorem tickJob_plain (hj : job s r = some j) (hw : j.work = .tick dl) (ha : pb j.params 0 2 = false) :
    tickJob edge s r = endJob r .ok [s.clk.fc, 0] (tickApply j.params s) := by
  simp [tickJob, hj, hw, ha, tickApply]

theorem tickJob_aligns {d : Int} (hj : job s r = some j) (hw : j.work = .tick dl) (ha : pb j.params 0 2 = true) (hl : linkUsable s) :
    tickJob (some d) s r =
      endJob r .ok [s.tick.link.lastFc + (s.clk.fc - s.tick.link.markFc), 0] (tickAlign d (tickApply j.params s)) := by
  obtain ⟨hvalid, hgood⟩ := hl
  simp [tickJob, hj, hw, ha, hvalid, hgood, tickAlign, tickApply]

theorem tickJob_waits (hj : job s r = some j) (hw : j.work = .tick dl) (ha : pb j.params 0 2 = true)
    (h : edge = none ∨ ¬linkUsable s) : tickJob edge s r = if dl ≤ s.clk.now then endJob r .busy [] s else s := by
  cases edge with
  | none => simp [tickJob, hj, hw, ha]
  | some d =>
    have hno : (s.tick.link.valid && decide (2 ≤ s.tick.link.good)) = false := by
      simpa [linkUsable] using h
    simp [tickJob, hj, hw, ha, hno]

end Job

/-! ## The step of ALIGN (02 R61) -/

section Step
variable {e : Int} {c : Clk}

/-- A frame tick that came late is taken back by whole cycles and the rest of one. -/
theorem clkStep_late (h : 0 ≤ e) :
    (clkStep e c).cyc = e.toNat % 125000 / 15625 ∧ (clkStep e c).tickAt = c.now - e.toNat % 15625 := by
  have hmod : e.toNat % 125000 % 15625 = e.toNat % 15625 := Nat.mod_mod_of_dvd _ (by decide)
  simp [clkStep, h, cycleNs, hmod]

theorem clkStep_early (h : e < 0) : (clkStep e c).cyc = 0 ∧ (clkStep e c).tickAt = c.now + (-e).toNat % 125000 := by
  simp [clkStep, not_le.mpr h]

end Step

/-! ## FTICK_WORD_RECEIVED (02 R59, R60) -/

section Word
variable {s : State} {ws : List Nat} {f : Word}

/-- The link after a word 64 later than the one held: valid, with its FC compared with the own marker frame's. -/
def linkAfter (f : Word) (s : State) : State :=
  { s with tick := { s.tick with link := { s.tick.link with
      prev := some f, good := s.tick.link.good + 1, valid := true, lastFc := f, fcMatch := f == s.clk.fc - 63, markFc := s.clk.fc - 63 } } }

theorem exec_ftickWordReceived (hl : ftickListens s = true) (ht : 0 < s.clk.ticks) :
    exec (.ftickWordReceived ws) s = .next (ftickReceive ws s) := if_pos (by simp [hl, ht])

theorem exec_ftickWordReceived_unheard (h : ftickListens s = false ∨ s.clk.ticks = 0) : exec (.ftickWordReceived ws) s = .next s :=
  if_neg (by rcases h with h | h <;> simp [h])

theorem ftickReceive_noWord (h : ftickWord ws = none) : ftickReceive ws s = s := by simp [ftickReceive, h]

/-- A word is held, or follows on the one held; then its FC agrees with the own one, finds a MASTER, or is a mismatch. -/
theorem ftickReceive_word (h : ftickWord ws = some f) : ftickReceive ws s =
    if s.tick.link.prev = some (f - 64) then
      if f = s.clk.fc - 63 || !s.tick.follower then linkAfter f s
      else { tickCond 2 0x32 f s.tick.mism (linkAfter f s) with
        tick := { (tickCond 2 0x32 f s.tick.mism (linkAfter f s)).tick with mism := some 0 } }
    else { s with tick := { s.tick with link := { s.tick.link with prev := some f, good := 1 } } } := by
  simp only [ftickReceive, h]
  rfl

theorem ftickReceive_first (h : ftickWord ws = some f) (hp : s.tick.link.prev ≠ some (f - 64)) :
    ftickReceive ws s = { s with tick := { s.tick with link := { s.tick.link with prev := some f, good := 1 } } } := by
  rw [ftickReceive_word h, if_neg hp]

theorem ftickReceive_follows (h : ftickWord ws = some f) (hp : s.tick.link.prev = some (f - 64))
    (hq : f = s.clk.fc - 63 ∨ s.tick.follower = false) : ftickReceive ws s = linkAfter f s := by
  rw [ftickReceive_word h, if_pos hp]
  exact if_pos (by simpa only [Bool.or_eq_true, decide_eq_true_eq, Bool.not_eq_true'] using hq)

theorem ftickReceive_mismatch (h : ftickWord ws = some f) (hp : s.tick.link.prev = some (f - 64)) (hne : f ≠ s.clk.fc - 63)
    (hf : s.tick.follower = true) : ftickReceive ws s =
      { tickCond 2 0x32 f s.tick.mism (linkAfter f s) with
        tick := { (tickCond 2 0x32 f s.tick.mism (linkAfter f s)).tick with mism := some 0 } } := by
  rw [ftickReceive_word h, if_pos hp]
  refine if_neg ?_
  simp only [Bool.or_eq_true, decide_eq_true_eq, Bool.not_eq_true', not_or]
  exact ⟨hne, by simp [hf]⟩

/-- A condition that stands is not reported again (02 R60). -/
theorem tickCond_eq (b code : Nat) (data : Word) (cur : Option Nat) (s : State) : tickCond b code data cur s =
    if cur = none then pulse 0x07 code 0 data false { s with tick := { s.tick with hist := s.tick.hist ||| (1#3 <<< b) } } else s := by
  cases cur <;> rfl

end Word

/-! ## TICK_GENERATOR_FAILURE (02 R65) -/

section Generator
variable {s : State}

theorem exec_tickGeneratorFailure (h : running s = true) : exec .tickGeneratorFailure s = .next (laneWatch s (tickFailure s)) := if_pos h

/-- The standby takes over where there is one and the SVA can select it. -/
theorem tickFailure_standby (hg : s.tick.failed = 0) (hs : s.cp.svaOk = true) :
    tickFailure s = { s with tick := { s.tick with genNext := some (1 - s.tick.gen), failed := 1 } } := by
  simp [tickFailure, hg, hs]

theorem tickFailure_fences (hg : s.tick.failed < 2) (hno : ¬(s.tick.failed = 0 ∧ s.cp.svaOk = true)) :
    tickFailure s = fencesDue (askFence [0, 1, 2, 3] 4 { s with tick := { s.tick with failed := 2 } }) := by
  have hsel : (decide (s.tick.failed = 0) && s.cp.svaOk) = false := by simpa using hno
  have hworks : ¬2 ≤ s.tick.failed := by omega
  simp only [tickFailure, hsel, hworks, allDies]
  rfl

theorem genTake_standby {g : Nat} (h : s.tick.genNext = some g) :
    genTake s = { s with tick := { s.tick with gen := g, genNext := none } } := by
  simp [genTake, h]

end Generator

/-- Settles O41: the bodies, `tickJob`, `ftickReceive`, `tickFailure` and the guards of the ticks, a lemma for each branch. -/
theorem tickCommands : Obligations.TickCommands := by
  refine ⟨fun p s s1 hp => ⟨fun ha => ?_, fun ha hmay => ?_, fun ha hmay => ?_⟩, fun r s j dl edge hj hw => ⟨fun ha => ?_, fun ha => ?_⟩,
    fun e c => ⟨clkStep_late, clkStep_early⟩, fun p s s1 hp => runCommand_reply hp rfl, fun s => rfl, fun ws s hl ht => ?_,
    fun ws s h => exec_ftickWordReceived_unheard h, fun s hrun => ⟨fun hg hs => ?_, fun g => genTake_standby, fun hg hno => ?_⟩,
    fun m s => ⟨fun hrun hg => ?_, fun h => ?_, fun hticks hcyc => ?_⟩⟩
  · exact runCommand_wait hp (bodyTimeTickSet_plain ha)
  · exact runCommand_wait hp (bodyTimeTickSet_align ha hmay)
  · exact runCommand_reply hp (bodyTimeTickSet_refused ha hmay)
  · exact tickJob_plain hj hw ha
  · refine ⟨fun d hd hl => ?_, fun h => tickJob_waits hj hw ha h⟩
    subst hd
    exact tickJob_aligns hj hw ha hl
  · rw [exec_ftickWordReceived hl ht]
    refine ⟨fun hno => congrArg _ (ftickReceive_noWord hno),
      fun f hf => ⟨fun hp => ?_, fun hp heq => ?_, fun hp hne hm => ?_, fun hp hne hm => ?_⟩⟩
    · exact congrArg _ (ftickReceive_first hf hp)
    · rw [ftickReceive_follows hf hp (.inl heq), linkAfter, beq_iff_eq.mpr heq]
    · rw [ftickReceive_follows hf hp (.inr hm), linkAfter, beq_eq_false_iff_ne.mpr hne]
    · rw [ftickReceive_mismatch hf hp hne hm, tickCond_eq, linkAfter, beq_eq_false_iff_ne.mpr hne]
      rfl
  · rw [exec_tickGeneratorFailure hrun, tickFailure_standby hg hs]
  · rw [exec_tickGeneratorFailure hrun, tickFailure_fences hg hno]
  · have htick : ticking s = true := ticking_iff.mpr ⟨hrun, hg⟩
    exact ⟨exec_grainCycleTick htick, fun hf => exec_frameTick htick (frameNext_iff.mpr hf)⟩
  · have hstill : ticking s = false := by
      rw [← Bool.not_eq_true, ticking_iff]
      rcases h with h | h
      · simp [h]
      · omega
    exact ⟨exec_grainCycleTick_still hstill, exec_frameTick_still (.inl hstill)⟩
  · exact exec_frameTick_still (.inr (frameNext_eq_false_iff.mpr ⟨hticks, hcyc⟩))

end Sys2Proof.Machine


/-! PROOFS. Failures of dies, guarded pins and inputs (15_endurance_and_failover.md, 16_modes_boot_power.md), descriptor rechecks
(12_command_plane.md R341), and what `FTICK_OUT`, `VSAVE_OUT` and the lines show (02_grain_cycle.md, 03_lane_frame.md, 17). -/

namespace Sys2Proof.Machine

/-! ## A fence (16 R443) -/

section Fence
variable {s : State} {e c : Nat}

theorem contain_running (h : s.dev.mode = .service ∨ s.dev.mode = .maintenance ∨ s.dev.mode = .commissioning) :
    contain s = changeRunning .contained { s with dev := { s.dev with cameFrom := s.dev.mode } } := by
  rcases h with h | h | h <;> simp only [contain, h]

theorem contain_contained (h : s.dev.mode = .contained) : contain s = s := by simp only [contain, h]

/-- A cause is new to a die unless it stands already, or a command fences a die that is fenced. -/
theorem fenceDie_new (hne : fenceCause s e ≠ c) (hc : c ≠ 1 ∨ fenceCause s e = 0) :
    fenceDie e c s = contain (raise 0x01 0x11 e (wd (1 + 2 * c)) false
      (fenceLanes e { s with dev := { s.dev with fence := tset zeroN e c s.dev.fence } })) := by
  refine if_neg ?_
  rcases hc with hc | hc
  · simp [hne, hc]
  · rw [hc] at hne
    simp [hc, hne]

end Fence

/-! ## GUARD_MEASUREMENT (15 R408, R409) -/

section Guard
variable {ms : List GuardMeas} {s : State}

/-- The state after the measurements of the pins, before the consequences of a tamper fault. -/
def measured (ms : List GuardMeas) (s : State) : State := guardWatch (ms.foldl (fun s m => guardOne m s) s)

theorem guardRuns_iff (d : Dev) : guardRuns d = true ↔ d.powered = true ∧ d.resetLow = false ∧ d.mode ≠ .retention := by
  simp [guardRuns, and_assoc]

theorem exec_guardMeasurement (h : ∀ m ∈ ms, m.pin < 32 ∧ m.kind ≤ 5 ∧ (m.kind = 4 → m.pin = 31)) :
    exec (.guardMeasurement ms) s = if guardRuns s.dev = true then .next (guardMeasure ms s) else .next s := by
  refine if_pos (List.all_eq_true.mpr fun m hm => ?_)
  obtain ⟨hpin, hkind, hrev⟩ := h m hm
  simpa [guardOk, hpin, hkind, imp_iff_not_or] using hrev

theorem guardMeasure_cut (his : tamperFault (measured ms s) = true) (hwas : tamperFault s = false) :
    guardMeasure ms s = alarmErase 1 (measured ms s) := by
  rw [measured] at his
  simp [guardMeasure, measured, his, hwas]

theorem guardMeasure_ends (hwas : tamperFault s = true) (hpin : (guardPin (measured ms s) 30).kind = 0) :
    guardMeasure ms s = { measured ms s with keys := { (measured ms s).keys with alarm := (measured ms s).keys.alarm &&& 0b11110 } } := by
  rw [measured] at hpin
  simp [guardMeasure, measured, hwas, hpin]

theorem guardMeasure_lasts (hwas : tamperFault s = true) (hpin : (guardPin (measured ms s) 30).kind ≠ 0) :
    guardMeasure ms s = measured ms s := by
  rw [measured] at hpin
  simp [guardMeasure, measured, hwas, hpin]

theorem guardMeasure_quiet (his : tamperFault (measured ms s) = false) (hwas : tamperFault s = false) :
    guardMeasure ms s = measured ms s := by
  rw [measured] at his
  simp [guardMeasure, measured, his, hwas]

end Guard

/-! ## A guarded pin (15 R408, R409, Table 15.7) -/

section Pin
variable {s : State} {n t : Nat} {m : GuardMeas} {g : GuardPin}

/-- Measurements in a row that show the kind of this one. -/
def runLength (m : GuardMeas) (g : GuardPin) : Nat := if m.kind = g.seen then g.count + 1 else 1

/-- Measurements in a row that do not show the pin's fault. -/
def missLength (m : GuardMeas) (g : GuardPin) : Nat := if m.kind = g.kind then 0 else g.miss + 1

theorem guardCount_eq (m : GuardMeas) (g : GuardPin) : guardCount m g =
    if g.kind = 0 then
      if m.kind ≠ 0 && 3 ≤ runLength m g then ({ g with kind := m.kind, seen := m.kind, count := min (runLength m g) 3, miss := 0 }, true)
      else ({ g with seen := m.kind, count := min (runLength m g) 3, miss := 0 }, false)
    else if 3 ≤ missLength m g then
      ({ g with kind := if 3 ≤ runLength m g then m.kind else 0, seen := m.kind, count := min (runLength m g) 3, miss := 0 }, true)
    else ({ g with seen := m.kind, count := min (runLength m g) 3, miss := min (missLength m g) 3 }, false) := rfl

theorem guardCount_raises (hg : g.kind = 0) (hm : m.kind ≠ 0) (hc : 3 ≤ runLength m g) :
    guardCount m g = ({ g with kind := m.kind, seen := m.kind, count := 3, miss := 0 }, true) := by
  rw [guardCount_eq, if_pos hg, if_pos (by simp [hm, hc]), Nat.min_eq_right hc]

theorem guardCount_stays_clear (hg : g.kind = 0) (h : m.kind = 0 ∨ runLength m g < 3) :
    guardCount m g = ({ g with seen := m.kind, count := min (runLength m g) 3, miss := 0 }, false) := by
  rw [guardCount_eq, if_pos hg]
  refine if_neg ?_
  rcases h with h | h <;> simp [h]

theorem guardCount_clears (hg : g.kind ≠ 0) (hx : 3 ≤ missLength m g) : guardCount m g =
    ({ g with kind := if 3 ≤ runLength m g then m.kind else 0, seen := m.kind, count := min (runLength m g) 3, miss := 0 }, true) := by
  rw [guardCount_eq, if_neg hg, if_pos hx]

theorem guardCount_stays_faulty (hg : g.kind ≠ 0) (hx : missLength m g < 3) : guardCount m g =
    ({ g with seen := m.kind, count := min (runLength m g) 3, miss := missLength m g }, false) := by
  rw [guardCount_eq, if_neg hg, if_neg hx.not_ge, Nat.min_eq_left hx.le]

/-- The driver of GPIO `n` was turned off at `t`, or is on. -/
def driverOff (n : Nat) (t : Option Nat) (s : State) : State := { s with fio := { s.fio with offAt := tset noTime n t s.fio.offAt } }

theorem driverGuard_input (h : s.fio.dir.getLsbD n = false) : driverGuard n s = driverOff n none s := by
  simp [driverGuard, driverOff, h]

theorem driverGuard_faulty (h : s.fio.dir.getLsbD n = true) (hon : tget noTime s.fio.offAt n = none)
    (hf : (guardPin s (n + 10)).kind ≠ 0) : driverGuard n s = driverOff n (some s.clk.now) s := by
  simp [driverGuard, driverOff, h, hon, hf]

/-- A retry of a driver that is off, at the end of its 100 ms. -/
theorem guardRetry_off (hn : n < 16) (h : tget noTime s.fio.offAt n = some t) : guardRetry (n + 10) s =
    if t + 100000000 ≤ s.clk.now then driverOff n (if (guardPin s (n + 10)).kind = 0 then none else some s.clk.now) s else s := by
  have hgpio : 10 ≤ n + 10 ∧ n + 10 ≤ 25 := by omega
  simp [guardRetry, driverOff, hgpio, h]

theorem pairReversed_duty (h : Nat) :
    (pairReversed (.duty h) = some true ↔ 7500 ≤ h) ∧ (pairReversed (.duty h) = some false ↔ h ≤ 2500) := by
  simp only [pairReversed]
  split_ifs <;> simp <;> omega

end Pin

/-! ## IO_INPUT_SAMPLE (15 R411) -/

section Input
variable {s : State} {n : Nat} {lv out : Nat → Bool} {l : List Nat}

/-- An output, a faulty pin, or one outside its range: it is not sampled. -/
def pinHeld (out : Nat → Bool) (n : Nat) (s : State) : Prop :=
  (n < 16 ∧ s.fio.dir.getLsbD n = true) ∨ (guardPin s (n + 10)).kind ≠ 0 ∨ out n = true

/-- Samples in a row that differ from the accepted level. -/
def differing (lv : Nat → Bool) (n : Nat) (s : State) : Nat := if lv n = ioLevel s n then 0 else tget zeroN s.fio.cand n + 1

/-- The count of differing samples of a pin. -/
def setDiffering (n c : Nat) (s : State) : State := { s with fio := { s.fio with cand := tset zeroN n c s.fio.cand } }

theorem pinHeld_iff : ((n < 16 && s.fio.dir.getLsbD n) || (guardPin s (n + 10)).kind ≠ 0 || out n) = true ↔ pinHeld out n s := by
  simp [pinHeld, or_assoc]

theorem ioSample_held (h : pinHeld out n s) : ioSample lv out n (s, l) = (setDiffering n 0 s, l) := if_pos (pinHeld_iff.mpr h)

theorem ioSample_sampled (h : ¬pinHeld out n s) : ioSample lv out n (s, l) =
    if 3 ≤ differing lv n s then (ioFlip n (setDiffering n 0 s), l ++ [n]) else (setDiffering n (differing lv n s) s, l) :=
  if_neg (pinHeld_iff.not.mpr h)

theorem exec_ioInputSample (h : running s = true) (g : PinSense 16) (a : PinSense 4) :
    exec (.ioInputSample g a) s = .next (ioInputSample g a s) := if_pos h

theorem exec_ioInputSample_stopped (h : running s = false) (g : PinSense 16) (a : PinSense 4) : exec (.ioInputSample g a) s = .next s :=
  if_neg (by simp [h])

end Input

/-! ## JTAG_INSTRUCTION (17 R466) -/

theorem jtagSelect_reset (low due : Bool) (i : JtagInstr) : jtagSelect (low || due) i =
    if (i = .extest ∨ i = .extestPulse ∨ i = .extestTrain) ∧ low = false ∧ due = false then .bypass else i := by
  cases h : low || due with
  | false =>
    obtain ⟨rfl, rfl⟩ := Bool.or_eq_false_iff.mp h
    cases i <;> rfl
  | true =>
    rw [if_neg fun hsel => absurd (Bool.or_eq_false_iff.mpr hsel.2) (by simp [h])]
    cases i <;> rfl

/-! ## DESCRIPTOR_RECHECK (12 R341) -/

section Recheck
variable {s : State} {r c n a : Nat} {j : Job}

theorem exec_descriptorRecheck (hr : r < 4) (hc : c < 16) : exec (.descriptorRecheck r c) s =
    if planeRuns s = true then .next (if r = 3 then opRecheck c (jobRecheck r s) else jobRecheck r s) else .next s :=
  if_neg (by simp [hr, hc])

theorem jobRecheck_idle (h : job s r = none) : jobRecheck r s = s := by simp only [jobRecheck, h]

theorem jobRecheck_desc (h : job s r = some j) (hw : j.work = .desc a) : jobRecheck r s =
    if j.cls = 0x03 then resume r j (tribMapReach (jobPacket j) s) else resume r j (bodyConnLoad (jobPacket j) s) := by
  simp only [jobRecheck, h, hw]
  exact apply_ite (resume r j) _ _ _

theorem jobRecheck_dump (h : job s r = some j) (hw : j.work = .dumpWait n a) : jobRecheck r s = dumpRecheck r j n a s := by
  simp only [jobRecheck, h, hw]

theorem jobRecheck_other (h : job s r = some j) (hd : ∀ a, j.work ≠ .desc a) (hw : ∀ n a, j.work ≠ .dumpWait n a) : jobRecheck r s = s := by
  unfold jobRecheck
  rw [h]
  dsimp only
  split
  case h_1 heq => exact absurd heq (hd _)
  case h_2 heq => exact absurd heq (hw _ _)
  case h_3 => rfl

end Recheck

/-! ## `FTICK_OUT` (02 R57, R58), `VSAVE_OUT` (17 R458) and PAM4 (03 R67) -/

section Outputs

theorem ftickWidth_eq (fc : Word) : ftickWidth fc =
    if fc.toNat % 64 = 0 then 3000
    else if fc.toNat % 64 ≤ 32 && (fc - BitVec.ofNat 32 (fc.toNat % 64)).getLsbD (32 - fc.toNat % 64) then 2000 else 1000 := rfl

theorem ftickWidth_bit {fc : Word} (h0 : 0 < fc.toNat % 64) (h : fc.toNat % 64 ≤ 32) : ftickWidth fc =
    if (fc - BitVec.ofNat 32 (fc.toNat % 64)).getLsbD (32 - fc.toNat % 64) then 2000 else 1000 := by
  rw [ftickWidth_eq, if_neg h0.ne', decide_eq_true h, Bool.true_and]

theorem ftickWidth_rest {fc : Word} (h : 32 < fc.toNat % 64) : ftickWidth fc = 1000 := by
  rw [ftickWidth_eq, if_neg (by omega), decide_eq_false (by omega), Bool.false_and, if_neg Bool.false_ne_true]

section Supply
variable {d : Dev}

theorem vsaveSource_off (h : d.powered = false) : vsaveSource d = .off := by simp [vsaveSource, h]

variable (hon : d.powered = true)
include hon

theorem vsaveSource_reset (h : d.resetLow = true) : vsaveSource d = .io18 := by simp [vsaveSource, hon, h]

variable (hout : d.resetLow = false)
include hout

theorem vsaveSource_save (h : d.mode = .save) : vsaveSource d = .holdUp := by simp [vsaveSource, hon, hout, h]

theorem vsaveSource_none (h : d.mode = .retention ∨ d.mode = .halt) : vsaveSource d = .off := by
  rcases h with h | h <;> simp [vsaveSource, hon, hout, h]

theorem vsaveSource_io18 (h : d.mode ∉ [.save, .retention, .halt]) : vsaveSource d = .io18 := by
  simp only [List.mem_cons, List.not_mem_nil, or_false, not_or] at h
  obtain ⟨hsave, hretention, hhalt⟩ := h
  unfold vsaveSource
  rw [hon, hout]
  cases hm : d.mode with
  | save => exact absurd hm hsave
  | retention => exact absurd hm hretention
  | halt => exact absurd hm hhalt
  | boot | commissioning | service | maintenance | contained => rfl

end Supply

theorem pam4_complement_first (a b : Bool) : pam4 (!a) b = 3 - pam4 a b := by cases a <;> cases b <;> rfl

end Outputs

/-- Settles O59: a lemma for each branch of the rows, of the guard's and the inputs' counts, and of what the pins show. -/
theorem pinAndFailureRows : Obligations.PinAndFailureRows := by
  refine ⟨fun e s he => ⟨if_pos he, if_pos he⟩, fun s => rfl, fun e c s hne hc => ?fence, fun ms s hms => ?guard, fun m g => ?count,
    fun n s => ?driver, pairReversed_duty, fun g a s => ?row, fun lv out n s l => ?sample, fun i s => ?jtag,
    fun r c s hr hc => ?recheck, fun c s => ?op, fun r s => ?job, fun s => ?ftick, fun fc => ?width, fun d => ?vsave,
    rfl, rfl, rfl, rfl, pam4_complement_first⟩
  case fence =>
    rw [fenceDie_new hne hc]
    exact ⟨contain_running, contain_contained⟩
  case guard =>
    rw [exec_guardMeasurement hms]
    refine ⟨fun hoff => if_neg (mt (guardRuns_iff _).mp hoff), fun hon => ?_⟩
    rw [if_pos ((guardRuns_iff _).mpr hon)]
    have hmeasured : guardWatch (ms.foldl (fun s m => guardOne m s) s) = measured ms s := rfl
    dsimp only
    rw [hmeasured]
    refine ⟨fun his hwas => ?_, fun hwas hpin => ?_, fun hwas hpin => ?_, fun his hwas => ?_⟩
    · rw [guardMeasure_cut his hwas]
    · rw [guardMeasure_ends hwas hpin]
    · rw [guardMeasure_lasts hwas hpin]
    · rw [guardMeasure_quiet his hwas]
  case count => exact ⟨guardCount_raises, guardCount_stays_clear, guardCount_clears, guardCount_stays_faulty⟩
  case driver =>
    refine ⟨driverGuard_input, driverGuard_faulty, fun hn t ht => ⟨fun hsoon => ?_, fun hdue => ⟨fun hgood => ?_, fun hbad => ?_⟩⟩⟩
    · rw [guardRetry_off hn ht, if_neg hsoon.not_ge]
    · rw [guardRetry_off hn ht, if_pos hdue, if_pos (not_not.mp hgood)]
      rfl
    · rw [guardRetry_off hn ht, if_pos hdue, if_neg hbad]
      rfl
  case row =>
    refine ⟨fun hoff => exec_ioInputSample_stopped hoff g a, fun hon => ?_⟩
    rw [exec_ioInputSample hon, ioInputSample]
  case sample =>
    refine ⟨ioSample_held, fun h hc => ?_, fun h hc => ?_⟩
    · exact (ioSample_sampled h).trans (if_pos hc)
    · exact (ioSample_sampled h).trans (if_neg hc.not_ge)
  case jtag =>
    rw [← jtagSelect_reset]
    rfl
  case recheck =>
    rw [exec_descriptorRecheck hr hc]
    refine ⟨fun hoff => if_neg ?_, fun hrun hgap => if_pos ?_⟩
    · rcases hoff with h | h <;> simp [planeRuns, h]
    · simp [planeRuns, hrun, hgap]
  case op => exact ⟨fun o h => by simp only [opRecheck, h], fun h => by simp only [opRecheck, h]⟩
  case job => exact ⟨jobRecheck_idle, fun j hj => ⟨fun a => jobRecheck_desc hj, fun n a => jobRecheck_dump hj, jobRecheck_other hj⟩⟩
  case ftick => simp [ftickOut, and_assoc]
  case width => exact ⟨fun h0 => if_pos h0, ftickWidth_bit, ftickWidth_rest⟩
  case vsave =>
    refine ⟨vsaveSource_off, fun hon => ⟨vsaveSource_reset hon, fun hout => ?_⟩, by simp [sspiPowered]⟩
    exact ⟨vsaveSource_save hon hout, vsaveSource_none hon hout, vsaveSource_io18 hon hout⟩

end Sys2Proof.Machine


/-! PROOFS. The lane frame (03_lane_frame.md): a lane's settings at the update port, its reports and its messages. -/

namespace Sys2Proof.Machine

/-! ## A lane read back after a change of it -/

section Lane
variable {s : State} {l : Nat} (hwf : tblWf laneReset 0 s.lanes = true)
include hwf

theorem lane_setLane (x : Lane) : lane (setLane l x s) l = x := by
  unfold lane setLane
  rw [tget_tset hwf, if_pos rfl]

theorem lane_modRx (f : Rx → Rx) : lane (modRx l f s) l = { lane s l with rx := f (lane s l).rx } := lane_setLane hwf _

theorem lane_modTx (f : Tx → Tx) : lane (modTx l f s) l = { lane s l with tx := f (lane s l).tx } := lane_setLane hwf _

end Lane

/-! ## LANE_SEED_SET at its commit (03 R94) -/

section Seed
variable {ws : List Word} {s : State}

/-- The slot of the direction that a seed setting leaves as it is has the epoch of the setting. -/
def epochTaken (ws : List Word) (s : State) : Prop :=
  (if pb ws 0 9 then (seedView s (pf ws 0 7 0) (pb ws 0 8)).1 else (seedView s (pf ws 0 7 0) (pb ws 0 8)).2.1).epoch = pf ws 0 13 10

theorem seedCommit_eq (ws : List Word) (s : State) : seedCommit ws s =
    let v := seedView s (pf ws 0 7 0) (pb ws 0 8)
    if (if pb ws 0 9 then v.1 else v.2.1).epoch = pf ws 0 13 10 then some .badParam
    else if pb ws 0 8 then (if pb ws 0 9 == v.2.2 && txActive s (pf ws 0 7 0) then some .slotInUse else none)
    else if pb ws 0 9 == (lane s (pf ws 0 7 0)).rx.slot && isAligned (lane s (pf ws 0 7 0)) then some .slotInUse
    else none := rfl

theorem seedCommit_epochTaken (h : epochTaken ws s) : seedCommit ws s = some .badParam := if_pos h

theorem seedCommit_transmit (h : ¬epochTaken ws s) (hdir : pb ws 0 8 = true) : seedCommit ws s =
    if pb ws 0 9 = (seedView s (pf ws 0 7 0) (pb ws 0 8)).2.2 ∧ txActive s (pf ws 0 7 0) = true then some .slotInUse else none := by
  rw [seedCommit_eq]
  refine (if_neg h).trans ((if_pos hdir).trans ?_)
  simp only [Bool.and_eq_true, beq_iff_eq]

theorem seedCommit_receive (h : ¬epochTaken ws s) (hdir : pb ws 0 8 = false) : seedCommit ws s =
    if pb ws 0 9 = (lane s (pf ws 0 7 0)).rx.slot ∧ isAligned (lane s (pf ws 0 7 0)) = true then some .slotInUse else none := by
  rw [seedCommit_eq]
  refine (if_neg h).trans ((if_neg (by simp [hdir])).trans ?_)
  simp only [Bool.and_eq_true, beq_iff_eq]

end Seed

/-! ## Class LANE at the update port (02 R53) -/

section LanePort
variable {j : Job} {k : Nat} {s : State}

theorem cmdCommit_frameSet (hc : j.cls = 2) (ha : j.act = 0x10) :
    cmdCommit j k s = .ok [] (stage (k + 3) true j (frameSetIn j.params k s)) := by
  rw [cmdCommit_lane hc, if_pos ha]

theorem cmdCommit_seedSet (hc : j.cls = 2) (ha : j.act = 0x12) : cmdCommit j k s = checked (seedCommit j.params s)
    (if pb j.params 0 8 then .ok [] (stage (k + 3) true j s) else .ok [] (seedSetIn j.params k s)) := by
  rw [cmdCommit_lane hc, if_neg (by omega), if_pos ha]

theorem cmdCommit_seedSet_refuse {st : Status} (hc : j.cls = 2) (ha : j.act = 0x12) (hno : seedCommit j.params s = some st) :
    cmdCommit j k s = .refuse st [] := by
  rw [cmdCommit_seedSet hc ha, hno]
  rfl

theorem cmdCommit_seedSet_transmit (hc : j.cls = 2) (ha : j.act = 0x12) (hok : seedCommit j.params s = none)
    (hdir : pb j.params 0 8 = true) : cmdCommit j k s = .ok [] (stage (k + 3) true j s) := by
  rw [cmdCommit_seedSet hc ha, hok]
  exact if_pos hdir

theorem cmdCommit_seedSet_receive (hc : j.cls = 2) (ha : j.act = 0x12) (hok : seedCommit j.params s = none)
    (hdir : pb j.params 0 8 = false) : cmdCommit j k s = .ok [] (seedSetIn j.params k s) := by
  rw [cmdCommit_seedSet hc ha, hok]
  exact if_neg (by simp [hdir])

theorem cmdCommit_alignSet (hc : j.cls = 2) (ha : j.act = 0x20) : cmdCommit j k s = .ok [] (alignCommit j.params k s) := by
  rw [cmdCommit_lane hc, if_neg (by omega), if_neg (by omega)]

/-- Settings of a lane's egress stand behind those staged before. -/
theorem stage_lane (hc : j.cls = 2) : stage k true j s = { s with port := { s.port with
    staged := s.port.staged ++ [{ tick := k, egress := true, w := .cmd j.cls j.act j.params j.image }] } } :=
  stage_behind (by omega) (by omega) (by omega)

end LanePort

section FrameIn
variable {s : State} {l k n : Nat} (f : FrameIn → FrameIn) (hwf : tblWf laneReset 0 s.lanes = true)
include hwf

theorem cfg_setFrameIn : (lane (setFrameIn l k f s) l).rx.cfg =
    verPut (curCycle s) k (f (verNew (frameInReset l) (lane s l).rx.cfg)) (lane s l).rx.cfg := by
  rw [setFrameIn, lane_modRx hwf]

/-- Ingress settings govern from their cycle on. -/
theorem verAt_setFrameIn (h : k ≤ n) :
    verAt (frameInReset l) n (lane (setFrameIn l k f s) l).rx.cfg = f (verNew (frameInReset l) (lane s l).rx.cfg) := by
  rw [cfg_setFrameIn f hwf]
  exact (verAt_verPut _ n).1 h

/-- Cycles before keep theirs. -/
theorem verAt_setFrameIn_before (h : n < k) (hn : curCycle s ≤ n + 100) :
    verAt (frameInReset l) n (lane (setFrameIn l k f s) l).rx.cfg = verAt (frameInReset l) n (lane s l).rx.cfg := by
  rw [cfg_setFrameIn f hwf]
  exact (verAt_verPut _ n).2 h hn

end FrameIn

theorem seedSetIn_receive {ws : List Word} {s : State} (k : Nat) (h : pb ws 0 8 = false) : seedSetIn ws k s =
    setFrameIn (pf ws 0 7 0) k (fun c => if pb ws 0 9 then { c with b := seedOf ws } else { c with a := seedOf ws }) s :=
  if_neg (by simp [h])

theorem seedSetEg_transmit {ws : List Word} {s : State} (h : pb ws 0 8 = true) : seedSetEg ws s = modTx (pf ws 0 7 0) (fun t =>
    let t := if pb ws 0 9 then { t with b := seedOf ws } else { t with a := seedOf ws }
    if pb ws 0 14 then { t with act := pb ws 0 9 } else t) s :=
  if_neg (by simp [h])

/-- Settles O20: the bodies go on to the port, `cmdCommit` decides there by `seedCommit`, and a setting kept with its first cycle is
`verPut`'s. -/
theorem laneSettings : Obligations.LaneSettings := by
  refine ⟨fun p s s1 hp => runCommand_wait hp rfl, fun p s s1 hp => runCommand_wait hp rfl, fun p s s1 hp => runCommand_wait hp rfl,
    fun j s0 s1 hturn hw hc => ?port, fun k ws img s => ⟨rfl, fun hwf f n => ?cycle, fun hdir => seedSetEg_transmit hdir⟩⟩
  case port =>
    have h8 : j.cls ≠ 8 := by omega
    refine ⟨fun ha => ?_, fun ha hepoch => ?_, fun ha hepoch => ?_, fun ha => ?_⟩
    · rw [exec_updatePortCommit_ok hturn hw h8 rfl (cmdCommit_frameSet hc ha), stage_lane hc]
      rfl
    · change epochTaken j.params (jrnl 2 j.ring j.tag s1) at hepoch
      exact exec_updatePortCommit_refuse hturn hw h8 rfl (cmdCommit_seedSet_refuse hc ha (seedCommit_epochTaken hepoch))
    · change ¬epochTaken j.params (jrnl 2 j.ring j.tag s1) at hepoch
      refine ⟨fun hdir => ?_, fun hdir => ?_⟩
      · have hcheck := seedCommit_transmit hepoch hdir
        refine ⟨fun huse => ?_, fun hfree => ?_⟩
        · exact exec_updatePortCommit_refuse hturn hw h8 rfl (cmdCommit_seedSet_refuse hc ha (hcheck.trans (if_pos huse)))
        · rw [exec_updatePortCommit_ok hturn hw h8 rfl (cmdCommit_seedSet_transmit hc ha (hcheck.trans (if_neg hfree)) hdir),
            stage_lane hc]
          rfl
      · have hcheck := seedCommit_receive hepoch hdir
        refine ⟨fun huse => ?_, fun hfree => ?_⟩
        · exact exec_updatePortCommit_refuse hturn hw h8 rfl (cmdCommit_seedSet_refuse hc ha (hcheck.trans (if_pos huse)))
        · rw [exec_updatePortCommit_ok hturn hw h8 rfl (cmdCommit_seedSet_receive hc ha (hcheck.trans (if_neg hfree)) hdir),
            seedSetIn_receive _ hdir]
          rfl
    · rw [exec_updatePortCommit_ok hturn hw h8 rfl (cmdCommit_alignSet hc ha)]
      rfl
  case cycle => exact ⟨verAt_setFrameIn f hwf, verAt_setFrameIn_before f hwf⟩

/-! ## Reports and messages (03 R95, R96; 09 R250) -/

section Reports
variable {p : Packet} {s : State}

theorem bodyLaneMsgSend_busy (h : 4 ≤ (lane s (pf p.params 0 7 0)).tx.queue.length) : bodyLaneMsgSend p s = refuse .busy s := if_pos h

/-- The message of a `LANE_MSG_SEND`. -/
def msgOf (p : Packet) (s : State) : Msg :=
  { typ := pf p.params 0 15 8, seq := (lane s (pf p.params 0 7 0)).tx.seq, data := wmGet s (pf p.params 1 22 0) (pf p.params 0 22 16)
    left := pf p.params 0 27 24 }

theorem bodyLaneMsgSend_queues (h : (lane s (pf p.params 0 7 0)).tx.queue.length < 4) : bodyLaneMsgSend p s =
    .reply .ok [wd (lane s (pf p.params 0 7 0)).tx.seq]
      (modTx (pf p.params 0 7 0) (fun t => { t with queue := t.queue ++ [msgOf p s], seq := (t.seq + 1) % 256 }) s) := if_neg h.not_ge

/-- The messages that a `LANE_MSG_READ` takes. -/
def msgsRead (p : Packet) (s : State) : List RxMsg := (lane s (pf p.params 0 7 0)).rx.queue.take (pf p.params 0 12 8)

theorem bodyLaneMsgRead_eq (p : Packet) (s : State) : bodyLaneMsgRead p s = .reply .ok [wd (msgsRead p s).length]
    (modRx (pf p.params 0 7 0) (fun r => { r with
        queue := r.queue.drop (msgsRead p s).length, ovf := if msgsRead p s = [] then r.ovf else false })
      (wmPut (pf p.params 1 22 0) ((msgsRead p s).flatMap rxMsgBytes) s)) := by
  cases h : msgsRead p s with
  | nil | cons =>
    unfold msgsRead at h
    simp only [bodyLaneMsgRead, h]
    rfl

theorem bodyLaneSerdesGet_fenced (h : laneFenced s (pf p.params 0 7 0) = true) : bodyLaneSerdesGet p s = refuse .notInMode s := if_pos h

end Reports

/-- Settles O21: each body is the table's words and effect; a full queue or a fence is refused before them. -/
theorem laneReports : Obligations.LaneReports := by
  refine ⟨fun p s s1 hp => runCommand_reply hp rfl, fun p s s1 hp => runCommand_reply hp rfl, fun p s s1 hp => runCommand_reply hp rfl,
    fun p s s1 hp => runCommand_reply hp rfl, fun p s s1 hp => ⟨fun hfull => ?_, fun hroom => ?_⟩, fun p s s1 hp => ?_,
    fun p s s1 hp => ⟨fun hf => ?_, fun hf => ?_⟩⟩
  · exact runCommand_reply hp (bodyLaneMsgSend_busy hfull)
  · exact runCommand_reply hp (bodyLaneMsgSend_queues hroom)
  · exact runCommand_reply hp (bodyLaneMsgRead_eq p s1)
  · exact runCommand_reply hp (bodyLaneSerdesGet_fenced hf)
  · exact runCommand_reply hp (if_neg (by simp [hf]))

end Sys2Proof.Machine


/-! PROOFS. The sections that a lane's framers send and take (03_lane_frame.md R66 to R91; 09_serial_lanes.md R241). -/

namespace Sys2Proof.Machine

/-! ## SECTION_TRANSMIT (03 R66 to R82; 09 R241) -/

section Transmit
variable {l : Nat} {s : State}

/-- The scrambled information bits of section `sec` under the seed of the framer `t` (03 R80, R89). -/
def sectionInfo (l sec : Nat) (t : Tx) (u : State) : List Bool :=
  scramble sec u.clk.fc (txSeed t).seed (bitsOfBytes (txInfo u l sec))

/-- The section that leaves of a lane whose SerDes is `d`. -/
def sectionSent (l sec : Nat) (d : Serdes) (marker : List Bool) (words : List (List Sym)) (u : State) : TxSection :=
  { fc := u.clk.fc, cyc := u.clk.cyc, sec, words, marker, line := lineOutput u l, pads := padsOutput u l, pol := d.txPol
    echo := d.echo.take (d.echo.length - 2 * d.fill), prbs := (d.genPat, d.genReg) }

/-- What sending a section leaves: the elastic buffer, the generator and the framer move on. -/
def sectionLeaves (l sec : Nat) (d : Serdes) (bits : List Bool) (sent : TxSection) (u : State) : State :=
  let u := if d.loop = 3 then modSd l (fun d => { d with echo := d.echo.drop (d.echo.length - 2 * d.fill) }) u else u
  let u := if d.genEn then modSd l (fun d => { d with genReg := (prbsRun d.genPat d.genReg sectionLen).2 }) u else u
  modTx l (fun t => { t with
    sec := sec + 1, bip := bip8 ((bytesOfBits bits).drop 100), sent := some sent
    looped := (t.looped ++ loopBits d.loop sent).drop ((t.looped ++ loopBits d.loop sent).length - 16) }) u

/-- A section goes out after its message channel is made up; what a Lane Engine under replacement sends, nothing constrains. -/
theorem sectionTransmit_eq (l : Nat) (s : State) : sectionTransmit l s =
    let t := (lane s l).tx
    let u := (txChannel l s).2
    let bits := sectionInfo l t.sec t u
    let down := engineDown u l
    let free := undefSection u.clk.free l
    let v := if down then (draw 0x098 u).2 else u
    let d := (lane v l).sd
    sectionLeaves l t.sec d bits
      (sectionSent l t.sec d (if down then free.1 else markerBits (txHeader u l t.sec) (txChannel l s).1)
        (if down then free.2 else codewords bits) v) v := by
  unfold sectionTransmit sectionLeaves sectionSent sectionInfo
  with_reducible rfl

theorem engineDown_txChannel (l : Nat) (s : State) : engineDown (txChannel l s).2 l = engineDown s l := by
  unfold txChannel
  dsimp only
  split
  · rfl
  · split <;> rfl

theorem txChannel_sd (hwf : tblWf laneReset 0 s.lanes = true) : (lane (txChannel l s).2 l).sd = (lane s l).sd := by
  unfold txChannel
  dsimp only
  split
  · rw [lane_modTx hwf]
  · split <;> rfl

theorem sectionTransmit_formed (hwf : tblWf laneReset 0 s.lanes = true) (hup : engineDown s l = false) : sectionTransmit l s =
    let t := (lane s l).tx
    let d := (lane s l).sd
    let u := (txChannel l s).2
    let bits := sectionInfo l t.sec t u
    sectionLeaves l t.sec d bits (sectionSent l t.sec d (markerBits (txHeader u l t.sec) (txChannel l s).1) (codewords bits) u) u := by
  have hrest : engineDown (txChannel l s).2 l = false := (engineDown_txChannel l s).trans hup
  rw [sectionTransmit_eq]
  simp only [hrest, Bool.false_eq_true, if_false, txChannel_sd hwf]

theorem sectionTransmit_swapped (hwf : tblWf laneReset 0 s.lanes = true) (hdown : engineDown s l = true) : sectionTransmit l s =
    let t := (lane s l).tx
    let d := (lane s l).sd
    let u := (txChannel l s).2
    let free := undefSection u.clk.free l
    let v := (draw 0x098 u).2
    sectionLeaves l t.sec d (sectionInfo l t.sec t u) (sectionSent l t.sec d free.1 free.2 v) v := by
  have hrest : engineDown (txChannel l s).2 l = true := (engineDown_txChannel l s).trans hdown
  have hsd : (lane (draw 0x098 (txChannel l s).2).2 l).sd = (lane s l).sd := txChannel_sd hwf
  rw [sectionTransmit_eq]
  simp only [hrest, if_true, hsd]

theorem undefSection_form (c l : Nat) : (undefSection c l).1.length = 1150 ∧ (undefSection c l).2.length = 40 ∧
    ∀ w ∈ (undefSection c l).2, w.length = 544 := by
  simp [undefSection]

/-! The message channel (03 R75) -/

theorem txChannel_message {m : Msg} {q : List Msg} (h : (lane s l).tx.queue = m :: q) : txChannel l s =
    (channelBytes m.typ m.seq m.data, modTx l (fun t => { t with
      queue := if m.left ≤ 1 then q else { m with left := m.left - 1 } :: q, last := some m.seq }) s) := by
  simp only [txChannel, h]

theorem txChannel_idle {n : Nat} (h : (lane s l).tx.queue = []) (hlast : (lane s l).tx.last = some n) :
    txChannel l s = (channelBytes 0 n [], s) := by
  simp only [txChannel, h, hlast]

/-- The idle message before any has been sent: its sequence number is a free value (log 2). -/
theorem txChannel_first (h : (lane s l).tx.queue = []) (hlast : (lane s l).tx.last = none) : txChannel l s =
    (channelBytes 0 (Config.freeAt s.clk.free (0x0375000 + l) % 256) [], { s with clk := { s.clk with free := s.clk.free + 1 } }) := by
  simp only [txChannel, h, hlast, draw]

theorem exec_sectionTransmit (hl : l < 144) (hrun : framerRuns s l = true) (hsec : (lane s l).tx.sec < 8) :
    exec (.sectionTransmit l) s = .next (sectionTransmit l s) :=
  (if_pos (by simpa [laneOk] using hl)).trans (if_pos (by simp [hrun, hsec]))

theorem exec_sectionTransmit_still (hl : l < 144) (h : framerRuns s l = false ∨ 8 ≤ (lane s l).tx.sec) :
    exec (.sectionTransmit l) s = .next s := by
  refine (if_pos (by simpa [laneOk] using hl)).trans (if_neg ?_)
  rcases h with h | h
  · simp [h]
  · simp [h.not_gt]

end Transmit

/-! ## SECTION_DECODED (03 R80; 09 R241, R243) -/

section Decoded
variable {l : Nat} {ws : List (List Sym)} {s : State}

/-- The lane's receiver takes sections. -/
def takesSections (s : State) (l : Nat) : Prop :=
  running s = true ∧ (lane s l).sd.rxEn = true ∧ laneFenced s l = false ∧ 0 < s.clk.ticks

theorem exec_sectionDecoded (hl : l < 144) (hlen : ws.length = 40) (hws : ∀ w ∈ ws, w.length = 544) :
    exec (.sectionDecoded l ws) s = .next (protSync (rrHook l s (sectionDecoded l ws s))) :=
  if_pos (by simpa [sectionOk, laneOk, hl, hlen] using hws)

theorem not_stopped_of_takesSections (h : takesSections s l) :
    ¬(!running s || !(lane s l).sd.rxEn || laneFenced s l || s.clk.ticks = 0) = true := by
  obtain ⟨hrun, hrx, hfence, hticks⟩ := h
  simp [hrun, hrx, hfence, hticks.ne']

/-- A near-end loop that has brought no section. -/
theorem sectionDecoded_noWords (h : takesSections s l) (hloop : nearLoop s l = true) (hno : loopWords l s = none) :
    sectionDecoded l ws s = s := by
  refine (if_neg (not_stopped_of_takesSections h)).trans ?_
  rw [if_pos hloop, hno]

theorem sectionDecoded_line (h : takesSections s l) (hloop : nearLoop s l = false) : sectionDecoded l ws s = sectionTake l ws s := by
  refine (if_neg (not_stopped_of_takesSections h)).trans ?_
  rw [hloop]
  rfl

/-- The bits of a section as the lane aligns on them (04 R103). -/
def sectionRaw (s : State) (l : Nat) (ws : List (List Sym)) : List Bool :=
  if (lane s l).al.inv then compEven (ws.flatMap symBits) else ws.flatMap symBits

theorem sectionTake_due (h : (lane s l).rx.due = true) : sectionTake l ws s =
    sectionProcess l ws (modRx l (fun r => { r with due := false }) (loopEcho l (sectionRaw s l ws) s)) := if_pos h

theorem sectionTake_notDue (h : (lane s l).rx.due = false) (hal : isAligned (lane s l) = true) :
    sectionTake l ws s = loopEcho l (sectionRaw s l ws) s :=
  (if_neg (by simp [h])).trans (if_pos (by simp [hal]))

end Decoded

/-- Settles O26: `txChannel` makes up the message in each of its cases, and `sectionLeaves` is what follows; a section taken from the
line is due, or only echoed. -/
theorem sectionEvents : Obligations.SectionEvents := by
  refine ⟨fun l s hl hrun hsec hwf => ⟨fun hup => ?formed, fun hdown => ?swapped⟩, fun l s hl h => exec_sectionTransmit_still hl h,
    fun l ws s hl hlen hws hrun hrx hfence hticks => ?decoded⟩
  case formed =>
    rw [exec_sectionTransmit hl hrun hsec, sectionTransmit_formed hwf hup]
    refine ⟨fun m q hq => ?_, fun n hq hn => ?_,
      fun hq hn => ⟨Config.freeAt s.clk.free (0x0375000 + l) % 256, Nat.mod_lt _ (by decide), ?_⟩⟩
    · rw [txChannel_message hq]
      rfl
    · rw [txChannel_idle hq hn]
      rfl
    · rw [txChannel_first hq hn]
      rfl
  case swapped =>
    obtain ⟨hmark, hcount, hwords⟩ := undefSection_form (txChannel l s).2.clk.free l
    rw [exec_sectionTransmit hl hrun hsec, sectionTransmit_swapped hwf hdown]
    refine ⟨_, _, hmark, hcount, hwords, fun m q hq => ?_, fun hq hn => ?_, fun hq hn => ?_⟩
    · rw [txChannel_message hq]
      rfl
    · obtain ⟨n, hn⟩ := Option.isSome_iff_exists.mp hn
      rw [txChannel_idle hq hn]
      rfl
    · rw [txChannel_first hq hn]
      rfl
  case decoded =>
    have htakes : takesSections s l := ⟨hrun, hrx, hfence, hticks⟩
    rw [exec_sectionDecoded hl hlen hws]
    refine ⟨fun hloop hno => ?_, fun hloop hdue => ?_, fun hloop hdue hal => ?_⟩
    · rw [sectionDecoded_noWords htakes hloop hno]
    · rw [sectionDecoded_line htakes hloop, sectionTake_due hdue]
      rfl
    · rw [sectionDecoded_line htakes hloop, sectionTake_notDue hdue hal]
      rfl

end Sys2Proof.Machine


/-! PROOFS. Frame finding (04_frame_finding.md): marker blocks at candidates and at the alignment position, losses, decision windows
and recovery. -/

namespace Sys2Proof.Machine

/-! ## The pattern field (04 R100) -/

section Pattern
variable {c : AlignSet} {bs : List Bool}

/-- The pattern field of a block shows the form `rev`, which is the reversed one only where the normal one does not match. -/
def showsForm (c : AlignSet) (bs : List Bool) (rev : Bool) : Prop :=
  if rev = true then 3 < hamming patternN (bs.take 120) ∧ c.pol = 0 ∧ hamming patternR (bs.take 120) ≤ 3
  else hamming patternN (bs.take 120) ≤ 3

theorem patternForm_eq_some_iff {rev : Bool} : patternForm c bs = some rev ↔ showsForm c bs rev := by
  unfold patternForm matches3 showsForm
  by_cases hn : hamming patternN (bs.take 120) ≤ 3
  · cases rev <;> simp [hn]
  · have hn' : 3 < hamming patternN (bs.take 120) := Nat.not_le.mp hn
    by_cases hr : c.pol = 0 ∧ hamming patternR (bs.take 120) ≤ 3
    · cases rev <;> simp [hn', hr]
    · cases rev <;> simp [hn', hr]

theorem patternForm_none (hn : 3 < hamming patternN (bs.take 120)) (hr : c.pol ≠ 0 ∨ 3 < hamming patternR (bs.take 120)) :
    patternForm c bs = none := by
  refine Option.eq_none_iff_forall_ne_some.mpr fun rev hrev => ?_
  have hform := patternForm_eq_some_iff.mp hrev
  cases rev with
  | false => exact absurd hform (Nat.not_le.mpr hn)
  | true =>
    obtain ⟨_, hpol, hle⟩ := hform
    exact hr.elim (absurd hpol) (Nat.not_lt.mpr hle)

end Pattern

/-! ## Trackers (04 R101, R104, R106) -/

section Trackers
variable {l : Nat} {s : State} {a : Align} (ha : (lane s l).al = a) {t : Tracker} {hv : Bool}

/-- A candidate of this count qualifies: by DELTA in header mode, by N with a valid header in pattern mode. -/
def qualifies (a : Align) (t : Tracker) (hv : Bool) : Bool :=
  if a.header then decide (a.cfg.delta ≤ t.cnt) else decide (a.cfg.n ≤ t.cnt) && (hv || t.qual)

/-- The trackers with `t` in the place of the one at position `p`. -/
def heldAs (p : Nat) (t : Tracker) (trk : List Tracker) : List Tracker := trk.map (fun u => if u.pos = p then t else u)

/-- The trackers with `t` among them. -/
def placed (t : Tracker) (trk : List Tracker) : List Tracker := if trk.any (fun u => u.pos == t.pos) then heldAs t.pos t trk else trk ++ [t]

theorem placed_new {trk : List Tracker} (h : trk.find? (fun u => u.pos == t.pos) = none) : placed t trk = trk ++ [t] :=
  if_neg (by simpa using h)

theorem placed_held {trk : List Tracker} {p : Nat} (hp : t.pos = p) (h : trk.any (fun u => u.pos == p) = true) :
    placed t trk = heldAs p t trk := by
  subst hp
  exact if_pos h

theorem qualify_eq (l : Nat) (t : Tracker) (hv : Bool) (s : State) : qualify l t hv s =
    let a := (lane s l).al
    let s' := modAl l (fun a => { a with trk := placed { t with qual := qualifies a t hv } a.trk }) s
    if !(qualifies a t hv && !t.qual) then s'
    else if a.pos.isSome then raiseAmbig l s'
    else if a.window.isNone then modAl l (fun a => { a with window := some t.pos }) s' else s' := rfl

include ha

theorem qualify_waits (ht : t.qual = false) (hq : qualifies a t hv = false) :
    qualify l t hv s = modAl l (fun a => { a with trk := placed t a.trk }) s := by
  have hx : { t with qual := false } = t := by rw [← ht]
  subst ha
  refine (qualify_eq l t hv s).trans ((if_pos (by simp [hq])).trans ?_)
  simp only [modAl, hq, hx]

/-- The first candidate to qualify while the lane is unaligned opens the decision window. -/
theorem qualify_opens (hpos : a.pos = none) (hwin : a.window = none) (ht : t.qual = false) (hq : qualifies a t hv = true) {p : Nat}
    (hp : t.pos = p) : qualify l t hv s =
      modAl l (fun a => { a with window := some p }) (modAl l (fun a => { a with trk := placed { t with qual := true } a.trk }) s) := by
  subst ha hp
  refine (qualify_eq l t hv s).trans ((if_neg (by simp [hq, ht])).trans ((if_neg (by simp [hpos])).trans
    ((if_pos (by simp [hwin])).trans ?_)))
  simp only [modAl, hq]

/-- No winner and no window goes with a tracker that has not qualified. -/
theorem freeTracker_unqualified {p : Nat} (hwin : a.window = none) (hun : ∀ u ∈ a.trk, u.pos = p → u.qual = false) :
    freeTracker l p s = modAl l (fun a => { a with trk := a.trk.filter (fun u => !(u.pos == p)) }) s := by
  subst ha
  have hgone : (lane s l).al.trk.any (fun t => (t.pos == p) && t.qual) = false := by
    rw [List.any_eq_false]
    intro u hu
    simpa using hun u hu
  unfold freeTracker freeTrackers
  simp only [hgone, hwin]
  split <;> simp [modAl, hwin]

end Trackers

/-! ## A block at a position that no tracker holds (04 R101, R104, R107) -/

section New
variable {l : Nat} {m : Marker} {s : State} {a : Align} (ha : (lane s l).al = a)

/-- The bits of a block as the lane aligns on them (04 R103). -/
def alignedBits (a : Align) (m : Marker) : List Bool := if a.inv then compEven m.bits else m.bits

/-- The tracker that starts at a block. -/
def newTracker (m : Marker) (cnt : Nat) (rev : Bool) (h : Hdr) : Tracker :=
  { pos := m.pos, cnt, rev, qual := false, sec := h.sec, cyc := h.cyc, fc := h.fc, epoch := h.epoch }

include ha

theorem markerNew_header (hroom : a.trk.length < 8) (hmode : a.header = true) : markerNew l m s =
    if (headerOf (alignedBits a m)).ok then qualify l (newTracker m 0 false (headerOf (alignedBits a m))) true s else s := by
  subst ha
  exact (if_neg hroom.not_ge).trans ((if_pos hmode).trans rfl)

theorem markerNew_pattern (hroom : a.trk.length < 8) (hmode : a.header = false) {rev : Bool} {h : Hdr}
    (hform : patternForm a.cfg (alignedBits a m) = some rev)
    (hh : headerOf (if rev then compEven (alignedBits a m) else alignedBits a m) = h) :
    markerNew l m s = qualify l (newTracker m 1 rev h) h.ok s := by
  subst ha hh
  refine (if_neg hroom.not_ge).trans ((if_neg (by simp [hmode])).trans ?_)
  unfold alignedBits at hform
  rw [hform]
  rfl

theorem markerNew_otherField (hmode : a.header = false) (hform : patternForm a.cfg (alignedBits a m) = none) : markerNew l m s = s := by
  subst ha
  unfold alignedBits at hform
  unfold markerNew
  dsimp only
  rw [hmode, hform]
  exact ite_self s

end New

/-! ## A block where a tracker expects one (04 R102, R104, R105) -/

section Tracked
variable {l : Nat} {m : Marker} {s : State} {a : Align} (ha : (lane s l).al = a) {t : Tracker}

theorem markerTracked_lol (hlol : lolCond s l = true) : markerTracked l t m s = freeTracker l t.pos s := if_pos hlol

/-- The unqualified tracker after one more block, whose values it follows. -/
def nextTracker (t : Tracker) (at_ : Nat × Nat × Word) (epoch : Nat) : Tracker :=
  { t with cnt := t.cnt + 1, qual := false, sec := at_.1, cyc := at_.2.1, fc := at_.2.2, epoch }

theorem nextTracker_eq (ht : t.qual = false) (at_ : Nat × Nat × Word) (epoch : Nat) :
    nextTracker t at_ epoch = { t with cnt := t.cnt + 1, sec := at_.1, cyc := at_.2.1, fc := at_.2.2, epoch } := by
  rw [nextTracker, ← ht]

theorem qualifies_nextTracker_header {at_ : Nat × Nat × Word} {epoch : Nat} {hv : Bool} (hmode : a.header = true) :
    qualifies a (nextTracker t at_ epoch) hv = decide (a.cfg.delta ≤ t.cnt + 1) := if_pos hmode

theorem qualifies_nextTracker_pattern {at_ : Nat × Nat × Word} {epoch : Nat} {hv : Bool} (hmode : a.header = false) :
    qualifies a (nextTracker t at_ epoch) hv = (decide (a.cfg.n ≤ t.cnt + 1) && hv) :=
  (if_neg (by simp [hmode])).trans (congrArg (_ && ·) (Bool.or_false hv))

include ha

/-- The header that the tracker expects next. -/
theorem markerTracked_expected (hlol : lolCond s l = false) (hmode : a.header = true) (ht : t.qual = false) {g : Hdr}
    (hg : headerOf (alignedBits a m) = g) (hvalid : g.ok = true) (hseq : (g.sec, g.cyc, g.fc) = nextPos t.sec t.cyc t.fc) :
    markerTracked l t m s = qualify l (nextTracker t (g.sec, g.cyc, g.fc) g.epoch) true s := by
  subst ha hg
  rw [nextTracker_eq ht]
  exact (if_neg (by simp [hlol])).trans ((if_pos hmode).trans (if_pos (Bool.and_eq_true_iff.mpr ⟨hvalid, beq_iff_eq.mpr hseq⟩)))

theorem markerTracked_unexpected (hlol : lolCond s l = false) (hmode : a.header = true) {g : Hdr}
    (hg : headerOf (alignedBits a m) = g) (hbad : g.ok = false ∨ (g.sec, g.cyc, g.fc) ≠ nextPos t.sec t.cyc t.fc) :
    markerTracked l t m s = freeTracker l t.pos s := by
  subst ha hg
  refine (if_neg (by simp [hlol])).trans ((if_pos hmode).trans (if_neg fun h => ?_))
  obtain ⟨hvalid, hseq⟩ := Bool.and_eq_true_iff.mp h
  exact hbad.elim (by simp [alignedBits, hvalid]) (absurd (beq_iff_eq.mp hseq))

/-- The tracker's own form of the pattern field; an invalid header leaves the values predicted. -/
theorem markerTracked_pattern (hlol : lolCond s l = false) (hmode : a.header = false) (ht : t.qual = false)
    (hform : showsForm a.cfg (alignedBits a m) t.rev) {g : Hdr}
    (hg : headerOf (if t.rev then compEven (alignedBits a m) else alignedBits a m) = g) : markerTracked l t m s =
    qualify l (nextTracker t (if g.ok then (g.sec, g.cyc, g.fc) else nextPos t.sec t.cyc t.fc) (if g.ok then g.epoch else t.epoch)) g.ok s := by
  subst ha hg
  rw [nextTracker_eq ht]
  exact (if_neg (by simp [hlol])).trans ((if_neg (by simp [hmode])).trans (if_pos (patternForm_eq_some_iff.mpr hform)))

theorem markerTracked_otherField (hlol : lolCond s l = false) (hmode : a.header = false)
    (hform : ¬showsForm a.cfg (alignedBits a m) t.rev) : markerTracked l t m s = freeTracker l t.pos s := by
  subst ha
  exact (if_neg (by simp [hlol])).trans
    ((if_neg (by simp [hmode])).trans (if_neg (fun h => hform (patternForm_eq_some_iff.mp h))))

end Tracked

/-! ## MARKER_BLOCK_RECEIVED (04 R99 to R107) -/

section Received
variable {m : Marker} {s : State}

theorem exec_markerBlockReceived (hok : markerOk m = true) :
    exec (.markerBlockReceived m) s = .next (laneWatch s (markerQl m s (markerStep m s))) := if_pos hok

/-- The lane's receiver takes marker blocks. -/
def takesBlocks (s : State) (l : Nat) : Prop := running s = true ∧ (lane s l).sd.rxEn = true ∧ laneFenced s l = false

theorem not_stopped_of_takesBlocks {l : Nat} (h : takesBlocks s l) : ¬(!running s || !(lane s l).sd.rxEn || laneFenced s l) = true := by
  obtain ⟨hrun, hrx, hfence⟩ := h
  simp [hrun, hrx, hfence]

theorem markerStep_disabled (hrx : (lane s m.lane).sd.rxEn = false) : markerStep m s = s := if_pos (by simp [hrx])

theorem markerQl_disabled (hrx : (lane s m.lane).sd.rxEn = false) : markerQl m s s = s := if_neg (by simp [hrx])

/-- A near-end loop that has brought no block to the position. -/
theorem markerStep_noBlock (h : takesBlocks s m.lane) (hloop : nearLoop s m.lane = true) (hno : loopBlock m.lane m.pos s = none) :
    markerStep m s = s := by
  refine (if_neg (not_stopped_of_takesBlocks h)).trans ?_
  rw [if_pos hloop, hno]

/-- The received bits of a block at the position of the sections enter a far-end loop's buffer (09 R243). -/
def blockEcho (m : Marker) (s : State) : State := if m.pos = (lane s m.lane).al.fpos then loopEcho m.lane m.bits s else s

/-- The state in which a block from the line is examined. -/
def blockSettled (m : Marker) (s : State) : State :=
  settle m.lane m.pos (if (lane s m.lane).al.pos.isNone then alignPend m.lane (curCycle (blockEcho m s)) (blockEcho m s) else blockEcho m s)

/-- The block is examined at the alignment position, by its tracker, or as a new candidate. -/
def blockExamined (m : Marker) (s : State) : State :=
  if (lane s m.lane).al.pos = some m.pos then markerAligned m.lane m s
  else match (lane s m.lane).al.trk.find? (fun t => t.pos == m.pos) with
    | some t => markerTracked m.lane t m s
    | none => if lolCond s m.lane then s else markerNew m.lane m s

theorem markerStep_line (h : takesBlocks s m.lane) (hloop : nearLoop s m.lane = false) :
    markerStep m s = ambigAge m.lane (blockExamined m (blockSettled m s)) := by
  refine (if_neg (not_stopped_of_takesBlocks h)).trans ?_
  rw [hloop]
  rfl

theorem loopEcho_lane (hwf : tblWf laneReset 0 s.lanes = true) (l : Nat) (bs : List Bool) :
    ∃ e, lane (loopEcho l bs s) l = { lane s l with sd := { (lane s l).sd with echo := e } } := by
  unfold loopEcho
  dsimp only
  split
  · exact ⟨(lane s l).sd.echo ++ bs, lane_setLane hwf _⟩
  · exact ⟨(lane s l).sd.echo, rfl⟩

theorem blockEcho_lane (hwf : tblWf laneReset 0 s.lanes = true) (m : Marker) :
    ∃ e, lane (blockEcho m s) m.lane = { lane s m.lane with sd := { (lane s m.lane).sd with echo := e } } := by
  unfold blockEcho
  split
  · exact loopEcho_lane hwf _ _
  · exact ⟨(lane s m.lane).sd.echo, rfl⟩

theorem blockEcho_al (hwf : tblWf laneReset 0 s.lanes = true) : (lane (blockEcho m s) m.lane).al = (lane s m.lane).al := by
  obtain ⟨e, he⟩ := blockEcho_lane hwf m
  rw [he]

theorem blockEcho_fenced (l : Nat) : laneFenced (blockEcho m s) l = laneFenced s l := by
  unfold blockEcho loopEcho
  dsimp only
  split
  · split <;> rfl
  · rfl

theorem blockEcho_lolCond (hwf : tblWf laneReset 0 s.lanes = true) : lolCond (blockEcho m s) m.lane = lolCond s m.lane := by
  obtain ⟨e, he⟩ := blockEcho_lane hwf m
  unfold lolCond
  rw [blockEcho_fenced, he]
  rfl

theorem alignPend_none {l n : Nat} (h : (lane s l).al.next = []) : alignPend l n s = s := by
  refine if_pos ?_
  rw [h]
  rfl

theorem settle_quiet {l p : Nat} (hloss : lossDue (lane s l) = false) (hwin : (lane s l).al.window = none) : settle l p s = s := by
  unfold settle
  simp [hloss, hwin]

theorem lossDue_unaligned {x : Lane} (h : x.al.pos = none) : lossDue x = false := by simp [lossDue, isAligned, h]

theorem lossDue_below {x : Lane} (h : x.al.err < errLimit x.al) : lossDue x = false := by simp [lossDue, h.not_ge]

theorem lossDue_reached {x : Lane} (hpos : x.al.pos.isSome = true) (hgain : x.al.gain = false) (h : errLimit x.al ≤ x.al.err) :
    lossDue x = true := by simp [lossDue, isAligned, hpos, hgain, h]

theorem blockSettled_unaligned (hwf : tblWf laneReset 0 s.lanes = true) (hpos : (lane s m.lane).al.pos = none)
    (hnext : (lane s m.lane).al.next = []) (hwin : (lane s m.lane).al.window = none) : blockSettled m s = blockEcho m s := by
  have hal := blockEcho_al (m := m) hwf
  unfold blockSettled
  rw [alignPend_none (by rw [hal, hnext]), ite_self]
  exact settle_quiet (lossDue_unaligned (by rw [hal, hpos])) (by rw [hal, hwin])

theorem blockSettled_aligned (hwf : tblWf laneReset 0 s.lanes = true) (hpos : (lane s m.lane).al.pos.isSome = true)
    (herr : (lane s m.lane).al.err < errLimit (lane s m.lane).al) (hwin : (lane s m.lane).al.window = none) :
    blockSettled m s = blockEcho m s := by
  have hal := blockEcho_al (m := m) hwf
  unfold blockSettled
  rw [if_neg (by simp [Option.isSome_iff_ne_none.mp hpos])]
  exact settle_quiet (lossDue_below (by rw [hal]; exact herr)) (by rw [hal, hwin])

theorem blockExamined_aligned (h : (lane s m.lane).al.pos = some m.pos) : blockExamined m s = markerAligned m.lane m s := if_pos h

theorem blockExamined_tracked {t : Tracker} (hpos : (lane s m.lane).al.pos = none)
    (ht : (lane s m.lane).al.trk.find? (fun t => t.pos == m.pos) = some t) : blockExamined m s = markerTracked m.lane t m s := by
  unfold blockExamined
  rw [if_neg (by simp [hpos]), ht]

theorem blockExamined_new (hpos : (lane s m.lane).al.pos = none) (hfree : (lane s m.lane).al.trk.find? (fun t => t.pos == m.pos) = none)
    (hlol : lolCond s m.lane = false) : blockExamined m s = markerNew m.lane m s := by
  unfold blockExamined
  rw [if_neg (by simp [hpos]), hfree]
  simp [hlol]

end Received

/-! ## The lane's answer to a block from the line -/

section Line
variable {m : Marker} {s : State}

/-- The row answers with the lane left as in `t`, but for the age of an ambiguity (04 R106). -/
def blockAnswers (m : Marker) (s t : State) : Prop :=
  exec (.markerBlockReceived m) s = .next (laneWatch s (markerQl m s (ambigAge m.lane t)))

/-- The lane takes blocks from the line; it is unaligned, without settings or window to come. -/
structure Searches (m : Marker) (s : State) : Prop where
  ok : markerOk m = true
  takes : takesBlocks s m.lane
  line : nearLoop s m.lane = false
  wf : tblWf laneReset 0 s.lanes = true
  pos : (lane s m.lane).al.pos = none
  next : (lane s m.lane).al.next = []
  window : (lane s m.lane).al.window = none

theorem blockAnswers_examined {u t : State} (hok : markerOk m = true) (htakes : takesBlocks s m.lane) (hline : nearLoop s m.lane = false)
    (hu : blockSettled m s = u) (ht : blockExamined m u = t) : blockAnswers m s t := by
  unfold blockAnswers
  rw [exec_markerBlockReceived hok, markerStep_line htakes hline, hu, ht]

theorem Searches.settled (h : Searches m s) : blockSettled m s = blockEcho m s := blockSettled_unaligned h.wf h.pos h.next h.window

theorem Searches.answers_tracked (h : Searches m s) {t : Tracker} {v : State}
    (hfind : (lane s m.lane).al.trk.find? (fun t => t.pos == m.pos) = some t)
    (hv : markerTracked m.lane t m (blockEcho m s) = v) : blockAnswers m s v := by
  have hal := blockEcho_al (m := m) h.wf
  refine blockAnswers_examined h.ok h.takes h.line h.settled ?_
  rw [blockExamined_tracked (by rw [hal, h.pos]) (by rw [hal, hfind]), hv]

theorem Searches.answers_new (h : Searches m s) {v : State} (hfree : (lane s m.lane).al.trk.find? (fun t => t.pos == m.pos) = none)
    (hlol : lolCond s m.lane = false) (hv : markerNew m.lane m (blockEcho m s) = v) : blockAnswers m s v := by
  have hal := blockEcho_al (m := m) h.wf
  refine blockAnswers_examined h.ok h.takes h.line h.settled ?_
  rw [blockExamined_new (by rw [hal, h.pos]) (by rw [hal, hfree]) (by rw [blockEcho_lolCond h.wf, hlol]), hv]

theorem blockAnswers_aligned (hok : markerOk m = true) (htakes : takesBlocks s m.lane) (hline : nearLoop s m.lane = false)
    (hwf : tblWf laneReset 0 s.lanes = true) (hpos : (lane s m.lane).al.pos = some m.pos)
    (herr : (lane s m.lane).al.err < errLimit (lane s m.lane).al) (hwin : (lane s m.lane).al.window = none) :
    blockAnswers m s (markerAligned m.lane m (blockEcho m s)) :=
  blockAnswers_examined hok htakes hline (blockSettled_aligned hwf (by simp [hpos]) herr hwin)
    (blockExamined_aligned (by rw [blockEcho_al hwf, hpos]))

end Line

/-! ## ALIGNMENT_LOSS, DECISION_WINDOW_END, LANE_ALIGN_RECOVERY (04 R102, R106, R109) -/

section Rows
variable {l : Nat} {s : State}

theorem exec_alignmentLoss (hl : l < 144) : exec (.alignmentLoss l) s = .next (laneWatch s (alignmentLoss l s)) :=
  if_pos (by simpa [laneOk] using hl)

theorem exec_decisionWindowEnd (hl : l < 144) : exec (.decisionWindowEnd l) s = .next (decisionEnd l s) :=
  if_pos (by simpa [laneOk] using hl)

theorem exec_laneAlignRecovery (hl : l < 144) : exec (.laneAlignRecovery l) s = .next (alignRecovery l s) :=
  if_pos (by simpa [laneOk] using hl)

theorem alignmentLoss_stopped (h : running s = false) : alignmentLoss l s = s := if_neg (by simp [h])

theorem alignmentLoss_below (h : (lane s l).al.err < errLimit (lane s l).al) : alignmentLoss l s = s :=
  if_neg (by simp [lossDue_below h])

theorem alignmentLoss_due (hrun : running s = true) (hpos : (lane s l).al.pos.isSome = true) (hgain : (lane s l).al.gain = false)
    (herr : errLimit (lane s l).al ≤ (lane s l).al.err) : alignmentLoss l s = alignLose l s :=
  if_pos (by simp [hrun, lossDue_reached hpos hgain herr])

theorem alignLose_aligned (h : (lane s l).al.pos.isSome = true) : alignLose l s = laneSync l (huntSync l (setLane l { lane s l with
    al := { (lane s l).al with
      pos := none, gain := false, won := none, trk := [], window := none, err := 0, hunt := none, hist := (lane s l).al.hist ||| 1 }
    rx := { (lane s l).rx with steady := false, lofIn := true, bip := none, bipErr := 0 } } s)) :=
  if_neg (by simp [Option.isSome_iff_ne_none.mp h])

theorem decisionEnd_none (h : running s = false ∨ (lane s l).al.window = none ∨ (lane s l).al.pos.isSome = true) : decisionEnd l s = s := by
  refine if_pos ?_
  rcases h with h | h | h <;> simp [h]

/-- A decision window of an unaligned lane that ends. -/
def windowEnds (s : State) (l : Nat) : Prop :=
  running s = true ∧ (lane s l).al.window.isSome = true ∧ (lane s l).al.pos = none

theorem not_decisionEnd_stopped (h : windowEnds s l) : ¬(!running s || (lane s l).al.window.isNone || (lane s l).al.pos.isSome) = true := by
  obtain ⟨hrun, hwin, hpos⟩ := h
  simp [hrun, hpos, Option.isSome_iff_ne_none.mp hwin]

/-- The lane with its window closed. -/
def windowClosed (l : Nat) (s : State) : State := modAl l (fun a => { a with window := none }) s

theorem decisionEnd_sole (h : windowEnds s l) {t : Tracker} (ht : (lane s l).al.trk.filter (fun t => t.qual) = [t]) :
    decisionEnd l s = adopt l t (windowClosed l s) := by
  refine (if_neg (not_decisionEnd_stopped h)).trans ?_
  rw [ht]
  rfl

theorem decisionEnd_noCandidate (h : windowEnds s l) (ht : (lane s l).al.trk.filter (fun t => t.qual) = []) :
    decisionEnd l s = windowClosed l s := by
  refine (if_neg (not_decisionEnd_stopped h)).trans ?_
  rw [ht]
  rfl

theorem decisionEnd_ambiguous (h : windowEnds s l) (ht : 2 ≤ ((lane s l).al.trk.filter (fun t => t.qual)).length) :
    decisionEnd l s = raiseAmbig l (windowClosed l s) := by
  refine (if_neg (not_decisionEnd_stopped h)).trans ?_
  cases hq : (lane s l).al.trk.filter (fun t => t.qual) with
  | nil => simp [hq] at ht
  | cons x rest =>
    cases rest with
    | nil => simp [hq] at ht
    | cons y rest => rfl

theorem alignRecovery_due {t : Nat} (hhunt : (lane s l).al.hunt = some t) (hrun : running s = true) (hhdr : (lane s l).al.header = true)
    (hpos : (lane s l).al.pos = none) (hen : (lane s l).al.cfg.recEn = true) (ht : t + 1000000 * (lane s l).al.cfg.recMs ≤ s.clk.now) :
    alignRecovery l s = pulse 0x02 0x18 l 0 false (modAl l (fun a => { a with
      header := false, recov := true, trk := [], window := none, hunt := none, hist := a.hist ||| 8 }) s) := by
  unfold alignRecovery
  dsimp only
  rw [hhunt]
  exact if_pos (by simp [hrun, hhdr, hpos, hen, ht])

/-- Nothing before the time, nor in a mode in which no receiver aligns. -/
theorem alignRecovery_notDue (h : running s = false ∨ ∃ t, (lane s l).al.hunt = some t ∧ s.clk.now < t + 1000000 * (lane s l).al.cfg.recMs) :
    alignRecovery l s = s := by
  unfold alignRecovery
  dsimp only
  rcases h with h | ⟨t, hhunt, ht⟩
  · split <;> simp [h]
  · rw [hhunt]
    exact if_neg (by simp [ht.not_ge])

end Rows

/-! ## The answers of a lane that searches -/

section Searching
variable {m : Marker} {s : State}

/-- The trackers of the lane as the block leaves them. -/
def withTrackers (m : Marker) (f : List Tracker → List Tracker) (s : State) : State :=
  modAl m.lane (fun a => { a with trk := f a.trk }) (blockEcho m s)

/-- The candidate at the block's position opens the decision window (04 R106). -/
def withWindow (m : Marker) (s : State) : State := modAl m.lane (fun a => { a with window := some m.pos }) s

theorem modAl_placed (hwf : tblWf laneReset 0 s.lanes = true) {x : Tracker} {f : List Tracker → List Tracker}
    (hx : placed x (lane s m.lane).al.trk = f (lane s m.lane).al.trk) :
    modAl m.lane (fun a => { a with trk := placed x a.trk }) (blockEcho m s) = withTrackers m f s := by
  simp only [withTrackers, modAl, blockEcho_al hwf, hx]

section Free
variable (h : Searches m s) (hfree : (lane s m.lane).al.trk.find? (fun t => t.pos == m.pos) = none)
  (hlol : lolCond s m.lane = false) (hroom : (lane s m.lane).al.trk.length < 8)
include h hfree hlol hroom

omit hlol hroom in
/-- A new tracker that cannot qualify yet. -/
theorem Searches.qualify_started {t : Tracker} {hv : Bool} (hpos : t.pos = m.pos) (ht : t.qual = false)
    (hq : qualifies (lane s m.lane).al t hv = false) :
    qualify m.lane t hv (blockEcho m s) = withTrackers m (fun trk => trk ++ [t]) s := by
  rw [qualify_waits (blockEcho_al h.wf) ht hq]
  exact modAl_placed h.wf (placed_new (hpos ▸ hfree))

theorem Searches.answers_newHeader (hmode : (lane s m.lane).al.header = true) (hdelta : 0 < (lane s m.lane).al.cfg.delta)
    (hvalid : (headerOf (alignedBits (lane s m.lane).al m)).ok = true) :
    blockAnswers m s (withTrackers m (fun trk => trk ++ [newTracker m 0 false (headerOf (alignedBits (lane s m.lane).al m))]) s) := by
  refine h.answers_new hfree hlol ?_
  rw [markerNew_header (blockEcho_al h.wf) hroom hmode, if_pos hvalid]
  exact h.qualify_started hfree rfl rfl (by simp [qualifies, hmode, newTracker, hdelta.ne'])

theorem Searches.answers_newInvalidHeader (hmode : (lane s m.lane).al.header = true)
    (hvalid : (headerOf (alignedBits (lane s m.lane).al m)).ok = false) : blockAnswers m s (blockEcho m s) := by
  refine h.answers_new hfree hlol ?_
  rw [markerNew_header (blockEcho_al h.wf) hroom hmode, if_neg (by simp [hvalid])]

theorem Searches.answers_newPattern (hmode : (lane s m.lane).al.header = false) (hn : 1 < (lane s m.lane).al.cfg.n) {rev : Bool} {g : Hdr}
    (hform : showsForm (lane s m.lane).al.cfg (alignedBits (lane s m.lane).al m) rev)
    (hg : headerOf (if rev then compEven (alignedBits (lane s m.lane).al m) else alignedBits (lane s m.lane).al m) = g) :
    blockAnswers m s (withTrackers m (fun trk => trk ++ [newTracker m 1 rev g]) s) := by
  refine h.answers_new hfree hlol ?_
  rw [markerNew_pattern (blockEcho_al h.wf) hroom hmode (patternForm_eq_some_iff.mpr hform) hg]
  exact h.qualify_started hfree rfl rfl (by simp [qualifies, hmode, newTracker, hn.not_ge])

omit hroom in
theorem Searches.answers_newOtherField (hmode : (lane s m.lane).al.header = false)
    (hn : 3 < hamming patternN ((alignedBits (lane s m.lane).al m).take 120))
    (hr : (lane s m.lane).al.cfg.pol ≠ 0 ∨ 3 < hamming patternR ((alignedBits (lane s m.lane).al m).take 120)) :
    blockAnswers m s (blockEcho m s) :=
  h.answers_new hfree hlol (markerNew_otherField (blockEcho_al h.wf) hmode (patternForm_none hn hr))

end Free

section Held
variable {t : Tracker} (h : Searches m s) (hfind : (lane s m.lane).al.trk.find? (fun t => t.pos == m.pos) = some t)
  (hun : ∀ u ∈ (lane s m.lane).al.trk, u.pos = m.pos → u.qual = false)

include hfind in
theorem pos_of_find : t.pos = m.pos := by simpa using List.find?_some hfind

include hfind hun in
theorem unqualified_of_find : t.qual = false := hun t (List.mem_of_find?_eq_some hfind) (pos_of_find hfind)

include h hfind hun

theorem Searches.answers_freed (hv : markerTracked m.lane t m (blockEcho m s) = freeTracker m.lane t.pos (blockEcho m s)) :
    blockAnswers m s (withTrackers m (fun trk => trk.filter (fun u => !(u.pos == m.pos))) s) := by
  refine h.answers_tracked hfind (hv.trans ?_)
  rw [pos_of_find hfind]
  exact freeTracker_unqualified (blockEcho_al h.wf) h.window hun

omit h hun in
theorem any_of_find : (lane s m.lane).al.trk.any (fun u => u.pos == m.pos) = true :=
  List.any_eq_true.mpr ⟨t, List.mem_of_find?_eq_some hfind, by simp [pos_of_find hfind]⟩

omit hun

/-- The tracker `x` that the block makes of `t` counts on. -/
theorem Searches.answers_held {x : Tracker} {hv : Bool}
    (hstep : markerTracked m.lane t m (blockEcho m s) = qualify m.lane x hv (blockEcho m s)) (hpos : x.pos = m.pos)
    (hx : x.qual = false) (hq : qualifies (lane s m.lane).al x hv = false) :
    blockAnswers m s (withTrackers m (heldAs m.pos x) s) := by
  refine h.answers_tracked hfind (hstep.trans ?_)
  rw [qualify_waits (blockEcho_al h.wf) hx hq]
  exact modAl_placed h.wf (placed_held hpos (any_of_find hfind))

/-- The tracker `x` that the block makes of `t` qualifies. -/
theorem Searches.answers_opened {x : Tracker} {hv : Bool}
    (hstep : markerTracked m.lane t m (blockEcho m s) = qualify m.lane x hv (blockEcho m s)) (hpos : x.pos = m.pos)
    (hx : x.qual = false) (hq : qualifies (lane s m.lane).al x hv = true) :
    blockAnswers m s (withWindow m (withTrackers m (heldAs m.pos { x with qual := true }) s)) := by
  refine h.answers_tracked hfind (hstep.trans ?_)
  rw [qualify_opens (blockEcho_al h.wf) h.pos h.window hx hq hpos]
  exact congrArg (withWindow m) (modAl_placed h.wf (placed_held hpos (any_of_find hfind)))

end Held

end Searching

/-- Settles O25: a block from the line is examined in `blockEcho`, by `qualify` or `freeTracker` at a tracker, by `markerAligned` at the
alignment position; the three rows have a lemma for each branch. -/
theorem alignmentEvents : Obligations.AlignmentEvents := by
  refine ⟨fun m s hok hrun hrx hfence => ?block, fun m s hok hrx => ?disabled, fun l s hl hrun => ?loss, fun l s hl hrun => ?stopped,
    fun l s hl hrun => ?window, fun l s t hl hrun => ?recovery⟩
  case block =>
    have htakes : takesBlocks s m.lane := ⟨hrun, hrx, hfence⟩
    refine ⟨fun hloop hno => ?near, fun hwf hline hpos hnext hwin hlol hroom hfree => ?free,
      fun hwf hline hpos hnext hwin t hfind hun => ?tracked, fun hwf hline hpos hgain herr hwin => ?aligned⟩
    case near => rw [exec_markerBlockReceived hok, markerStep_noBlock htakes hloop hno]
    case free =>
      have h : Searches m s := ⟨hok, htakes, hline, hwf, hpos, hnext, hwin⟩
      refine ⟨fun hmode hdelta => ⟨fun hvalid => ?_, fun hvalid => ?_⟩, fun hmode hn => ⟨fun hN => ?_, fun hN hpol hR => ?_, fun hN hR => ?_⟩⟩
      · exact h.answers_newHeader hfree hlol hroom hmode hdelta hvalid
      · exact h.answers_newInvalidHeader hfree hlol hroom hmode hvalid
      · exact h.answers_newPattern hfree hlol hroom hmode hn (rev := false) hN rfl
      · exact h.answers_newPattern hfree hlol hroom hmode hn (rev := true) ⟨hN, hpol, hR⟩ rfl
      · exact h.answers_newOtherField hfree hlol hmode hN hR
    case tracked =>
      have h : Searches m s := ⟨hok, htakes, hline, hwf, hpos, hnext, hwin⟩
      have hal := blockEcho_al (m := m) hwf
      have hecho := blockEcho_lolCond (m := m) hwf
      have hp := pos_of_find hfind
      have ht := unqualified_of_find hfind hun
      refine ⟨fun hlol => h.answers_freed hfind hun (markerTracked_lol (hecho.trans hlol)), fun hlol hmode => ?header,
        fun hlol hmode => ?pattern⟩
      case header =>
        refine ⟨fun hvalid hseq => ?_, fun hbad => ?_⟩
        · have hstep := markerTracked_expected hal (hecho.trans hlol) hmode ht rfl hvalid hseq
          refine ⟨fun hlt => ?_, fun hle => ?_⟩
          · exact (h.answers_held hfind hstep hp rfl (by simp [qualifies_nextTracker_header hmode, hlt]) :)
          · exact (h.answers_opened hfind hstep hp rfl (by simp [qualifies_nextTracker_header hmode, hle]) :)
        · exact h.answers_freed hfind hun (markerTracked_unexpected hal (hecho.trans hlol) hmode rfl hbad)
      case pattern =>
        refine ⟨fun hform => ?_, fun hform => ?_⟩
        · have hstep := markerTracked_pattern hal (hecho.trans hlol) hmode ht hform rfl
          refine ⟨fun ⟨hcount, hvalid⟩ => ?_, fun hwait => ?_⟩
          · exact (h.answers_opened hfind hstep hp rfl
              ((qualifies_nextTracker_pattern hmode).trans (Bool.and_eq_true_iff.mpr ⟨decide_eq_true hcount, hvalid⟩)) :)
          · exact (h.answers_held hfind hstep hp rfl
              ((qualifies_nextTracker_pattern hmode).trans (Bool.and_eq_false_iff.mpr (hwait.imp (by simp) id))) :)
        · exact h.answers_freed hfind hun (markerTracked_otherField hal (hecho.trans hlol) hmode hform)
    case aligned => exact blockAnswers_aligned hok htakes hline hwf hpos herr hwin
  case disabled => rw [exec_markerBlockReceived hok, markerStep_disabled hrx, markerQl_disabled hrx]
  case loss =>
    rw [exec_alignmentLoss hl]
    refine ⟨fun hpos hgain herr => ?_, fun herr => ?_⟩
    · rw [alignmentLoss_due hrun hpos hgain herr, alignLose_aligned hpos]
    · rw [alignmentLoss_below herr]
  case stopped =>
    rw [exec_alignmentLoss hl, exec_decisionWindowEnd hl, exec_laneAlignRecovery hl, alignmentLoss_stopped hrun,
      decisionEnd_none (.inl hrun), alignRecovery_notDue (.inl hrun)]
    exact ⟨rfl, rfl, rfl⟩
  case window =>
    rw [exec_decisionWindowEnd hl]
    refine ⟨fun h => ?_, fun hwin hpos => ⟨fun t ht => ?_, fun ht => ?_, fun ht => ?_⟩⟩
    · rw [decisionEnd_none (.inr h)]
    · rw [decisionEnd_sole ⟨hrun, hwin, hpos⟩ ht]
      rfl
    · rw [decisionEnd_noCandidate ⟨hrun, hwin, hpos⟩ ht]
      rfl
    · rw [decisionEnd_ambiguous ⟨hrun, hwin, hpos⟩ ht]
      rfl
  case recovery =>
    intro a hhunt hhdr hpos hen
    rw [exec_laneAlignRecovery hl]
    refine ⟨fun ht => ?_, fun ht => ?_⟩
    · rw [alignRecovery_due hhunt hrun hhdr hpos hen ht]
    · rw [alignRecovery_notDue (.inr ⟨t, hhunt, ht⟩)]

end Sys2Proof.Machine


/-! PROOFS. Tributaries, accords and the Aligner store (05_tributaries_and_accords.md): reports, defect settings, an accord's settings
at the update port, and realignment. -/

namespace Sys2Proof.Machine

/-! ## The Aligner store (05 R148, R154) -/

theorem formStage_refuses_length {o : Op} {p : Packet} (s : State) (h : p.params.length ∉ o.words) : formStage o p s = false := by
  simp [formStage, h]

/-- What is not reserved for one of the three uses is free (05 R148). -/
theorem units_add_up {s : State} {n : Nat} (h : accordUnits s n + eqUnits s n + checkedUnits s n ≤ 65536) :
    freeUnits s n + accordUnits s n + eqUnits s n + checkedUnits s n = 65536 := by
  unfold freeUnits
  omega

/-- Settles O31: the body samples one state and leaves it; the packet has no parameter word; what is not reserved is free. -/
theorem storeReport : Obligations.StoreReport :=
  ⟨rfl, rfl, fun _ s hp => formStage_refuses_length s (by simpa [opAccordStoreGet] using hp), fun _ _ _ hp => runCommand_reply hp rfl,
    fun _ _ => units_add_up⟩

/-! ## `TRIB_GET` (05 Table 5.8) -/

section TribGet
variable {p : Packet} {s t : State} {v ta : Nat}

/-- The report of an egress tributary; `v` and `t` are what a free value leaves when the tributary does not exist. -/
theorem bodyTribGet_egress (heg : pb p.params 0 18 = true) (hta : pf p.params 0 17 0 = ta)
    (hdraw : (if taSize s true ta (curCycle s) = 0 then draw 0x0512 s else (0, s)) = (v, t)) :
    bodyTribGet p s =
      let g := taSize s true ta (curCycle s)
      .reply .ok
        [wd (g + 2 ^ 17 * b2n (decide (8 ≤ g)) + 2 ^ 18 * (if g = 0 then v % 256 else (egTa s ta).d)), wdI 0,
          if (egSet t ta (curCycle s)).acc = 0 then 0 else (egTa s ta).label, wd (4 * b2n (egTa s ta).hist), wd noTa]
        (if pb p.params 0 19 then modEg ta (fun y => { y with hist := false }) t else t) := by
  subst hta
  simp [bodyTribGet, heg, hdraw, b2n]

/-- The report of an ingress tributary. -/
theorem bodyTribGet_ingress (hin : pb p.params 0 18 = false) (hta : pf p.params 0 17 0 = ta)
    (hdraw : (if taSize s false ta (curCycle s) = 0 then draw 0x0512 s else (0, s)) = (v, t)) :
    bodyTribGet p s =
      let g := taSize s false ta (curCycle s)
      let x := inTa s ta
      let ra := plesioAt s (ta / 1024) (curCycle s)
      let mem := memberOf t ta
      .reply .ok
        [wd (g + 2 ^ 17 * b2n (decide (8 ≤ g))
            + 2 ^ 18 * (if g = 0 then v % 256 else if ra then x.ra.d else (x.cur.map (·.d)).getD 64)
            + 2 ^ 26 * b2n ra + 2 ^ 27 * b2n (lomfCond t ta)),
          wdI (if !ra then 0 else if 8 ≤ g then x.ra.e else (tget raLaneReset t.trib.raLane (ta / 1024)).x),
          if mem.isSome then x.lab.getD 0 else 0, wd x.hist.toNat,
          wd ((mem.getD (noTa, 0)).1 + 2 ^ 18 * (mem.getD (noTa, 0)).2 + 2 ^ 24 * delayA t ta (curCycle s))]
        (if pb p.params 0 19 then modIn ta (fun x => { x with hist := 0 }) t else t) := by
  subst hta
  simp [bodyTribGet, hin, hdraw]

end TribGet

/-! ## `TRIB_DEFECT_SET` (07 R197, R198, R206) -/

section DefectSet
variable {p : Packet} {s t : State} {ta : Nat}

/-- The settings of an ingress tributary's defects that a `TRIB_DEFECT_SET` gives. -/
def withDefectSet (ws : List Word) (d : TaDef) : TaDef := { d with
  prof := pf ws 0 21 19, en := BitVec.ofNat 4 (pf ws 1 11 8), degEn := pb ws 1 0, sfSrc := BitVec.ofNat 3 (pf ws 1 3 1), jcN := pf ws 1 7 4 }

/-- The JC errors already counted in a row meet the new count. -/
def jcMeets (ws : List Word) (x : InTa) : InTa := { x with jcSf := x.jcSf || decide (pf ws 1 7 4 ≤ x.jcRun) }

theorem bodyTribDefectSetRules_done (h : bodyTribDefectSet p s = done t) : bodyTribDefectSetRules p s = done (protSync t) := by
  unfold bodyTribDefectSetRules
  rw [h]
  rfl

theorem bodyTribDefectSet_egress (heg : pb p.params 0 18 = true) :
    bodyTribDefectSet p s = done (modTd true (pf p.params 0 17 0) (fun d => { d with
      prof := pf p.params 0 21 19, en := BitVec.ofNat 4 (pf p.params 1 11 8) }) s) := if_pos heg

/-- A declared DEG that is switched off, or goes to another profile, is cleared (07 R206). -/
theorem degCleared_iff {d : TaDef} {ws : List Word} :
    (d.decl.getLsbD 1 && (!pb ws 1 0 || pf ws 0 21 19 != d.prof)) = true ↔
      d.decl.getLsbD 1 = true ∧ (pb ws 1 0 = false ∨ pf ws 0 21 19 ≠ d.prof) := by simp

/-- A window begins afresh when DEG is switched on, or stays on under another profile (07 R206). -/
theorem degBegins_iff {d : TaDef} {ws : List Word} :
    (pb ws 1 0 && (!d.degEn || pf ws 0 21 19 != d.prof)) = true ↔
      pb ws 1 0 = true ∧ (d.degEn = false ∨ pf ws 0 21 19 ≠ d.prof) := by simp

theorem bodyTribDefectSet_ingress (hin : pb p.params 0 18 = false) (hta : pf p.params 0 17 0 = ta) :
    bodyTribDefectSet p s =
      let d := (inTa s ta).df
      let moved := pf p.params 0 21 19 ≠ d.prof
      let t1 := if d.decl.getLsbD 1 = true ∧ (pb p.params 1 0 = false ∨ moved) then taDefect false ta 1 false s.clk.now s else s
      let t2 := modIn ta (jcMeets p.params) (modTd false ta (withDefectSet p.params) t1)
      done (taSync ta (if pb p.params 1 0 = true ∧ (d.degEn = false ∨ moved) then degRestart ta t2.clk.ticks t2 else t2)) := by
  subst hta
  refine (if_neg (by simp [hin])).trans ?_
  simp only [degCleared_iff, degBegins_iff]
  rfl

end DefectSet

/-- Settles O29: TRIB_GET is `bodyTribGet_egress` and `bodyTribGet_ingress`, each with and without a tributary; the defect commands
do as their bodies say, and after TRIB_DEFECT_SET protection looks again. -/
theorem tribReportsAndDefects : Obligations.TribReportsAndDefects := by
  refine ⟨fun p s s1 hp => ⟨fun heg hg => ?_, fun hin hg => ?_, fun v t hdraw hg => ⟨fun heg => ?_, fun hin => ?_⟩⟩,
    fun p s s1 hp => runCommand_reply hp rfl, fun p s s1 hp => ⟨fun heg => ?_, fun hin => ?_⟩, fun p s s1 hp => runCommand_reply hp rfl⟩
  · refine runCommand_reply hp ((bodyTribGet_egress heg rfl (if_neg hg.ne')).trans ?_)
    simp only [if_neg hg.ne']
  · refine runCommand_reply hp ((bodyTribGet_ingress hin rfl (if_neg hg.ne')).trans ?_)
    simp only [if_neg hg.ne']
  · rw [heg] at hg
    refine runCommand_reply hp ((bodyTribGet_egress heg rfl ((if_pos hg).trans hdraw)).trans ?_)
    simp [hg, b2n]
  · rw [hin] at hg
    refine runCommand_reply hp ((bodyTribGet_ingress hin rfl ((if_pos hg).trans hdraw)).trans ?_)
    cases plesioAt s1 (pf p.params 0 17 0 / 1024) (curCycle s1) <;> simp [hg, b2n]
  · exact runCommand_reply hp (bodyTribDefectSetRules_done (bodyTribDefectSet_egress heg))
  · exact runCommand_reply hp (bodyTribDefectSetRules_done (bodyTribDefectSet_ingress hin rfl))

/-! ## Class ACCORD at the update port (05 R152, R153) -/

section AccordPort
variable {j : Job} {k : Nat} {s : State}

/-- An `ACCORD_SET` would change the alignment or the depth of an enabled accord (05 R152). -/
def changesAccord (ws : List Word) (s : State) : Prop :=
  let c := accNew s (pf ws 0 13 0)
  pb ws 0 14 = true ∧ c.en = true ∧ (c.aligned ≠ pb ws 0 15 ∨ c.depth ≠ pf ws 1 6 0)

theorem accordSetOk_iff {ws : List Word} : accordSetOk ws s = true ↔ ¬ changesAccord ws s := by
  unfold accordSetOk
  rw [Bool.not_eq_true', Bool.eq_false_iff]
  exact not_congr (by simp [changesAccord, and_assoc])

theorem cmdCommit_accordSet_changes (hc : j.cls = 4) (ha : j.act = 0x10) (h : changesAccord j.params s) :
    cmdCommit j k s = .refuse .notInMode [] := by
  rw [cmdCommit_accord hc, if_pos ha]
  exact if_neg fun hok => accordSetOk_iff.mp hok h

theorem cmdCommit_accordSet_ok (hc : j.cls = 4) (ha : j.act = 0x10) (h : ¬ changesAccord j.params s) :
    cmdCommit j k s = .ok [] (stage k false j (accordSetCommit j.params k s)) := by
  rw [cmdCommit_accord hc, if_pos ha, if_pos (accordSetOk_iff.mpr h)]

theorem cmdCommit_memberSet_refuse {st : Status} (hc : j.cls = 4) (ha : j.act = 0x11) (h : memberSetCheck j.params k s = some st) :
    cmdCommit j k s = .refuse st [wd (freeUnits s k)] := by
  rw [cmdCommit_accord hc, if_neg (by omega), h]

theorem cmdCommit_memberSet_ok (hc : j.cls = 4) (ha : j.act = 0x11) (h : memberSetCheck j.params k s = none) : cmdCommit j k s =
    .ok [wd (freeUnits (stage k false j (memberSetCommit j.params k s)) k)] (stage k false j (memberSetCommit j.params k s)) := by
  rw [cmdCommit_accord hc, if_neg (by omega), h]

/-- Accord settings stand behind those staged before. -/
theorem stage_accord (hc : j.cls = 4) : stage k false j s = { s with port := { s.port with
    staged := s.port.staged ++ [{ tick := k, egress := false, w := .cmd j.cls j.act j.params j.image }] } } :=
  stage_behind (by omega) (by omega) (by omega)

theorem accordSetCommit_enable {ws : List Word} (h : pb ws 0 14 = true) : accordSetCommit ws k s =
    putAcc (pf ws 0 13 0) k { accNew s (pf ws 0 13 0) with
      en := true, aligned := pb ws 0 15, id := pf ws 0 31 16, depth := pf ws 1 6 0, margin := pf ws 1 12 7, frames := pf ws 2 7 0 } s :=
  if_pos h

theorem accordSetCommit_disable {ws : List Word} (h : pb ws 0 14 = false) : accordSetCommit ws k s =
    putAcc (pf ws 0 13 0) k accSetReset
      (((accNew s (pf ws 0 13 0)).mem.map (·.2)).foldl (memberUnits (accNew s (pf ws 0 13 0)) k) s) :=
  if_neg (by simp [h])

end AccordPort

/-! ## The checks of `ACCORD_MEMBER_SET` (05 R148, R153; 06 R173; 11 R292) -/

section MemberSet
variable {ws : List Word} {k : Nat} {s : State}

/-- The accord that the command names, as committed last. -/
def namedAccord (ws : List Word) (s : State) : AccSet := accNew s (pf ws 0 13 0)

/-- The member in the place that the command names, none being `noTa`. -/
def namedPlace (ws : List Word) (s : State) : Nat := tget noMember (namedAccord ws s).mem (pf ws 0 19 14)

theorem memberSetCheck_disabled (h : (namedAccord ws s).en = false) : memberSetCheck ws k s = some .notInMode :=
  if_pos (by simpa [namedAccord] using h)

theorem memberSetCheck_unbind (hen : (namedAccord ws s).en = true) (hun : pb ws 0 20 = true) : memberSetCheck ws k s = none :=
  (if_neg (by simpa [namedAccord] using hen)).trans (if_pos hun)

theorem memberSetCommit_unbind (hun : pb ws 0 20 = true) : memberSetCommit ws k s = if namedPlace ws s = noTa then s else
    putAcc (pf ws 0 13 0) k { namedAccord ws s with mem := tset noMember (pf ws 0 19 14) noTa (namedAccord ws s).mem }
      (memberUnits (namedAccord ws s) k s (namedPlace ws s)) :=
  if_pos hun

theorem memberSetCommit_bind (hbind : pb ws 0 20 = false) :
    memberSetCommit ws k s =
      let t := putAcc (pf ws 0 13 0) k
        { namedAccord ws s with mem := tset noMember (pf ws 0 19 14) (pf ws 1 17 0) (namedAccord ws s).mem } s
      if (namedAccord ws s).aligned then storeFrom (pf ws 1 17 0) k t else t :=
  if_neg (by simp [hbind])

section Bind
variable (hen : (namedAccord ws s).en = true) (hbind : pb ws 0 20 = false)
include hen hbind

/-- The tributary does not exist or is a member, or the place is bound. -/
theorem memberSetCheck_taken
    (h : taSize s false (pf ws 1 17 0) k = 0 ∨ (memberNew s (pf ws 1 17 0)).isSome = true ∨ namedPlace ws s ≠ noTa) :
    memberSetCheck ws k s = some .badParam := by
  have hno : (taSize s false (pf ws 1 17 0) k = 0 || (memberNew s (pf ws 1 17 0)).isSome || namedPlace ws s != noTa) = true := by
    simpa [or_assoc] using h
  refine (if_neg (by simpa [namedAccord] using hen)).trans ((if_neg (by simp [hbind])).trans (if_pos hno))

variable (hsize : taSize s false (pf ws 1 17 0) k ≠ 0) (hfree : memberNew s (pf ws 1 17 0) = none) (hplace : namedPlace ws s = noTa)
include hsize hfree hplace

/-- With an existing tributary that is no member, and a free place, an aligned accord alone has more checks: no Equinox binding, no
checked seal under a depth above 48, and units enough. -/
theorem memberSetCheck_free : memberSetCheck ws k s =
    let a := namedAccord ws s
    let ta := pf ws 1 17 0
    if a.aligned && s.conn.eq.any (fun x => x.2.ta == ta && x.2.st != 0) then some .badParam
    else if a.aligned && decide (48 < a.depth) && checkedBound s ta then some .badParam
    else if a.aligned && decide (freeUnits s k < unitsFor (taSize s false ta k) a.depth) then some .busy
    else none := by
  have hok : ¬ (taSize s false (pf ws 1 17 0) k = 0 || (memberNew s (pf ws 1 17 0)).isSome || namedPlace ws s != noTa) = true := by
    simp [hsize, hfree, hplace]
  exact (if_neg (by simpa [namedAccord] using hen)).trans ((if_neg (by simp [hbind])).trans (if_neg hok))

theorem memberSetCheck_notAligned (hal : (namedAccord ws s).aligned = false) : memberSetCheck ws k s = none := by
  simp [memberSetCheck_free hen hbind hsize hfree hplace, hal]

variable (hal : (namedAccord ws s).aligned = true)
include hal

theorem memberSetCheck_delayedElsewhere (h : s.conn.eq.any (fun x => x.2.ta == pf ws 1 17 0 && x.2.st != 0) = true ∨
    48 < (namedAccord ws s).depth ∧ checkedBound s (pf ws 1 17 0) = true) : memberSetCheck ws k s = some .badParam := by
  rw [memberSetCheck_free hen hbind hsize hfree hplace]
  rcases h with heq | ⟨hdepth, hseal⟩
  · exact if_pos (by rw [hal, heq]; rfl)
  · have hboth : ((namedAccord ws s).aligned && decide (48 < (namedAccord ws s).depth) && checkedBound s (pf ws 1 17 0)) = true := by
      simp [hal, hdepth, hseal]
    exact ite_eq_left_iff.mpr fun _ => if_pos hboth

/-- With no other delay of the tributary the free units decide. -/
theorem memberSetCheck_units (heq : s.conn.eq.any (fun x => x.2.ta == pf ws 1 17 0 && x.2.st != 0) = false)
    (hseal : ¬ (48 < (namedAccord ws s).depth ∧ checkedBound s (pf ws 1 17 0) = true)) : memberSetCheck ws k s =
      if freeUnits s k < unitsFor (taSize s false (pf ws 1 17 0) k) (namedAccord ws s).depth then some .busy else none := by
  have hopen : ¬ ((namedAccord ws s).aligned && decide (48 < (namedAccord ws s).depth) && checkedBound s (pf ws 1 17 0)) = true := by
    simpa [hal] using hseal
  rw [memberSetCheck_free hen hbind hsize hfree hplace]
  refine (if_neg (by rw [heq, Bool.and_false]; exact Bool.false_ne_true)).trans ((if_neg hopen).trans ?_)
  simp [hal]

end Bind
end MemberSet

/-! ## ACCORD_REALIGN (05 R146) -/

section Realign
variable {ai : Nat} {s : State}

theorem exec_accordRealign (h : ai < 16384) : exec (.accordRealign ai) s = .next (accordRealign ai s) := if_pos h

theorem accordRealign_still (h : running s = false ∨ (accNow s ai).en = false ∨ (accNow s ai).aligned = false ∨ s.clk.cyc ≠ 0) :
    accordRealign ai s = s := by
  refine if_neg ?_
  rcases h with h | h | h | h <;> simp [h]

/-- At a frame tick the Aligner acts, no recomputation stays due, and the places that it changed are reported. -/
theorem accordRealign_acts (hrun : running s = true) (hen : (accNow s ai).en = true) (hal : (accNow s ai).aligned = true)
    (hcyc : s.clk.cyc = 0) : accordRealign ai s =
      let t := modAcc ai (fun a => { a with owed := [] }) (accordAct ai s).1
      let ch := (List.range 64).filter (fun p => (accordAct ai s).2.contains p)
      match ch with
      | [] => t
      | p :: _ => pulse 0x04 0x11 ai (wd (p + 64 * ch.length)) false (modAcc ai (fun a => { a with hist := a.hist ||| 4 }) t) :=
  if_pos (by simp [hrun, hen, hal, hcyc])

end Realign

/-- Settles O30: `cmdCommit` of class ACCORD by `changesAccord` and `memberSetCheck`, whose checks are taken in their order; the
reports and the return of units as their bodies say; ACCORD_REALIGN by `accordRealign_still` and `accordRealign_acts`. -/
theorem accordCommands : Obligations.AccordCommands := by
  refine ⟨fun p s s1 hp => runCommand_wait hp rfl, fun p s s1 hp => runCommand_wait hp rfl, fun j s0 s1 hturn hw hc => ?port,
    fun ws k s => ?member, fun p s s1 hp => runCommand_reply hp rfl, fun s => rfl, fun ai s hai => ?realign⟩
  case port =>
    have h8 : j.cls ≠ 8 := by omega
    refine ⟨fun ha hch => ?_, fun ha hch hon => ?_, fun ha hoff => ?_, fun ha st hno => ?_, fun ha hok => ?_⟩
    · exact exec_updatePortCommit_refuse hturn hw h8 rfl (cmdCommit_accordSet_changes hc ha hch)
    · rw [exec_updatePortCommit_ok hturn hw h8 rfl (cmdCommit_accordSet_ok hc ha hch), stage_accord hc, accordSetCommit_enable hon]
      rfl
    · have hch : ¬ changesAccord j.params (jrnl 2 j.ring j.tag s1) := fun ⟨hon, _⟩ => by simp [hoff] at hon
      rw [exec_updatePortCommit_ok hturn hw h8 rfl (cmdCommit_accordSet_ok hc ha hch), stage_accord hc, accordSetCommit_disable hoff]
      rfl
    · exact exec_updatePortCommit_refuse hturn hw h8 rfl (cmdCommit_memberSet_refuse hc ha hno)
    · rw [exec_updatePortCommit_ok hturn hw h8 rfl (cmdCommit_memberSet_ok hc ha hok), stage_accord hc]
      rfl
  case member =>
    refine ⟨memberSetCheck_disabled, fun hen hun => ⟨memberSetCheck_unbind hen hun, memberSetCommit_unbind hun⟩,
      fun hen hbind hal => ?_, fun hen hbind => memberSetCheck_taken hen hbind, fun hen hbind hsize hfree hplace => ?_⟩
    · exact (memberSetCommit_bind hbind).trans (if_neg (by simpa [namedAccord] using hal))
    · refine ⟨memberSetCheck_notAligned hen hbind hsize hfree hplace, memberSetCheck_delayedElsewhere hen hbind hsize hfree hplace,
        fun hal heq hseal hless => ?_, fun hal heq hseal hroom => ⟨?_, ?_⟩⟩
      · exact (memberSetCheck_units hen hbind hsize hfree hplace hal heq hseal).trans (if_pos hless)
      · exact (memberSetCheck_units hen hbind hsize hfree hplace hal heq hseal).trans (if_neg hroom.not_gt)
      · exact (memberSetCommit_bind hbind).trans (if_pos hal)
  case realign =>
    rw [exec_accordRealign hai]
    refine ⟨fun h => by rw [accordRealign_still h], fun hrun hen hal hcyc => ?_⟩
    rw [accordRealign_acts hrun hen hal hcyc]
    exact ⟨fun hnone => by rw [hnone], fun p q hsome => by rw [hsome]⟩

end Sys2Proof.Machine


/-! PROOFS. The Connection Table and the Route Allocator (06_switching_core.md R160 to R171, R179 to R185): what a write counts for, what
it leaves, the connection commands and the aperture. -/

namespace Sys2Proof.Machine

/-! ## Counts over a written table -/

section Count
variable {α : Type} [DecidableEq α] {d : Nat → α} {k : Nat} {v : α} {p : Nat × α → Bool}

theorem countP_tdel (hd : p (k, d k) = false) :
    ∀ {lo : Nat} {t : Tbl α}, tblWf d lo t = true → (tdel k t).countP p + b2n (p (k, tget d t k)) = t.countP p
  | _, [], _ => by simp [tdel, tget, hd, b2n]
  | lo, (j, w) :: t, ht => by
    simp only [tblWf, Bool.and_eq_true, decide_eq_true_eq] at ht
    obtain ⟨-, ht⟩ := ht
    by_cases hkj : k = j
    · subst hkj
      simp [tdel, tget, List.countP_cons, b2n]
    · have ih := countP_tdel hd ht
      rw [tdel, if_neg hkj, List.countP_cons, List.countP_cons, tget, if_neg hkj]
      by_cases hlt : k < j
      · rw [if_pos hlt, hd, ← ih, tget_below (Nat.lt_succ_of_lt hlt) ht, hd]
        simp only [b2n, Bool.false_eq_true, if_false]
        omega
      · rw [if_neg hlt, ← ih]
        omega

omit [DecidableEq α] in
theorem countP_tput (hd : p (k, d k) = false) :
    ∀ t : Tbl α, (tput k v t).countP p + b2n (p (k, tget d t k)) = t.countP p + b2n (p (k, v))
  | [] => by simp [tput, tget, hd, b2n, List.countP_cons]
  | (j, w) :: t => by
    have ih := countP_tput hd t
    rcases Nat.lt_trichotomy k j with h | rfl | h
    · simp [tput, tget, h, h.ne, hd, b2n, List.countP_cons]
    · simp only [tput, tget, lt_irrefl, if_false, if_true, List.countP_cons, b2n]
      omega
    · rw [tput, if_neg h.not_gt, if_neg h.ne', tget, if_neg h.ne', if_neg h.not_gt, List.countP_cons, List.countP_cons]
      omega

/-- A write takes the old entry out of a count and the new one in; the default is not counted. -/
theorem countP_tset (hd : p (k, d k) = false) {lo : Nat} {t : Tbl α} (ht : tblWf d lo t = true) :
    (tset d k v t).countP p + b2n (p (k, tget d t k)) = t.countP p + b2n (p (k, v)) := by
  unfold tset
  split
  case isTrue hv => rw [countP_tdel hd ht, hv, hd]; rfl
  case isFalse => exact countP_tput hd t

end Count

/-! ## Routes (06 R165) -/

/-- The entry data `d` make a route from a source that `q` names. -/
def routeFrom (q : Nat → Bool) (d : Word) : Bool := isSource d && q (entrySrc d)

/-- The committed routes from sources that `q` names: K of a lane and the fan-out of a grain are such counts. -/
def routesFrom (q : Nat → Bool) (s : State) : Nat := s.conn.com.countP (fun x => routeFrom q x.2.data)

section Routes
variable {q : Nat → Bool} {s t : State} {g k i src : Nat} {d : Nat} {r : ConnRec}

theorem loadK_eq : loadK s i = routesFrom (fun x => x / laneGrains == i) s := List.countP_eq_length_filter.symm

theorem fanOut_eq : fanOut s src = routesFrom (fun x => x == src) s := List.countP_eq_length_filter.symm

theorem routeFrom_connReset : routeFrom q (connReset g).data = false := by
  have hclosed : isSource 0x03000000 = false := by decide
  rw [routeFrom, connReset, hclosed, Bool.false_and]

theorem routesFrom_putConn (hs : tblWf connReset 0 s.conn.com = true) :
    routesFrom q (putConn g r s) + b2n (routeFrom q (committed s g).data) = routesFrom q s + b2n (routeFrom q r.data) :=
  countP_tset (d := connReset) (p := fun x : Nat × ConnRec => routeFrom q x.2.data) (routeFrom_connReset (g := g)) hs

/-- The route that a destination has is one of those counted. -/
theorem routeFrom_le_routesFrom (hs : tblWf connReset 0 s.conn.com = true) : b2n (routeFrom q (committed s g).data) ≤ routesFrom q s :=
  (Nat.le_add_left ..).trans_eq (countP_tdel (d := connReset) (p := fun x : Nat × ConnRec => routeFrom q x.2.data) (routeFrom_connReset (g := g)) hs)

theorem putConn_wf (hs : tblWf connReset 0 s.conn.com = true) : tblWf connReset 0 (putConn g r s).conn.com = true :=
  tset_wf (Nat.zero_le g) hs

theorem committed_putConn (hs : tblWf connReset 0 s.conn.com = true) (h : Nat) :
    committed (putConn g r s) h = if h = g then r else committed s h := tget_tset hs h

/-! ## The entry that a write leaves (06 Table 6.2) -/

theorem wd_toNat (n : Nat) : (wd n).toNat = n % 2 ^ 32 := BitVec.toNat_ofNat n 32

theorem wd_toNat_self (w : Word) : wd w.toNat = w := BitVec.ofNat_toNat 32 w |>.trans (BitVec.setWidth_eq w)

@[simp] theorem entrySrc_nextData (old : Word) : entrySrc (nextData old d) = entrySrc (wd d) := by
  simp only [entrySrc, fld, nextData, wd_toNat]
  omega

@[simp] theorem entryFill_nextData (old : Word) : entryFill (nextData old d) = entryFill (wd d) := by
  simp only [entryFill, fld, nextData, wd_toNat]
  omega

@[simp] theorem isSource_nextData (old : Word) : isSource (nextData old d) = isSource (wd d) := by simp [isSource]

@[simp] theorem routeFrom_nextData (old : Word) : routeFrom q (nextData old d) = routeFrom q (wd d) := by simp [routeFrom]

/-! ## The Route Allocator's verdict (06 R166) -/

/-- The data `d` would give destination `g` a route that it does not have. -/
def newRoute (s : State) (g : Nat) (d : Word) : Prop :=
  isSource d = true ∧ ¬ (isSource (committed s g).data = true ∧ entrySrc (committed s g).data = entrySrc d)

theorem blockReason_old (h : ¬ newRoute s g (wd d)) : blockReason s g (wd d) = 0 := by
  have hold : (!isSource (wd d) || (isSource (committed s g).data && entrySrc (committed s g).data == entrySrc (wd d))) = true := by
    by_cases hsrc : isSource (wd d) = true <;> simp_all [newRoute]
  exact if_pos hold

variable (hs : tblWf connReset 0 s.conn.com = true) (hr : r.data = nextData (committed s g).data d)
include hs hr

/-- A new route is refused for the counts of the table as the write would leave it. -/
theorem blockReason_new (h : newRoute s g (wd d)) : blockReason s g (wd d) =
    if 196608 < loadK (putConn g r s) (entrySrc (wd d) / laneGrains) then 1
    else if 256 < fanOut (putConn g r s) (entrySrc (wd d)) then 2 else 0 := by
  obtain ⟨hsrc, hdiff⟩ := h
  have hother : ¬ (!isSource (wd d) || (isSource (committed s g).data && entrySrc (committed s g).data == entrySrc (wd d))) = true := by
    simpa [hsrc] using hdiff
  have hload : loadK (putConn g r s) (entrySrc (wd d) / laneGrains) = loadK s (entrySrc (wd d) / laneGrains)
      - b2n (routeFrom (fun x => x / laneGrains == entrySrc (wd d) / laneGrains) (committed s g).data) + 1 := by
    have hput := routesFrom_putConn (q := fun x => x / laneGrains == entrySrc (wd d) / laneGrains) (g := g) (r := r) hs
    have hle := routeFrom_le_routesFrom (q := fun x => x / laneGrains == entrySrc (wd d) / laneGrains) (g := g) hs
    have hnew : routeFrom (fun x => x / laneGrains == entrySrc (wd d) / laneGrains) r.data = true := by
      rw [hr, routeFrom_nextData]
      simp [routeFrom, hsrc]
    rw [hnew, show b2n true = 1 from rfl] at hput
    rw [loadK_eq, loadK_eq]
    rw [← Nat.sub_add_comm hle, ← hput, Nat.add_sub_cancel]
  have hfan : fanOut (putConn g r s) (entrySrc (wd d)) = fanOut s (entrySrc (wd d)) + 1 := by
    have hput := routesFrom_putConn (q := fun x => x == entrySrc (wd d)) (g := g) (r := r) hs
    have hnew : routeFrom (fun x => x == entrySrc (wd d)) r.data = true := by
      rw [hr, routeFrom_nextData]
      simp [routeFrom, hsrc]
    have hgone : routeFrom (fun x => x == entrySrc (wd d)) (committed s g).data = false := by
      simpa [routeFrom] using hdiff
    rw [hnew, hgone] at hput
    rwa [fanOut_eq, fanOut_eq]
  rw [hload, hfan]
  exact if_neg hother

end Routes

/-! ## The entry whose turn it is (06 R170, R179, R181) -/

/-- The source of an egress tributary follows a committed entry, where `FOLLOW_TA` says which. -/
def followed (f : Option (Nat × Nat)) (k : Nat) (s : State) : State :=
  match f with
  | some (ta, src) => followCommit ta src k s
  | none => s

/-- A connection command stops at an entry that is refused: its reply counts the entries done before. -/
def entryStop (j : Job) (n : Nat) (f l : Word × Nat) (gens : List Nat) (st : Status) (why : Nat) (s : State) : Host.Outcome State Fault Refusal :=
  .next (protSync (endJob j.ring st (connWords j n f l gens true why) s))

section Entry
variable {j : Job} {n g d : Nat} {f l : Word × Nat} {gens : List Nat} {follow : Bool} {s0 u s : State}
variable (hturn : PortTurn j s0 u) (hw : j.work = .conn n f l gens) (hn : connNext j n = some (.conn g d follow)) (hs : s = jrnl 2 j.ring j.tag u)

/-- What the Route Allocator makes of an entry, its journal record written: the checks in the order of log 71. -/
def entryTaken (j : Job) (n : Nat) (f l : Word × Nat) (gens : List Nat) (g d : Nat) (follow : Bool) (s : State) : State :=
  let fol := if follow then followTa g d (effTick s) s else none
  if follow && fol.isNone then endJob j.ring .badParam (connWords j n f l gens true 0) s
  else if blockReason s g (wd d) ≠ 0 then endJob j.ring .routeBlocked (connWords j n f l gens true (blockReason s g (wd d))) s
  else if s.conn.bad.contains (g / 4096) then endJob j.ring .hwFault (connWords j n f l gens true 0) s
  else connDone j n f gens g (effTick s) (followed fol (effTick s) (commitEntry g d s))

include hturn hw hn hs

theorem exec_entry : exec .updatePortCommit s0 = .next (protSync (entryTaken j n f l gens g d follow s)) := by
  refine (portTurn_conn hturn hw).trans (congrArg _ (congrArg protSync ?_))
  subst hs
  simp only [connCommit, hn]
  rfl

theorem exec_entry_followFails (hfol : follow = true) (hno : followTa g d (effTick s) s = none) :
    exec .updatePortCommit s0 = entryStop j n f l gens .badParam 0 s := by
  refine (exec_entry hturn hw hn hs).trans (congrArg _ (congrArg protSync (if_pos ?_)))
  simp [hfol, hno]

variable (hfol : follow = true → followTa g d (effTick s) s ≠ none)
include hfol

omit hturn hw hn hs in
theorem entry_follows : ¬ (follow && (if follow then followTa g d (effTick s) s else none).isNone) = true := by
  cases follow with
  | false => simp
  | true => simpa using hfol rfl

theorem exec_entry_blocked (hwhy : blockReason s g (wd d) ≠ 0) :
    exec .updatePortCommit s0 = entryStop j n f l gens .routeBlocked (blockReason s g (wd d)) s :=
  (exec_entry hturn hw hn hs).trans (congrArg _ (congrArg protSync ((if_neg (entry_follows hfol)).trans (if_pos hwhy))))

variable (hwhy : blockReason s g (wd d) = 0)
include hwhy

theorem exec_entry_lostBlock (hbad : s.conn.bad.contains (g / 4096) = true) :
    exec .updatePortCommit s0 = entryStop j n f l gens .hwFault 0 s :=
  (exec_entry hturn hw hn hs).trans (congrArg _ (congrArg protSync
    ((if_neg (entry_follows hfol)).trans ((if_neg (not_not_intro hwhy)).trans (if_pos hbad)))))

theorem exec_entry_commits (hbad : s.conn.bad.contains (g / 4096) = false) :
    exec .updatePortCommit s0 = .next (protSync (connDone j n f gens g (effTick s)
      (if follow = true then followed (followTa g d (effTick s) s) (effTick s) (commitEntry g d s) else commitEntry g d s))) := by
  have hgood : ¬ s.conn.bad.contains (g / 4096) = true := Bool.eq_false_iff.mp hbad
  refine (exec_entry hturn hw hn hs).trans (congrArg _ (congrArg protSync
    ((if_neg (entry_follows hfol)).trans ((if_neg (not_not_intro hwhy)).trans ((if_neg hgood).trans ?_)))))
  cases follow <;> rfl

end Entry

/-- Settles O33: the counts of the table as the write would leave it decide `blockReason` of a new route; every other write has
reason 0, and the entry's turn at the port follows the reason. -/
theorem blockReasons : Obligations.BlockReasons := by
  intro j s0 u n f l gens g d follow hturn hw hn s hcom hfol w src fresh stop full wide
  have hstop (why : Nat) (h0 : why ≠ 0) (hwhy : blockReason s g (wd d) = why) : exec .updatePortCommit s0 = stop why := by
    rw [← hwhy] at h0
    rw [exec_entry_blocked hturn hw hn rfl hfol h0, hwhy]
    rfl
  have hnew (h : fresh) : blockReason s g (wd d) = if 196608 < loadK w (src / 98304) then 1 else if 256 < fanOut w src then 2 else 0 :=
    blockReason_new hcom rfl h
  refine ⟨fun hfull => ?_, fun hroom hwide => ?_, fun hroom hnarrow hbad => ?_⟩
  · exact hstop 1 (by decide) ((hnew hfull.1).trans (if_pos hfull.2))
  · have hload : ¬ 196608 < loadK w (src / 98304) := fun h => hroom ⟨hwide.1, h⟩
    exact hstop 2 (by decide) ((hnew hwide.1).trans ((if_neg hload).trans (if_pos hwide.2)))
  · have hwhy : blockReason s g (wd d) = 0 := by
      by_cases hfresh : fresh
      · have hload : ¬ 196608 < loadK w (src / 98304) := fun h => hroom ⟨hfresh, h⟩
        have hfan : ¬ 256 < fanOut w src := fun h => hnarrow ⟨hfresh, h⟩
        exact (hnew hfresh).trans ((if_neg hload).trans (if_neg hfan))
      · exact blockReason_old hfresh
    exact exec_entry_commits hturn hw hn rfl hfol hwhy hbad

/-! ## What the commit of an entry leaves (06 R167, R169) -/

section CommitEntry
variable {s t : State} {g d : Nat}

/-- The record that a commit of data `d` gives destination `g`, in slot `slot`. -/
def newRec (g d slot : Nat) (s : State) : ConnRec :=
  { data := nextData (committed s g).data d, eff := effTick s, effFc := (fcOf s (effTick s)).1, effCyc := (fcOf s (effTick s)).2
    since := effTick s, slot }

/-- The routes that the placement of an entry moves, each with its new slot. -/
def movedRoutes (g d : Nat) (s : State) : List (Nat × Nat) :=
  if isSource (nextData (committed s g).data d) then (place s g (nextData (committed s g).data d)).2 else []

theorem movedRoutes_noSource (h : isSource (wd d) = false) : movedRoutes g d s = [] := by simp [movedRoutes, h]

/-- A commit moves routes, then writes the entry, which is placed by the table before the moves. -/
theorem commitEntry_conn : ∃ slot,
    (commitEntry g d s).conn = (putConn g (newRec g d slot s) ((movedRoutes g d s).foldl (moveRoute (effTick s)) s)).conn := by
  by_cases hsrc : isSource (nextData (committed s g).data d) = true
  · exact ⟨(place s g (nextData (committed s g).data d)).1, by simp only [commitEntry, movedRoutes, hsrc, if_true]; rfl⟩
  · exact ⟨noSlot, by simp only [commitEntry, movedRoutes, hsrc]; rfl⟩

/-! ## The limits (06 R165, R166) -/

/-- A canonical table with every source lane's load and every fan-out within R166's limits. -/
def RouteLimits (s : State) : Prop :=
  tblWf connReset 0 s.conn.com = true ∧ (∀ i, loadK s i ≤ 196608) ∧ (∀ src, fanOut s src ≤ 256)

theorem RouteLimits.congr (h : t.conn = s.conn) (hs : RouteLimits s) : RouteLimits t := by
  unfold RouteLimits loadK fanOut at hs ⊢
  rwa [h]

theorem loadK_putConn {r : ConnRec} (hs : tblWf connReset 0 s.conn.com = true) (i : Nat) :
    loadK (putConn g r s) i + b2n (routeFrom (fun x => x / laneGrains == i) (committed s g).data) =
      loadK s i + b2n (routeFrom (fun x => x / laneGrains == i) r.data) := by
  rw [loadK_eq, loadK_eq]
  exact routesFrom_putConn hs

theorem fanOut_putConn {r : ConnRec} (hs : tblWf connReset 0 s.conn.com = true) (src : Nat) :
    fanOut (putConn g r s) src + b2n (routeFrom (fun x => x == src) (committed s g).data) =
      fanOut s src + b2n (routeFrom (fun x => x == src) r.data) := by
  rw [fanOut_eq, fanOut_eq]
  exact routesFrom_putConn hs

/-- A count of routes after a write stays in its limit: the write adds nothing to it, or its destination had such a route before. -/
theorem count_le_of_put {q : Nat → Bool} {old new : Word} {a b c : Nat} (hput : a + b2n (routeFrom q old) = b + b2n (routeFrom q new)) (hb : b ≤ c)
    (hnew : isSource new = true → q (entrySrc new) = true → (isSource old = true ∧ entrySrc old = entrySrc new) ∨ a ≤ c) : a ≤ c := by
  cases hroute : routeFrom q new with
  | false =>
    rw [hroute] at hput
    simp only [b2n, Bool.false_eq_true, if_false] at hput
    omega
  | true =>
    obtain ⟨hsrc, hq⟩ := Bool.and_eq_true_iff.mp hroute
    rcases hnew hsrc hq with ⟨holdSrc, hsame⟩ | h
    · have hold : routeFrom q old = true := by rw [routeFrom, holdSrc, hsame, hq]; rfl
      rw [hroute, hold] at hput
      omega
    · exact h

/-- A write counts for no source that it does not name, nor for the source that its destination had. -/
theorem RouteLimits.putConn {r : ConnRec} (hs : RouteLimits s) (hr : isSource r.data = true →
      (isSource (committed s g).data = true ∧ entrySrc (committed s g).data = entrySrc r.data) ∨
      (loadK (putConn g r s) (entrySrc r.data / laneGrains) ≤ 196608 ∧ fanOut (putConn g r s) (entrySrc r.data) ≤ 256)) :
    RouteLimits (putConn g r s) := by
  obtain ⟨hcom, hload, hfan⟩ := hs
  refine ⟨putConn_wf hcom, fun i => ?_, fun src => ?_⟩
  · refine count_le_of_put (loadK_putConn hcom i) (hload i) fun hsrc hq => (hr hsrc).imp_right fun h => ?_
    exact eq_of_beq hq ▸ h.1
  · refine count_le_of_put (fanOut_putConn hcom src) (hfan src) fun hsrc hq => (hr hsrc).imp_right fun h => ?_
    exact eq_of_beq hq ▸ h.2

/-- The moves of a chain placement change slots alone (06 R167): the table stays canonical, with the same data and the same counts. -/
structure SameRoutes (s t : State) : Prop where
  canonical : tblWf connReset 0 t.conn.com = true
  data : ∀ h, (committed t h).data = (committed s h).data
  counts : ∀ q, routesFrom q t = routesFrom q s

theorem sameRoutes_moveRoute (hs : tblWf connReset 0 s.conn.com = true) (k : Nat) (m : Nat × Nat) : SameRoutes s (moveRoute k s m) where
  canonical := putConn_wf hs
  data h := by
    rw [moveRoute, committed_putConn hs]
    split
    case isTrue hm => rw [hm]
    case isFalse => rfl
  counts q := Nat.add_right_cancel (routesFrom_putConn (g := m.1) (r := { committed s m.1 with slot := m.2, since := k }) hs)

theorem sameRoutes_moveRoutes (hs : tblWf connReset 0 s.conn.com = true) (k : Nat) (moved : List (Nat × Nat)) :
    SameRoutes s (moved.foldl (moveRoute k) s) := by
  induction moved generalizing s with
  | nil => exact ⟨hs, fun _ => rfl, fun _ => rfl⟩
  | cons m moved ih =>
    have hm := sameRoutes_moveRoute hs k m
    have hrest := ih hm.canonical
    exact ⟨hrest.canonical, fun h => (hrest.data h).trans (hm.data h), fun q => (hrest.counts q).trans (hm.counts q)⟩

theorem RouteLimits.of_sameRoutes (h : SameRoutes s t) (hs : RouteLimits s) : RouteLimits t := by
  obtain ⟨-, hload, hfan⟩ := hs
  refine ⟨h.canonical, fun i => ?_, fun src => ?_⟩
  · rw [loadK_eq, h.counts, ← loadK_eq]
    exact hload i
  · rw [fanOut_eq, h.counts, ← fanOut_eq]
    exact hfan src

theorem blockReason_sameRoutes (h : SameRoutes s t) (d : Word) : blockReason t g d = blockReason s g d := by
  simp only [blockReason, h.data, loadK_eq, fanOut_eq, h.counts]

/-- What a reason of 0 says of the table as the write would leave it. -/
theorem limits_of_blockReason_zero {r : ConnRec} (hs : tblWf connReset 0 s.conn.com = true) (hr : r.data = nextData (committed s g).data d)
    (hfresh : newRoute s g (wd d)) (hwhy : blockReason s g (wd d) = 0) :
    loadK (putConn g r s) (entrySrc (wd d) / laneGrains) ≤ 196608 ∧ fanOut (putConn g r s) (entrySrc (wd d)) ≤ 256 := by
  rw [blockReason_new hs hr hfresh] at hwhy
  split_ifs at hwhy with hfull hwide
  exact ⟨Nat.le_of_not_lt hfull, Nat.le_of_not_lt hwide⟩

/-- An entry that the Route Allocator routes leaves the table within its limits, with the routes that it moves. -/
theorem routeLimits_commitEntry (hs : RouteLimits s) (hwhy : blockReason s g (wd d) = 0) : RouteLimits (commitEntry g d s) := by
  obtain ⟨slot, hconn⟩ := commitEntry_conn (g := g) (d := d) (s := s)
  have hmoved := sameRoutes_moveRoutes hs.1 (effTick s) (movedRoutes g d s)
  refine .congr hconn (.putConn (hs.of_sameRoutes hmoved) fun hsrc => ?_)
  have hdata : (newRec g d slot s).data = nextData (committed ((movedRoutes g d s).foldl (moveRoute (effTick s)) s) g).data d := by
    rw [hmoved.data]
    rfl
  rw [hdata, isSource_nextData] at hsrc
  rw [hdata, entrySrc_nextData, or_iff_not_imp_left]
  exact fun hfresh => limits_of_blockReason_zero hmoved.canonical hdata ⟨hsrc, hfresh⟩ ((blockReason_sameRoutes hmoved (wd d)).trans hwhy)

theorem committed_commitEntry (hs : tblWf connReset 0 s.conn.com = true) : ∃ slot,
    committed (commitEntry g d s) g = newRec g d slot s ∧
    (isSource (wd d) = false → ∀ h, h ≠ g → committed (commitEntry g d s) h = committed s h) := by
  obtain ⟨slot, hconn⟩ := commitEntry_conn (g := g) (d := d) (s := s)
  have hmoved := sameRoutes_moveRoutes hs (effTick s) (movedRoutes g d s)
  have hread (h : Nat) : committed (commitEntry g d s) h =
      if h = g then newRec g d slot s else committed ((movedRoutes g d s).foldl (moveRoute (effTick s)) s) h := by
    rw [← committed_putConn hmoved.canonical]
    simp only [committed, hconn]
  refine ⟨slot, (hread g).trans (if_pos rfl), fun hsrc h hne => (hread h).trans ((if_neg hne).trans ?_)⟩
  rw [movedRoutes_noSource hsrc]
  rfl

end CommitEntry

/-! ## APERTURE_WRITE (06 R160; 13 R365, R367) -/

section Aperture
variable {s t : State} {m a : Nat} {v : Word}

theorem apertureWrite_outside (h : gaOk ((a - 0x4000000) / 4) = false) : apertureWrite a v s = s := by
  simp [apertureWrite, h]

variable (hga : gaOk ((a - 0x4000000) / 4) = true)
include hga

theorem apertureWrite_badEntry (h : entryOk v.toNat = false) :
    apertureWrite a v s = pulse 0x05 0x11 ((a - 0x4000000) / 4) v false s := by
  simp [apertureWrite, hga, h]

variable (hok : entryOk v.toNat = true)
include hok

theorem apertureWrite_refused
    (h : s.conn.bad.contains ((a - 0x4000000) / 4 / 4096) = true ∨ blockReason s ((a - 0x4000000) / 4) v ≠ 0) : apertureWrite a v s = s := by
  have hno : (s.conn.bad.contains ((a - 0x4000000) / 4 / 4096) || decide (blockReason s ((a - 0x4000000) / 4) v ≠ 0)) = true := by
    simpa using h
  simp only [apertureWrite, hga, hok, Bool.not_true, Bool.false_eq_true, if_false]
  exact if_pos hno

theorem apertureWrite_commits (hbad : s.conn.bad.contains ((a - 0x4000000) / 4 / 4096) = false)
    (hwhy : blockReason s ((a - 0x4000000) / 4) v = 0) : apertureWrite a v s = commitEntry ((a - 0x4000000) / 4) v.toNat s := by
  simp only [apertureWrite, hga, hok, hbad, hwhy, Bool.not_true, Bool.false_eq_true, if_false]
  rfl

end Aperture

section Serve
variable {s t : State} {m a : Nat} {v : Word}

theorem routeLimits_apertureWrite (a : Nat) (v : Word) (hs : RouteLimits s) : RouteLimits (apertureWrite a v s) := by
  unfold apertureWrite
  dsimp only
  split
  · exact hs
  · split
    · exact hs.congr (pulse_conn ..)
    · split
      · exact hs
      case isFalse hok =>
        have hwhy : blockReason s ((a - 0x4000000) / 4) (wd v.toNat) = 0 := by
          rw [wd_toNat_self]
          simpa using (not_or.mp (mt Bool.or_eq_true_iff.mpr hok)).2
        exact routeLimits_commitEntry hs hwhy

theorem routeLimits_apertureServe (hs : RouteLimits s) : RouteLimits (apertureServe s) := by
  unfold apertureServe
  split
  · split
    · exact routeLimits_apertureWrite _ _ (hs.congr (by dsimp only [takeSlot]; split <;> rfl))
    · exact hs
  · exact hs

/-- What APERTURE_WRITE can answer: an event alone, or the aperture's next write, this one behind those that wait. -/
theorem exec_apertureWrite_cases (h : exec (.apertureWrite m a v) s = .next t) :
    t.conn = s.conn ∨ t = apertureServe (apertureQueue m a v s) := by
  rw [show exec (.apertureWrite m a v) s = execApertureWrite m a v s from rfl] at h
  unfold execApertureWrite at h
  split_ifs at h with hform hreach
  · cases h
    exact .inl (raise_conn ..)
  · cases h
    exact .inr rfl

end Serve

/-- Settles O34: `RouteLimits` holds of the empty table; a commit keeps it by `routeLimits_commitEntry`, and the aperture changes
the table by commits alone. -/
theorem routeLimitsKept : Obligations.RouteLimitsKept := by
  refine ⟨⟨rfl, fun _ => Nat.zero_le _, fun _ => Nat.zero_le _⟩, fun g d s hs hwhy => routeLimits_commitEntry hs hwhy,
    fun s hs => routeLimits_apertureServe hs, fun m a v s t hs hex => ?_⟩
  rcases exec_apertureWrite_cases hex with hconn | rfl
  · exact RouteLimits.congr hconn hs
  · exact routeLimits_apertureServe (RouteLimits.congr (s := s) rfl hs)

section ApertureRow
variable {s : State} {m g : Nat} {v : Word}

/-- Destination `g` of an aperture address. -/
theorem apertureGa (g : Nat) : (0x4000000 + 4 * g - 0x4000000) / 4 = g := by omega

theorem exec_apertureWrite (hm : m < 8) (hg : g < 16777216) : exec (.apertureWrite m (0x4000000 + 4 * g) v) s =
    if !reachesT2 m then .next (raise 0x0A 0x11 m (wd (0x4000000 + 4 * g)) false { s with mem := { s.mem with errI := true } })
    else .next (apertureServe (apertureQueue m (0x4000000 + 4 * g) v s)) := by
  have hform : ¬ (decide ((0x4000000 + 4 * g) % 4 ≠ 0) || decide (0x4000000 + 4 * g < 0x4000000) || decide (0x8000000 ≤ 0x4000000 + 4 * g)
      || decide (8 ≤ m)) = true := by
    simp only [Bool.or_eq_true, decide_eq_true_eq]
    omega
  exact if_neg hform

theorem reachesT2_iff : reachesT2 m = true ↔ m = 0 ∨ m = 1 ∨ m = 3 := by simp [reachesT2, or_assoc]

theorem apertureServe_shut (h : portOpen s = false) : apertureServe s = s := by
  unfold apertureServe
  split
  · exact if_neg (by simp [h])
  · rfl

/-- A write that another master's lock of T2 holds off leaves what waits as it is, when nothing else waits. -/
theorem apertureServe_locked {a : Nat} (hwait : s.port.waiting = []) (hlock : lockAllows s 2 m = false) :
    apertureServe (apertureQueue m a v s) = apertureQueue m a v s := by
  have hnone : (apertureQueue m a v s).port.waiting.find? (fun x => lockAllows (apertureQueue m a v s) 2 x.1) = none := by
    simp only [apertureQueue, hwait]
    exact List.find?_cons_of_neg (by simpa [lockAllows] using hlock)
  unfold apertureServe
  rw [hnone]

/-- With none before it, the port committing and T2 its own, a write takes this moment's commit slot. -/
theorem apertureServe_takes {a : Nat} (hopen : portOpen s = true) (hwait : s.port.waiting = []) (hlock : lockAllows s 2 m = true) :
    apertureServe (apertureQueue m a v s) = apertureWrite a v (takeSlot (if m ≤ 1 then jrnl 2 4 0 s else s)) := by
  have hfirst : (apertureQueue m a v s).port.waiting.find? (fun x => lockAllows (apertureQueue m a v s) 2 x.1) = some (m, a, v) := by
    simp only [apertureQueue, hwait]
    exact List.find?_cons_of_pos hlock
  unfold apertureServe
  rw [hfirst]
  refine (if_pos hopen).trans (congrArg (apertureWrite a v) ?_)
  have hempty : (apertureQueue m a v s).port.waiting.erase (m, a, v) = s.port.waiting := by simp [apertureQueue, hwait]
  by_cases hcp : m ≤ 1
  · rw [if_pos hcp, if_pos hcp]
    simp only [hempty]
    rfl
  · rw [if_neg hcp, if_neg hcp, hempty]
    rfl

theorem entryOk_iff : entryOk v.toNat = true ↔ fld v 26 24 ≤ 3 ∧ fld v 23 0 < 14155776 := by
  simp [entryOk, gaOk, fld]

end ApertureRow

/-- Settles O37: a write waits behind those before it while the port is shut or T2 is locked; else it takes the commit slot, and the
cases of `apertureWrite` are the statement's. -/
theorem apertureWrites : Obligations.ApertureWrites := by
  intro m g v s0 hm hg hcom a go s waits c
  have hgo : go = _ := exec_apertureWrite hm hg
  have hqueue (hmaster : m = 0 ∨ m = 1 ∨ m = 3) : go = .next (apertureServe (apertureQueue m a v s0)) := by
    rw [hgo, reachesT2_iff.mpr hmaster]
    rfl
  have hwaits (hmaster : m = 0 ∨ m = 1 ∨ m = 3) (h : apertureServe (apertureQueue m a v s0) = apertureQueue m a v s0) : waits :=
    ⟨apertureQueue m a v s0, by rw [hqueue hmaster, h], rfl, rfl⟩
  refine ⟨fun hother => ?_, fun hmaster hshut => hwaits hmaster (apertureServe_shut hshut),
    fun hmaster hwait hlock => hwaits hmaster (apertureServe_locked hwait hlock), fun hmaster hopen hwait hlock => ?_⟩
  · have hno : reachesT2 m = false := by
      rw [Bool.eq_false_iff, Ne, reachesT2_iff]
      omega
    rw [hgo, hno]
    rfl
  · have hserve : go = .next (apertureWrite a v s) := by rw [hqueue hmaster, apertureServe_takes hopen hwait hlock]
    have hcom' : tblWf connReset 0 s.conn.com = true := by
      have hconn : s.conn = s0.conn := by dsimp only [s, takeSlot]; split <;> rfl
      rwa [hconn]
    refine ⟨fun hout => ?_, fun hin => ⟨fun hbad => ?_, fun hfill hsrc => ⟨fun hno => ?_, fun hblock hwhy => ?_⟩⟩⟩
    · have hga : gaOk ((a - 0x4000000) / 4) = false := by simpa [a, apertureGa, gaOk] using hout
      exact ⟨by rw [hserve, apertureWrite_outside hga], by simp only [apertureRead, hga, Bool.false_eq_true, if_false]⟩
    all_goals have hga : gaOk ((a - 0x4000000) / 4) = true := by simpa [a, apertureGa, gaOk] using hin
    · have hno : entryOk v.toNat = false := by
        rw [Bool.eq_false_iff, Ne, entryOk_iff]
        omega
      rw [hserve, apertureWrite_badEntry hga hno, apertureGa]
    all_goals have hok : entryOk v.toNat = true := entryOk_iff.mpr ⟨hfill, hsrc⟩
    · rw [hserve, apertureWrite_refused hga hok (by rwa [apertureGa])]
    · rw [← apertureGa g] at hblock hwhy
      have hcommit := apertureWrite_commits hga hok hblock hwhy
      rw [apertureGa] at hcommit
      obtain ⟨slot, hnew, hrest⟩ := committed_commitEntry (g := g) (d := v.toNat) hcom'
      refine ⟨_, hserve.trans (congrArg _ hcommit), ?_, ?_, ?_⟩
      · rw [apertureRead, if_pos hga, apertureGa, hnew]
        rfl
      · rw [hnew]
        rfl
      · rwa [wd_toNat_self] at hrest

/-! ## The connection commands at their decode (06 R180 to R185) -/

section ConnBodies
variable {p : Packet} {s t : State} {st : Status} {img : List Byte} {ta : Nat}

theorem bodyConnSetOwned_owned (h : ∃ r < pf p.params 0 2 0, protOwns s (pf p.params (1 + 2 * r) 23 0) = true) :
    bodyConnSetOwned p s = refuse .notInMode s := if_pos (by simpa using h)

theorem bodyConnSetOwned_free (h : ¬ ∃ r < pf p.params 0 2 0, protOwns s (pf p.params (1 + 2 * r) 23 0) = true) :
    bodyConnSetOwned p s = .wait (.conn 0 (0, 0) (0, 0) []) [] [] s := if_neg (by simpa using h)

theorem bodyConnLoad_waits (h : takeBuffer (fun _ => true) (pf p.params 0 22 0) s = none) :
    bodyConnLoad p s = .wait (.desc (pf p.params 0 22 0)) [] [] s := by
  simp [bodyConnLoad, h]

theorem bodyConnLoad_badBuffer (h : takeBuffer (fun _ => true) (pf p.params 0 22 0) s = some (some st, img, t)) :
    bodyConnLoad p s = refuse st t := by
  simp [bodyConnLoad, h]

theorem bodyConnLoad_badImage (h : takeBuffer (fun _ => true) (pf p.params 0 22 0) s = some (none, img, t))
    (hno : imageOk img img.length = false) : bodyConnLoad p s = refuse .badParam t := by
  simp [bodyConnLoad, h, connLoadTaken, hno]

/-- An image in order is refused for a protection group's destination; else it is validated or goes to the port. -/
theorem bodyConnLoad_goodImage (h : takeBuffer (fun _ => true) (pf p.params 0 22 0) s = some (none, img, t))
    (hok : imageOk img img.length = true) : bodyConnLoad p s =
      if imageOwned img t then refuse .notInMode t
      else if pb p.params 1 0 then .reply .ok [0, 0, 0, 0, 0, 0] t
      else .wait (.conn 0 (0, 0) (0, 0) []) img [] t := by
  simp [bodyConnLoad, h, connLoadTaken, hok]

/-- The delay that `CONN_GET` reports is that of the tributary of the source in force, 0 of an entry that is not equalised. -/
theorem bodyConnGet_eq : bodyConnGet p s =
    let g := pf p.params 0 23 0
    let r := inForce s (curCycle s) g
    let delay (o : Option Nat) : Nat := match o with | some ta => delayE s ta (curCycle s) | none => 0
    .reply .ok [(committed s g).data, r.data, (committed s g).effFc,
      wd ((committed s g).effCyc + 8 * b2n (decide (curCycle s < (committed s g).eff)) + 16 * (if isSource r.data then r.slot else 0x3FFFF)),
      wd ((if entryEq r.data then delay (taOfGrain s (entrySrc r.data / 98304) (entrySrc r.data % 98304) (curCycle s)) else 0)
        + 128 * fanOut s (entrySrc r.data)), wd (physBlock s g)] s := by
  dsimp only
  cases heq : entryEq (inForce s (curCycle s) (pf p.params 0 23 0)).data <;> simp only [bodyConnGet, heq] <;> rfl

end ConnBodies

/-- A committed entry goes on to the next, or replies after the last. -/
theorem connDone_eq (j : Job) (n g k : Nat) (f : Word × Nat) (gens : List Nat) (t : State) : connDone j n f gens g k t =
    let first := if n = 0 then fcOf t k else f
    let gens' := if j.act = 0x10 then gens ++ [entryGen (committed t g).data] else gens
    let t' := setJob j.ring (some { j with accepted := n + 1, work := .conn (n + 1) first (fcOf t k) gens' }) t
    if connNext j (n + 1) = none then endJob j.ring .ok (connWords j (n + 1) first (fcOf t k) gens' false 0) t' else t' :=
  ite_congr (by rw [← Option.isNone_iff_eq_none]; rfl) (fun _ => rfl) (fun _ => rfl)

/-- Settles O32: each row's body answers an accepted packet, a load's descriptor first, and the entry whose turn it is by
`entryTaken`. -/
theorem connCommands : Obligations.ConnCommands := by
  refine ⟨fun p s s1 hp => ?set, fun p s s1 hp => ?load, fun p s s1 hp => ?get, fun p s s1 hp => runCommand_wait hp rfl,
    fun p s s1 hp => runCommand_reply hp rfl, fun j s0 u n f l gens g d follow hturn hw hn => ?port⟩
  case set =>
    exact ⟨fun h => runCommand_reply hp (bodyConnSetOwned_owned h), fun h => runCommand_wait hp (bodyConnSetOwned_free h)⟩
  case load =>
    refine ⟨fun hown => ?_, fun hown hbad => ?_, fun hown hok hlast => ?_⟩
    · exact runCommand_wait hp (bodyConnLoad_waits (takeBuffer_notHandedOver hown))
    · exact runCommand_reply hp (bodyConnLoad_badBuffer (takeBuffer_badDesc hown (hbad.imp_right .inl)))
    · have htake := takeBuffer_goodDesc (len := fun _ => true) hown hok hlast rfl
      refine ⟨fun hcrc => ?_, fun hcrc himg => ?_, fun hcrc himg => ?_⟩
      · exact runCommand_reply hp (bodyConnLoad_badBuffer (htake.trans (if_pos hcrc)))
      · exact runCommand_reply hp (bodyConnLoad_badImage (htake.trans (if_neg (not_not_intro hcrc))) himg)
      · have hgood := bodyConnLoad_goodImage (htake.trans (if_neg (not_not_intro hcrc))) himg
        refine ⟨fun howned => ?_, fun hfree hval => ?_, fun hfree hval => ?_⟩
        · exact runCommand_reply hp (hgood.trans (if_pos howned))
        · exact runCommand_reply hp (hgood.trans ((if_neg (by simp [hfree])).trans (if_pos hval)))
        · exact runCommand_wait hp (hgood.trans ((if_neg (by simp [hfree])).trans (if_neg (by simp [hval]))))
  case get =>
    exact runCommand_reply hp bodyConnGet_eq
  case port =>
    refine ⟨fun hfol hno => exec_entry_followFails hturn hw hn rfl hfol hno, fun hfol hwhy => exec_entry_blocked hturn hw hn rfl hfol hwhy,
      fun hfol hwhy hbad => exec_entry_lostBlock hturn hw hn rfl hfol hwhy hbad, fun hfol hwhy hbad => ?_⟩
    rw [exec_entry_commits hturn hw hn rfl hfol hwhy hbad, connDone_eq]
    rfl

end Sys2Proof.Machine


/-! PROOFS. The Path Equaliser (06_switching_core.md R172 to R177, R184): its bindings' settings, lock and loss. -/

namespace Sys2Proof.Machine

/-! ## `CONN_EQ_SET` at its commit (06 R177, R184) -/

section EqSet
variable {ws : List Word} {k : Nat} {s : State}

/-- The fields equal those of an enabled binding. -/
def eqRepeats (ws : List Word) (s : State) : Prop :=
  (eqBind s (pf ws 0 12 0)).st ≠ 0 ∧ eqSame (eqBind s (pf ws 0 12 0)) ws = true

theorem eqSetCheck_disable (hoff : pb ws 0 13 = false) : eqSetCheck ws k s = none := by
  simp [eqSetCheck, hoff]

theorem eqSetCommit_disable (hoff : pb ws 0 13 = false) : eqSetCommit ws k s = eqDisable (pf ws 0 12 0) k s := by
  simp [eqSetCommit, hoff]

theorem eqSetCheck_repeat (h : eqRepeats ws s) : eqSetCheck ws k s = none := by
  obtain ⟨hst, hsame⟩ := h
  simp [eqSetCheck, hst, hsame]

variable (hon : pb ws 0 13 = true)
include hon

theorem eqSetCommit_repeat (h : eqRepeats ws s) : eqSetCommit ws k s = s := by
  obtain ⟨hst, hsame⟩ := h
  simp [eqSetCommit, hon, hst, hsame]

theorem eqSetCheck_noTrib (hnew : ¬ eqRepeats ws s) (hsize : taSize s false (pf ws 1 17 0) k = 0) : eqSetCheck ws k s = some .badParam := by
  have hchange : ¬ (!pb ws 0 13 || ((eqBind s (pf ws 0 12 0)).st != 0 && eqSame (eqBind s (pf ws 0 12 0)) ws)) = true := by
    simpa [hon, eqRepeats] using hnew
  exact (if_neg hchange).trans (if_pos (by simp [hsize]))

variable (hst : (eqBind s (pf ws 0 12 0)).st = 0)
include hst

omit hon hst in
/-- A check that refuses, with another behind it. -/
theorem refused_of_later {c : Prop} [Decidable c] {st : Status} {o : Option Status} (h : o ≠ none) : (if c then some st else o) ≠ none := by
  split
  · exact Option.some_ne_none st
  · exact h

/-- An enable that passes the checks has units enough: too few are the last of them. -/
theorem units_of_eqSetCheck_none (h : eqSetCheck ws k s = none) :
    unitsFor (taSize s false (pf ws 1 17 0) k) (pf ws 1 24 18) ≤ freeUnits s k := by
  by_contra hless
  have hbusy : (decide ((eqBind s (pf ws 0 12 0)).st = 0) && decide (freeUnits s k < unitsFor (taSize s false (pf ws 1 17 0) k) (pf ws 1 24 18))) = true := by
    simpa [hst] using hless
  have hchange : ¬ (!pb ws 0 13 || ((eqBind s (pf ws 0 12 0)).st != 0 && eqSame (eqBind s (pf ws 0 12 0)) ws)) = true := by
    simp [hon, hst]
  have hlast : (if (decide ((eqBind s (pf ws 0 12 0)).st = 0) && decide (freeUnits s k < unitsFor (taSize s false (pf ws 1 17 0) k) (pf ws 1 24 18))) = true
      then some Status.busy else none) ≠ none := by rw [if_pos hbusy]; exact Option.some_ne_none _
  refine absurd ((if_neg hchange).symm.trans h) ?_
  iterate 6 refine refused_of_later ?_
  exact hlast

/-- An enable in pair mode begins to measure (06 R175). -/
theorem eqSetCommit_pair (hpair : pb ws 0 14 = true) : eqSetCommit ws k s =
    storeFrom (pf ws 1 17 0) k (eqCommit (pf ws 0 12 0) k { eqFresh (eqBind s (pf ws 0 12 0)) with
      st := 2, ta := pf ws 1 17 0, depth := pf ws 1 24 18, s := 0, taRef := pf ws 2 17 0, refDelay := pf ws 2 24 18, matchN := pf ws 2 31 25, c0 := k,
      units := unitsFor (taSize s false (pf ws 1 17 0) k) (pf ws 1 24 18) } s) := by
  simp [eqSetCommit, hon, hst, hpair]

/-- An enable in fixed mode has its delay at once (06 R174). -/
theorem eqSetCommit_fixed (hfixed : pb ws 0 14 = false) : eqSetCommit ws k s =
    let s1 := storeFrom (pf ws 1 17 0) k (eqCommit (pf ws 0 12 0) k { eqFresh (eqBind s (pf ws 0 12 0)) with
      st := 1, ta := pf ws 1 17 0, depth := pf ws 1 24 18, s := pf ws 2 6 0, taRef := noTa,
      units := unitsFor (taSize s false (pf ws 1 17 0) k) (pf ws 1 24 18) } s)
    if delayE s (pf ws 1 17 0) k = pf ws 2 6 0 then s1 else putE (pf ws 1 17 0) k (pf ws 2 6 0) s1 := by
  simp [eqSetCommit, hon, hst, hfixed, eqFresh, eqReset]

end EqSet

section EqPort
variable {j : Job} {s0 s1 s : State}
variable (hturn : PortTurn j s0 s1) (hw : j.work = .port) (hc : j.cls = 5) (hs : s = jrnl 2 j.ring j.tag s1)
include hturn hw hc hs

theorem exec_eqSet_accepted (h : eqSetCheck j.params (effTick s) s = none) : exec .updatePortCommit s0 =
    .next (protSync (endJob j.ring .ok (effWords (eqSetCommit j.params (effTick s) s) (effTick s)) (eqSetCommit j.params (effTick s) s))) := by
  have hcommit : cmdCommit j (effTick s) s = .ok [] (eqSetCommit j.params (effTick s) s) := by rw [cmdCommit_conn hc, h]; rfl
  have hreply := exec_updatePortCommit_ok hturn hw (by omega) hs hcommit
  rwa [List.nil_append] at hreply

theorem exec_eqSet_refused {st : Status} (h : eqSetCheck j.params (effTick s) s = some st) :
    exec .updatePortCommit s0 = .next (protSync (endJob j.ring st [] s)) := by
  have hcommit : cmdCommit j (effTick s) s = .refuse st [] := by rw [cmdCommit_conn hc, h]; rfl
  exact exec_updatePortCommit_refuse hturn hw (by omega) hs hcommit

end EqPort

/-! ## Settings by cycle (01 R24; 02 R53) -/

section EqVersions
variable {b k n : Nat} {x : EqBind} {s : State}

/-- Letting go of settings before those in force changes nothing in force. -/
theorem find_eqKeep : ∀ l : List EqBind, (eqKeep n l).find? (fun x => decide (x.from_ ≤ n)) = l.find? (fun x => decide (x.from_ ≤ n))
  | [] => rfl
  | x :: l => by
    by_cases hx : x.from_ ≤ n
    · simp [eqKeep, hx]
    · simp [eqKeep, hx, find_eqKeep l]

/-- Settings for a later cycle are not those in force. -/
theorem find_filter_later (h : n < k) (l : List EqBind) :
    (l.filter (fun y => decide (y.from_ ≠ k))).find? (fun x => decide (x.from_ ≤ n)) = l.find? (fun x => decide (x.from_ ≤ n)) := by
  rw [List.find?_filter]
  congr 1
  funext y
  by_cases hy : y.from_ ≤ n
  · have hne : y.from_ ≠ k := by omega
    simp [hy, hne]
  · simp [hy]

variable (heq : tblWf eqReset 0 s.conn.eq = true) (hold : tblWf noEq 0 s.conn.eqOld = true)
include heq

theorem eqBind_eqCommit : eqBind (eqCommit b k x s) b = { x with from_ := k } :=
  (tget_tset heq b).trans (if_pos rfl)

include hold

theorem eqAll_eqCommit : eqAll (eqCommit b k x s) b =
    { x with from_ := k } :: (eqKeep (curCycle s) (eqAll s b)).filter (fun y => decide (y.from_ ≠ k)) := by
  rw [eqAll, eqBind_eqCommit heq]
  exact congrArg _ ((tget_tset hold b).trans (if_pos rfl))

/-- The settings in force govern until the cycle of those committed. -/
theorem eqForce_eqCommit (hk : curCycle s < k) : eqForce (eqCommit b k x s) b = eqForce s b := by
  have hcur : curCycle (eqCommit b k x s) = curCycle s := rfl
  rw [eqForce, eqForce, eqAll_eqCommit heq hold, hcur, List.find?_cons_of_neg (by simpa using hk), find_filter_later hk, find_eqKeep]

end EqVersions

/-! ## CONN_EQ_LOCKED and CONN_EQ_LOST (06 R175, R176) -/

section EqRows
variable {b k : Nat} {s : State}

theorem eqLocked_notFound (h : (eqForce s b).st ≠ 2 ∨ (eqForce s b).lockAt = none) : eqLocked b s = s := by
  unfold eqLocked
  dsimp only
  split
  case h_1 hst hlock => exact absurd h (by simp [hst, hlock])
  case h_2 => rfl

theorem eqLocked_superseded {t : Nat} (hlock : (eqForce s b).lockAt = some k) (hunt : eqUntil s b = some t) (ht : t ≤ k) :
    eqLocked b s = s := by
  unfold eqLocked
  dsimp only
  rw [hlock, hunt]
  split
  case h_1 hk =>
    cases hk
    exact if_pos (by simpa using ht)
  case h_2 => rfl

theorem eqLocked_locks (hst : (eqForce s b).st = 2) (hlock : (eqForce s b).lockAt = some k) (hunt : ∀ t, eqUntil s b = some t → k < t) :
    eqLocked b s =
      let x := eqForce s b
      let v := ((x.refDelay : Int) + x.omega).toNat
      pulse 0x05 0x12 b (wd ((wdI x.omega).toNat % 256 + 256 * v)) false (putE x.ta k v (setForce b { x with
        st := 3, s := v, lockAt := none, fails := 0, ambigRaised := false, rangeRaised := false, fcLock := (fcOf s k).1, cycLock := (fcOf s k).2 } s)) := by
  have hgo : ¬ (match eqUntil s b with | some t => decide (t ≤ k) | none => false) = true := by
    cases hu : eqUntil s b with
    | none => simp
    | some t => simpa using hunt t hu
  unfold eqLocked
  dsimp only
  rw [hlock, hst]
  exact if_neg hgo

theorem exec_connEqLocked (hb : b < 8192) (hrun : running s = true) : exec (.connEqLocked b) s = .next (protSync (eqLocked b s)) :=
  (if_pos hb).trans (congrArg _ (if_pos hrun))

theorem exec_connEqLost (hb : b < 8192) (hrun : running s = true) : exec (.connEqLost b) s = .next
    (if (eqForce s b).st = 3 && decide ((eqForce s b).matchN ≤ (eqForce s b).fails) then
      pulse 0x05 0x15 b 0 false (eqHist b 4 (setForce b { eqForce s b with st := 4 } s)) else s) :=
  (if_pos hb).trans (congrArg _ (if_pos hrun))

end EqRows

/-- Settles O35: at the port `eqSetCheck` and `eqSetCommit` in the cases of R177; a commit keeps what is in force; the two rows by
the binding's state. -/
theorem eqCommands : Obligations.EqCommands := by
  refine ⟨fun p s s1 hp => runCommand_wait hp rfl, fun p s s1 hp => runCommand_reply hp rfl, fun j s0 s1 hturn hw hc => ?port,
    fun b k x s heq hold hk => ⟨eqBind_eqCommit heq, eqForce_eqCommit heq hold hk⟩, fun b s hb hrun => ?rows⟩
  case port =>
    intro s k ws b x ta depth on same ok no
    have haccept (h : eqSetCheck ws k s = none) : exec .updatePortCommit s0 = ok (eqSetCommit ws k s) :=
      exec_eqSet_accepted hturn hw hc rfl h
    have hrefuse {st : Status} (h : eqSetCheck ws k s = some st) : exec .updatePortCommit s0 = no st :=
      exec_eqSet_refused hturn hw hc rfl h
    refine ⟨fun hoff => ?_, fun hon hsame => ?_, fun hon hnew hsize => hrefuse (eqSetCheck_noTrib hon hnew hsize),
      fun hon st hno => hrefuse hno, fun hon hnew hst hpair hok => ⟨units_of_eqSetCheck_none hon hst hok, ?_⟩,
      fun hon hnew hst hfixed hok => ?_⟩
    · rw [haccept (eqSetCheck_disable hoff), eqSetCommit_disable hoff]
    · rw [haccept (eqSetCheck_repeat hsame), eqSetCommit_repeat hon hsame]
    · rw [haccept hok, eqSetCommit_pair hon hst hpair]
    · rw [haccept hok, eqSetCommit_fixed hon hst hfixed]
  case rows =>
    refine ⟨fun k hst hlock hunt => ?_, fun k t hst hlock hunt ht => ?_, fun hno => ?_, fun hst hfails => ?_, fun hno => ?_⟩
    · rw [exec_connEqLocked hb hrun, eqLocked_locks hst hlock hunt]
    · rw [exec_connEqLocked hb hrun, eqLocked_superseded hlock hunt ht]
    · rw [exec_connEqLocked hb hrun, eqLocked_notFound hno]
    · rw [exec_connEqLost hb hrun, if_pos (by simp [hst, hfails])]
    · have hkeeps : ¬ ((eqForce s b).st = 3 && decide ((eqForce s b).matchN ≤ (eqForce s b).fails)) = true := by
        simp only [Bool.and_eq_true, decide_eq_true_eq]
        omega
      rw [exec_connEqLost hb hrun, if_neg hkeeps]

end Sys2Proof.Machine


/-! PROOFS. Memory tests (13_window_memory_and_matrix.md R358 to R363, R369; 06_switching_core.md R164): borrowed stripes, the marches of a
test and their repairs. -/

namespace Sys2Proof.Machine

/-! ## Repairs (13 R358, R359) -/

section Repair
variable {st kind x loc : Nat} {rows cols : List Nat} {s t : State} {ok : Bool}

theorem startRepair_runs (h : (st, kind, x) ∈ s.mem.mirror) : startRepair st kind x s = (true, s) := by
  simp [startRepair, h]

theorem startRepair_begins (h : (st, kind, x) ∉ s.mem.mirror) (hleft : sparesLeft st kind s = true) :
    startRepair st kind x s = (true, { s with mem := { s.mem with mirror := s.mem.mirror ++ [(st, kind, x)] } }) := by
  simp [startRepair, h, hleft]

theorem startRepair_fails (h : (st, kind, x) ∉ s.mem.mirror) (hleft : sparesLeft st kind s = false) :
    startRepair st kind x s = (false, raise 0x0A 0x03 st (wd (kind % 4 + 4 * x)) false (memHist 1 s)) := by
  simp [startRepair, h, hleft]

/-- A march finds one more fault: it counts with those repaired, or with those left. -/
def marchFault (st : Nat) (u : (Nat × Nat) × State) (f : Nat × Nat) : (Nat × Nat) × State :=
  (if (startRepair st f.1 f.2 u.2).1 then (u.1.1 + 1, u.1.2) else (u.1.1, u.1.2 + 1), (startRepair st f.1 f.2 u.2).2)

theorem marchFaults_eq : marchFaults st rows cols s =
    (rows.map (fun x => (0, x)) ++ cols.map (fun x => (1, x))).foldl (marchFault st) ((0, 0), s) := rfl

theorem marchFault_eq {u : (Nat × Nat) × State} (h : startRepair st kind x u.2 = (ok, t)) :
    marchFault st u (kind, x) = ((u.1.1 + (if ok then 1 else 0), u.1.2 + (if ok then 0 else 1)), t) := by
  cases ok <;> simp [marchFault, h]

theorem marchFaults_column (h : startRepair st 1 x (marchFaults st rows cols s).2 = (ok, t)) : marchFaults st rows (cols ++ [x]) s =
    (((marchFaults st rows cols s).1.1 + (if ok then 1 else 0), (marchFaults st rows cols s).1.2 + (if ok then 0 else 1)), t) := by
  rw [← marchFault_eq h, marchFaults_eq, List.map_append, ← List.append_assoc, List.foldl_append]
  rfl

theorem marchFaults_row (h : startRepair st 0 x (marchFaults st rows [] s).2 = (ok, t)) : marchFaults st (rows ++ [x]) [] s =
    (((marchFaults st rows [] s).1.1 + (if ok then 1 else 0), (marchFaults st rows [] s).1.2 + (if ok then 0 else 1)), t) := by
  rw [← marchFault_eq h, marchFaults_eq, marchFaults_eq, List.map_append, List.map_nil, List.append_nil, List.append_nil, List.foldl_append]
  rfl

theorem exec_memRepair_borrowed {b : Borrow} (hb : s.mem.borrow = some b) (h : b.store = st) : exec (.memRepair st kind loc) s = .next s := by
  change execMemRepair st kind loc s = _
  simp [execMemRepair, hb, h]

theorem exec_memRepair (h : ∀ b, s.mem.borrow = some b → b.store ≠ st) : exec (.memRepair st kind loc) s = .next (memRepair st kind loc s) := by
  change execMemRepair st kind loc s = _
  cases hb : s.mem.borrow with
  | none => simp [execMemRepair, hb]
  | some b => simp [execMemRepair, hb, h b hb]

theorem memRepair_ends (h : startRepair st (kind % 4) loc s = (true, t)) : memRepair st kind loc s =
    raise 0x0A 0x02 st (wd (kind % 4 + 4 * loc)) false
      { t with mem := { t.mem with mirror := t.mem.mirror.erase (st, kind % 4, loc), repairs := t.mem.repairs ++ [(st, kind % 4, loc)] } } := by
  simp [memRepair, h]

theorem memRepair_none (h : startRepair st (kind % 4) loc s = (false, t)) : memRepair st kind loc s = t := by
  simp [memRepair, h]

end Repair

/-! ## Stripes that are out (13 R361; 06 R164) -/

section Borrowed
variable {s : State} {b : Borrow} {l x n : Nat} {rows cols : List Nat}

theorem borrowDrop_none (h : s.mem.borrow = none) : borrowDrop s = s := by
  have hsame : ({ s with mem := { s.mem with borrow := s.mem.borrow } } : State) = s := rfl
  rw [h] at hsame
  simpa only [borrowDrop, h] using hsame

theorem borrowDrop_stripe (h : s.mem.borrow = some b) (hb : b.block = none) : borrowDrop s = { s with mem := { s.mem with borrow := none } } := by
  obtain ⟨⟩ := b
  cases hb
  simp only [borrowDrop, h]

theorem borrowDrop_block (h : s.mem.borrow = some b) (hb : b.block = some (l, x)) : borrowDrop s =
    (if b.phase = 0 then poolGive x else borrowReturn b.stripe l false) { s with mem := { s.mem with borrow := none } } := by
  obtain ⟨⟩ := b
  cases hb
  simp only [borrowDrop, h]
  split <;> rfl

theorem borrowCut_serves (h : tget blockReset s.conn.blocks l % 4096 = n) :
    borrowCut n l x s = { s with conn := { s.conn with blocks := tset blockReset l x s.conn.blocks } } := if_pos h

theorem borrowCut_moved (h : tget blockReset s.conn.blocks l % 4096 ≠ n) : borrowCut n l x s =
    poolGive x { s with mem := { s.mem with borrow := s.mem.borrow.map (fun y => { y with block := none }) } } := if_neg h

/-- No stripe is out, or no test runs: nothing is returned. -/
theorem exec_stripeReturned_idle (h : s.mem.borrow = none ∨ running s = false) : exec (.stripeReturned rows cols) s = .next s := by
  change execStripeReturned rows cols s = _
  unfold execStripeReturned
  split
  case h_1 hb => exact if_pos (by simp [h.resolve_left (by simp [hb])])
  case h_2 => rfl

variable (hb : s.mem.borrow = some b)
include hb

/-- A block waits for the cycle boundary. -/
theorem exec_stripeReturned_early (hphase : b.phase = 0) (hblock : b.block ≠ none) (hns : nsOf s.clk ≠ 0) :
    exec (.stripeReturned rows cols) s = .next s := by
  have hearly : (!running s || (b.phase = 0 && b.block.isSome && nsOf s.clk ≠ 0)) = true := by
    simp [hphase, hns, Option.isSome_iff_ne_none.mpr hblock]
  change execStripeReturned rows cols s = _
  simp only [execStripeReturned, hb]
  exact if_pos hearly

theorem exec_stripeReturned (hrun : running s = true) (h : b.phase ≠ 0 ∨ b.block = none ∨ nsOf s.clk = 0) :
    exec (.stripeReturned rows cols) s = .next (stripeReturned rows cols b s) := by
  have htime : ¬ (!running s || (b.phase = 0 && b.block.isSome && nsOf s.clk ≠ 0)) = true := by
    rcases h with h | h | h <;> simp [hrun, h]
  change execStripeReturned rows cols s = _
  simp only [execStripeReturned, hb]
  exact if_neg htime

omit hb in
theorem stripeReturned_copiedIn (hphase : b.phase = 0) (hblock : b.block = none) :
    stripeReturned rows cols b s = { s with mem := { s.mem with borrow := some { b with phase := 1 } } } := by
  simp [stripeReturned, hphase, hblock]

omit hb in
theorem stripeReturned_blockCopiedIn (hphase : b.phase = 0) (hblock : b.block = some (l, x)) : stripeReturned rows cols b s =
    borrowCut b.stripe l x { s with mem := { s.mem with borrow := some { b with phase := 1 } } } := by
  simp [stripeReturned, hphase, hblock]

end Borrowed

/-- The job is an on-request memory test. -/
def isMemTest (j : Job) : Bool := match j.work with | .memTest .. => true | _ => false

section CopyBack
variable {s t : State} {b : Borrow} {rows cols : List Nat} {f : Nat × Nat}

/-- A stripe that returns after its march, with the block that it stood for. -/
def afterMarch (b : Borrow) (left : Nat) (t : State) : State :=
  match b.block with
  | some (l, _) => borrowReturn b.stripe l (decide (0 < left)) t
  | none => t

variable (hphase : b.phase ≠ 0) (hmarch : marchFaults b.store rows cols { s with mem := { s.mem with borrow := none } } = (f, t))
include hphase hmarch

theorem stripeReturned_background (hreq : b.onReq = false) : stripeReturned rows cols b s = fenceDone (afterMarch b f.2 t) := by
  simp only [stripeReturned, hphase, hmarch, hreq, if_false]
  rfl

theorem stripeReturned_onRequest {j : Job} {n l dn rp un sk : Nat} (hreq : b.onReq = true)
    (hj : findJob (afterMarch b f.2 t) isMemTest = some j) (hw : j.work = .memTest n l dn rp un sk) :
    stripeReturned rows cols b s = fenceDone (testTake j n l (dn + 1) (rp + f.1) (un + f.2) sk (afterMarch b f.2 t)) := by
  have hnext : stripeReturned rows cols b s = fenceDone (match findJob (afterMarch b f.2 t) isMemTest with
      | some j => match j.work with
        | .memTest next more dn rep unrep skip => testTake j next more (dn + 1) (rep + f.1) (unrep + f.2) skip (afterMarch b f.2 t)
        | _ => afterMarch b f.2 t
      | none => afterMarch b f.2 t) := by
    simp only [stripeReturned, hphase, hmarch, hreq, if_false, if_true]
    rfl
  rw [hnext, hj]
  simp only [hw]

end CopyBack

/-! ## The stripes that a test takes (13 R362, R363, R369) -/

section Take
variable {s : State} {st n k l x : Nat} {onReq : Bool}

theorem liveBlock_skipped (h : liveBlock s n = some l) : skipStripe 3 n s = true ↔ poolFree s < 2 ∨ ∃ w, swapOf s 7 = some w ∧ w.unit = l := by
  cases hw : swapOf s 7 <;> simp [skipStripe, h, hw]

/-- A fence's stripe is skipped, and a live block while too few spares are free or a swap of the block runs. -/
theorem skipStripe_iff : skipStripe st n s = true ↔ (st = 0 ∧ fenced s n = true) ∨
    (st = 3 ∧ ∃ l, liveBlock s n = some l ∧ (poolFree s < 2 ∨ ∃ w, swapOf s 7 = some w ∧ w.unit = l)) := by
  by_cases h3 : st = 3
  · subst h3
    cases hl : liveBlock s n with
    | none => simp [skipStripe, hl]
    | some l => simp [liveBlock_skipped hl]
  · simp [skipStripe, h3]

/-- A stripe that no live block holds is borrowed alone. -/
theorem borrow_stripe (h : st ≠ 3 ∨ liveBlock s n = none) :
    borrow st n onReq s = { s with mem := { s.mem with borrow := some { store := st, stripe := n, onReq, phase := 0, block := none } } } := by
  rcases h with h | h <;> simp [borrow, h]

/-- A live block is mirrored into the spare that the pool gives. -/
theorem borrow_block (hl : liveBlock s n = some l) (hx : pickSpare 7 0 s = some x) : borrow 3 n onReq s =
    { poolTake s with mem := { (poolTake s).mem with borrow := some { store := 3, stripe := n, onReq, phase := 0, block := some (l, x) } } } := by
  simp [borrow, hl, hx]

@[simp] theorem poolTake_clk (s : State) : (poolTake s).clk = s.clk := by
  unfold poolTake
  split
  · split <;> rfl
  · rfl

@[simp] theorem poolTake_mem (s : State) : (poolTake s).mem = s.mem := by
  unfold poolTake
  split
  · split <;> rfl
  · rfl

variable {j : Job} {dn rp un sk m : Nat}

theorem testTake_none (h : nextStripe (pf j.params 0 3 0) s n l = (none, k)) : testTake j n l dn rp un sk s =
    setJob j.ring (some { j with work := .memTest n 0 dn rp un (sk + l) }) { s with mem := { s.mem with borrow := none } } := by
  simp [testTake, h]

theorem testTake_some (h : nextStripe (pf j.params 0 3 0) s n l = (some m, k)) : testTake j n l dn rp un sk s =
    setJob j.ring (some { j with work := .memTest (m + 1) (l - k - 1) dn rp un (sk + k) }) (borrow (pf j.params 0 3 0) m true s) := by
  simp [testTake, h]

end Take

/-! ## BACKGROUND_TEST_STRIPE (13 R360, R363) -/

section Background
variable {s : State}

/-- The next stripe of background testing is due (13 R363; log 14). -/
def stripeDue (s : State) : Prop := (if s.mem.bgStore = 3 then 5 else 1) * 1000000000 ≤ (s.clk.now - s.mem.bgAt) * s.mem.rate

theorem bgDue_iff : bgDue s = true ↔ running s = true ∧ s.mem.rate ≠ 0 ∧ s.mem.borrow = none ∧ onRequest s = false ∧ stripeDue s := by
  simp only [bgDue, stripeDue, Bool.and_eq_true, decide_eq_true_eq, Option.isNone_iff_eq_none, Bool.not_eq_true', and_assoc]

theorem exec_backgroundTestStripe_notDue (h : ¬ bgDue s = true) : exec .backgroundTestStripe s = .next s := if_neg h

variable (hdue : bgDue s = true)
include hdue

theorem exec_backgroundTestStripe_skips (h : skipStripe s.mem.bgStore s.mem.bgNext s = true) : exec .backgroundTestStripe s =
    .next (bgWrap { s with mem := { s.mem with borrow := none, bgNext := s.mem.bgNext + 1, bgAt := s.clk.now } }) := by
  refine (if_pos hdue).trans ?_
  simp only [bgStripe, h, if_true]

theorem exec_backgroundTestStripe_borrows (h : ¬ skipStripe s.mem.bgStore s.mem.bgNext s = true) {t : State} {b : Borrow}
    (hb : borrow s.mem.bgStore s.mem.bgNext false s = { t with mem := { t.mem with borrow := some b } }) (hclk : t.clk = s.clk) :
    exec .backgroundTestStripe s =
      .next (bgWrap { t with mem := { t.mem with borrow := some b, bgNext := s.mem.bgNext + 1, bgAt := s.clk.now } }) := by
  refine (if_pos hdue).trans ?_
  simp only [bgStripe, h, hb, hclk]
  rfl

end Background

/-! ## Memory commands at their decode (13 R362, R369) -/

section MemBodies
variable {p : Packet} {s : State} {first cnt : Nat}

theorem destructiveBlocked_iff : destructiveBlocked first cnt s = true ↔
    (∃ r < 6, (ring s r).en = true ∧ (ring s r).base < (first + cnt) * 4096 ∧ first * 4096 < (ring s r).base + slots (ring s r) * (if r = 5 then 16 else 64)) ∨
    (∃ k < 16, (fence s k).en = true ∧ (fence s k).first < first + cnt ∧ first ≤ (fence s k).last) := by
  simp only [destructiveBlocked, Bool.or_eq_true, List.any_eq_true, List.mem_range, Bool.and_eq_true, decide_eq_true_eq, and_assoc]

theorem bodyMemTestStart_rate (h : pf p.params 0 5 4 = 2) :
    bodyMemTestStart p s = .reply .ok [0, 0, 0] { s with mem := { s.mem with rate := pf p.params 1 16 0 } } := if_pos h

variable (hkind : pf p.params 0 5 4 ≠ 2)
include hkind

theorem bodyMemTestStart_busy (h : onRequest s = true) : bodyMemTestStart p s = refuse .busy s :=
  (if_neg hkind).trans (if_pos h)

variable (hfree : onRequest s = false)
include hfree

theorem bodyMemTestStart_blocked (h1 : pf p.params 0 5 4 = 1) (h0 : pf p.params 0 3 0 = 0)
    (h : destructiveBlocked (pf p.params 1 16 0) (pf p.params 2 16 0) s = true) : bodyMemTestStart p s = refuse .badParam s :=
  (if_neg hkind).trans ((if_neg (by simp [hfree])).trans (if_pos (by simp [h1, h0, h])))

theorem bodyMemTestStart_runs (h : pf p.params 0 5 4 = 1 → pf p.params 0 3 0 = 0 →
      destructiveBlocked (pf p.params 1 16 0) (pf p.params 2 16 0) s = false) : bodyMemTestStart p s =
    .wait (.memTest (pf p.params 1 16 0) (pf p.params 2 16 0) 0 0 0 0) [] [] (let t := fenceDone (borrowDrop s)
      if pf p.params 0 5 4 = 1 ∧ pf p.params 0 3 0 = 0 then { t with mem := { t.mem with testing := some (pf p.params 1 16 0, pf p.params 2 16 0) } }
      else t) := by
  have hopen : ¬ (decide (pf p.params 0 5 4 = 1) && pf p.params 0 3 0 == 0 && destructiveBlocked (pf p.params 1 16 0) (pf p.params 2 16 0) s) = true := by
    simpa using h
  refine (if_neg hkind).trans ((if_neg (by simp [hfree])).trans ((if_neg hopen).trans ?_))
  simp only [Bool.and_eq_true, decide_eq_true_eq, beq_iff_eq]

end MemBodies

section Fences
variable {p : Packet} {s : State}

/-- The fence that a `MEM_FENCE_SET` sets. -/
def fenceOf (ws : List Word) : Fence := { en := pb ws 0 4, first := pf ws 1 22 12, last := pf ws 2 22 12 }

/-- The state with that fence. -/
def fenceSet (ws : List Word) (s : State) : State :=
  { s with mem := { s.mem with fences := tset fenceReset (pf ws 0 3 0) (fenceOf ws) s.mem.fences } }

/-- The fence covers a borrowed stripe of the Window Memory. -/
def fenceCovers (ws : List Word) (b : Borrow) : Prop :=
  b.store = 0 ∧ (fenceOf ws).en = true ∧ (fenceOf ws).first ≤ b.stripe ∧ b.stripe ≤ (fenceOf ws).last

theorem bodyMemFenceSet_fixed (h : pf p.params 0 3 0 = 0) : bodyMemFenceSet p s = refuse .notInMode s := if_pos h

variable (hk : pf p.params 0 3 0 ≠ 0)
include hk

theorem bodyMemFenceSet_waits {b : Borrow} (hb : s.mem.borrow = some b) (h : fenceCovers p.params b) :
    bodyMemFenceSet p s = .wait .fenceWait [] [] (fenceSet p.params s) := by
  obtain ⟨h0, hen, hfirst, hlast⟩ := h
  refine (if_neg hk).trans (if_pos ?_)
  rw [hb]
  simp only [fenceOf] at hen hfirst hlast
  simp [h0, hen, hfirst, hlast]

theorem bodyMemFenceSet_done (h : ∀ b, s.mem.borrow = some b → ¬ fenceCovers p.params b) :
    bodyMemFenceSet p s = done (fenceSet p.params s) := by
  refine (if_neg hk).trans (if_neg ?_)
  cases hb : s.mem.borrow with
  | none => simp
  | some b => simpa [fenceCovers, fenceOf, and_assoc] using h b hb

end Fences

/-! ## MEM_TEST_COMPLETE (13 R369) -/

section Complete
variable {rows cols : List Nat} {j : Job} {s t : State} {n l dn rp un sk : Nat} {f : Nat × Nat}

theorem exec_memTestComplete_idle (h : onRequest s = false ∨ running s = false) : exec (.memTestComplete rows cols) s = .next s := by
  change execMemTestComplete rows cols s = _
  unfold execMemTestComplete
  rcases h with h | h
  · rw [Option.not_isSome_iff_eq_none.mp (Bool.eq_false_iff.mp h)]
    split <;> rfl
  · exact if_pos (by simp [h])

variable (hrun : running s = true) (hj : findJob s isMemTest = some j) (hw : j.work = .memTest n l dn rp un sk)
include hrun hj hw

theorem exec_memTestComplete : exec (.memTestComplete rows cols) s =
    if pf j.params 0 5 4 = 1 then
      .next (memTestEnd j l dn (marchFaults (pf j.params 0 3 0) rows cols s).1.1 (marchFaults (pf j.params 0 3 0) rows cols s).1.2 sk
        (marchFaults (pf j.params 0 3 0) rows cols s).2)
    else if s.mem.borrow.isSome then .next s
    else if l = 0 then .next (memTestEnd j 0 dn rp un sk s)
    else .next (testTake j n l dn rp un sk s) := by
  change execMemTestComplete rows cols s = _
  have hgo : execMemTestComplete rows cols s = (match findJob s isMemTest with
      | none => .next s
      | some j => match j.work with
        | .memTest next left dn rep unrep skip =>
          if pf j.params 0 5 4 = 1 then
            .next (memTestEnd j left dn (marchFaults (pf j.params 0 3 0) rows cols s).1.1 (marchFaults (pf j.params 0 3 0) rows cols s).1.2 skip
              (marchFaults (pf j.params 0 3 0) rows cols s).2)
          else if s.mem.borrow.isSome then .next s
          else if left = 0 then .next (memTestEnd j 0 dn rep unrep skip s)
          else .next (testTake j next left dn rep unrep skip s)
        | _ => .next s : Host.Outcome State Fault Refusal) := by
    unfold execMemTestComplete
    rw [hrun]
    rfl
  rw [hgo, hj]
  simp only [hw]

end Complete

section TestEnd
variable {j : Job} {l dn rp un sk : Nat} {s : State}

/-- The reply that ends a test. -/
def testReply (j : Job) (l dn rp un sk : Nat) (s : State) : State :=
  endJob j.ring .ok [wd (dn + l), wd (rp % 65536 + 65536 * (un % 65536)), wd sk] { s with mem := { s.mem with testing := none } }

theorem memTestEnd_keeps (h : pf j.params 0 5 4 ≠ 1 ∨ pf j.params 0 3 0 ≠ 0) : memTestEnd j l dn rp un sk s = testReply j l dn rp un sk s := by
  rcases h with h | h <;> simp [memTestEnd, testReply, h]

/-- A destructive test leaves its Window Memory range 0: bytes that are not listed. -/
theorem memTestEnd_clears (h1 : pf j.params 0 5 4 = 1) (h0 : pf j.params 0 3 0 = 0) : memTestEnd j l dn rp un sk s =
    testReply j l dn rp un sk { s with wm := s.wm.filter (fun c => !(decide (pf j.params 1 16 0 ≤ c.1 / 4096)
      && decide (c.1 / 4096 < pf j.params 1 16 0 + pf j.params 2 16 0))) } := by
  simp [memTestEnd, testReply, h1, h0]

end TestEnd

/-- Settles O51: each row by its body or its cases; what a march finds is repaired one fault after the other. -/
theorem memoryCommands : Obligations.MemoryCommands := by
  refine ⟨fun p s s1 hp => ?start, fun s => borrowDrop_none, fun s b => borrowDrop_stripe, fun s b l x => borrowDrop_block,
    fun first cnt s => destructiveBlocked_iff, fun p s s1 hp => runCommand_reply hp rfl, fun p s s1 hp => ?fence, fun s h => ?notDue,
    fun s hrun hrate hout hfree hdue => ?due, fun rows cols s => ⟨exec_stripeReturned_idle, fun b hrun hb hphase => ?copyIn,
      fun b f t hrun hb hphase hmarch => ?copyBack⟩, fun st s => rfl, fun st rows cols x s ok t => marchFaults_column,
    fun st rows x s ok t => marchFaults_row, fun st kind x s => ⟨startRepair_runs, startRepair_begins, startRepair_fails⟩,
    fun n l s => ⟨rfl, rfl⟩, fun j n l dn rp un sk s => ⟨fun k => testTake_none, fun m k => testTake_some⟩,
    fun rows cols s => exec_memTestComplete_idle, fun rows cols j s n l dn rp un sk hrun hj hw => ?complete,
    fun j l dn rp un sk s => ⟨memTestEnd_keeps, memTestEnd_clears⟩, fun st kind loc s hout => ?repair,
    fun st kind loc b s hb hst => exec_memRepair_borrowed hb hst⟩
  case start =>
    refine ⟨fun h => runCommand_reply hp (bodyMemTestStart_rate h), fun hkind hbusy => runCommand_reply hp (bodyMemTestStart_busy hkind hbusy),
      fun hkind hfree h1 h0 hno => runCommand_reply hp (bodyMemTestStart_blocked hkind hfree h1 h0 hno), fun hkind hfree hok => ?_⟩
    exact runCommand_wait hp (bodyMemTestStart_runs hkind hfree hok)
  case fence =>
    exact ⟨fun hk => runCommand_reply hp (bodyMemFenceSet_fixed hk), fun hk hb => runCommand_reply hp (bodyMemFenceSet_done hk hb),
      fun b hk hb hcov => runCommand_wait hp (bodyMemFenceSet_waits hk hb hcov)⟩
  case notDue =>
    refine exec_backgroundTestStripe_notDue fun hdue => ?_
    obtain ⟨hrun, hrate, hout, hfree, htime⟩ := bgDue_iff.mp hdue
    rcases h with h | h | h | h | h
    · simp [hrun] at h
    · exact hrate h
    · simp [hout] at h
    · simp [hfree] at h
    · exact absurd htime h.not_ge
  case due =>
    have hbg : bgDue s = true := bgDue_iff.mpr ⟨hrun, hrate, hout, hfree, hdue⟩
    intro skip out goes
    have hskip : skipStripe s.mem.bgStore s.mem.bgNext s = true ↔ skip := skipStripe_iff
    refine ⟨fun hno halone => ?_, fun l x hno h3 hl hx => ?_, fun h => exec_backgroundTestStripe_skips hbg (hskip.mpr h)⟩
    · exact exec_backgroundTestStripe_borrows hbg (mt hskip.mp hno) (borrow_stripe halone) rfl
    · have hb := borrow_block (onReq := false) hl hx
      rw [← h3] at hb
      exact exec_backgroundTestStripe_borrows hbg (mt hskip.mp hno) hb (poolTake_clk s)
  case copyIn =>
    refine ⟨fun hnone => ?_, fun hblock hns => exec_stripeReturned_early hb hphase hblock hns, fun l x hblock hns hserved => ?_,
      fun l x hblock hns hmoved => ?_⟩
    · rw [exec_stripeReturned hb hrun (.inr (.inl hnone)), stripeReturned_copiedIn hphase hnone]
    · rw [exec_stripeReturned hb hrun (.inr (.inr hns)), stripeReturned_blockCopiedIn hphase hblock]
      exact congrArg _ (borrowCut_serves hserved)
    · rw [exec_stripeReturned hb hrun (.inr (.inr hns)), stripeReturned_blockCopiedIn hphase hblock]
      exact congrArg _ (borrowCut_moved hmoved)
  case copyBack =>
    rw [exec_stripeReturned hb hrun (.inl hphase)]
    exact ⟨fun hreq => congrArg _ (stripeReturned_background hphase hmarch hreq),
      fun j n l dn rp un sk hreq hj hw => congrArg _ (stripeReturned_onRequest hphase hmarch hreq hj hw)⟩
  case complete =>
    rw [exec_memTestComplete hrun hj hw]
    refine ⟨fun f t h1 hmarch => ?_, fun h1 hout h0 => ?_, fun h1 hout h0 => ?_, fun h1 hout => ?_⟩
    · rw [if_pos h1, hmarch]
    · rw [if_neg h1, if_neg (by simp [hout]), if_pos h0]
    · rw [if_neg h1, if_neg (by simp [hout]), if_neg h0]
    · rw [if_neg h1, if_pos hout]
  case repair =>
    rw [exec_memRepair hout]
    exact ⟨fun u h => congrArg _ (memRepair_ends h), fun u h => congrArg _ (memRepair_none h)⟩

end Sys2Proof.Machine


/-! PROOFS. The Bus Matrix (13_window_memory_and_matrix.md R365 to R368): grants, locks and what each target serves. -/

namespace Sys2Proof.Machine

/-! ## Grants (13 R365, R366) -/

section Grants
variable {s : State} {t m : Nat} {reqs : List Burst} {b : Burst}

theorem lockAllows_iff : lockAllows s t m = true ↔ ∀ h, tget noLock s.mem.locks t = some h → m = h := by
  unfold lockAllows
  split
  case h_1 h hlock => simpa [hlock] using eq_comm
  case h_2 hlock => simp [hlock]

theorem lockAllows_false_iff : lockAllows s t m = false ↔ ∃ h, tget noLock s.mem.locks t = some h ∧ h ≠ m := by
  rw [← Bool.not_eq_true, lockAllows_iff]
  push Not
  simp only [ne_comm]

/-- The burst of master `m` that target `t` would serve. -/
def grantOf (s : State) (t : Nat) (reqs : List Burst) (m : Nat) : Option Burst :=
  if lockAllows s t m then reqs.find? (fun b => b.master == m) else none

theorem granted_eq : granted s t reqs = (priorities s).findSome? (grantOf s t reqs) := rfl

theorem grantOf_eq_some (h : grantOf s t reqs m = some b) : b ∈ reqs ∧ b.master = m ∧ lockAllows s t m = true := by
  unfold grantOf at h
  split at h
  case isTrue hlock => exact ⟨List.mem_of_find?_eq_some h, by simpa using List.find?_some h, hlock⟩
  case isFalse => cases h

/-- A master that is not served and has a burst is held off by a lock. -/
theorem grantOf_eq_none (h : grantOf s t reqs m = none) {x : Burst} (hx : x ∈ reqs) (hm : x.master = m) :
    ∃ h, tget noLock s.mem.locks t = some h ∧ h ≠ m := by
  unfold grantOf at h
  split at h
  case isTrue => exact absurd (List.find?_eq_none.mp h x hx) (by simp [hm])
  case isFalse hlock => exact lockAllows_false_iff.mp (Bool.eq_false_iff.mpr hlock)

theorem granted_first (h : granted s t reqs = some b) : ∃ before after, priorities s = before ++ b.master :: after ∧
    ∀ m ∈ before, ∀ x ∈ reqs, x.master = m → ∃ h, tget noLock s.mem.locks t = some h ∧ h ≠ m := by
  obtain ⟨before, m, after, hlist, hm, hbefore⟩ := List.findSome?_eq_some_iff.mp h
  obtain ⟨-, rfl, -⟩ := grantOf_eq_some hm
  exact ⟨before, after, hlist, fun m hmem x hx hxm => grantOf_eq_none (hbefore m hmem) hx hxm⟩

theorem granted_lock (h : granted s t reqs = some b) {k : Nat} (hlock : tget noLock s.mem.locks t = some k) : b.master = k := by
  obtain ⟨m, -, hm⟩ := List.exists_of_findSome?_eq_some h
  obtain ⟨-, rfl, hallows⟩ := grantOf_eq_some hm
  exact lockAllows_iff.mp hallows k hlock

theorem granted_none (h : granted s t reqs = none) (hm : m ∈ priorities s) {x : Burst} (hx : x ∈ reqs) (hxm : x.master = m) :
    ∃ h, tget noLock s.mem.locks t = some h ∧ h ≠ m :=
  grantOf_eq_none (List.findSome?_eq_none_iff.mp h m hm) hx hxm

/-! ## Locks (13 R365, R368) -/

/-- The lock of target `t` with its holder and the address of its word. -/
def lockPut (t : Nat) (h : Option Nat) (a : Nat) (s : State) : State :=
  { s with mem := { s.mem with locks := tset noLock t h s.mem.locks, lockAddr := tset zeroN t a s.mem.lockAddr } }

theorem burstLock_takes (hread : b.write = false) (hlock : b.lock = true) : burstLock t b s = lockPut t (some b.master) b.addr s := by
  simp [burstLock, lockPut, hread, hlock]

theorem burstLock_releases (hwrite : b.write = true) (hheld : (tget noLock s.mem.locks t).isSome = true)
    (hword : tget zeroN s.mem.lockAddr t = b.addr) : burstLock t b s = lockPut t none 0 s := by
  simp [burstLock, lockPut, hwrite, hheld, hword]

theorem burstLock_otherWrite (hwrite : b.write = true) (h : tget noLock s.mem.locks t = none ∨ tget zeroN s.mem.lockAddr t ≠ b.addr) :
    burstLock t b s = s := by
  rcases h with h | h <;> simp [burstLock, hwrite, h]

theorem burstLock_plainRead (hread : b.write = false) (hlock : b.lock = false) : burstLock t b s = s := by
  simp [burstLock, hread, hlock]

/-- The lock of target `t` that master `m` holds is released, with its event and the sticky bit. -/
def lockRelease (m t : Nat) (s : State) : State :=
  raise 0x0A 0x10 m (wd (t + 2 ^ 7)) false { s with mem := { s.mem with locks := tset noLock t none s.mem.locks, hist := s.mem.hist ||| 4 } }

theorem abandonLock_eq : abandonLock m t s = lockRelease m t s := rfl

theorem exec_matrixLockTimeout_held (ht : t < 8) (h : tget noLock s.mem.locks t = some m) :
    exec (.matrixLockTimeout t) s = .next (lockRelease m t { s with mem := { s.mem with errI := true } }) := by
  refine (if_neg ht.not_ge).trans ?_
  rw [h]
  rfl

theorem exec_matrixLockTimeout_free (ht : t < 8) (h : tget noLock s.mem.locks t = none) : exec (.matrixLockTimeout t) s = .next s := by
  refine (if_neg ht.not_ge).trans ?_
  rw [h]

/-- The writes of master `m` that wait for the update port are dropped (01 R25). -/
def dropWrites (m : Nat) (s : State) : State := { s with port := { s.port with waiting := s.port.waiting.filter (fun x => x.1 != m) } }

theorem masterReset_eq : masterReset m s =
    ((List.range 8).filter (fun t => decide (tget noLock s.mem.locks t = some m))).foldl (fun s t => lockRelease m t s) (dropWrites m s) := rfl

theorem masterReset_noLock (h : ∀ t < 8, tget noLock s.mem.locks t ≠ some m) : masterReset m s = dropWrites m s := by
  have hnone : (List.range 8).filter (fun t => decide (tget noLock s.mem.locks t = some m)) = [] := by simpa using h
  rw [masterReset_eq, hnone]
  rfl

theorem masterReset_oneLock (ht : t < 8) (h : tget noLock s.mem.locks t = some m)
    (hother : ∀ u < 8, u ≠ t → tget noLock s.mem.locks u ≠ some m) : masterReset m s = lockRelease m t (dropWrites m s) := by
  have hone : (List.range 8).filter (fun u => decide (tget noLock s.mem.locks u = some m)) = [t] := by
    have hcongr : (List.range 8).filter (fun u => decide (tget noLock s.mem.locks u = some m)) = (List.range 8).filter (fun u => u == t) := by
      refine List.filter_congr fun u hu => ?_
      by_cases hut : u = t
      · simp [hut, h]
      · simp [hut, hother u (List.mem_range.mp hu) hut]
    rw [hcongr, List.filter_beq, List.count_eq_one_of_mem List.nodup_range (List.mem_range.mpr ht)]
    rfl
  rw [masterReset_eq, hone]
  rfl

theorem foldl_lockRelease_clk (l : List Nat) : (l.foldl (fun s t => lockRelease m t s) s).clk = s.clk := by
  induction l generalizing s with
  | nil => rfl
  | cons t l ih => exact ih.trans (raise_clk ..)

theorem foldl_lockRelease_dev (l : List Nat) : (l.foldl (fun s t => lockRelease m t s) s).dev = s.dev := by
  induction l generalizing s with
  | nil => rfl
  | cons t l ih => exact ih.trans (raise_dev ..)

@[simp] theorem masterReset_clk : (masterReset m s).clk = s.clk := foldl_lockRelease_clk _

@[simp] theorem masterReset_dev : (masterReset m s).dev = s.dev := foldl_lockRelease_dev _

end Grants

/-! ## What a target serves (13 R365, R367, Table 13.5) -/

section Serve
variable {s : State} {t : Nat} {b : Burst}

theorem burstServe_refused (h : t = 8 ∨ t ∉ addresses b.master) : burstServe t b s = .next (burstError b s) := by
  refine if_pos ?_
  simpa using h

variable (h8 : t ≠ 8) (haddr : t ∈ addresses b.master)
include h8 haddr

/-- The address map lets the burst through. -/
theorem burst_mapped : ¬ (t = 8 || !(addresses b.master).contains t) = true := by simp [h8, haddr]

theorem burstServe_window (h0 : t = 0) (hok : burstOk 0 b = true) (hbreaks : hostBreaks none (some (burstAccess b)) (burstLock 0 b s) = false) :
    burstServe t b s = .next (doReadI (burstAccess b) none (doWriteI (burstAccess b) (burstLock 0 b s))) := by
  subst h0
  refine (if_neg (burst_mapped h8 haddr)).trans ?_
  exact windowServe_serves (accessWf_burstAccess hok) hbreaks

theorem burstServe_aperture (h2 : t = 2) : burstServe t b s =
    if b.write then .next (burstRead [] false (apertureServe (burstAperture b.master b.addr (burstBytes b) (2 * b.beats) (burstLock t b s))))
    else .next (burstRead ((List.range (2 * b.beats)).flatMap (fun i => leBytes 4 (apertureRead s (b.addr + 4 * i)).toNat)) false (burstLock t b s)) := by
  subst h2
  exact if_neg (burst_mapped h8 haddr)

theorem burstServe_counters (h3 : t = 3) : burstServe t b s =
    if b.write then .next (burstRead [] false (burstLock t b s))
    else .next (burstRead ((List.range b.beats).flatMap (fun i => counterBytes (counter s ((b.addr - 0x08000000) / 8 + i)))) false (burstLock t b s)) := by
  subst h3
  exact if_neg (burst_mapped h8 haddr)

/-- Key bytes read 0 but to M4 and the active processor. -/
theorem burstServe_keys (h4 : t = 4) : burstServe t b s =
    if b.write then .next (burstRead [] false (burstLock t b s))
    else if b.master = 4 || (priorities s)[1]? == some b.master then
      .next (burstRead (freeBytes 0x13674 (8 * b.beats) (burstLock t b s)).1 false (freeBytes 0x13674 (8 * b.beats) (burstLock t b s)).2)
    else .next (burstRead (List.replicate (8 * b.beats) 0) false (burstLock t b s)) := by
  subst h4
  exact if_neg (burst_mapped h8 haddr)

theorem burstServe_page (h7 : t = 7) : burstServe t b s =
    if b.write then .next (burstRead [] false (burstPage (b.addr - 0x0F000000) (burstBytes b) (2 * b.beats) (burstLock t b s)))
    else .next (burstRead (burstPageRead (b.addr - 0x0F000000) (2 * b.beats) (burstLock t b s)).1 false
      (burstPageRead (b.addr - 0x0F000000) (2 * b.beats) (burstLock t b s)).2) := by
  subst h7
  exact if_neg (burst_mapped h8 haddr)

/-- The targets whose writes have their effect in the command rows (logs 47, 52), and whose reads give free bytes. -/
theorem burstServe_services (ht : t = 1 ∨ t = 5 ∨ t = 6) : burstServe t b s =
    if b.write then .next (burstRead [] false (burstLock t b s))
    else .next (burstRead (freeBytes (0x13670 + t) (8 * b.beats) (burstLock t b s)).1 false
      (freeBytes (0x13670 + t) (8 * b.beats) (burstLock t b s)).2) := by
  rcases ht with rfl | rfl | rfl <;> exact if_neg (burst_mapped h8 haddr)

/-- A write to a target that takes none leaves the lock's change alone. -/
theorem burstServe_write (ht : t ∈ [1, 3, 4, 5, 6]) (hwrite : b.write = true) : burstServe t b s = .next (burstRead [] false (burstLock t b s)) := by
  have hcases : (t = 1 ∨ t = 5 ∨ t = 6) ∨ t = 3 ∨ t = 4 := by
    simp only [List.mem_cons, List.not_mem_nil, or_false] at ht
    omega
  rcases hcases with hservice | h3 | h4
  · exact (burstServe_services h8 haddr hservice).trans (if_pos hwrite)
  · exact (burstServe_counters h8 haddr h3).trans (if_pos hwrite)
  · exact (burstServe_keys h8 haddr h4).trans (if_pos hwrite)

end Serve

section BurstRow
variable {s : State} {t : Nat} {reqs : List Burst} {b : Burst}
variable (hok : ∀ b ∈ reqs, burstOk t b = true)
include hok

theorem exec_busMatrixBurst : exec (.busMatrixBurst reqs t) s =
    if !portsUp s.dev then .next s
    else match granted s t reqs with
      | some b => burstServe t b s
      | none => .next s := if_neg (by simpa using hok)

theorem exec_busMatrixBurst_unsupplied (hup : portsUp s.dev = false) : exec (.busMatrixBurst reqs t) s = .next s := by
  rw [exec_busMatrixBurst hok, hup]
  rfl

theorem exec_busMatrixBurst_none (hup : portsUp s.dev = true) (h : granted s t reqs = none) : exec (.busMatrixBurst reqs t) s = .next s := by
  rw [exec_busMatrixBurst hok, hup, h]
  rfl

theorem exec_busMatrixBurst_granted (hup : portsUp s.dev = true) (h : granted s t reqs = some b) :
    exec (.busMatrixBurst reqs t) s = burstServe t b s := by
  rw [exec_busMatrixBurst hok, hup, h]
  rfl

end BurstRow

/-! ## PERST_ASSERT (16 R430, R434) -/

theorem perst_eq (s : State) : perst s =
    let s1 := masterReset 2 { s with io := { s.io with msix := [], pcie := Io.reset.pcie } }
    if s.dev.bootPhase = 1 then { s1 with dev := { s1.dev with pollAt := s.clk.now } } else s1 := by
  simp only [perst, masterReset_dev, masterReset_clk]

/-- Settles O53: a grant is the first master's in the order of priority that the lock allows; the granted burst by its target's
equation; locks by their take, release and resets. -/
theorem matrixCommands : Obligations.MatrixCommands := by
  refine ⟨fun s => ⟨rfl, rfl, rfl, fun c hc => ?active⟩, fun s t reqs b h => ⟨mem_of_granted h, fun k => granted_lock h, granted_first h⟩,
    fun s t reqs h m hm x hx hxm => granted_none h hm hx hxm, fun s t reqs hok hup => exec_busMatrixBurst_unsupplied hok hup,
    fun s t reqs hok hup => ⟨exec_busMatrixBurst_none hok hup, fun b hb => ?burst⟩, fun m a bs n s => ⟨rfl, rfl⟩,
    fun off bs n s => ⟨rfl, rfl, rfl, rfl⟩, fun t b s => ⟨burstLock_takes, burstLock_releases, burstLock_otherWrite, burstLock_plainRead⟩,
    fun t m s ht h => exec_matrixLockTimeout_held ht h, fun t s ht h => exec_matrixLockTimeout_free ht h,
    fun s => ⟨rfl, fun hphase => ?reset, fun hphase => ?polls⟩,
    fun m s => ⟨masterReset_noLock, fun t ht h hother => masterReset_oneLock ht h hother, masterReset_eq⟩⟩
  case active =>
    simp only [priorities, hc]
    rfl
  case burst =>
    intro n s1 got
    have hserve := exec_busMatrixBurst_granted hok hup hb
    have hbok := hok b (mem_of_granted hb)
    refine ⟨fun hno => hserve.trans (burstServe_refused hno), fun h8 haddr => ⟨fun h0 hbreaks => ?_, fun h2 hw => ?_, fun h2 hr => ?_,
      fun h3 hr => ?_, fun h4 hr hother hcp => ?_, fun h4 hr hreads => ?_, fun h7 => ⟨fun hw => ?_, fun hr => ?_⟩, fun ht hr => ?_,
      fun ht hw => hserve.trans (burstServe_write h8 haddr ht hw)⟩⟩
    · subst h0
      exact hserve.trans (burstServe_window h8 haddr rfl hbok hbreaks)
    · exact hserve.trans ((burstServe_aperture h8 haddr h2).trans (if_pos hw))
    · exact hserve.trans ((burstServe_aperture h8 haddr h2).trans (if_neg (by simp [hr])))
    · exact hserve.trans ((burstServe_counters h8 haddr h3).trans (if_neg (by simp [hr])))
    · exact hserve.trans ((burstServe_keys h8 haddr h4).trans ((if_neg (by simp [hr])).trans (if_neg (by simp [hother, hcp]))))
    · exact hserve.trans ((burstServe_keys h8 haddr h4).trans ((if_neg (by simp [hr])).trans (if_pos (by simpa using hreads))))
    · exact hserve.trans ((burstServe_page h8 haddr h7).trans (if_pos hw))
    · exact hserve.trans ((burstServe_page h8 haddr h7).trans (if_neg (by simp [hr])))
    · exact hserve.trans ((burstServe_services h8 haddr (by simpa using ht)).trans (if_neg (by simp [hr])))
  case reset => exact congrArg _ ((perst_eq s).trans (if_neg hphase))
  case polls => exact congrArg _ ((perst_eq s).trans (if_pos hphase))

end Sys2Proof.Machine


/-! PROOFS. CRC-32C by its parameters, and where packets and replies carry it (07_defects_and_integrity.md R201; 12_command_plane.md
R331, Table 12.6). -/

namespace Sys2Proof.Machine

/-! ## Little-endian numbers (00 R10) -/

theorem leNat_leBytes : ∀ n v, leNat (leBytes n v) = v % 256 ^ n
  | 0, v => by simp [leNat, leBytes, Nat.mod_one]
  | n + 1, v => by
    rw [leBytes, leNat, leNat_leBytes n, Nat.pow_succ', Nat.mod_mul, BitVec.toNat_ofNat]

theorem leBytes_leNat : ∀ l : List Byte, leBytes l.length (leNat l) = l
  | [] => rfl
  | b :: l => by
    have hb := b.isLt
    have hlow : BitVec.ofNat 8 (b.toNat + 256 * leNat l) = b := BitVec.eq_of_toNat_eq (by rw [BitVec.toNat_ofNat]; omega)
    have hhigh : (b.toNat + 256 * leNat l) / 256 = leNat l := by omega
    rw [List.length_cons, leNat, leBytes, hlow, hhigh, leBytes_leNat l]

/-- Bytes spell a number exactly when they are its little-endian bytes. -/
theorem eq_leNat_iff {n v : Nat} {l : List Byte} (hl : l.length = n) (hv : v < 256 ^ n) : v = leNat l ↔ l = leBytes n v := by
  refine ⟨fun h => ?_, fun h => ?_⟩
  · rw [h, ← hl, leBytes_leNat]
  · rw [h, leNat_leBytes, Nat.mod_eq_of_lt hv]

/-! ## The reflected register (07 R201) -/

section Register
variable {c x y : BitVec 32} {b : Bool}

/-- One bit of the message divided by the generator, the register not reflected. -/
def divideBit (c : BitVec 32) (b : Bool) : BitVec 32 := if c.msb != b then (c <<< 1) ^^^ 0x1EDC6F41 else c <<< 1

/-- The same step of a reflected register. -/
def reflectedBit (c : BitVec 32) (b : Bool) : BitVec 32 := if c.getLsbD 0 != b then (c >>> 1) ^^^ 0x82F63B78 else c >>> 1

theorem reverse_xor : (x ^^^ y).reverse = x.reverse ^^^ y.reverse := by
  refine BitVec.eq_of_getLsbD_eq fun i hi => ?_
  simp only [BitVec.getLsbD_xor, BitVec.getLsbD_reverse, BitVec.getMsbD_xor]

theorem reverse_shiftLeft_one : (x <<< 1).reverse = x.reverse >>> 1 := by
  refine BitVec.eq_of_getLsbD_eq fun i hi => ?_
  simp only [BitVec.getLsbD_ushiftRight, BitVec.getLsbD_reverse, BitVec.getMsbD_shiftLeft, Nat.add_comm]

theorem reverse_generator : (0x1EDC6F41 : BitVec 32).reverse = 0x82F63B78 := by decide +kernel

theorem reverse_divideBit : (divideBit c b).reverse = reflectedBit c.reverse b := by
  have hlow : c.reverse.getLsbD 0 = c.msb := by rw [BitVec.getLsbD_reverse, BitVec.msb]
  simp only [divideBit, reflectedBit, hlow]
  split
  · rw [reverse_xor, reverse_shiftLeft_one, reverse_generator]
  · exact reverse_shiftLeft_one

/-- Dividing a message and then reflecting is dividing it in a reflected register. -/
theorem reverse_foldl_divideBit (m : List Bool) (c : BitVec 32) : (m.foldl divideBit c).reverse = m.foldl reflectedBit c.reverse :=
  (List.foldl_hom BitVec.reverse fun _ _ => reverse_divideBit.symm).symm

/-! ## A byte at once -/

/-- What stands in the register already and what is added to it go through a step apart: only the lowest bit added decides. -/
theorem crcBit_xor : crcBit (c ^^^ x) = reflectedBit c (x.getLsbD 0) ^^^ (x >>> 1) := by
  have hlow : (c ^^^ x).getLsbD 0 = (c.getLsbD 0 != x.getLsbD 0) := BitVec.getLsbD_xor
  simp only [crcBit, reflectedBit, hlow, BitVec.ushiftRight_xor_distrib]
  split
  · ac_rfl
  · rfl

/-- Adding `n` bits at once and stepping `n` times is taking them one at a time; the bits above them are left over. -/
theorem crcBit_iterate_xor (n : Nat) : crcBit^[n] (c ^^^ x) = ((List.range n).map x.getLsbD).foldl reflectedBit c ^^^ (x >>> n) := by
  induction n with
  | zero => simp
  | succ n ih =>
    rw [Function.iterate_succ_apply', ih, crcBit_xor, List.range_succ, List.map_append, List.foldl_append, ← BitVec.shiftRight_add]
    simp

/-- The bits of a byte in the order in which they are taken. -/
def byteBits (b : Byte) : List Bool := (List.range 8).map b.getLsbD

theorem crcByte_eq_foldl : crcByte = fun c b => (byteBits b).foldl reflectedBit c := by
  funext c b
  have hbits : (List.range 8).map (b.zeroExtend 32).getLsbD = byteBits b := by simp [byteBits, List.range_succ]
  have hover : b.zeroExtend 32 >>> 8 = 0#32 := by
    apply BitVec.eq_of_toNat_eq
    have := b.isLt
    simp only [BitVec.toNat_ushiftRight, Nat.shiftRight_eq_div_pow, BitVec.truncate_eq_setWidth, BitVec.toNat_setWidth, BitVec.toNat_ofNat]
    omega
  calc crcByte c b = crcBit^[8] (c ^^^ b.zeroExtend 32) := rfl
    _ = (byteBits b).foldl reflectedBit c := by rw [crcBit_iterate_xor, hbits, hover, BitVec.xor_zero]

theorem crc32c_eq_divide (bs : List Byte) :
    crc32c bs = ((bs.flatMap byteBits).foldl divideBit 0xFFFFFFFF).reverse ^^^ 0xFFFFFFFF := by
  have hones : (0xFFFFFFFF : BitVec 32).reverse = 0xFFFFFFFF := by decide +kernel
  rw [reverse_foldl_divideBit, hones, List.foldl_flatMap, crc32c, crcByte_eq_foldl]

end Register

/-! ## The CRC of a reply and of a packet (12 R331, Table 12.6) -/

theorem padTo_length {α : Type} (n : Nat) (z : α) (l : List α) : (padTo n z l).length = n := by
  simp only [padTo, List.length_take, List.length_append, List.length_replicate]
  omega

theorem replyHead_length (e : Echo) (st : Status) (ws : List Word) : (replyHead e st ws).length = 56 := by
  simp [replyHead, leBytes_length, padTo_length]

theorem replyBytes_crc (e : Echo) (st : Status) (ws : List Word) :
    ((replyBytes e st ws).drop 56).take 4 = leBytes 4 (crc32c ((replyBytes e st ws).take 56)).toNat := by
  have hhead := replyHead_length e st ws
  have hform : replyBytes e st ws = replyHead e st ws ++ (leBytes 4 (crc32c (replyHead e st ws)).toNat ++ [0, 0, 0, 0]) :=
    List.append_assoc ..
  rw [hform, List.drop_left' hhead, List.take_left' hhead, List.take_left' (leBytes_length ..)]

/-- The bit left out of a packet's CRC is bit 7 of byte 2: with it clear the CRC is of bytes 0 to 55. -/
theorem packetCrc_bytes {bs : List Byte} (hlen : 3 ≤ bs.length) (hbit : (bs.getD 2 0).getLsbD 7 = false) :
    (bs.take 2 ++ [bs.getD 2 0 &&& 0x7F]) ++ (bs.drop 3).take 53 = bs.take 56 := by
  have hbyte : ∀ b : Byte, b.getLsbD 7 = false → b &&& 0x7F = b := by decide
  match bs, hlen with
  | a :: b :: c :: l, _ => simpa using hbyte c hbit

theorem packetCrcOk_eq {bs : List Byte} (hlen : bs.length = 64) (hbit : (bs.getD 2 0).getLsbD 7 = false) :
    packetCrcOk bs = decide ((bs.drop 56).take 4 = leBytes 4 (crc32c (bs.take 56)).toNat) := by
  have hfour : ((bs.drop 56).take 4).length = 4 := by simp [hlen]
  have hword := (crc32c (bs.take 56)).isLt
  rw [packetCrcOk, packetCrc_bytes (by omega) hbit, Bool.beq_eq_decide_eq]
  exact decide_eq_decide.mpr (eq_leNat_iff hfour (by omega))

/-- Settles O12: a register that takes a byte at once is the reflected bit-serial one; the check value by computation; replies and
packets by the little-endian bytes of the CRC. -/
theorem crcIsThePolynomialsRemainder : Obligations.CrcIsThePolynomialsRemainder :=
  ⟨crc32c_eq_divide, by decide +kernel, fun e st ws _ => replyBytes_crc e st ws, fun _ hlen hbit => packetCrcOk_eq hlen hbit⟩

end Sys2Proof.Machine


/-! PROOFS. When a defect is declared or cleared, the record of it, and the end of a DEG window (07_defects_and_integrity.md R191 to
R198, R205). -/

namespace Sys2Proof.Machine

/-! ## The record of a defect (07 R196, R205) -/

section LaneRecord
variable {l b t : Nat} {s : State}

/-- The defect's bit and its history are set. -/
def laneDeclared (l b : Nat) (s : State) : State :=
  modDef l (fun d => { d with decl := (lane s l).ldef.decl ||| (1#6 <<< b), hist := d.hist ||| (1#6 <<< b) }) s

/-- The defect's bit is taken. -/
def laneCleared (l b : Nat) (s : State) : State :=
  modDef l (fun d => { d with decl := (lane s l).ldef.decl &&& ~~~(1#6 <<< b) }) s

theorem laneDefect_declares : laneDefect l b true t s =
    if (lane s l).ldef.en.getLsbD b then
      raiseAt t 0x02 (b + 1) l (wd ((lane s l).ldef.decl ||| (1#6 <<< b)).toNat) true (laneDeclared l b s)
    else laneDeclared l b s := rfl

theorem laneDefect_clears : laneDefect l b false t s =
    if (lane s l).ldef.en.getLsbD b then
      raiseAt t 0x02 (b + 1) l (wd ((lane s l).ldef.decl &&& ~~~(1#6 <<< b)).toNat) false (laneCleared l b s)
    else laneCleared l b s := rfl

end LaneRecord

section TaRecord
variable {eg : Bool} {ta b t : Nat} {s : State}

/-- The source of an internal defect and `LANE_DERIVED`, as its record gives them. -/
def intData (b : Nat) (d : TaDef) : Nat :=
  match b, d.intAt with
  | 3, some (_, src, dl) => 16 * src + 2 ^ 22 * b2n dl
  | _, _ => 0

/-- The defect's bit and its history are set, with the time. -/
def taDeclared (eg : Bool) (ta b t : Nat) (s : State) : State :=
  modTd eg ta (fun d => { d with
    decl := (taDef s eg ta).decl ||| (1#4 <<< b), hist := d.hist ||| (1#4 <<< b), declAt := tset zeroN b t d.declAt }) s

/-- The defect's bit is taken. -/
def taCleared (eg : Bool) (ta b : Nat) (s : State) : State :=
  modTd eg ta (fun d => { d with decl := (taDef s eg ta).decl &&& ~~~(1#4 <<< b) }) s

/-- A defect other than LOMF has no accord that follows it. -/
theorem taDefect_declares (hb : b ≠ 2) : taDefect eg ta b true t s =
    if (taDef s eg ta).en.getLsbD b then
      raiseAt t 0x03 (b + 1) (taIndex eg ta) (wd (((taDef s eg ta).decl ||| (1#4 <<< b)).toNat + intData b (taDef s eg ta))) true
        (taDeclared eg ta b t s)
    else taDeclared eg ta b t s := if_neg hb

theorem taDefect_clears (hb : b ≠ 2) : taDefect eg ta b false t s =
    if (taDef s eg ta).en.getLsbD b then
      raiseAt t 0x03 (b + 1) (taIndex eg ta) (wd (((taDef s eg ta).decl &&& ~~~(1#4 <<< b)).toNat + intData b (taDef s eg ta))) false
        (taCleared eg ta b s)
    else taCleared eg ta b s := if_neg hb

end TaRecord

/-! ## Timers that have run out (07 R191, R195, R197) -/

section Timers
variable {l b ta t : Nat} {v : Nat × Bool} {s : State}

theorem laneDeclareDue_iff : laneDeclareDue s l b = true ↔ running s = true ∧ (lane s l).ldef.heldAt = none ∧
    (lane s l).ldef.cond.getLsbD b = true ∧ (lane s l).ldef.decl.getLsbD b = false ∧ laneSetAt s l b ≤ s.clk.now := by
  simp [laneDeclareDue, and_assoc]

theorem laneClearDue_iff : laneClearDue s l b = true ↔ running s = true ∧ (lane s l).ldef.heldAt = none ∧
    (lane s l).ldef.cond.getLsbD b = false ∧ (lane s l).ldef.decl.getLsbD b = true ∧ laneClearAt s l b ≤ s.clk.now := by
  simp [laneClearDue, and_assoc]

/-- Of the defects of an ingress tributary, DEG alone has no timer. -/
theorem timed_iff (hb : b < 3) : (b = 0 ∨ b = 2) ↔ b ≠ 1 := by omega

theorem taDeclareDue_iff (hb : b < 3) : taDeclareDue s ta b = true ↔ running s = true ∧ b ≠ 1 ∧
    (inTa s ta).df.cond.getLsbD b = true ∧ (inTa s ta).df.decl.getLsbD b = false ∧ taSetAt s ta b ≤ s.clk.now := by
  rw [← timed_iff hb]
  simp only [taDeclareDue, Bool.and_eq_true, Bool.or_eq_true, Bool.not_eq_true', beq_iff_eq, decide_eq_true_eq]
  tauto

theorem taClearDue_iff (hb : b < 3) : taClearDue s ta b = true ↔ running s = true ∧ b ≠ 1 ∧
    (inTa s ta).df.cond.getLsbD b = false ∧ (inTa s ta).df.decl.getLsbD b = true ∧ taClearAt s ta b ≤ s.clk.now := by
  rw [← timed_iff hb]
  simp only [taClearDue, Bool.and_eq_true, Bool.or_eq_true, Bool.not_eq_true', beq_iff_eq, decide_eq_true_eq]
  tauto

theorem intClearDue_iff : intClearDue s ta = true ↔
    running s = true ∧ (egTa s ta).df.decl.getLsbD 3 = true ∧ intClearAt s ta ≤ s.clk.now := by
  simp [intClearDue, and_assoc]

theorem intClearAt_verdict (h : (egTa s ta).df.intAt = some (t, v)) :
    intClearAt s ta = t + (profile s (egTa s ta).df.prof).tclear * stepNs := by
  simp only [intClearAt, h]

theorem intClearAt_noVerdict (h : (egTa s ta).df.intAt = none) : intClearAt s ta = s.clk.now := by
  simp only [intClearAt, h]

end Timers

/-! ## DEFECT_DECLARE and DEFECT_CLEAR (07 R191; 08 R213) -/

section Rows
variable {l b ta : Nat} {s : State}

theorem exec_defectDeclare_lane (hl : l < 144) (hb : b < 6) : exec (.defectDeclare (.lane l) b) s =
    .next (protSync (if laneDeclareDue s l b then laneTaSync l (laneDefect l b true (laneSetAt s l b) s) else s)) :=
  (if_pos (by simp [defectOk, laneOk, hl, hb])).trans (by simp only [defectDeclare, hb, decide_true, Bool.true_and])

theorem exec_defectClear_lane (hl : l < 144) (hb : b < 6) : exec (.defectClear (.lane l) b) s =
    .next (protSync (if laneClearDue s l b then laneTaSync l (laneDefect l b false (laneClearAt s l b) s) else s)) :=
  (if_pos (by simp [defectOk, laneOk, hl, hb])).trans (by simp only [defectClear, hb, decide_true, Bool.true_and])

theorem exec_defectDeclare_ingress (hta : ta < 147456) (hb : b < 3) : exec (.defectDeclare (.ingress ta) b) s =
    .next (protSync (if taDeclareDue s ta b then taDefect false ta b true (taSetAt s ta b) s else s)) :=
  if_pos (by simp [defectOk, taOk, hta, hb])

theorem exec_defectClear_ingress (hta : ta < 147456) (hb : b < 3) : exec (.defectClear (.ingress ta) b) s =
    .next (protSync (if taClearDue s ta b then taDefect false ta b false (taClearAt s ta b) s else s)) :=
  if_pos (by simp [defectOk, taOk, hta, hb])

theorem exec_defectDeclare_egress (hta : ta < 147456) : exec (.defectDeclare (.egress ta) 3) s = .next (protSync s) :=
  if_pos (by simp [defectOk, taOk, hta])

theorem exec_defectClear_egress (hta : ta < 147456) : exec (.defectClear (.egress ta) 3) s =
    .next (protSync (if intClearDue s ta then taDefect true ta 3 false (intClearAt s ta) s else s)) :=
  (if_pos (by simp [defectOk, taOk, hta])).trans (by simp only [defectClear, decide_true, Bool.true_and])

end Rows

/-! ## DEG_WINDOW_END (07 R198) -/

section Window
variable {ta : Nat} {s : State}

/-- The number of errors that declares DEG, and whether it was clamped, at the end of the window of `ta`. -/
def degLimit (s : State) (ta : Nat) : Nat × Bool :=
  degN (taSize s false ta (curCycle s)) (inTa s ta).df.winExp (inTa s ta).df.winS

/-- The tick at which the window ends, and its time. -/
def degEndTick (s : State) (ta : Nat) : Nat := degStart s ta + 64000 * (inTa s ta).df.winS
def degEndAt (s : State) (ta : Nat) : Nat := s.clk.tickAt - cycleNs * (curCycle s - degEndTick s ta)

/-- The ended window's counts are stored. -/
def degKept (ta : Nat) (s : State) : State := modTd false ta (fun x => { x with
  lastE := (inTa s ta).df.errors, lastC := (inTa s ta).df.checked, clamp := (degLimit s ta).2 }) s

/-- What the ended window says of DEG. -/
def degJudged (ta : Nat) (s : State) : State :=
  let d := (inTa s ta).df
  if d.checked < 32000 * d.winS then degKept ta s
  else if (degLimit s ta).1 ≤ d.errors then
    if d.decl.getLsbD 1 then degKept ta s else taDefect false ta 1 true (degEndAt s ta) (degKept ta s)
  else if d.decl.getLsbD 1 then taDefect false ta 1 false (degEndAt s ta) (degKept ta s) else degKept ta s

theorem degEnd_eq : degEnd ta s = degRestart ta (degEndTick s ta) (degJudged ta s) := rfl

theorem degJudged_unchecked (hfew : (inTa s ta).df.checked < 32000 * (inTa s ta).df.winS) : degJudged ta s = degKept ta s := if_pos hfew

section Checked
variable (hmany : 32000 * (inTa s ta).df.winS ≤ (inTa s ta).df.checked)
include hmany

theorem degJudged_declares (hn : (degLimit s ta).1 ≤ (inTa s ta).df.errors) (hoff : (inTa s ta).df.decl.getLsbD 1 = false) :
    degJudged ta s = taDefect false ta 1 true (degEndAt s ta) (degKept ta s) := by
  simp only [degJudged, hmany.not_gt, hn, hoff, if_false, if_true, Bool.false_eq_true]

theorem degJudged_clears (hn : (inTa s ta).df.errors < (degLimit s ta).1) (hon : (inTa s ta).df.decl.getLsbD 1 = true) :
    degJudged ta s = taDefect false ta 1 false (degEndAt s ta) (degKept ta s) := by
  simp only [degJudged, hmany.not_gt, hn.not_ge, hon, if_false, if_true]

theorem degJudged_agrees (h : (degLimit s ta).1 ≤ (inTa s ta).df.errors ↔ (inTa s ta).df.decl.getLsbD 1 = true) :
    degJudged ta s = degKept ta s := by
  by_cases hn : (degLimit s ta).1 ≤ (inTa s ta).df.errors
  · simp only [degJudged, hmany.not_gt, hn, h.mp hn, if_false, if_true]
  · simp only [degJudged, hmany.not_gt, hn, mt h.mpr hn, if_false, Bool.false_eq_true]

end Checked

theorem exec_degWindowEnd (hta : ta < 147456) (hdue : degDue s ta = true) :
    exec (.degWindowEnd ta) s = .next (protSync (degRestart ta (degEndTick s ta) (degJudged ta s))) :=
  (if_neg (by simp [taOk, hta])).trans ((if_pos hdue).trans (by rw [degEnd_eq]))

theorem exec_degWindowEnd_notDue (hta : ta < 147456) (hdue : degDue s ta = false) : exec (.degWindowEnd ta) s = .next s :=
  (if_neg (by simp [taOk, hta])).trans (if_neg (by simp [hdue]))

end Window

/-- Settles O27: the rows by their timers, the end of a window by its verdict, and a declared or cleared defect by its record. -/
theorem defectEvents : Obligations.DefectEvents := by
  refine ⟨fun l b s hl hb => ⟨?_, ?_⟩, fun ta b s hta hb => ⟨?_, ?_⟩,
    fun ta s hta => ⟨exec_defectDeclare_egress hta, fun h => ?_, fun t v hrun hdecl hint => ?_, fun hrun hdecl hint => ?_⟩,
    fun ta s hta hdue => ⟨fun hfew => ?_, fun hmany hn hoff => ?_, fun hmany hn hon => ?_, fun hmany h => ?_⟩,
    fun ta s hta hdue => exec_degWindowEnd_notDue hta hdue,
    fun l b t s => ⟨fun hen => ⟨laneDefect_declares.trans (if_pos hen), laneDefect_clears.trans (if_pos hen)⟩,
      fun hen => ⟨laneDefect_declares.trans (if_neg (by simp [hen])), laneDefect_clears.trans (if_neg (by simp [hen]))⟩⟩,
    fun eg ta b t s hb => ⟨fun hen => ⟨(taDefect_declares hb).trans (if_pos hen), (taDefect_clears hb).trans (if_pos hen)⟩,
      fun hen => ⟨(taDefect_declares hb).trans (if_neg (by simp [hen])), (taDefect_clears hb).trans (if_neg (by simp [hen]))⟩⟩⟩
  · rw [exec_defectDeclare_lane hl hb]
    simp only [laneDeclareDue_iff]
    rfl
  · rw [exec_defectClear_lane hl hb]
    simp only [laneClearDue_iff]
    rfl
  · rw [exec_defectDeclare_ingress hta hb]
    simp only [taDeclareDue_iff hb]
    rfl
  · rw [exec_defectClear_ingress hta hb]
    simp only [taClearDue_iff hb]
    rfl
  · rw [exec_defectClear_egress hta, if_neg fun hdue => ?_]
    obtain ⟨hrun, hdecl, -⟩ := intClearDue_iff.mp hdue
    exact h.elim (fun hno => Bool.false_ne_true (hno.symm.trans hrun)) (fun hno => Bool.false_ne_true (hno.symm.trans hdecl))
  · rw [exec_defectClear_egress hta]
    simp only [intClearDue_iff, hrun, hdecl, true_and, intClearAt_verdict hint]
    rfl
  · rw [exec_defectClear_egress hta, if_pos (intClearDue_iff.mpr ⟨hrun, hdecl, (intClearAt_noVerdict hint).le⟩), intClearAt_noVerdict hint]
  · rw [exec_degWindowEnd hta hdue, degJudged_unchecked hfew]
    rfl
  · rw [exec_degWindowEnd hta hdue, degJudged_declares hmany hn hoff]
    rfl
  · rw [exec_degWindowEnd hta hdue, degJudged_clears hmany hn hon]
    rfl
  · rw [exec_degWindowEnd hta hdue, degJudged_agrees hmany h]
    rfl

end Sys2Proof.Machine


/-! PROOFS. Protection groups and their rules (08_protection_switching.md R213 to R221, R228 to R230): the commands at their decode, the
rows of the rules, and a switch's writes at the update port. -/

namespace Sys2Proof.Machine

/-! ## PROT_GROUP_SET (08 R228) -/

section GroupSet
variable {p : Packet} {s : State}

/-- The reply of a `PROT_GROUP_SET` that is taken: the side and the governing request of the group as it leaves it. -/
def groupSaid (n : Nat) (t : State) : Res := .reply .ok [wd (b2n (group t n).side + 2 * (group t n).req)] t

theorem bodyProtGroupSet_off (hoff : pb p.params 0 16 = false) : bodyProtGroupSet p s =
    groupSaid (pf p.params 0 15 0) (if (group s (pf p.params 0 15 0)).en then groupDisable (pf p.params 0 15 0) s else s) :=
  if_pos (by simp [hoff])

/-- `ENABLE` 1 changes an enabled group and enables a disabled one, each by its own check. -/
theorem bodyProtGroupSet_on (hon : pb p.params 0 16 = true) : bodyProtGroupSet p s =
    let n := pf p.params 0 15 0
    let h := groupOf p.params (group s n)
    if (group s n).en then (if !changeOk (group s n) h then refuse .notInMode s else groupSaid n (groupChange n h s))
    else if !enableOk s n h then refuse .badParam s else groupSaid n (groupEnable n h s) := by
  simp only [bodyProtGroupSet, hon, Bool.not_true, Bool.false_eq_true, if_false, protWord, Nat.mul_zero, Nat.add_zero, groupSaid]

theorem changeOk_iff {g h : PGroup} : changeOk g h = true ↔
    h = { g with prio := h.prio, trig := h.trig, revertive := h.revertive, wtrS := h.wtrS, holdOff := h.holdOff } := beq_iff_eq

end GroupSet

/-! ## PROT_CMD (08 R214, R221, R229) -/

section Cmd
variable {p : Packet} {n r : Nat} {s : State}

theorem extCode_eq (r : Nat) : extCode r = if r = 1 then 0xA else if r = 2 then 9 else if r = 3 then 4 else if r = 4 then 3 else 0 := by
  match r with
  | 0 | 1 | 2 | 3 | 4 | _ + 5 => simp [extCode]

/-- Release and lockout of an enabled group are always taken, a forced switch unless locked out, a manual one below every other request;
with `REQUIRE_EQ`, a switch needs the set's bindings equalised. -/
theorem protAccept_iff : protAccept s n r = true ↔
    let g := group s n
    let eq := g.requireEq = false ∨ setEqualised s n = true
    g.en = true ∧ (r = 0 ∨ r = 1 ∨ (r = 2 ∧ g.ext ≠ 0xA ∧ eq) ∨ (3 ≤ r ∧ g.typ ≠ 2 ∧ highReq (present s n) = none ∧ eq)) := by
  match r with
  | 0 | 1 | 2 | _ + 3 => simp [protAccept, and_assoc]

/-- A lockout or a forced switch that displaces a stored manual request removes it. -/
def manualRemoved (n r : Nat) (s : State) : State :=
  if ((group s n).ext = 4 ∨ (group s n).ext = 3) ∧ (r = 1 ∨ r = 2) then raise 0x06 0x06 (setHead s n) (wd (extCode r)) false s else s

/-- The set with the command's external request, evaluated. -/
def externalSet (n r : Nat) (s : State) : State :=
  protEval n (r == 0) (modSet n (fun g => { g with ext := extCode r }) (manualRemoved n r s))

theorem bodyProtCmd_refused (h : protAccept s (pf p.params 0 15 0) (pf p.params 0 18 16) = false) :
    bodyProtCmd p s = refuse .notInMode s := if_pos (by simp [h])

theorem bodyProtCmd_taken (h : protAccept s (pf p.params 0 15 0) (pf p.params 0 18 16) = true) : bodyProtCmd p s =
    let n := pf p.params 0 15 0
    let t := externalSet n (pf p.params 0 18 16) s
    .reply .ok [wd (b2n (group t n).side + 2 * (group t n).req + 32 * (group t n).ext)] t := by
  simp only [bodyProtCmd, h, Bool.not_true, Bool.false_eq_true, if_false, externalSet, manualRemoved, Bool.and_eq_true, Bool.or_eq_true,
    beq_iff_eq, protWord]

end Cmd

theorem bodyProtGet_eq {p : Packet} {s : State} : bodyProtGet p s =
    let n := pf p.params 0 15 0
    let g := group s n
    let left := if g.en = true ∧ g.rev = 1 then (g.wtrAt + g.wtrS * 1000000000 - s.clk.now) / 1000000000 else 0
    .reply .ok
      [wd (b2n g.side + 2 * g.req + 32 * g.ext + 2 ^ 9 * b2n (g.run.isSome || g.due) + 2 ^ 10 * b2n g.held + 2 ^ 11 * b2n g.failed
        + 2 ^ 12 * b2n (g.en && equalised s g)), wd left, wd (if g.en then altEntries s g else 0), g.fcDone, wd g.cycDone, wd g.switches,
        wd g.hist.toNat]
      (if pb p.params 0 16 then setGroup n { g with hist := 0 } s else s) := by
  simp only [bodyProtGet, Bool.and_eq_true, decide_eq_true_eq]

/-- Settles O38: each command's body answers an accepted packet, in the cases of its checks. -/
theorem protectionCommands : Obligations.ProtectionCommands := by
  refine ⟨fun p s s1 hp => ⟨fun hoff => ?_, fun hon hen => ⟨fun hok => ?_, fun hno => ?_⟩, fun hon hdis => ⟨fun hok => ?_, fun hno => ?_⟩⟩,
    fun g h => changeOk_iff, fun p s s1 hp => ?cmd, fun p s s1 hp => runCommand_reply hp bodyProtGet_eq⟩
  · exact runCommand_reply hp (bodyProtGroupSet_off hoff)
  · exact runCommand_reply hp ((bodyProtGroupSet_on hon).trans ((if_pos hen).trans (if_neg (by simp [hok]))))
  · exact runCommand_reply hp ((bodyProtGroupSet_on hon).trans ((if_pos hen).trans (if_pos (by simp [hno]))))
  · exact runCommand_reply hp ((bodyProtGroupSet_on hon).trans ((if_neg (by simp [hdis])).trans (if_neg (by simp [hok]))))
  · exact runCommand_reply hp ((bodyProtGroupSet_on hon).trans ((if_neg (by simp [hdis])).trans (if_pos (by simp [hno]))))
  case cmd =>
    intro n r g eq may ext s2 t
    have hiff : protAccept s1 n r = true ↔ may := protAccept_iff
    have hset : externalSet n r s1 = t := by
      simp only [externalSet, manualRemoved, extCode_eq]
      rfl
    refine ⟨fun hmay => ?_, fun hno => runCommand_reply hp (bodyProtCmd_refused (Bool.eq_false_iff.mpr (mt hiff.mp hno)))⟩
    rw [← hset]
    exact runCommand_reply hp (bodyProtCmd_taken (hiff.mpr hmay))

/-! ## PROT_SWITCH_START, PROT_HOLD_OFF_EXPIRY and PROT_WTR_EXPIRY: where the rules run (08 R210, R218) -/

section Guard
variable {n : Nat} {s : State} {refused runs still : Host.Outcome State Fault Refusal}

theorem rulesRun_iff : rulesRun s = true ↔ running s = true ∧ s.dev.failover = false ∧ s.cp.none_ = false := by
  simp [rulesRun, and_assoc]

/-- A row of the rules, of an enabled group while they run. -/
theorem ruleRow_runs (hn : n < 65536) (hrun : rulesRun s = true) (hen : (group s n).en = true) :
    (if !groupOk n then refused else if rulesRun s && (group s n).en then runs else still) = runs :=
  (if_neg (by simp [groupOk, hn])).trans (if_pos (by simp [hrun, hen]))

/-- A row of the rules, of a disabled group or while they do not run. -/
theorem ruleRow_still (hn : n < 65536) (h : rulesRun s = false ∨ (group s n).en = false) :
    (if !groupOk n then refused else if rulesRun s && (group s n).en then runs else still) = still :=
  (if_neg (by simp [groupOk, hn])).trans (if_neg (by rcases h with h | h <;> simp [h]))

/-- A rule that changes no group leaves no journal record. -/
theorem ruleJrnl_self (s : State) : ruleJrnl s s = s := if_pos rfl

end Guard

/-! ## PROT_SWITCH_START (08 R217, R218) -/

theorem ahead_iff {s : State} {m n : Nat} : ahead s m n = true ↔
    (group s n).prio < (group s m).prio ∨ ((group s n).prio = (group s m).prio ∧ m < n) := by
  simp [ahead]

/-- The due groups of set `h` start, and those of every set that goes ahead of it. -/
def startSets (h : Nat) (s : State) : State :=
  (enGroups s).foldl (fun s m =>
    if setHead s m = m ∧ (m = h ∨ (group s h).prio < (group s m).prio ∨ ((group s h).prio = (group s m).prio ∧ m < h))
    then startSet m s else s) s

theorem exec_protSwitchStart {n : Nat} {s : State} (hn : n < 65536) (hrun : rulesRun s = true) (hen : (group s n).en = true) :
    exec (.protSwitchStart n) s = .next (ruleJrnl s (startSets (setHead s n) s)) := by
  have hstep (h : Nat) : startSets h s =
      (enGroups s).foldl (fun s m => if setHead s m = m && (m = h || ahead s m h) then startSet m s else s) s := by
    refine congrArg (List.foldl · s (enGroups s)) ?_
    funext s m
    exact if_congr (by simp only [Bool.and_eq_true, Bool.or_eq_true, decide_eq_true_eq, ahead_iff]) rfl rfl
  rw [hstep]
  exact ruleRow_runs hn hrun hen

/-! ## PROT_HOLD_OFF_EXPIRY (08 R213) -/

section HoldOff
variable {n : Nat} {s : State} {g : PGroup} {now i : Nat}

/-- Trigger `i` of a group has stayed declared for `HOLD_OFF`. -/
def trigHeld (g : PGroup) (now i : Nat) : Bool :=
  match tget noTime g.since i with
  | some t => heldOff g now t
  | none => false

theorem trigHeld_eq_false (h : ∀ t, tget noTime g.since i = some t → now < t + g.holdOff * 100000000) : trigHeld g now i = false := by
  unfold trigHeld
  split
  case h_1 t ht => simpa [heldOff] using h t ht
  case h_2 => rfl

/-- The triggers of a group that count as requests once every one declared for `HOLD_OFF` is admitted. -/
def admitted (g : PGroup) (now : Nat) : BitVec 6 :=
  (List.range 6).foldl (fun b i => if trigHeld g now i then b ||| (1#6 <<< i) else b) g.ok

/-- Bits set one after the other, those that a predicate names. -/
theorem getLsbD_foldl_set {w : Nat} (f : Nat → Bool) (l : List Nat) (b : BitVec w) (hi : i < w) :
    (l.foldl (fun b j => if f j then b ||| (1#w <<< j) else b) b).getLsbD i = (b.getLsbD i || (l.contains i && f i)) := by
  induction l generalizing b with
  | nil => simp
  | cons j l ih =>
    have hbit : (1#w <<< j).getLsbD i = (decide (j < w) && decide (j = i)) := BitVec.getLsbD_twoPow j i
    rw [List.foldl_cons, ih]
    by_cases hij : j = i
    · subst hij
      cases f j <;> simp [hi]
    · cases f j <;> simp [hbit, hij, Ne.symm hij]

theorem getLsbD_admitted (hi : i < 6) : (admitted g now).getLsbD i = (g.ok.getLsbD i || trigHeld g now i) := by
  rw [admitted, getLsbD_foldl_set _ _ _ hi]
  simp [hi]

theorem admitted_none (h : ∀ i < 6, trigHeld g now i = false) : admitted g now = g.ok := by
  refine BitVec.eq_of_getLsbD_eq fun i hi => ?_
  rw [getLsbD_admitted hi, h i hi, Bool.or_false]

theorem holdOffExpiry_eq : holdOffExpiry n s = if admitted (group s n) s.clk.now = (group s n).ok then s
    else protEval n false (setGroup n { group s n with ok := admitted (group s n) s.clk.now } s) := by
  have hstep : (fun (b : BitVec 6) i => if trigHeld (group s n) s.clk.now i then b ||| (1#6 <<< i) else b) =
      fun b i => match tget noTime (group s n).since i with
        | some t => if heldOff (group s n) s.clk.now t then b ||| (1#6 <<< i) else b
        | none => b := by
    funext b i
    unfold trigHeld
    cases tget noTime (group s n).since i <;> rfl
  rw [admitted, hstep]
  rfl

end HoldOff

/-! ## PROT_WTR_EXPIRY (08 R215, R221) -/

section Wtr
variable {n : Nat} {s : State}

/-- The wait-to-restore timer of a set has run out, and its revert is not held already. -/
def wtrDue (g : PGroup) (now : Nat) : Prop := g.rev = 1 ∧ g.held = false ∧ g.wtrAt + g.wtrS * 1000000000 ≤ now

theorem wtrExpiry_notDue (h : ¬ wtrDue (group s (setHead s n)) s.clk.now) : wtrExpiry n s = s :=
  if_neg (by simpa [wtrDue, and_assoc] using h)

theorem wtrExpiry_due (h : wtrDue (group s (setHead s n)) s.clk.now) : wtrExpiry n s =
    let g := (wtrOut s n (group s (setHead s n))).1
    let hold := (wtrOut s n (group s (setHead s n))).2
    let t := modSet n (fun x => { x with rev := g.rev, held := g.held, hist := if hold then x.hist ||| 0b00100 else x.hist }) s
    if hold then raise 0x06 0x05 (setHead t n) 0 false t else protEval n false t :=
  if_pos (by simpa [wtrDue, and_assoc] using h)

/-- The revert of a set is held, and its history says so. -/
def revertHeld (n : Nat) (s : State) : State :=
  modSet n (fun x => { x with rev := (group s (setHead s n)).rev, held := true, hist := x.hist ||| 0b00100 }) s

/-- With `REQUIRE_EQ`, a set in wait-to-restore whose bindings are not equalised holds its revert. -/
theorem wtrExpiry_holds (h : wtrDue (group s (setHead s n)) s.clk.now) (hreq : (group s (setHead s n)).requireEq = true)
    (hwtr : (group s (setHead s n)).req = 2) (heq : setEqualised s n = false) :
    wtrExpiry n s = raise 0x06 0x05 (setHead (revertHeld n s) n) 0 false (revertHeld n s) := by
  have hout : wtrOut s n (group s (setHead s n)) = ({ group s (setHead s n) with held := true }, true) :=
    if_pos (by simp [hreq, hwtr, heq])
  simp only [wtrExpiry_due h, hout, if_true, revertHeld]

theorem wtrExpiry_reverts (h : wtrDue (group s (setHead s n)) s.clk.now)
    (hgo : (group s (setHead s n)).requireEq = false ∨ (group s (setHead s n)).req ≠ 2 ∨ setEqualised s n = true) :
    wtrExpiry n s = protEval n false (modSet n (fun x => { x with rev := 0, held := false }) s) := by
  have hout : wtrOut s n (group s (setHead s n)) = ({ group s (setHead s n) with rev := 0, held := false }, false) :=
    if_neg (by rcases hgo with hgo | hgo | hgo <;> simp [hgo])
  simp only [wtrExpiry_due h, hout, Bool.false_eq_true, if_false]

end Wtr

/-! ## A switch's write at the update port (08 R216 to R221) -/

section Write
variable {n ga d ta why : Nat} {follow on : Bool} {r : ProtRun} {l : List PortWrite} {s0 s : State}

/-- What the Route Allocator makes of a switch's write of an entry, its journal record written: the checks in the order of log 71. -/
def switchEntry (n ga d : Nat) (follow : Bool) (s : State) : State :=
  let fol := if follow then followTa ga d (effTick s) s else none
  if follow && fol.isNone then runFail n 0 s
  else if blockReason s ga (wd d) ≠ 0 then runFail n (blockReason s ga (wd d)) s
  else if s.conn.bad.contains (ga / 4096) then runFail n 3 s
  else runNext n (effTick s) (.conn ga d follow) (followed fol (effTick s) (commitEntry ga d (runBegin n s)))

@[simp] theorem group_jrnl (k m : Nat) (tag : Word) : group (jrnl k m tag s) n = group s n := rfl

theorem protWrite_conn (hrun : (group s n).run = some r) (hl : r.left = .conn ga d follow :: l) :
    protWrite n s = switchEntry n ga d follow (jrnl 2 4 0 s) := by
  simp only [protWrite, group_jrnl, hrun, hl]
  rfl

theorem protWrite_rdi (hrun : (group s n).run = some r) (hl : r.left = .rdi ta on :: l) : protWrite n s =
    let t := jrnl 2 4 0 s
    runNext n (effTick t) (.rdi ta on) (putEg ta (effTick t) { egSet t ta (effTick t + 3) with rdi := on } (runBegin n t)) := by
  simp only [protWrite, group_jrnl, hrun, hl]
  rfl

/-- After a switch's write a change of the rules' state is journalled, then the rules run. -/
theorem exec_switchWrite {t : State} (hopen : portOpen s0 = true) (hg : nextGroup s0 = some n) (h : protWrite n (takeSlot s0) = t) :
    exec .updatePortCommit s0 = .next (protSync (ruleJrnl (jrnl 2 4 0 (takeSlot s0)) t)) := h ▸ portTurn_group hopen hg

theorem switchEntry_followFails (hfol : follow = true) (hno : followTa ga d (effTick s) s = none) :
    switchEntry n ga d follow s = runFail n 0 s := if_pos (by simp [hfol, hno])

section Follows
variable (hfol : follow = true → followTa ga d (effTick s) s ≠ none)
include hfol

theorem switchEntry_blocked (hwhy : blockReason s ga (wd d) ≠ 0) :
    switchEntry n ga d follow s = runFail n (blockReason s ga (wd d)) s := (if_neg (entry_follows hfol)).trans (if_pos hwhy)

variable (hwhy : blockReason s ga (wd d) = 0)
include hwhy

theorem switchEntry_lostBlock (hbad : s.conn.bad.contains (ga / 4096) = true) : switchEntry n ga d follow s = runFail n 3 s :=
  (if_neg (entry_follows hfol)).trans ((if_neg (not_not_intro hwhy)).trans (if_pos hbad))

theorem switchEntry_commits (hbad : s.conn.bad.contains (ga / 4096) = false) : switchEntry n ga d follow s =
    let t := commitEntry ga d (runBegin n s)
    runNext n (effTick s) (.conn ga d follow)
      (if follow = true then followed (followTa ga d (effTick s) s) (effTick s) t else t) := by
  refine (if_neg (entry_follows hfol)).trans ((if_neg (not_not_intro hwhy)).trans ((if_neg (Bool.eq_false_iff.mp hbad)).trans ?_))
  cases follow <;> rfl

end Follows

theorem runBegin_first (hrun : (group s n).run = some r) (hnew : r.started = false) : runBegin n s =
    raise 0x06 0x01 n (wd (b2n r.alt + 2 * (group s n).req)) false
      (setGroup n { group s n with run := some { r with started := true }, hist := (group s n).hist ||| 1 } s) := by
  simp only [runBegin, hrun, hnew, Bool.false_eq_true, if_false]

theorem runFail_again (hseen : (group s n).failSeen = true) :
    runFail n why s = setGroup n { group s n with run := none, failed := true, failSeen := true } s := by
  simp only [runFail, hseen, if_true]

theorem runFail_first (hnew : (group s n).failSeen = false) : runFail n why s =
    raise 0x06 0x03 n (wd (why + 4 * ((group s n).run.map (·.written)).getD 0)) false
      (setGroup n { group s n with run := none, failed := true, failSeen := true, hist := (group s n).hist ||| 2 } s) := by
  simp only [runFail, hnew, Bool.false_eq_true, if_false]

end Write

/-- Settles O39: the rows by their guard and their timers, a switch's write by `switchEntry`, and its start and failure by what the group
has seen. -/
theorem protectionRows : Obligations.ProtectionRows := by
  refine ⟨fun n s hn h => ?still, fun n s hn hrunning hfail hcp hen => ?rows, fun n s0 r ga d follow l hopen hg hrun hl => ?conn,
    fun n s0 r ta on l hopen hg hrun hl => exec_switchWrite hopen hg (protWrite_rdi (s := takeSlot s0) hrun hl),
    fun n s r hrun hnew => runBegin_first hrun hnew, fun n s why hseen => runFail_again hseen, fun n s why hnew => runFail_first hnew⟩
  case still =>
    have hstill : rulesRun s = false ∨ (group s n).en = false := by
      rw [← Bool.not_eq_true, rulesRun_iff]
      rcases h with h | h | h | h <;> simp [h]
    exact ⟨ruleRow_still hn hstill, ruleRow_still hn hstill, ruleRow_still hn hstill⟩
  case rows =>
    have hrun : rulesRun s = true := rulesRun_iff.mpr ⟨hrunning, hfail, hcp⟩
    intro kept h0
    have hsame : kept s = .next s := congrArg _ (ruleJrnl_self s)
    have hhold {t : State} (h : holdOffExpiry n s = t) : exec (.protHoldOffExpiry n) s = kept t := h ▸ ruleRow_runs hn hrun hen
    have hwtr {t : State} (h : wtrExpiry n s = t) : exec (.protWtrExpiry n) s = kept t := h ▸ ruleRow_runs hn hrun hen
    refine ⟨exec_protSwitchStart hn hrun hen, ⟨fun hnone => ?_, admitted (group s n) s.clk.now, fun hok => ?_, fun hok => ?_,
      fun i hi => getLsbD_admitted hi⟩, fun hrev hheld ht => ⟨fun hreq hgov heq => ?_, fun hgo => ?_⟩, fun hno => ?_⟩
    · have hok : admitted (group s n) s.clk.now = (group s n).ok := admitted_none fun i hi => trigHeld_eq_false (hnone i hi)
      exact (hhold (holdOffExpiry_eq.trans (if_pos hok))).trans hsame
    · exact (hhold (holdOffExpiry_eq.trans (if_pos hok))).trans hsame
    · exact hhold (holdOffExpiry_eq.trans (if_neg hok))
    · exact hwtr (wtrExpiry_holds ⟨hrev, hheld, ht⟩ hreq hgov heq)
    · exact hwtr (wtrExpiry_reverts ⟨hrev, hheld, ht⟩ hgo)
    · have hnotDue : ¬ wtrDue (group s (setHead s n)) s.clk.now := by
        rintro ⟨hrev, hheld, ht⟩
        rcases hno with h | h | h
        · exact h hrev
        · exact Bool.false_ne_true (hheld.symm.trans h)
        · omega
      exact (hwtr (wtrExpiry_notDue hnotDue)).trans hsame
  case conn =>
    intro s done k f why
    have hrow {t : State} (h : switchEntry n ga d follow s = t) : exec .updatePortCommit s0 = done t :=
      exec_switchWrite hopen hg ((protWrite_conn (s := takeSlot s0) hrun hl).trans h)
    exact ⟨fun hfol hno => hrow (switchEntry_followFails hfol hno), fun hfol hwhy => hrow (switchEntry_blocked hfol hwhy),
      fun hfol hwhy hbad => hrow (switchEntry_lostBlock hfol hwhy hbad), fun hfol hwhy hbad => hrow (switchEntry_commits hfol hwhy hbad)⟩

end Sys2Proof.Machine


/-! PROOFS. Serial lanes (09_serial_lanes.md): what the SerDes, loop, pattern and eye commands do to a lane, and what its signal detector,
CDR, adaptation and checker change. -/

namespace Sys2Proof.Machine

/-! ## LANE_TX_SET and LANE_RX_SET: one lane, or every lane not fenced (09 R239, R249, R250) -/

section LaneCommands
variable {p : Packet} {s : State}

/-- The command names one lane, and that is fenced. -/
def namesFenced (p : Packet) (s : State) : Prop := pf p.params 0 7 0 ≠ 0xFF ∧ laneFenced s (pf p.params 0 7 0) = true

theorem namesFenced_iff : (pf p.params 0 7 0 ≠ 0xFF && laneFenced s (pf p.params 0 7 0)) = true ↔ namesFenced p s := by simp [namesFenced]

/-- A change of the receiver or transmitter of every lane named. -/
def eachLane (p : Packet) (f : Serdes → Serdes) (s : State) : State := (laneList s (pf p.params 0 7 0)).foldl (fun s l => modSd l f s) s

/-- The settings of a `LANE_TX_SET` that leaves the transmitter off. -/
def txSquelch (ws : List Word) (d : Serdes) : Serdes := { txApply (txSetOf ws d) d with txEn := false }

theorem bodyLaneTxSet_fenced (h : namesFenced p s) : bodyLaneTxSet p s = refuse .notInMode s := if_pos (namesFenced_iff.mpr h)

theorem bodyLaneTxSet_enables (h : ¬ namesFenced p s) (hen : pb p.params 0 8 = true) : bodyLaneTxSet p s =
    if (laneList s (pf p.params 0 7 0)).any (fun l => !(lane s l).sd.txEn) then
      .wait .txOn [] [] (eachLane p (fun d => { d with txNext := some (txSetOf p.params d) }) s)
    else done (eachLane p (fun d => txApply (txSetOf p.params d) d) s) :=
  (if_neg (mt namesFenced_iff.mp h)).trans (if_pos hen)

theorem bodyLaneTxSet_waits (h : ¬ namesFenced p s) (hen : pb p.params 0 8 = true)
    (hoff : ∃ l ∈ laneList s (pf p.params 0 7 0), (lane s l).sd.txEn = false) :
    bodyLaneTxSet p s = .wait .txOn [] [] (eachLane p (fun d => { d with txNext := some (txSetOf p.params d) }) s) :=
  (bodyLaneTxSet_enables h hen).trans (if_pos (by simpa using hoff))

theorem bodyLaneTxSet_applies (h : ¬ namesFenced p s) (hen : pb p.params 0 8 = true)
    (hon : ∀ l ∈ laneList s (pf p.params 0 7 0), (lane s l).sd.txEn = true) :
    bodyLaneTxSet p s = done (eachLane p (fun d => txApply (txSetOf p.params d) d) s) :=
  (bodyLaneTxSet_enables h hen).trans (if_neg (by simpa using hon))

theorem bodyLaneTxSet_squelches (h : ¬ namesFenced p s) (hoff : pb p.params 0 8 = false) :
    bodyLaneTxSet p s = done (eachLane p (txSquelch p.params) s) :=
  (if_neg (mt namesFenced_iff.mp h)).trans (if_neg (by simp [hoff]))

theorem bodyLaneRxSet_fenced (h : namesFenced p s) : bodyLaneRxSet p s = refuse .notInMode s := if_pos (namesFenced_iff.mpr h)

theorem bodyLaneRxSet_acts (h : ¬ namesFenced p s) :
    bodyLaneRxSet p s = done ((laneList s (pf p.params 0 7 0)).foldl (fun s l => rxSetLane p.params l s) s) :=
  if_neg (mt namesFenced_iff.mp h)

end LaneCommands

/-! ## LANE_LOOP_SET (09 R241 to R244) -/

section Loop
variable {p : Packet} {s : State} {l : Nat}

/-- What forbids the loop that the command asks for. -/
def loopBlocked (p : Packet) (s : State) : Prop :=
  laneFenced s (pf p.params 0 7 0) = true ∨
    (pf p.params 0 9 8 ≠ 0 ∧ pf p.params 0 9 8 ≠ (lane s (pf p.params 0 7 0)).sd.loop ∧ loopMode s = false) ∨
    (pf p.params 0 9 8 = 3 ∧ (lane s (pf p.params 0 7 0)).sd.genEn = true)

/-- The loop and line transmit of the command come into force. -/
def loopSet (p : Packet) (s : State) : State :=
  laneSync (pf p.params 0 7 0) (modSd (pf p.params 0 7 0) (fun d => { d with loop := pf p.params 0 9 8, lineTx := pb p.params 0 10 }) s)

theorem bodyLaneLoopSet_blocked (h : loopBlocked p s) : bodyLaneLoopSet p s = refuse .notInMode s := by
  unfold bodyLaneLoopSet
  rcases h with hf | ⟨hne, hnew, hmode⟩ | ⟨h3, hgen⟩
  · exact if_pos hf
  · simp [hne, hnew, hmode]
  · simp [h3, hgen]

theorem bodyLaneLoopSet_free (h : ¬ loopBlocked p s) : bodyLaneLoopSet p s = done (loopSet p
    (if pf p.params 0 9 8 = (lane s (pf p.params 0 7 0)).sd.loop then s else loopStart (pf p.params 0 7 0) s)) := by
  obtain ⟨hf, hmode, hgen⟩ := not_or.mp h |>.imp id not_or.mp
  refine (if_neg hf).trans ((if_neg ?_).trans (if_neg ?_))
  · simpa using hmode
  · simpa using hgen

theorem loopStart_draws (l : Nat) (s : State) : ∃ v, v ≤ 10000 ∧ loopStart l s =
    modSd l (fun d => { d with fill := 64, fillAt := s.clk.now, frac := 0, echo := [] })
      (modTx l (fun t => { t with looped := [], seen := false })
        (modAl l (fun a => { a with loopS := 1720000 + v }) { s with clk := { s.clk with free := s.clk.free + 1 } })) :=
  ⟨Config.freeAt s.clk.free 0x0242 % 10001, by omega, rfl⟩

end Loop

/-- Settles O22: each body in the cases of its checks; another loop begins with the s_L that `loopStart` draws. -/
theorem serdesSettings : Obligations.SerdesSettings := by
  refine ⟨fun p s s1 hp => ⟨fun hf => ?_, fun hf => ⟨fun hen hoff => ?_, fun hen hon => ?_, fun hoff => ?_⟩⟩,
    fun p s s1 hp => ⟨fun hf => ?_, fun hf => ?_⟩, fun p s s1 hp => ⟨fun hb => ?_, fun hb hsame => ?_, fun hb hnew => ?_⟩⟩
  · exact runCommand_reply hp (bodyLaneTxSet_fenced hf)
  · exact runCommand_wait hp (bodyLaneTxSet_waits hf hen hoff)
  · exact runCommand_reply hp (bodyLaneTxSet_applies hf hen hon)
  · exact runCommand_reply hp (bodyLaneTxSet_squelches hf hoff)
  · exact runCommand_reply hp (congrArg (laneHooks s1) (bodyLaneRxSet_fenced hf))
  · exact runCommand_reply hp (congrArg (laneHooks s1) (bodyLaneRxSet_acts hf))
  · exact runCommand_reply hp (congrArg (laneHooks s1) (bodyLaneLoopSet_blocked hb))
  · have hbody := bodyLaneLoopSet_free hb
    rw [if_pos hsame] at hbody
    exact runCommand_reply hp (congrArg (laneHooks s1) hbody)
  · obtain ⟨v, hv, hstart⟩ := loopStart_draws (pf p.params 0 7 0) s1
    have hbody := bodyLaneLoopSet_free hb
    rw [if_neg hnew, hstart] at hbody
    exact ⟨v, hv, runCommand_reply hp (congrArg (laneHooks s1) hbody)⟩

/-! ## TEST_PRBS_SET and TEST_PRBS_GET (09 R244 to R247) -/

section Prbs
variable {p : Packet} {s : State} {l : Nat}

/-- What forbids the generator that the command asks for. -/
def genBlocked (p : Packet) (s : State) : Prop :=
  laneFenced s (pf p.params 0 7 0) = true ∨
    (pb p.params 0 8 = true ∧ (lane s (pf p.params 0 7 0)).sd.genEn = false ∧ loopMode s = false) ∨
    (pb p.params 0 8 = true ∧ (lane s (pf p.params 0 7 0)).sd.loop = 3)

/-- The generator is newly enabled, or given another pattern. -/
def genFresh (ws : List Word) (d : Serdes) : Prop := pb ws 0 8 = true ∧ (d.genEn = false ∨ pb ws 0 9 ≠ d.genPat)

/-- The checker keeps its enable and its pattern. -/
def chkKept (ws : List Word) (d : Serdes) : Prop := pb ws 0 10 = true ∧ pb ws 0 11 = d.chkPat

/-- The settings of the command, with the generator's register `v`, of the time `now`. -/
def prbsSettings (ws : List Word) (v now : Nat) (d : Serdes) : Serdes :=
  let d := { d with genEn := pb ws 0 8, genPat := pb ws 0 9, genReg := v, chkEn := pb ws 0 10, chkPat := pb ws 0 11 }
  if pb ws 0 12 then { d with bits := 0, errors := 0, chkHist := false, lockAt := now } else d

/-- A checker that does not keep its enable and pattern has stopped. -/
def chkEnded (p : Packet) (s : State) : State :=
  if !pb p.params 0 10 || pb p.params 0 11 != (lane s (pf p.params 0 7 0)).sd.chkPat then chkStop (pf p.params 0 7 0) s else s

/-- The settings of the command come into force. -/
def prbsSet (p : Packet) (v : Nat) (s : State) : State := modSd (pf p.params 0 7 0) (prbsSettings p.params v s.clk.now) s

/-- `n` free values have been drawn. -/
def drawn (n : Nat) (s : State) : State := { s with clk := { s.clk with free := s.clk.free + n } }

theorem genFresh_iff {ws : List Word} {d : Serdes} : (pb ws 0 8 && (!d.genEn || pb ws 0 9 != d.genPat)) = true ↔ genFresh ws d := by
  simp [genFresh]

/-- The generator's register, a fresh one drawn where the generator is. -/
def genStart (p : Packet) (s : State) : Nat × State :=
  let d := (lane s (pf p.params 0 7 0)).sd
  if pb p.params 0 8 && (!d.genEn || pb p.params 0 9 != d.genPat) then
    (1 + Config.freeAt s.clk.free 0x0245 % (2 ^ prbsDeg (pb p.params 0 9) - 1), drawn 1 s)
  else (d.genReg, s)

theorem bodyTestPrbsSet_blocked (h : genBlocked p s) : bodyTestPrbsSet p s = refuse .notInMode s := by
  unfold bodyTestPrbsSet
  rcases h with hf | ⟨hgen, hoff, hmode⟩ | ⟨hgen, hloop⟩
  · exact if_pos hf
  · simp [hgen, hoff, hmode]
  · simp [hgen, hloop]

theorem bodyTestPrbsSet_free (h : ¬ genBlocked p s) :
    bodyTestPrbsSet p s = done (prbsSet p (genStart p s).1 (chkEnded p (genStart p s).2)) := by
  obtain ⟨hf, hmode, hloop⟩ := not_or.mp h |>.imp id not_or.mp
  unfold bodyTestPrbsSet
  dsimp only
  rw [if_neg hf, if_neg (by simpa using hmode), if_neg (by simpa using hloop)]
  by_cases hnew : genFresh p.params (lane s (pf p.params 0 7 0)).sd
  · simp only [genStart, if_pos (genFresh_iff.mpr hnew)]
    rfl
  · simp only [genStart, if_neg (mt genFresh_iff.mp hnew)]
    rfl

theorem bodyTestPrbsSet_runsOn (h : ¬ genBlocked p s) (hf : ¬ genFresh p.params (lane s (pf p.params 0 7 0)).sd) :
    bodyTestPrbsSet p s = done (prbsSet p (lane s (pf p.params 0 7 0)).sd.genReg (chkEnded p s)) := by
  rw [bodyTestPrbsSet_free h, genStart, if_neg (mt genFresh_iff.mp hf)]

/-- The generator's register starts from a free value of its length that is not 0 (09 R245; log 59). -/
theorem bodyTestPrbsSet_fresh (h : ¬ genBlocked p s) (hf : genFresh p.params (lane s (pf p.params 0 7 0)).sd) :
    ∃ v, 0 < v ∧ v < (if pb p.params 0 9 then 2 ^ 31 else 2 ^ 13) ∧ bodyTestPrbsSet p s = done (prbsSet p v (chkEnded p (drawn 1 s))) := by
  refine ⟨1 + Config.freeAt s.clk.free 0x0245 % (2 ^ prbsDeg (pb p.params 0 9) - 1), by omega, ?_, ?_⟩
  · cases pb p.params 0 9 <;> simp only [prbsDeg, if_true, Bool.false_eq_true, if_false] <;> omega
  · rw [bodyTestPrbsSet_free h, genStart, if_pos (genFresh_iff.mpr hf)]

/-- Bits compared in the lock in progress, at 112 a nanosecond (09 R247). -/
def lockRun (l : Nat) (s : State) : Nat := 112 * (s.clk.now - (lane s l).sd.lockAt)

/-- A locked checker has stopped with `e` mismatches in its last lock. -/
def lockEnded (l e : Nat) (s : State) : State := modSd l (fun d => { d with
  chkLock := false, okPrbs := none, bits := min (d.bits + lockRun l s) cntMax, errors := min (d.errors + e) cntMax }) (drawn 1 s)

theorem chkStop_unlocked (h : (lane s l).sd.chkLock = false) : chkStop l s = s := if_pos (by simp [h])

theorem chkStop_locked (h : (lane s l).sd.chkLock = true) : ∃ e, e ≤ lockRun l s ∧ chkStop l s = lockEnded l e s :=
  ⟨Config.freeAt s.clk.free 0x0247 % (lockRun l s + 1), Nat.le_of_lt_succ (Nat.mod_lt _ (Nat.succ_pos _)), if_neg (by simp [h])⟩

theorem chkEnded_unlocked (h : (lane s (pf p.params 0 7 0)).sd.chkLock = false) : chkEnded p s = s := by
  rw [chkEnded, chkStop_unlocked h, ite_self]

theorem chkEnded_kept (h : chkKept p.params (lane s (pf p.params 0 7 0)).sd) : chkEnded p s = s := if_neg (by simp [h.1, h.2])

theorem chkEnded_stopped (h : ¬ chkKept p.params (lane s (pf p.params 0 7 0)).sd) :
    chkEnded p s = chkStop (pf p.params 0 7 0) s := if_pos (by simpa [chkKept, imp_iff_not_or] using h)

theorem chkEnded_locked (h : ¬ chkKept p.params (lane s (pf p.params 0 7 0)).sd) (hl : (lane s (pf p.params 0 7 0)).sd.chkLock = true) :
    ∃ e, e ≤ lockRun (pf p.params 0 7 0) s ∧ chkEnded p s = lockEnded (pf p.params 0 7 0) e s := by
  rw [chkEnded_stopped h]
  exact chkStop_locked hl

theorem bodyTestPrbsGet_fenced (h : laneFenced s (pf p.params 0 7 0) = true) : bodyTestPrbsGet p s = refuse .notInMode s := if_pos h

/-- Bits compared since the counts were last brought up to date. -/
def newBits (l : Nat) (s : State) : Nat := if (lane s l).sd.chkLock then lockRun l s else 0

/-- The report of a checker with `e` mismatches since then, and what it clears or keeps; a locked one has drawn them. -/
def prbsReport (p : Packet) (e : Nat) (s : State) : Res :=
  let l := pf p.params 0 7 0
  let d := (lane s l).sd
  let t := if d.chkLock then drawn 1 s else s
  let bs := min (d.bits + newBits l s) cntMax
  let es := min (d.errors + e) cntMax
  .reply .ok [wd (b2n d.chkEn + 2 * b2n d.chkLock + 4 * b2n d.chkInv + 8 * b2n d.chkHist), wd bs, wd (bs / 2 ^ 32), wd es, wd (es / 2 ^ 32)]
    (if pb p.params 0 8 then modSd l (fun d => { d with bits := 0, errors := 0, chkHist := false, lockAt := s.clk.now }) t
     else modSd l (fun d => if d.chkLock then { d with bits := bs, errors := es, lockAt := s.clk.now } else d) t)

/-- The mismatches of a lock in progress are a free value of at most the bits compared (log 2). -/
theorem bodyTestPrbsGet_reports (h : laneFenced s (pf p.params 0 7 0) = false) :
    ∃ e, e ≤ newBits (pf p.params 0 7 0) s ∧ bodyTestPrbsGet p s = prbsReport p e s := by
  cases hlock : (lane s (pf p.params 0 7 0)).sd.chkLock with
  | false =>
    refine ⟨0, Nat.zero_le _, ?_⟩
    simp [bodyTestPrbsGet, prbsReport, newBits, h, hlock]
  | true =>
    refine ⟨Config.freeAt s.clk.free 0x0247 % (lockRun (pf p.params 0 7 0) s + 1), ?_, ?_⟩
    · simpa [newBits, hlock] using Nat.le_of_lt_succ (Nat.mod_lt _ (Nat.succ_pos _))
    · simp [bodyTestPrbsGet, prbsReport, newBits, lockRun, draw, drawn, h, hlock]

/-- A checker out of lock reports its counts as they stand. -/
theorem prbsReport_unlocked (hlock : (lane s (pf p.params 0 7 0)).sd.chkLock = false) (hclear : pb p.params 0 8 = true)
    (hbits : (lane s (pf p.params 0 7 0)).sd.bits ≤ cntMax) (herrors : (lane s (pf p.params 0 7 0)).sd.errors ≤ cntMax) :
    prbsReport p 0 s =
      let l := pf p.params 0 7 0
      let d := (lane s l).sd
      .reply .ok [wd (b2n d.chkEn + 4 * b2n d.chkInv + 8 * b2n d.chkHist), wd d.bits, wd (d.bits / 2 ^ 32), wd d.errors, wd (d.errors / 2 ^ 32)]
        (modSd l (fun d => { d with bits := 0, errors := 0, chkHist := false, lockAt := s.clk.now }) s) := by
  simp [prbsReport, newBits, hlock, hclear, hbits, herrors, b2n]

end Prbs

/-! ## TEST_EYE_SCAN and EYE_SCAN_COMPLETE (09 R248, R249) -/

section Eye
variable {p : Packet} {s : State} {l uv : Nat} {counts centres : List Nat} {j : Job}

theorem bodyTestEyeScan_fenced (h : laneFenced s (pf p.params 0 7 0) = true) : bodyTestEyeScan p s = refuse .notInMode s := if_pos h

theorem bodyTestEyeScan_busy (h : laneFenced s (pf p.params 0 7 0) = false) (hj : (eyeJob s (pf p.params 0 7 0)).isSome = true) :
    bodyTestEyeScan p s = refuse .busy s := (if_neg (by simp [h])).trans (if_pos hj)

theorem bodyTestEyeScan_starts (h : laneFenced s (pf p.params 0 7 0) = false) (hj : eyeJob s (pf p.params 0 7 0) = none) :
    bodyTestEyeScan p s = .wait (.eye (pf p.params 0 7 0)) [] []
      (eyeSync (pf p.params 0 7 0) (modSd (pf p.params 0 7 0) (fun d => { d with eyeInt := false, eyeAt := s.clk.now }) s)) :=
  (if_neg (by simp [h])).trans (if_neg (by simp [hj]))

/-- A result of a scan, with the centres of its three eyes. -/
def EyeForm (l : Nat) (counts centres : List Nat) : Prop :=
  l < 144 ∧ counts.length = 4096 ∧ centres.length = 3 ∧ ∀ c ∈ centres, c < 64

theorem exec_eyeScanComplete_noScan (h : EyeForm l counts centres) (hj : eyeJob s l = none) :
    exec (.eyeScanComplete l counts centres uv) s = .next s := by
  obtain ⟨hl, hcounts, hcentres, hlow⟩ := h
  refine (if_neg (by simpa [laneOk, hl, hcounts, hcentres] using hlow)).trans ?_
  rw [hj]

theorem exec_eyeScanComplete (h : EyeForm l counts centres) (hj : eyeJob s l = some j) :
    exec (.eyeScanComplete l counts centres uv) s = if counts.all (fun c => decide (c ≤ 2 ^ pf j.params 0 12 8)) then
      .next (eyeComplete l counts centres uv j s) else .next s := by
  obtain ⟨hl, hcounts, hcentres, hlow⟩ := h
  refine (if_neg (by simpa [laneOk, hl, hcounts, hcentres] using hlow)).trans ?_
  rw [hj]

end Eye

/-! ## PRBS_CHECKER_LOCK and PRBS_CHECKER_LOSS (09 R247) -/

section Checker
variable {s : State} {l : Nat} {bits : List Bool} {inv : Bool}

/-- The bits that a checker compares: in the near-end serial loop those that the lane sends (09 Table 9.7). -/
def checkedBits (l : Nat) (bits : List Bool) (s : State) : List Bool :=
  if (lane s l).sd.loop = 1 then ((lane s l).tx.looped.getLastD []).take (prbsDeg (lane s l).sd.chkPat + 1024) else bits

/-- The lane's checker looks for its pattern. -/
def checkerHunts (s : State) (l : Nat) : Prop :=
  running s = true ∧ laneFenced s l = false ∧ (lane s l).sd.chkEn = true ∧ (lane s l).sd.rxEn = true ∧ (lane s l).sd.chkLock = false

theorem checkerHunts_iff : (running s && (lane s l).sd.chkEn && (lane s l).sd.rxEn && !(lane s l).sd.chkLock && !laneFenced s l) = true ↔
    checkerHunts s l := by
  simp only [checkerHunts, Bool.and_eq_true, Bool.not_eq_true']
  tauto

theorem prbsPredicts_iff {q : Bool} {bs : List Bool} : prbsPredicts q bs = true ↔ bs.length = prbsDeg q + 1024 ∧
    prbsFollows q (natOf ((bs.take (prbsDeg q)).map (· != q))) (bs.drop (prbsDeg q)) = true := by simp [prbsPredicts]

theorem exec_prbsCheckerLock (hl : l < 144) : exec (.prbsCheckerLock l bits) s = .next (prbsLock l bits s) :=
  if_pos (decide_eq_true hl)

theorem prbsLock_idle (h : ¬ checkerHunts s l) : prbsLock l bits s = s := if_neg (mt checkerHunts_iff.mp h)

theorem prbsLock_locks (h : checkerHunts s l) (hform : prbsForm (lane s l).sd.chkPat (checkedBits l bits s) = some inv) :
    prbsLock l bits s = okSync l (modSd l (fun d => { d with chkLock := true, chkInv := inv, lockAt := s.clk.now }) s) := by
  rw [checkedBits] at hform
  refine (if_pos (checkerHunts_iff.mpr h)).trans ?_
  rw [hform]

theorem prbsLock_noForm (h : checkerHunts s l) (hform : prbsForm (lane s l).sd.chkPat (checkedBits l bits s) = none) :
    prbsLock l bits s = s := by
  rw [checkedBits] at hform
  refine (if_pos (checkerHunts_iff.mpr h)).trans ?_
  rw [hform]

/-- The mismatches met are enough to lose lock. -/
def lossJudged (s : State) (l b e w : Nat) : Prop := (lane s l).sd.chkLock = true ∧ 512 ≤ w ∧ w ≤ 8192 ∧ e ≤ b

theorem lossJudged_iff {b e w : Nat} : ((lane s l).sd.chkLock && decide (512 ≤ w) && decide (w ≤ 8192) && decide (e ≤ b)) = true ↔
    lossJudged s l b e w := by simp [lossJudged, and_assoc]

theorem exec_prbsCheckerLoss (hl : l < 144) (b e w : Nat) :
    exec (.prbsCheckerLoss l b { count := e, window := w }) s = .next (prbsLoss l b e w s) := if_pos (decide_eq_true hl)

theorem prbsLoss_judged {b e w : Nat} (h : lossJudged s l b e w) : prbsLoss l b e w s = modSd l (fun d => { d with
    chkLock := false, chkHist := true, okPrbs := none, bits := min (d.bits + b) cntMax, errors := min (d.errors + e) cntMax }) s :=
  if_pos (lossJudged_iff.mpr h)

theorem prbsLoss_notJudged {b e w : Nat} (h : ¬ lossJudged s l b e w) : prbsLoss l b e w s = s := if_neg (mt lossJudged_iff.mp h)

end Checker

/-- Settles O23: each command's body in the cases of its checks, and each event where it acts and where it does not. -/
theorem testPatterns : Obligations.TestPatterns := by
  refine ⟨fun p s s1 hp => ?set, fun p s s1 hp => ?get, fun p s s1 hp => ⟨fun hf => ?fenced, fun hf hj => ?busy, fun hf hj => ?starts⟩,
    fun l counts c0 c1 c2 uv s hl hcounts h0 h1 h2 => ?scan, fun l bits s hl => ?lock, fun l b e w s hl => ?loss⟩
  case set =>
    refine ⟨fun hb => runCommand_reply hp (bodyTestPrbsSet_blocked hb), fun hb => ⟨_, runCommand_reply hp (bodyTestPrbsSet_free hb)⟩,
      fun hb hlock hf => ?_, fun hb hlock hf => ?_, fun hb hlock hf => ⟨fun hkeeps => ?_, fun hkeeps => ?_⟩, fun hb hlock hf => ?_⟩
    · have hbody := bodyTestPrbsSet_runsOn hb hf
      rw [chkEnded_unlocked hlock] at hbody
      exact runCommand_reply hp hbody
    · obtain ⟨v, hpos, hlt, hbody⟩ := bodyTestPrbsSet_fresh hb hf
      rw [chkEnded_unlocked (s := drawn 1 s1) hlock] at hbody
      exact ⟨v, hpos, hlt, runCommand_reply hp hbody⟩
    · have hbody := bodyTestPrbsSet_runsOn hb hf
      rw [chkEnded_kept hkeeps] at hbody
      exact runCommand_reply hp hbody
    · obtain ⟨e, he, hend⟩ := chkEnded_locked hkeeps hlock
      have hbody := bodyTestPrbsSet_runsOn hb hf
      rw [hend] at hbody
      exact ⟨e, he, runCommand_reply hp hbody⟩
    · obtain ⟨v, hpos, hlt, hbody⟩ := bodyTestPrbsSet_fresh hb hf
      refine ⟨v, hpos, hlt, fun hkeeps => ?_, fun hkeeps => ?_⟩
      · rw [chkEnded_kept (s := drawn 1 s1) hkeeps] at hbody
        exact runCommand_reply hp hbody
      · obtain ⟨e, he, hend⟩ := chkEnded_locked (s := drawn 1 s1) hkeeps hlock
        rw [hend] at hbody
        exact ⟨e, he, runCommand_reply hp hbody⟩
  case get =>
    have hreport := bodyTestPrbsGet_reports (p := p) (s := s1)
    refine ⟨fun hf => runCommand_reply hp (bodyTestPrbsGet_fenced hf), fun hf => ?_, fun hf hlock hclear hbits herrors => ?_, fun hf => ?_⟩
    · obtain ⟨e, -, hbody⟩ := hreport hf
      exact ⟨_, _, runCommand_reply hp hbody⟩
    · obtain ⟨e, he, hbody⟩ := hreport hf
      obtain rfl : e = 0 := by simpa [newBits, hlock] using he
      exact runCommand_reply hp (hbody.trans (prbsReport_unlocked hlock hclear hbits herrors))
    · obtain ⟨e, he, hbody⟩ := hreport hf
      exact ⟨e, he, runCommand_reply hp hbody⟩
  case fenced => exact runCommand_reply hp (bodyTestEyeScan_fenced hf)
  case busy => exact runCommand_reply hp (bodyTestEyeScan_busy hf hj)
  case starts => exact runCommand_wait hp (bodyTestEyeScan_starts hf hj)
  case scan =>
    have hform : EyeForm l counts [c0, c1, c2] := ⟨hl, hcounts, rfl, by simp [h0, h1, h2]⟩
    refine ⟨exec_eyeScanComplete_noScan hform, fun j hj hmany => ?_, fun j hj hall => ?_⟩
    · exact (exec_eyeScanComplete hform hj).trans (if_neg (by simpa using hmany))
    · exact (exec_eyeScanComplete hform hj).trans (if_pos hall)
  case lock =>
    intro d deg predicted lock bits'
    have hpred (bs : List Bool) : prbsPredicts d.chkPat bs = true ↔ predicted bs := prbsPredicts_iff
    refine ⟨fun hrun hf hen hrx hlock => ?_, fun h => ?_⟩
    · have hhunts : checkerHunts s l := ⟨hrun, hf, hen, hrx, hlock⟩
      refine ⟨fun h => ?_, fun hno h => ?_, fun hno hno' => ?_⟩ <;> rw [exec_prbsCheckerLock hl]
      · exact congrArg _ (prbsLock_locks hhunts (if_pos ((hpred _).mpr h)))
      · exact congrArg _ (prbsLock_locks hhunts ((if_neg (mt (hpred _).mp hno)).trans (if_pos ((hpred _).mpr h))))
      · exact congrArg _ (prbsLock_noForm hhunts ((if_neg (mt (hpred _).mp hno)).trans (if_neg (mt (hpred _).mp hno'))))
    · rw [exec_prbsCheckerLock hl, prbsLock_idle]
      rintro ⟨hrun, hf, hen, hrx, hlock⟩
      simp [hrun, hf, show d.chkEn = true from hen, show d.rxEn = true from hrx, show d.chkLock = false from hlock] at h
  case loss =>
    refine ⟨fun hlock hmany hmost hle => ?_, fun h => ?_⟩ <;> rw [exec_prbsCheckerLoss hl]
    · exact congrArg _ (prbsLoss_judged ⟨hlock, hmany, hmost, hle⟩)
    · refine congrArg _ (prbsLoss_notJudged ?_)
      rintro ⟨hlock, hmany, hmost, hle⟩
      rcases h with hno | h
      · exact absurd (hno.symm.trans hlock) Bool.false_ne_true
      · omega

/-! ## LOS_WINDOW_END, CDR_LOCK and CDR_LOSS_OF_LOCK (09 R234, R235, R239) -/

section Receiver
variable {s : State} {l a : Nat} {d : Serdes}

/-- The receiver of the lane works: enabled, neither failed nor fenced, in a running mode. -/
def receives (s : State) (l : Nat) : Prop :=
  running s = true ∧ (lane s l).sd.rxEn = true ∧ laneFenced s l = false ∧ (lane s l).sd.failed = false

/-- The amplitude that the detector sees: in the near-end serial loop that of the lane's own transmitter. -/
def seenAmpl (s : State) (l a : Nat) : Nat := if (lane s l).sd.loop = 1 ∧ txDrives s l = false then min a 14 else a

theorem losThresh_eq (cls : Nat) : losThresh cls =
    (if cls = 1 then 45 else if cls = 2 then 60 else 35, if cls = 1 then 70 else if cls = 2 then 90 else 55) := by
  unfold losThresh
  split_ifs <;> rfl

theorem losWindow_clears (hlos : d.los = true) (ha : (losThresh d.cls).2 < a) (hab : 1 ≤ d.above) :
    losWindow a d = { d with ampl := min a 4095, los := false, above := 0 } := by
  simp [losWindow, hlos, ha, hab]

theorem losWindow_counts (hlos : d.los = true) (ha : (losThresh d.cls).2 < a) (hab : d.above = 0) :
    losWindow a d = { d with ampl := min a 4095, above := 1 } := by
  simp [losWindow, hlos, ha, hab]

theorem losWindow_restarts (hlos : d.los = true) (ha : a ≤ (losThresh d.cls).2) :
    losWindow a d = { d with ampl := min a 4095, above := 0 } := by
  simp [losWindow, hlos, ha.not_gt]

theorem losWindow_arises (hlos : d.los = false) (ha : a < (losThresh d.cls).1) :
    losWindow a d = losArise { d with ampl := min a 4095 } := by
  simp [losWindow, hlos, ha]

theorem losWindow_quiet (hlos : d.los = false) (ha : (losThresh d.cls).1 ≤ a) : losWindow a d = { d with ampl := min a 4095 } := by
  simp [losWindow, hlos, ha.not_gt]

theorem losArise_hold (h : d.hold = true) : losArise d = { d with los := true, above := 0, locked := false } := if_pos h

theorem losArise_freezes (h : d.hold = false) : losArise d =
    { d with los := true, above := 0, locked := false, conv := false, coefs := d.good.getD (classCoefs d.cls) } := if_neg (by simp [h])

theorem exec_losWindowEnd (hl : l < 144) : exec (.losWindowEnd l a) s = .next (laneWatch s (losWindowEnd l a s)) :=
  if_pos (decide_eq_true hl)

theorem exec_cdrLock (hl : l < 144) (off : Int) : exec (.cdrLock l off) s = .next (laneWatch s (cdrLock l off s)) :=
  if_pos (decide_eq_true hl)

theorem exec_cdrLossOfLock (hl : l < 144) : exec (.cdrLossOfLock l) s = .next (laneWatch s (cdrLoss l s)) :=
  if_pos (decide_eq_true hl)

/-- The lane follows its receiver, which the window has made `d`. -/
theorem losWindowEnd_receives (h : receives s l) (hd : losWindow (seenAmpl s l a) (lane s l).sd = d) :
    losWindowEnd l a s = laneSync l (modSd l (fun _ => d) s) := by
  obtain ⟨hrun, hrx, hfence, hfail⟩ := h
  refine (if_pos (by simp [hrun, hrx, hfence, hfail])).trans ?_
  rw [← hd]
  simp only [seenAmpl, Bool.and_eq_true, decide_eq_true_eq, Bool.not_eq_true']
  rfl

/-- A loop on a line out of lock is taken up with its buffer centred and empty; in lock, with its drift. -/
theorem cdrLock_receives (h : receives s l) (hlos : (lane s l).sd.los = false) (off : Int) :
    cdrLock l off s = laneSync l (modSd l (fun d => { d with
      locked := true, offset := off, fill := if lineLol d then 64 else (loopDrift s.clk.now d).fill
      frac := if lineLol d then 0 else (loopDrift s.clk.now d).frac, fillAt := s.clk.now, echo := if lineLol d then [] else d.echo }) s) := by
  obtain ⟨hrun, hrx, hfence, hfail⟩ := h
  refine (if_pos (by simp [hrun, hrx, hlos, hfence, hfail])).trans (congrArg (fun f => laneSync l (modSd l f s)) (funext fun d => ?_))
  cases lineLol d <;> rfl

theorem cdrLoss_running (hrun : running s = true) (hfence : laneFenced s l = false) :
    cdrLoss l s = laneSync l (modSd l (fun d => { d with locked := false }) s) := if_pos (by simp [hrun, hfence])

end Receiver

/-! ## GOOD_SET_REFRESH and ADAPTATION_CONVERGED (09 R236) -/

section Adaptation
variable {s : State} {l : Nat} {d : Serdes} {clean : Bool} {now : Nat} {coefs : List Int}

/-- A condition that began at `t` has held for 1 ms. -/
def heldFor1ms (now : Nat) (t : Option Nat) : Prop := ∃ a, t = some a ∧ a + 1000000 ≤ now

theorem goodDue_iff : goodDue d clean now = true ↔ d.rxEn = true ∧ d.locked = true ∧
    (heldFor1ms now d.okFrame ∨ (clean = true ∧ heldFor1ms now d.okPrbs)) ∧ d.goodAt + 1000000 ≤ now := by
  cases hframe : d.okFrame <;> cases hprbs : d.okPrbs <;> simp [goodDue, heldFor1ms, hframe, hprbs, and_assoc]

theorem goodTake_eq (hrx : d.rxEn = true) : goodTake coefs now d =
    let c := if d.hold = false ∧ d.los = false ∧ d.failed = false then coefs else d.coefs
    { d with good := some c, coefs := c, goodAt := now } := by
  simp only [goodTake, adapting, hrx, Bool.true_and, Bool.and_eq_true, Bool.not_eq_true', and_assoc]

theorem exec_goodSetRefresh (hl : l < 144) (hc : coefs.length = 32) : exec (.goodSetRefresh l { coefs, clean }) s =
    if goodDue (lane s l).sd clean s.clk.now then .next (modSd l (goodTake coefs s.clk.now) s) else .next s :=
  if_neg (by simp [laneOk, hl, hc])

theorem exec_adaptationConverged (hl : l < 144) (hrx : (lane s l).sd.rxEn = true) (hlos : (lane s l).sd.los = false)
    (hhold : (lane s l).sd.hold = false) :
    exec (.adaptationConverged l) s = .next (convergedBase l (modSd l (fun d => { d with conv := true }) s)) :=
  (if_neg (by simp [laneOk, hl])).trans (if_pos (by simp [hrx, hlos, hhold]))

end Adaptation

/-! ## LANE_LOOP_SLIP (09 R243) -/

section Slip
variable {s : State} {l : Nat} {w : Int}

/-- The fill of a far-end loop's buffer after `w` symbols of wander and the offset's drift. -/
def slipFill (s : State) (l : Nat) (w : Int) : Int := (lane s l).sd.fill + w + (driftOf s.clk.now (lane s l).sd).1

/-- The drift is taken up to now. -/
def driftTaken (l : Nat) (s : State) : State :=
  modSd l (fun d => { d with fillAt := s.clk.now, frac := (driftOf s.clk.now (lane s l).sd).2 }) s

theorem exec_laneLoopSlip (hl : l < 144) : exec (.laneLoopSlip { lane := l, symbols := w }) s = .next (loopSlip l w s) :=
  if_pos (decide_eq_true hl)

theorem loopSlip_eq (hloop : (lane s l).sd.loop = 3) (hlol : lineLol (lane s l).sd = false) : loopSlip l w s =
    if 0 < slipFill s l w && slipFill s l w < 128 then modSd l (fun d => { d with fill := (slipFill s l w).toNat }) (driftTaken l s)
    else pulse 0x02 0x20 l (wd (((lane s l).sd.slips + 1) % 65536)) false (modSd l (fun d => { d with
      slips := ((lane s l).sd.slips + 1) % 65536, fill := 64
      echo := if 0 < slipFill s l w then d.echo.drop 128 else d.echo.take 128 ++ d.echo }) (driftTaken l s)) :=
  if_pos (by simp [hloop, hlol])

theorem loopSlip_moves (hloop : (lane s l).sd.loop = 3) (hlol : lineLol (lane s l).sd = false)
    (hf : 0 < slipFill s l w ∧ slipFill s l w < 128) :
    loopSlip l w s = modSd l (fun d => { d with fill := (slipFill s l w).toNat }) (driftTaken l s) :=
  (loopSlip_eq hloop hlol).trans (if_pos (by simpa using hf))

theorem loopSlip_slips (hloop : (lane s l).sd.loop = 3) (hlol : lineLol (lane s l).sd = false)
    (hf : ¬ (0 < slipFill s l w ∧ slipFill s l w < 128)) : loopSlip l w s =
    pulse 0x02 0x20 l (wd (((lane s l).sd.slips + 1) % 65536)) false (modSd l (fun d => { d with
      slips := ((lane s l).sd.slips + 1) % 65536, fill := 64
      echo := if 0 < slipFill s l w then d.echo.drop 128 else d.echo.take 128 ++ d.echo }) (driftTaken l s)) :=
  (loopSlip_eq hloop hlol).trans (if_neg (by simpa using hf))

end Slip

/-- Settles O24: a window's amplitude against the thresholds of its class, and the other events under their guards. -/
theorem serdesEvents : Obligations.SerdesEvents := by
  refine ⟨fun l b s hl hrun hrx hfence hfail => ?window, fun l off s hl hrun hrx hlos hfence hfail => ?_,
    fun l s hl hrun hfence => ?_, fun l coefs clean s hl hc => ⟨fun hdue => ?_, fun hno => ?_⟩,
    fun l w s hl hloop hlol => ⟨fun hf => ?_, fun hf => ?_⟩,
    fun l s hl hrx hlos hhold => exec_adaptationConverged hl hrx hlos hhold⟩
  case window =>
    have hrow {d : Serdes} (hd : losWindow (seenAmpl s l b) (lane s l).sd = d) :
        exec (.losWindowEnd l b) s = .next (laneWatch s (laneSync l (modSd l (fun _ => d) s))) := by
      rw [exec_losWindowEnd hl, losWindowEnd_receives ⟨hrun, hrx, hfence, hfail⟩ hd]
    have hlo := congrArg Prod.fst (losThresh_eq (lane s l).sd.cls)
    have hhi := congrArg Prod.snd (losThresh_eq (lane s l).sd.cls)
    refine ⟨fun hlos ha hab => hrow ?_, fun hlos ha hab => hrow ?_, fun hlos ha => hrow ?_, fun hlos ha hhold => hrow ?_,
      fun hlos ha hhold => hrow ?_, fun hlos ha => hrow ?_⟩
    · exact losWindow_clears hlos (hhi.trans_lt ha) hab
    · exact losWindow_counts hlos (hhi.trans_lt ha) hab
    · exact losWindow_restarts hlos (ha.trans_eq hhi.symm)
    · exact (losWindow_arises hlos (ha.trans_eq hlo.symm)).trans (losArise_hold hhold)
    · exact (losWindow_arises hlos (ha.trans_eq hlo.symm)).trans (losArise_freezes hhold)
    · exact losWindow_quiet hlos (hlo.trans_le ha)
  · rw [exec_cdrLock hl, cdrLock_receives ⟨hrun, hrx, hfence, hfail⟩ hlos]
  · rw [exec_cdrLossOfLock hl, cdrLoss_running hrun hfence]
  · rw [exec_goodSetRefresh hl hc, if_pos (goodDue_iff.mpr hdue)]
    have htake := goodTake_eq (coefs := coefs) (now := s.clk.now) hdue.1
    rw [modSd, htake]
    rfl
  · rw [exec_goodSetRefresh hl hc, if_neg (mt goodDue_iff.mp hno)]
  · exact (exec_laneLoopSlip hl).trans (congrArg _ (loopSlip_moves hloop hlol hf))
  · exact (exec_laneLoopSlip hl).trans (congrArg _ (loopSlip_slips hloop hlol hf))

end Sys2Proof.Machine


/-! PROOFS. Spares and wear (15_endurance_and_failover.md): the commands of class HEALTH, a unit's failure, the swap that cures it, its
retest, and the measures that recommend one. -/

namespace Sys2Proof.Machine

/-! ## HEALTH_SPARE_SWAP (15 R419) -/

section SpareSwap
variable {p : Packet} {s t : State} {pool u x a : Nat}

theorem engineSwap_begins {w : Swap} (hs : swapOf s 0 = none) (ht : swapOf t 0 = some w) :
    engineSwap s t = sealSwap w.unit (laneHold w.unit t) := by simp [engineSwap, swapBegun, hs, ht]

theorem engineSwap_other (h : (swapOf s 0).isSome = true ∨ swapOf t 0 = none) : engineSwap s t = t := by
  unfold engineSwap
  split
  next hs ht => rcases h with h | h <;> simp [hs, ht] at h
  next => rfl

theorem engineSwap_self (s : State) : engineSwap s s = s :=
  engineSwap_other (by cases swapOf s 0 <;> simp)

/-- A planned handover is to the standby named, fit, with the SVA well. -/
theorem handover_begins (ha : activeCp s = some a) (hsva : s.cp.svaOk = true) (hfit : standbyFit s = true) (hu : standby s = some u) :
    handover u s = .wait .handover [] [] (gapStart a u 6 s) := by simp [handover, ha, hsva, hfit, hu]

theorem handover_refused (h : activeCp s = none ∨ s.cp.svaOk = false ∨ standbyFit s = false ∨ standby s ≠ some u) :
    handover u s = refuse .notInMode s := by
  unfold handover
  rcases h with hnone | h
  · rw [hnone]
  · split
    · exact if_neg (by rcases h with h | h | h <;> simp [h])
    · rfl

/-- The pool, the operation and the unit of the command. -/
def swapPool (p : Packet) : Nat := pf p.params 0 3 0
def swapOp (p : Packet) : Nat := pf p.params 0 5 4
def swapUnit (p : Packet) : Nat := pf p.params 1 12 0

theorem bodySpareSwapHeld_reply {st : Status} {ws : List Word} (h : bodyHealthSpareSwap p s = .reply st ws t) :
    bodySpareSwapHeld p s = .reply st ws t := by rw [bodySpareSwapHeld, h]

theorem bodySpareSwapHeld_wait {w : Work} {i : List Byte} {k : List Nat} (h : bodyHealthSpareSwap p s = .wait w i k t) :
    bodySpareSwapHeld p s = .wait w i k (engineSwap s t) := by rw [bodySpareSwapHeld, h]

theorem bodyHealthSpareSwap_holdoff (h : swapOp p = 2) :
    bodyHealthSpareSwap p s = .reply .ok [0, 0] { s with cp := { s.cp with holdoff := swapUnit p } } := if_pos h

theorem bodyHealthSpareSwap_retest (h : swapOp p = 1) : bodyHealthSpareSwap p s =
    if swapPool p < 8 ∧ unitOut (swapPool p) (swapUnit p) s = true then .wait (.retest (swapPool p) (swapUnit p)) [] [] s
    else refuse .notInMode s := by
  rw [swapOp] at h
  exact (if_neg (by rw [h]; decide)).trans ((if_pos h).trans (if_congr (by simp [swapPool, swapUnit]) rfl rfl))

section Swap
variable (hop : swapOp p = 0)
include hop

theorem bodyHealthSpareSwap_handover (hpool : swapPool p = 8) : bodyHealthSpareSwap p s = handover (swapUnit p) s := by
  rw [swapOp] at hop
  exact (if_neg (by rw [hop]; decide)).trans ((if_neg (by rw [hop]; decide)).trans (if_pos hpool))

theorem bodyHealthSpareSwap_exhausted (hpool : swapPool p ≠ 8) (hx : pickSpare (swapPool p) (swapUnit p) s = none) :
    bodyHealthSpareSwap p s = refuse .spareExhausted s := by
  rw [swapOp] at hop
  rw [swapPool, swapUnit] at hx
  refine (if_neg (by rw [hop]; decide)).trans ((if_neg (by rw [hop]; decide)).trans ((if_neg hpool).trans ?_))
  rw [hx]

theorem bodyHealthSpareSwap_spare (hpool : swapPool p ≠ 8) (hx : pickSpare (swapPool p) (swapUnit p) s = some x) :
    bodyHealthSpareSwap p s =
      if unitOut (swapPool p) (swapUnit p) s = true ∨ unitFenced (swapPool p) (swapUnit p) s = true then refuse .notInMode s
      else if (swapOf s (swapPool p)).isSome then refuse .busy s
      else .wait (.swap (swapPool p) (swapUnit p)) [] [] (startSwap (swapPool p) (swapUnit p) x false p.ring s) := by
  rw [swapOp] at hop
  rw [swapPool, swapUnit] at hx
  refine (if_neg (by rw [hop]; decide)).trans ((if_neg (by rw [hop]; decide)).trans ((if_neg hpool).trans ?_))
  rw [hx]
  exact if_congr (by simp [swapPool, swapUnit]) rfl rfl

end Swap

end SpareSwap

/-! ## A unit fails (15 R403, R404) -/

section Failure
variable {s : State} {p u x k : Nat} {w : Swap} {o : Bool}

theorem markHard_marked (h : (p, u) ∈ s.spare.hard) : markHard p u s = s := if_pos (by simpa using h)

theorem markHard_new (h : (p, u) ∉ s.spare.hard) :
    markHard p u s = { s with spare := { s.spare with hard := s.spare.hard ++ [(p, u)] } } := if_neg (by simpa using h)

theorem autoSwap_waits (h : (swapOf s p).isSome = true) :
    autoSwap p u s = { s with spare := { s.spare with wait := s.spare.wait ++ [(p, u)] } } := if_pos h

theorem autoSwap_starts (h : swapOf s p = none) (hx : pickSpare p u s = some x) : autoSwap p u s = startSwap p u x true 4 s := by
  simp [autoSwap, h, hx]

theorem autoSwap_fails (h : swapOf s p = none) (hx : pickSpare p u s = none) : autoSwap p u s = swapFail p u s := by
  simp [autoSwap, h, hx]

theorem failUnit_unit (hserved : servedBy p u s = none) (hin : unitOut p u s = false) :
    failUnit p u s = autoSwap p u (unitFail p u (markHard p u s)) := by simp [failUnit, hserved, hin]

theorem failUnit_out (hserved : servedBy p u s = none) (hout : unitOut p u s = true) : failUnit p u s = s := by
  simp [failUnit, hserved, hout]

/-- The spare that serves for a unit is marked and serves no longer. -/
theorem failUnit_spare (hserved : servedBy p u s = some x) : failUnit p u s = autoSwap p u (unitFail p u { s with spare := { s.spare with
    used := s.spare.used.filter (fun y => !(y.1 == p && y.2.2 == u)), dead := s.spare.dead ++ [(p, x)] } }) := by
  simp [failUnit, hserved]

theorem serveWait_busy (k : Nat) (h : (swapOf s p).isSome = true) : serveWait p k s = s := by
  cases k with
  | zero => rfl
  | succ k => exact if_pos h

theorem serveWait_noneWaits (k : Nat) (h : ∀ x ∈ s.spare.wait, x.1 ≠ p) : serveWait p k s = s := by
  have hfind : s.spare.wait.find? (fun x => x.1 == p) = none := List.find?_eq_none.mpr fun x hx => by simpa using h x hx
  cases k with
  | zero => rfl
  | succ k => simp [serveWait, hfind]

theorem serveWait_serves {y : Nat × Nat} (h : swapOf s p = none) (hy : s.spare.wait.find? (fun x => x.1 == p) = some y) :
    serveWait p (k + 1) s = serveWait p k (autoSwap p y.2 { s with spare := { s.spare with wait := s.spare.wait.erase (p, y.2) } }) := by
  simp [serveWait, h, hy]

/-- The spare that a swap brings in is marked. -/
def spareMarked (p : Nat) (w : Swap) (s : State) : State := { s with spare := { s.spare with dead := s.spare.dead ++ [(p, w.spare)] } }

/-- The swap is abandoned, and its command answered. -/
def swapAbandoned (p : Nat) (w : Swap) (s : State) : State :=
  if w.ring < 4 then endJob w.ring .spareExhausted [] (setSwap p none s) else setSwap p none s

theorem spareFails_next (hx : pickSpare p w.unit (spareMarked p w s) = some x) : spareFails p w s =
    setSwap p (some { w with spare := x, since := s.clk.now, tick := s.clk.ticks }) (reserve p (spareMarked p w s)) := by
  rw [spareMarked] at hx
  simp only [spareFails, hx]
  rfl

section NoneLeft
variable (hx : pickSpare p w.unit (spareMarked p w s) = none)
include hx

theorem spareFails_none : spareFails p w s =
    serveWait p (swapAbandoned p w (spareMarked p w s)).spare.wait.length
      (if w.hard then swapFail p w.unit (swapAbandoned p w (spareMarked p w s))
       else raise 0x0F 0x11 p (wd w.unit) false (swapAbandoned p w (spareMarked p w s))) := by
  rw [spareMarked] at hx
  simp only [spareFails, hx]
  rfl

theorem spareFails_failedUnit (hhard : w.hard = true) : spareFails p w s =
    serveWait p (swapAbandoned p w (spareMarked p w s)).spare.wait.length (swapFail p w.unit (swapAbandoned p w (spareMarked p w s))) := by
  rw [spareFails_none hx, if_pos hhard]

/-- A unit whose swap was commanded stays in service. -/
theorem spareFails_commanded (hsoft : w.hard = false) : spareFails p w s =
    serveWait p (swapAbandoned p w (spareMarked p w s)).spare.wait.length
      (raise 0x0F 0x11 p (wd w.unit) false (swapAbandoned p w (spareMarked p w s))) := by
  rw [spareFails_none hx, if_neg (by simp [hsoft])]

end NoneLeft

theorem hardFailure_idle (h : swapOf s p = none) : hardFailure p u false s = failUnit p u s := by simp [hardFailure, h]

theorem hardFailure_noSpare (h : swapOf s p = none) : hardFailure p u true s = s := by simp [hardFailure, h]

theorem hardFailure_spare (h : swapOf s p = some w) : hardFailure p u true s = spareFails p w s := by simp [hardFailure, h]

/-- A swap that runs of the unit cures its failure. -/
theorem hardFailure_swapped (h : swapOf s p = some w) (hu : w.unit = u) :
    hardFailure p u false s = setSwap p (some { w with hard := true }) (unitFail p u (markHard p u s)) := by
  simp [hardFailure, h, hu]

theorem hardFailure_waiting (h : swapOf s p = some w) (hu : w.unit ≠ u) (hw : (p, u) ∈ s.spare.wait) : hardFailure p u false s = s := by
  simp [hardFailure, h, hu, hw]

theorem hardFailure_other (h : swapOf s p = some w) (hu : w.unit ≠ u) (hw : (p, u) ∉ s.spare.wait) :
    hardFailure p u false s = failUnit p u s := by simp [hardFailure, h, hu, hw]

theorem exec_unitHardFailure (hp : p < 8) (hu : u < poolUnits p) : exec (.unitHardFailure p u o) s =
    if s.health.failed then .next s else .next (swapGone s (engineSwap s (hardFailure p u o s))) := if_pos (by simp [hp, hu])

theorem exec_monitorFailure : exec (.unitHardFailure 14 u o) s = .next (monitorFails u s) := rfl

theorem exec_serdesFailure (hu : u < 144) : exec (.unitHardFailure 15 u o) s =
    if s.health.failed then .next s else .next (laneWatch s (serdesFail u s)) := if_pos (by simp [laneOk, hu])

end Failure

/-! ## SPARE_CUTOVER and UNIT_RETEST_COMPLETE (15 R402, R419) -/

section Cutover
variable {s : State} {p u : Nat} {w : Swap}

/-- The mirror of a pool that has one lasts until a cycle boundary after its cycles. -/
def mirrorLasts (p : Nat) (w : Swap) (s : State) : Prop := 3 ≤ p ∧ (nsOf s.clk ≠ 0 ∨ s.clk.ticks < w.tick + mirrorCycles p)

theorem exec_spareCutover_none (h : swapOf s p = none) : exec (.spareCutover p) s = .next s := by
  change execSpareCutover p s = _
  simp only [execSpareCutover, h]

theorem exec_spareCutover_waits (h : swapOf s p = some w) (hm : mirrorLasts p w s) : exec (.spareCutover p) s = .next s := by
  change execSpareCutover p s = _
  simp only [execSpareCutover, h]
  exact if_pos (by simpa [mirrorLasts] using hm)

theorem exec_spareCutover (h : swapOf s p = some w) (hm : ¬ mirrorLasts p w s) :
    exec (.spareCutover p) s = .next (cutoverStep p w s) := by
  change execSpareCutover p s = _
  simp only [execSpareCutover, h]
  exact if_neg (by simpa [mirrorLasts] using hm)

/-- Only a Lane Engine and a synthesiser bring lanes back with them. -/
theorem cutoverStep_plain (h0 : p ≠ 0) (h2 : p ≠ 2) : cutoverStep p w s = cutover p w s := by simp [cutoverStep, swapEnded, h0, h2]

/-- The spare stands in for the unit, which is out of service. -/
def swappedIn (p : Nat) (w : Swap) (s : State) : State :=
  let t := takeOut p w.unit (setSwap p none s)
  { t with spare := { t.spare with
      used := t.spare.used ++ [(p, w.spare, w.unit)], last := tset noLast p (t.clk.fc, t.clk.cyc, w.unit) t.spare.last } }

/-- The block of the Connection Table that the spare replaces: the first of its unit is kept to come back. -/
def blockOut (u : Nat) (s : State) : Tbl (Option Nat) :=
  if unitOut 7 u s = true then s.conn.outBlk else tset noTime u (some (tget blockReset s.conn.blocks u)) s.conn.outBlk

theorem cutover_eq : cutover p w s =
    let t := swappedIn p w s
    let t1 := raise 0x0F 0x10 p (wd (w.unit + 2 ^ 13 * w.spare + 2 ^ 31 * b2n w.auto)) false (if p = 7 then
      { t with conn := { t.conn with
          outBlk := blockOut w.unit s, blocks := tset blockReset w.unit w.spare t.conn.blocks, bad := t.conn.bad.filter (fun b => b != w.unit) } }
      else t)
    let t2 := if w.ring < 4 then endJob w.ring .ok [t1.clk.fc, wd (t1.clk.cyc + 8 * w.spare)] t1 else t1
    serveWait p t2.spare.wait.length t2 := by
  by_cases hp : p = 7
  · subst hp
    cases hout : unitOut 7 w.unit s <;> simp [cutover, swappedIn, blockOut, hout]
  · simp only [cutover, swappedIn, if_neg hp]

/-- A command whose unit is under retest. -/
def isRetest (j : Job) : Bool := match j.work with | .retest .. => true | _ => false

theorem exec_unitRetestComplete_none {ok : Bool} (h : findJob s isRetest = none) : exec (.unitRetestComplete ok) s = .next s := by
  change (match findJob s isRetest with | some j => _ | none => _) = _
  rw [h]

theorem exec_unitRetestComplete {ok : Bool} {j : Job} (h : findJob s isRetest = some j) (hw : j.work = .retest p u) :
    exec (.unitRetestComplete ok) s = .next (retestComplete ok j p u s) := by
  change (match findJob s isRetest with | some j => _ | none => _) = _
  rw [h]
  simp only [hw]

/-- The unit is out of service no more, and the spare's number is free. -/
def backInService (p u : Nat) (s : State) : State := { s with spare := { s.spare with
  out := s.spare.out.erase (p, u), hard := s.spare.hard.erase (p, u), used := s.spare.used.filter (fun x => !(x.1 == p && x.2.2 == u)) } }

/-- And a Connection Table block keeps no replaced one. -/
def blockBack (u : Nat) (s : State) : State :=
  let t := backInService 7 u s
  { t with conn := { t.conn with outBlk := tset noTime u none s.conn.outBlk } }

theorem rejoin_other (hp : p ≠ 7) : rejoin p u s = backInService p u s := if_neg hp

theorem rejoin_lostBlock (hbad : u ∈ s.conn.bad) : rejoin 7 u s =
    let t := blockBack u s
    { t with conn := { t.conn with
      bad := s.conn.bad.filter (fun b => b != u)
      blocks := tset blockReset u ((tget noTime s.conn.outBlk u).getD (tget blockReset s.conn.blocks u)) s.conn.blocks } } := by
  simp [rejoin, hbad, blockBack, backInService]

theorem rejoin_replacedBlock {b : Nat} (hbad : u ∉ s.conn.bad) (hx : tget noTime s.conn.outBlk u = some b) : rejoin 7 u s =
    let t := blockBack u s
    poolGive b { t with spare := { t.spare with dead := t.spare.dead.erase (7, b) } } := by
  simp [rejoin, hbad, hx, blockBack, backInService]

theorem rejoin_block (hbad : u ∉ s.conn.bad) (hx : tget noTime s.conn.outBlk u = none) : rejoin 7 u s = blockBack u s := by
  simp [rejoin, hbad, hx, blockBack, backInService]

end Cutover

/-! ## Wear (15 R405; 09 R253) -/

section Wear
variable {s : State} {p u n l h w : Nat} {m : WearMeas} {ms : List WearMeas}

/-- An hour's sample is due. -/
def wearDue (s : State) : Prop := running s = true ∧ s.health.failed = false ∧ s.health.hourAt + 3600000000000 ≤ s.clk.now

theorem exec_healthWearSample (hms : ∀ m ∈ ms, wearOk m = true) (h : wearDue s) :
    exec (.healthWearSample ms) s = .next (wearSample ms s) := by
  obtain ⟨hrun, hfail, hhour⟩ := h
  exact (if_neg (by simpa using hms)).trans (if_pos (by simp [hrun, hfail, hhour]))

theorem exec_healthWearSample_notDue (hms : ∀ m ∈ ms, wearOk m = true) (h : ¬ wearDue s) :
    exec (.healthWearSample ms) s = .next s :=
  (if_neg (by simpa using hms)).trans (if_neg (by simpa [wearDue, and_assoc] using h))

/-- An oscillator's baseline, which a first sample takes, and its slowdown in 0.01 %. -/
def oscBaseline (m : WearMeas) (o f : Nat) (s : State) : Nat := (tget noTime s.health.oscBase (m.die * 32 + o)).getD f

theorem wearAge_osc {o f : Nat} (ho : m.osc = some (o, f)) : wearAge m s =
    let b := oscBaseline m o f s
    let d := tget dieReset s.health.die m.die
    let t : State := { s with health := { s.health with
      oscBase := tset noTime (m.die * 32 + o) (some b) s.health.oscBase
      die := tset dieReset m.die { d with slow := max d.slow (slowdown b f) } s.health.die } }
    if 300 ≤ slowdown b f then recommend m.pool m.unit 1 t else t := by
  rw [wearAge, ho]
  rfl

theorem wearWire_wire {x : Nat × Nat} (hx : m.wire = some x) : wearWire m s =
    let l := (x :: tget noPairs s.health.wires (unitKey m.pool m.unit)).take 24
    let t := { s with health := { s.health with wires := tset noPairs (unitKey m.pool m.unit) l s.health.wires } }
    if (l.map (·.2)).sum < (l.map (·.1)).sum * 10 ^ 12 then recommend m.pool m.unit 3 t else t := by
  rw [wearWire, hx]

/-- A recommendation of the unit was made within the last 24 hours. -/
def lately (p u : Nat) (s : State) : Prop := ∃ t, tget noTime s.health.recAt (unitKey p u) = some t ∧ s.clk.now < t + 86400000000000

theorem recommend_quiet (h : s.health.failed = true ∨ lately p u s) : recommend p u n s = s := by
  refine if_pos ?_
  rcases h with hfail | ⟨t, ht, hlate⟩
  · simp [hfail]
  · simp [ht, dayNs, hlate]

theorem recommend_raises (hfail : s.health.failed = false) (h : ¬ lately p u s) :
    ∃ t, t.health.recAt = tset noTime (unitKey p u) (some s.clk.now) s.health.recAt ∧
      recommend p u n s = raise 0x0F 0x12 p (wd (u + 2 ^ 13 * n)) false t := by
  refine ⟨_, ?_, if_neg ?_⟩
  · rfl
  · cases ht : tget noTime s.health.recAt (unitKey p u) with
    | none => simp [hfail]
    | some t =>
      have hlate : ¬ s.clk.now < t + dayNs := fun hlt => h ⟨t, ht, hlt⟩
      simp [hfail, hlate]

/-- A margin scan of the lane can complete. -/
def marginRuns (l : Nat) (s : State) : Prop := running s = true ∧ s.health.failed = false ∧ eyeJob s l = none

theorem marginRuns_iff : (!running s || s.health.failed || (eyeJob s l).isSome) = true ↔ ¬ marginRuns l s := by
  cases hj : eyeJob s l <;> simp [marginRuns, hj, imp_iff_not_or]

theorem exec_serdesMarginScan_still (hl : l < 144) (hno : ¬ marginRuns l s) : exec (.serdesMarginScan l h w) s = .next s :=
  (if_neg (by simp [laneOk, hl])).trans (if_pos (marginRuns_iff.mpr hno))

/-- The lane's scan is due: 6 h after its last, or for its baseline. -/
def marginDue (l : Nat) (s : State) : Prop :=
  (∀ t, tget noTime s.health.scanAt l = some t → t + 21600000000000 ≤ s.clk.now) ∨ l ∈ s.health.baseDue

theorem exec_serdesMarginScan (hl : l < 144) (hruns : marginRuns l s) (hdue : marginDue l s) :
    exec (.serdesMarginScan l h w) s = .next (marginScan l h w s) := by
  refine (if_neg (by simp [laneOk, hl])).trans ((if_neg (mt marginRuns_iff.mp (not_not_intro hruns))).trans ?_)
  cases ht : tget noTime s.health.scanAt l with
  | none => rfl
  | some t => exact if_pos (by rcases hdue with h | h <;> simp [h, ht])

/-- The lane's scan has completed. -/
def scanned (l : Nat) (s : State) : State := { s with health := { s.health with scanAt := tset noTime l (some s.clk.now) s.health.scanAt } }

theorem marginScan_takesBase (hb : tget noBase s.health.base l = none) (hdue : l ∈ s.health.baseDue) : marginScan l h w s =
    let t := scanned l s
    { t with health := { t.health with
      baseDue := s.health.baseDue.erase l, base := tset noBase l (some (h, w)) s.health.base, pct := tset pctReset l 100 s.health.pct } } := by
  simp [marginScan, hb, hdue, scanned]

theorem marginScan_noBase (hb : tget noBase s.health.base l = none) (hdue : l ∉ s.health.baseDue) : marginScan l h w s = scanned l s := by
  simp [marginScan, hb, hdue, scanned]

theorem marginScan_judges {bh bw : Nat} (hb : tget noBase s.health.base l = some (bh, bw)) : marginScan l h w s =
    let t := scanned l s
    let t := { t with health := { t.health with
      pct := tset pctReset l (min (min (100 * h / max bh 1) (100 * w / max bw 1)) 255) s.health.pct } }
    if 10 * h < 7 * bh ∨ 10 * w < 7 * bw then recommend 15 l 4 t else t := by
  simp [marginScan, hb, scanned]

end Wear

/-- Settles O57: the commands' bodies in the cases of their checks; a failure, a swap and a retest by what each step of them does;
the measures by what each updates and recommends. -/
theorem healthCommands : Obligations.HealthCommands := by
  refine ⟨fun p s s1 hp => ?swap, fun s t => ⟨fun w => engineSwap_begins, engineSwap_other⟩, fun p s s1 hp => runCommand_reply hp rfl,
    fun p s s1 hp => runCommand_reply hp rfl, fun p s s1 hp => runCommand_reply hp rfl, fun p u o s hp hu => ?unit,
    fun p u s => ⟨failUnit_unit, failUnit_out, fun x => failUnit_spare⟩, fun p u s => ⟨markHard_marked, markHard_new⟩,
    fun p w s => ⟨fun x => spareFails_next, fun hx => ⟨spareFails_failedUnit hx, spareFails_commanded hx⟩⟩,
    fun p k s => ⟨rfl, serveWait_busy k, serveWait_noneWaits k, fun x => serveWait_serves⟩,
    fun p u s => ⟨autoSwap_waits, fun x => autoSwap_starts, autoSwap_fails, fun hp => if_neg hp, fun hp => if_pos hp⟩,
    fun u o s => ?monitor, fun p s => ⟨exec_spareCutover_none, fun w hw => ?cutover⟩, fun p w s => cutover_eq,
    fun ok s => exec_unitRetestComplete_none, fun ok j p u s => exec_unitRetestComplete, fun p u s => ?rejoin,
    fun ms s hms => ⟨fun hno => ?notDue, fun hrun hfail hhour => exec_healthWearSample hms ⟨hrun, hfail, hhour⟩⟩,
    fun ms s => ⟨_, rfl, rfl⟩, fun m o f s => wearAge_osc, fun m x s => wearWire_wire,
    fun p u n s => ⟨recommend_quiet, fun hfail hold => recommend_raises hfail ?_⟩,
    fun l h w s hl hno => exec_serdesMarginScan_still hl ?_, fun l h w s hl hrun hfail hj hdue => ?margin⟩
  case swap =>
    intro pool op u no
    refine ⟨fun hop => ?_, fun hop hpool hout => ?_, fun hop hno => ?_, fun hop hpool a ha hsva hfit hu => ?_, fun hop hpool hno => ?_,
      fun hop hpool hx => ?_, fun x hop hpool hx => ?_⟩
    · exact runCommand_reply hp (bodySpareSwapHeld_reply (bodyHealthSpareSwap_holdoff hop))
    · have hbody := bodySpareSwapHeld_wait ((bodyHealthSpareSwap_retest hop).trans (if_pos ⟨hpool, hout⟩))
      exact runCommand_wait hp (hbody.trans (congrArg _ (engineSwap_self s1)))
    · refine runCommand_reply hp (bodySpareSwapHeld_reply ((bodyHealthSpareSwap_retest hop).trans (if_neg ?_)))
      rintro ⟨hlow, hout⟩
      exact hno.elim hlow.not_ge (ne_true_of_eq_false · hout)
    · exact runCommand_wait hp (bodySpareSwapHeld_wait ((bodyHealthSpareSwap_handover hop hpool).trans (handover_begins ha hsva hfit hu)))
    · exact runCommand_reply hp (bodySpareSwapHeld_reply ((bodyHealthSpareSwap_handover hop hpool).trans (handover_refused hno)))
    · exact runCommand_reply hp (bodySpareSwapHeld_reply (bodyHealthSpareSwap_exhausted hop hpool hx))
    · have hbody := bodyHealthSpareSwap_spare hop hpool hx
      refine ⟨fun hoff => ?_, fun hin hbusy => ?_, fun hin hfree => ?_⟩
      · exact runCommand_reply hp (bodySpareSwapHeld_reply (hbody.trans (if_pos hoff)))
      · exact runCommand_reply hp (bodySpareSwapHeld_reply (hbody.trans ((if_neg hin).trans (if_pos hbusy))))
      · exact runCommand_wait hp (bodySpareSwapHeld_wait (hbody.trans ((if_neg hin).trans (if_neg (ne_true_of_eq_false (congrArg Option.isSome hfree))))))
  case unit =>
    refine ⟨fun hfail => (exec_unitHardFailure hp hu).trans (if_pos hfail), fun hwell => ?_⟩
    have hrow {t : State} (ht : hardFailure p u o s = t) : swapGone s (engineSwap s (hardFailure p u o s)) = swapGone s (engineSwap s t) := by
      rw [ht]
    refine ⟨_, (exec_unitHardFailure hp hu).trans (if_neg (by simp [hwell])), fun hs ho => hrow ?_, fun hs ho => hrow ?_,
      fun w hs ho => hrow ?_, fun w hs ho hw => hrow ?_, fun w hs ho hw hwait => hrow ?_, fun w hs ho hw hwait => hrow ?_⟩ <;> rw [ho]
    · exact hardFailure_idle hs
    · exact hardFailure_noSpare hs
    · exact hardFailure_spare hs
    · exact hardFailure_swapped hs hw
    · exact hardFailure_waiting hs hw hwait
    · exact hardFailure_other hs hw hwait
  case monitor =>
    refine ⟨fun hfail => ?_, fun hwell => ?_, fun hu hfail => (exec_serdesFailure hu).trans (if_pos hfail),
      fun hu hwell => (exec_serdesFailure hu).trans (if_neg (by simp [hwell]))⟩ <;> rw [exec_monitorFailure]
    · exact congrArg _ (if_pos hfail)
    · exact congrArg _ (if_neg (by simp [hwell]))
  case cutover =>
    refine ⟨exec_spareCutover_waits hw, fun hm h0 h2 => ?_, fun hm => ⟨_, exec_spareCutover hw hm⟩⟩
    rw [exec_spareCutover hw hm, cutoverStep_plain h0 h2]
  case rejoin =>
    refine ⟨rejoin_other, ?_, ?_, ?_⟩
    · rintro rfl hbad
      exact rejoin_lostBlock hbad
    · rintro b rfl hbad hx
      exact rejoin_replacedBlock hbad hx
    · rintro rfl hbad hx
      exact rejoin_block hbad hx
  case notDue =>
    refine exec_healthWearSample_notDue hms ?_
    rintro ⟨hrun, hfail, hhour⟩
    simp [hrun, hfail, hhour.not_gt] at hno
  case margin =>
    intro s1
    refine ⟨fun hb hd => ?_, fun hb hd => ?_, fun bh bw hb => ?_⟩ <;> rw [exec_serdesMarginScan hl ⟨hrun, hfail, hj⟩ hdue]
    · exact congrArg _ (marginScan_takesBase hb hd)
    · exact congrArg _ (marginScan_noBase hb hd)
    · exact congrArg _ (marginScan_judges hb)
  · rintro ⟨t, ht, hlate⟩
    exact (hold t ht).not_gt hlate
  · rintro ⟨hrun, hfail, hj⟩
    rw [eyeJob] at hj
    simp [hrun, hfail, hj] at hno

end Sys2Proof.Machine


/-! PROOFS. The commands of class TIME (10_timing_and_references.md R273, R279 to R281). -/

namespace Sys2Proof.Machine

/-! ## TIME_REF_SET and TIME_REF_GET (10 Tables 10.14, 10.15) -/

section Reference
variable {p : Packet} {s : State}

/-- The candidate that the command names, as it stands and with the settings of the command. -/
def namedRef (p : Packet) : Nat := pf p.params 0 4 0
def refBefore (p : Packet) (s : State) : RefC := refC s (namedRef p)
def refAfter (p : Packet) (s : State) : RefC := refSettings p.params (refBefore p s)

/-- Another candidate has the lane that the command names. -/
def laneTaken (p : Packet) (s : State) : Bool :=
  isLref (namedRef p) && (List.range 25).any (fun k => k != namedRef p && (refC s k).lane == (refAfter p s).lane)

/-- The command would give an enabled candidate another lane or frequency. -/
def refMoves (p : Packet) (s : State) : Bool :=
  (refBefore p s).en && ((refAfter p s).lane ≠ (refBefore p s).lane || (refAfter p s).freq ≠ (refBefore p s).freq)

theorem isLref_iff {c : Nat} : isLref c = true ↔ 8 ≤ c ∧ c < 24 := by simp [isLref]

theorem laneTaken_iff : laneTaken p s = true ↔ 8 ≤ namedRef p ∧ namedRef p < 24 ∧
    ∃ k < 25, k ≠ namedRef p ∧ (refC s k).lane = (refAfter p s).lane := by
  simp [laneTaken, isLref_iff, and_assoc]

theorem refMoves_iff : refMoves p s = true ↔ (refBefore p s).en = true ∧
    ((refAfter p s).lane ≠ (refBefore p s).lane ∨ (refAfter p s).freq ≠ (refBefore p s).freq) := by
  simp [refMoves]

/-- The candidate becomes `n`. A new lockout is a command's change of the selector, a new effective level an event. -/
def refPut (p : Packet) (n : RefC) (s : State) : State :=
  let t := setRef (namedRef p) n
    (if (refAfter p s).lockout = (refBefore p s).lockout then s else modDpll (fun d => { d with selCmd := true }) s)
  if effQl (refAfter p s) = effQl (refBefore p s) then t else refEvent (namedRef p) 4 0x05 (wd (effQl (refAfter p s))) false t

/-- An enabled candidate follows the conditions of its lane or of its pins from now on (10 Table 10.3). -/
def refWatched (c : Nat) (s : State) : State := if isLref c then lrefOne s c else setCause c 4 (guardBad s c) s

theorem bodyTimeRefSet_taken (h : laneTaken p s = true) : bodyTimeRefSet p s = .reply .badParam [] s := if_pos h

theorem bodyTimeRefSet_moves (h : laneTaken p s = false) (hm : refMoves p s = true) : bodyTimeRefSet p s = .reply .notInMode [] s :=
  (if_neg (ne_true_of_eq_false h)).trans (if_pos hm)

theorem bodyTimeRefSet_off (h : laneTaken p s = false) (hm : refMoves p s = false) (hon : pb p.params 0 5 = false) :
    bodyTimeRefSet p s = .reply .ok [] (refPut p { refAfter p s with en := false } s) := by
  refine (if_neg (ne_true_of_eq_false h)).trans ((if_neg (ne_true_of_eq_false hm)).trans ?_)
  rw [hon]
  rfl

theorem bodyTimeRefSet_on (h : laneTaken p s = false) (hm : refMoves p s = false) (hon : pb p.params 0 5 = true) :
    bodyTimeRefSet p s = .reply .ok [] (refWatched (namedRef p)
      (refPut p (if (refBefore p s).en then refAfter p s else refEnable (namedRef p) (refAfter p s)) s)) := by
  refine (if_neg (ne_true_of_eq_false h)).trans ((if_neg (ne_true_of_eq_false hm)).trans ?_)
  rw [hon]
  rfl

end Reference

/-! ## TIME_SEL_SET (10 Table 10.8) -/

section Select
variable {p : Packet} {s : State}

/-- The settings of the command are stored; another mode or reference is a command's change of the selector. -/
def selStored (p : Packet) (s : State) : State :=
  let t : State := { s with time := { s.time with sel := selSettings p.params } }
  if (selSettings p.params).mode ≠ s.time.sel.mode ∨ (selSettings p.params).ref ≠ s.time.sel.ref then
    modDpll (fun d => { d with selCmd := true }) t
  else t

theorem bodyTimeSelSet_eq (p : Packet) (s : State) : bodyTimeSelSet p s =
    .reply .ok [] (if pb p.params 0 28 then modelClear (selStored p s) else selStored p s) := by
  simp [bodyTimeSelSet, selStored, done]

end Select

/-! ## TIME_DPLL_STEER (10 R273, R274) -/

section Steer
variable {p : Packet} {s : State}

theorem bodyTimeDpllSteer_open (hf : pf p.params 0 2 0 = 0) : bodyTimeDpllSteer p s = steerReply (dpllEnter .steered s) := by
  simp only [bodyTimeDpllSteer, hf]

/-- WRITE_FREQ and CLOSE are refused outside STEERED. -/
theorem bodyTimeDpllSteer_notSteered (hf : pf p.params 0 2 0 = 1 ∨ pf p.params 0 2 0 = 2) (h : s.time.dpll.st ≠ .steered) :
    bodyTimeDpllSteer p s = .reply .notInMode [] s := by
  rcases hf with hf | hf <;> simp only [bodyTimeDpllSteer, hf, if_neg h, refuse]

theorem bodyTimeDpllSteer_write (hf : pf p.params 0 2 0 = 1) (h : s.time.dpll.st = .steered) :
    bodyTimeDpllSteer p s = steerReply (modDpll (fun d => { d with steer := some (steerWord p.params) }) s) := by
  simp only [bodyTimeDpllSteer, hf, if_pos h]

theorem bodyTimeDpllSteer_close (hf : pf p.params 0 2 0 = 2) (h : s.time.dpll.st = .steered) :
    bodyTimeDpllSteer p s = steerReply (steerClose (modDpll (fun d => { d with steer := none }) s)) := by
  simp only [bodyTimeDpllSteer, hf, if_pos h]

theorem bodyTimeDpllSteer_hostTemp (hf : pf p.params 0 2 0 = 3) (h : s.time.sel.host = true) : bodyTimeDpllSteer p s =
    steerReply { s with time := { s.time with hostT := some (pfI p.params 1 15 0, s.clk.now) } } := by
  simp only [bodyTimeDpllSteer, hf, if_pos h]

theorem bodyTimeDpllSteer_noHost (hf : pf p.params 0 2 0 = 3) (h : s.time.sel.host = false) :
    bodyTimeDpllSteer p s = .reply .notInMode [] s := by
  simp only [bodyTimeDpllSteer, hf, h, Bool.false_eq_true, if_false, refuse]

theorem bodyTimeDpllSteer_ring (hf : pf p.params 0 2 0 = 4) : bodyTimeDpllSteer p s = steerReply { s with time :=
    { s.time with ringAddr := pf p.params 1 22 0, ringLen := pf p.params 2 12 0, ringIdx := 0, ringSeq := 0 } } := by
  simp only [bodyTimeDpllSteer, hf]

end Steer

/-! ## TIME_TOD_SET (10 R281) -/

section TimeOfDay
variable {p : Packet} {s : State}

/-- `FOLLOW_TIN` of the command is in force. -/
def todFollows (p : Packet) (s : State) : State := modTod (fun t => { t with follow := pb p.params 0 0 }) s

theorem bodyTimeTodSet_load (h : pb p.params 0 1 = true) : bodyTimeTodSet p s =
    .reply .ok [s.clk.fc + wd (8000 - s.time.tod.frames)] (modTod (fun t => { t with
      load := some (pf p.params 1 31 0 + 4294967296 * pf p.params 2 15 0), utc := pfI p.params 2 31 16, valid := true })
      (todFollows p s)) := if_pos h

theorem bodyTimeTodSet_read (h : pb p.params 0 1 = false) : bodyTimeTodSet p s =
    .reply .ok [s.clk.fc - wd s.time.tod.frames, wd s.time.tod.sec,
      wd (s.time.tod.sec / 4294967296 + 65536 * (s.time.tod.utc % 65536).toNat)] (todFollows p s) := if_neg (ne_true_of_eq_false h)

end TimeOfDay

/-- Settles O40: each command's body in the cases of its checks; the reports and the settings of an output are their bodies' words. -/
theorem timeCommands : Obligations.TimeCommands := by
  refine ⟨fun p s s1 hp => ?refSet, fun p s s1 hp => runCommand_reply hp rfl,
    fun p s s1 hp => runCommand_reply hp (bodyTimeSelSet_eq p s1), fun p s s1 hp => runCommand_reply hp rfl,
    fun p s s1 hp => ?steer, fun p s s1 hp => runCommand_reply hp rfl,
    fun p s s1 hp => ⟨fun h => runCommand_reply hp (bodyTimeTodSet_load h), fun h => runCommand_reply hp (bodyTimeTodSet_read h)⟩⟩
  case refSet =>
    refine ⟨fun ht => runCommand_reply hp (bodyTimeRefSet_taken (laneTaken_iff.mpr ht)), fun ht hm => ?_, fun ht hm => ?_⟩
    · exact runCommand_reply hp (bodyTimeRefSet_moves (eq_false_of_ne_true (mt laneTaken_iff.mp ht)) (refMoves_iff.mpr hm))
    · have hfree : laneTaken p s1 = false := eq_false_of_ne_true (mt laneTaken_iff.mp ht)
      have hstays : refMoves p s1 = false := eq_false_of_ne_true (mt refMoves_iff.mp hm)
      refine ⟨fun hon => runCommand_reply hp (bodyTimeRefSet_off hfree hstays hon), fun hon => ?_⟩
      refine (runCommand_reply hp (bodyTimeRefSet_on hfree hstays hon)).trans ?_
      exact congrArg _ (if_congr isLref_iff rfl rfl)
  case steer =>
    refine ⟨fun hf => ?_, fun hf hst => ?_, fun hf hst => ?_, fun hf hst => ?_, fun hf hh => ?_, fun hf hh => ?_, fun hf => ?_⟩
    · exact runCommand_reply hp (bodyTimeDpllSteer_open hf)
    · exact runCommand_reply hp (bodyTimeDpllSteer_notSteered hf hst)
    · exact runCommand_reply hp (bodyTimeDpllSteer_write hf hst)
    · exact runCommand_reply hp (bodyTimeDpllSteer_close hf hst)
    · exact runCommand_reply hp (bodyTimeDpllSteer_hostTemp hf hh)
    · exact runCommand_reply hp (bodyTimeDpllSteer_noHost hf hh)
    · exact runCommand_reply hp (bodyTimeDpllSteer_ring hf)

end Sys2Proof.Machine


/-! PROOFS. Reference candidates and their selection (10_timing_and_references.md R254 to R265). -/

namespace Sys2Proof.Machine

/-! ## A candidate's causes and state (10 R259, R262) -/

section Candidate
variable {s : State} {c b : Nat} {on : Bool}

theorem exec_refActivityLoss (hc : c < 8) : exec (.refActivityLoss c) s =
    if running s && (refC s c).en then .next (setCause c 0 true (setRef c { refC s c with means := [], upd := 0 } s)) else .next s :=
  if_neg (Nat.not_le.mpr hc)

theorem setCause_changes (hen : (refC s c).en = true) (h : (refC s c).cause.getLsbD b ≠ on) : setCause c b on s =
    refSync c (setRef c { refC s c with
      cause := if on then (refC s c).cause ||| (1#5 <<< b) else (refC s c).cause &&& ~~~(1#5 <<< b) } s) := if_neg (by simp [hen, h])

theorem refSync_fails (hen : (refC s c).en = true) (hc : (refC s c).cause ≠ 0) (hst : (refC s c).st ≠ 1) : refSync c s =
    refEvent c 0 0x01 ((refC s c).cause.setWidth 32) false (setRef c { refC s c with st := 1 } s) := by
  simp only [refSync, hen, hst, if_pos hc, Bool.not_true, Bool.false_eq_true, if_false]

theorem refSync_macerates (hen : (refC s c).en = true) (hc : (refC s c).cause = 0) (hst : (refC s c).st = 1) : refSync c s =
    setRef c { refC s c with st := 2, macAt := s.clk.now + 1000000000 * s.time.sel.macer } s := by
  simp only [refSync, hen, hc, hst, ne_eq, not_true_eq_false, Bool.not_true, Bool.false_eq_true, if_false, if_true]

/-- A disabled candidate has no state, a failed one stays so under a cause, and one without a cause leaves FAILED only. -/
theorem refSync_keeps (h : (refC s c).en = false ∨ ((refC s c).cause ≠ 0 ∧ (refC s c).st = 1) ∨ ((refC s c).cause = 0 ∧ (refC s c).st ≠ 1)) :
    refSync c s = s := by
  rcases h with hen | ⟨hc, hst⟩ | ⟨hc, hst⟩
  · simp [refSync, hen]
  · simp only [refSync, if_pos hc, if_pos hst, ite_self]
  · simp [refSync, hc, hst]

end Candidate

/-! ## FREQ_MONITOR_UPDATE and MACERATION_EXPIRY (10 R260 to R262) -/

section Monitor
variable {s : State} {ms : List RefMeas} {m : RefMeas} {c : Nat}

theorem exec_freqMonitorUpdate (h : ms.all (fun m => decide (m.ref < 25)) = true) (hrun : running s = true) :
    exec (.freqMonitorUpdate ms) s = .next (lrefWatch (ms.foldl refMeasure (lrefWatch s))) := (if_pos h).trans (if_pos hrun)

theorem refMeasure_disabled (hen : (refC s m.ref).en = false) :
    refMeasure s m = setRef m.ref { refC s m.ref with phase := m.phase } s := if_pos (by simp [hen])

theorem refMeasure_incomplete (hen : (refC s m.ref).en = true) (hg : m.gate = none) :
    refMeasure s m = setRef m.ref { refC s m.ref with phase := m.phase, means := [], upd := 0 } s := by
  simp [refMeasure, hen, hg]

theorem refMeasure_complete {g : Int} (hen : (refC s m.ref).en = true) (hg : m.gate = some g) : refMeasure s m =
    gateStep m.ref m.edges (gateOffset s m.ref g) (slopeStep m.ref (gateOffset s m.ref g) (driftStep m.ref (gateOffset s m.ref g)
      (setRef m.ref { refC s m.ref with phase := m.phase, offset := some (gateOffset s m.ref g) } s))) := by
  simp [refMeasure, hen, hg]

/-- The maceration of a candidate is over (10 R262); without an offset it cannot become available (10 R260). -/
def MacerationDue (s : State) (c : Nat) : Prop :=
  running s = true ∧ (refC s c).en = true ∧ (refC s c).st = 2 ∧ (refC s c).macAt ≤ s.clk.now ∧ (refC s c).offset.isSome = true

theorem exec_macerationExpiry_due (hc : c < 25) (h : MacerationDue s c) :
    exec (.macerationExpiry c) s = .next (refEvent c 1 0x02 0 false (setRef c { refC s c with st := 3 } s)) := by
  obtain ⟨hrun, hen, hst, hmac, hoff⟩ := h
  exact (if_neg (Nat.not_le.mpr hc)).trans (if_pos (by simp [hrun, hen, hst, hmac, hoff]))

theorem exec_macerationExpiry_early (hc : c < 25) (h : ¬MacerationDue s c) : exec (.macerationExpiry c) s = .next s :=
  (if_neg (Nat.not_le.mpr hc)).trans (if_neg fun hdue => h (by simpa [MacerationDue, and_assoc] using hdue))

end Monitor

/-! ## The choice of AUTO (10 R264) -/

section Auto
variable {s : State} {b c x n : Nat}

/-- Rank of a candidate's effective level (10 Table 10.2). -/
def refRank (s : State) (c : Nat) : Nat := qlRank (effQl (refC s c))

theorem pickable_iff : pickable s c = true ↔ refState s c = 3 ∧ (refC s c).lockout = false ∧ refRank s c ≠ 0 := by
  simp [pickable, refRank, and_assoc]

theorem better_iff : better s c b = true ↔
    refRank s c < refRank s b ∨ refRank s c = refRank s b ∧ (refC s c).prio < (refC s b).prio := by simp [better, refRank]

/-- Candidate `b` comes before `c`: by its level, then its priority number, then its number (10 R264). -/
def Precedes (s : State) (b c : Nat) : Prop :=
  refRank s b < refRank s c ∨ refRank s b = refRank s c ∧ ((refC s b).prio < (refC s c).prio ∨ (refC s b).prio = (refC s c).prio ∧ b < c)

theorem Precedes.trans (hb : Precedes s b c) (hc : Precedes s c x) : Precedes s b x := by
  unfold Precedes at *
  omega

theorem Precedes.asymm (h : Precedes s b c) : ¬Precedes s c b := by
  unfold Precedes at *
  omega

theorem precedes_of_better (h : better s c b = true) : Precedes s c b := by
  rw [better_iff] at h
  unfold Precedes
  omega

/-- Of two candidates of which the later one is not better the earlier one comes first. -/
theorem precedes_of_not_better (hlt : b < c) (h : ¬better s c b = true) : Precedes s b c := by
  rw [better_iff] at h
  unfold Precedes
  omega

/-- The first in order of the candidates that may be chosen below `n`, if there is one. -/
def FirstBelow (s : State) (n : Nat) : Option Nat → Prop
  | none => ∀ c < n, pickable s c = false
  | some b => (b < n ∧ pickable s b = true) ∧ ∀ c < n, pickable s c = true → c ≠ b → Precedes s b c

/-- One step of the search: `c` takes the place of the best so far when it may be chosen and is better. -/
def autoStep (s : State) (o : Option Nat) (c : Nat) : Option Nat :=
  if !pickable s c then o
  else match o with
    | none => some c
    | some x => if better s c x then some c else o

theorem firstBelow_skip {o : Option Nat} (hn : pickable s n = false) (h : FirstBelow s n o) : FirstBelow s (n + 1) o := by
  cases o with
  | none => exact Nat.forall_lt_succ_right.mpr ⟨h, hn⟩
  | some b =>
    obtain ⟨⟨hb, hpick⟩, hfirst⟩ := h
    exact ⟨⟨Nat.lt_succ_of_lt hb, hpick⟩, Nat.forall_lt_succ_right.mpr ⟨hfirst, fun hp => by simp [hn] at hp⟩⟩

theorem firstBelow_only (hn : pickable s n = true) (h : FirstBelow s n none) : FirstBelow s (n + 1) (some n) :=
  ⟨⟨Nat.lt_succ_self n, hn⟩, Nat.forall_lt_succ_right.mpr ⟨fun c hc hp => by simp [h c hc] at hp, fun _ hne => absurd rfl hne⟩⟩

theorem firstBelow_replaced (hn : pickable s n = true) (hbet : better s n b = true) (h : FirstBelow s n (some b)) :
    FirstBelow s (n + 1) (some n) := by
  obtain ⟨-, hfirst⟩ := h
  have hnb : Precedes s n b := precedes_of_better hbet
  refine ⟨⟨Nat.lt_succ_self n, hn⟩, Nat.forall_lt_succ_right.mpr ⟨fun c hc hp _ => ?_, fun _ hne => absurd rfl hne⟩⟩
  by_cases hcb : c = b
  · exact hcb ▸ hnb
  · exact hnb.trans (hfirst c hc hp hcb)

theorem firstBelow_stays (hbet : ¬better s n b = true) (h : FirstBelow s n (some b)) : FirstBelow s (n + 1) (some b) := by
  obtain ⟨⟨hb, hpick⟩, hfirst⟩ := h
  exact ⟨⟨Nat.lt_succ_of_lt hb, hpick⟩, Nat.forall_lt_succ_right.mpr ⟨hfirst, fun _ _ => precedes_of_not_better hb hbet⟩⟩

theorem firstBelow_step {o : Option Nat} (h : FirstBelow s n o) : FirstBelow s (n + 1) (autoStep s o n) := by
  unfold autoStep
  split
  case isTrue hn => exact firstBelow_skip (by simpa using hn) h
  case isFalse hn =>
    have hp : pickable s n = true := by simpa using hn
    cases o with
    | none => exact firstBelow_only hp h
    | some b =>
      dsimp only
      split
      case isTrue hbet => exact firstBelow_replaced hp hbet h
      case isFalse hbet => exact firstBelow_stays hbet h

theorem firstBelow_search (s : State) (n : Nat) : FirstBelow s n ((List.range n).foldl (autoStep s) none) := by
  induction n with
  | zero => exact fun c hc => absurd hc (Nat.not_lt_zero c)
  | succ n ih =>
    rw [List.range_succ, List.foldl_append]
    exact firstBelow_step ih

/-- The best of all candidates, before the selected one is considered. -/
def autoBest (s : State) : Option Nat := (List.range 25).foldl (autoStep s) none

theorem autoBest_first (s : State) : FirstBelow s 25 (autoBest s) := firstBelow_search s 25

/-- No candidate has another before it and comes before that one. -/
theorem autoBest_eq (h : FirstBelow s 25 (some b)) : autoBest s = some b := by
  have hbest := autoBest_first s
  obtain ⟨⟨hb, hpick⟩, hfirst⟩ := h
  cases ho : autoBest s with
  | none =>
    rw [ho] at hbest
    simp [hbest b hb] at hpick
  | some x =>
    rw [ho] at hbest
    obtain ⟨⟨hx, hxpick⟩, hxfirst⟩ := hbest
    by_contra hne
    have hxb : x ≠ b := fun h => hne (congrArg some h)
    exact (hfirst x hx hxpick hxb).asymm (hxfirst b hb hpick hxb.symm)

/-- The selected candidate `x` is kept although `b` is the best: AUTO is not revertive, and `x` is as good in level. -/
def KeptOver (s : State) (b x : Nat) : Prop :=
  s.time.dpll.sel = some x ∧ s.time.sel.revertive = false ∧ refState s x = 3 ∧ (refC s x).lockout = false ∧ refRank s x = refRank s b

theorem pickAuto_eq (s : State) : pickAuto s = match autoBest s, s.time.dpll.sel with
    | some b, some x =>
      if !s.time.sel.revertive && refState s x == 3 && !(refC s x).lockout && refRank s x == refRank s b then some x else some b
    | b, _ => b := rfl

theorem pickAuto_none (h : autoBest s = none) : pickAuto s = none := by simp only [pickAuto_eq, h]

theorem pickAuto_kept (hb : autoBest s = some b) (h : KeptOver s b x) : pickAuto s = some x := by
  obtain ⟨hsel, hrev, hst, hlock, hq⟩ := h
  simp [pickAuto_eq, hb, hsel, hrev, hst, hlock, hq]

theorem pickAuto_best (hb : autoBest s = some b) (h : ∀ x, ¬KeptOver s b x) : pickAuto s = some b := by
  simp only [pickAuto_eq, hb]
  split
  next x ho hsel =>
    cases ho
    exact if_neg fun hk => h x (by simpa [KeptOver, hsel, and_assoc] using hk)
  next => rfl

end Auto

/-! ## The selector (10 R264, R265) -/

section Selector
variable {s : State} {t : Nat}

/-- MANUAL's candidate is chosen (log 66). -/
def ManualFits (s : State) : Prop :=
  refState s s.time.sel.ref = 3 ∧ (refC s s.time.sel.ref).lockout = false ∧ qlRank (effQl (refC s s.time.sel.ref)) ≠ 0

theorem selectRef_forced (h : s.time.sel.mode = 2) :
    selectRef s = if refState s s.time.sel.ref ≤ 1 then none else some s.time.sel.ref :=
  (if_pos h).trans (if_congr (by rw [Nat.le_one_iff_eq_zero_or_eq_one]; simp) rfl rfl)

theorem selectRef_manual (h : s.time.sel.mode = 1) (hfit : ManualFits s) : selectRef s = some s.time.sel.ref := by
  obtain ⟨hst, hlock, hq⟩ := hfit
  simp [selectRef, h, hst, hlock, hq]

theorem selectRef_auto (h : s.time.sel.mode = 0 ∨ (s.time.sel.mode = 1 ∧ ¬ManualFits s)) : selectRef s = pickAuto s := by
  have hforced : s.time.sel.mode ≠ 2 := by omega
  refine (if_neg hforced).trans (if_neg fun hm => ?_)
  simp only [Bool.and_eq_true, decide_eq_true_eq, Bool.not_eq_true'] at hm
  obtain ⟨⟨⟨hmode, hst⟩, hlock⟩, hq⟩ := hm
  rcases h with h | ⟨-, hno⟩
  · omega
  · exact hno ⟨hst, hlock, hq⟩

/-- A switch in progress holds the selection: no command has changed the settings, and the selected candidate has not failed. -/
def switchHolds (s : State) : Bool :=
  s.time.dpll.swAt.isSome && !s.time.dpll.selCmd && (match s.time.dpll.sel with | some c => decide (2 ≤ refState s c) | none => false)

theorem switchHolds_iff : switchHolds s = true ↔
    s.time.dpll.swAt.isSome = true ∧ s.time.dpll.selCmd = false ∧ ∃ c, s.time.dpll.sel = some c ∧ 2 ≤ refState s c := by
  cases hsel : s.time.dpll.sel <;> simp [switchHolds, hsel, and_assoc]

theorem evaluate_eq (s : State) : evaluate s =
    if selectRef s = s.time.dpll.sel || switchHolds s then modDpll (fun d => { d with selCmd := false }) s
    else selChange (selectRef s) (modDpll (fun d => { d with selCmd := false }) s) := rfl

theorem exec_selectorEvaluation (h : running s = true) : exec .selectorEvaluation s = .next (evaluate (lrefWatch s)) := if_pos h

theorem exec_dpllSwitchTimeout (h : s.time.dpll.swAt = some t) (hrun : running s = true) : exec .dpllSwitchTimeout s =
    if t + 60000000000 ≤ s.clk.now then .next (evaluate (modDpll (fun d => { d with swAt := none }) s)) else .next s := by
  change execDpllSwitchTimeout s = _
  simp [execDpllSwitchTimeout, h, hrun]

theorem exec_dpllSwitchTimeout_none (h : s.time.dpll.swAt = none) : exec .dpllSwitchTimeout s = .next s := by
  change execDpllSwitchTimeout s = _
  simp [execDpllSwitchTimeout, h]

end Selector

/-- Settles O42: a candidate's rows by the branches of `setCause`, `refSync` and `refMeasure`; AUTO's search keeps the first in order of
the candidates seen so far, and that order leaves one first candidate only. -/
theorem referenceRows : Obligations.ReferenceRows := by
  refine ⟨fun c s hc hrun => ⟨fun hen => ?_, fun hen => ?_⟩, fun c b on s hen h => setCause_changes hen h,
    fun c s => ⟨refSync_fails, refSync_macerates, refSync_keeps⟩, fun ms s h hrun => exec_freqMonitorUpdate h hrun,
    fun m s => ⟨refMeasure_disabled, refMeasure_incomplete, fun hen g hg => refMeasure_complete hen hg⟩,
    fun c s hc => ⟨exec_macerationExpiry_due hc, exec_macerationExpiry_early hc⟩,
    fun s hrun => ⟨exec_selectorEvaluation hrun, fun t ht => ⟨fun hend => ?_, fun hearly => ?_⟩, exec_dpllSwitchTimeout_none⟩,
    fun s => ⟨fun h => ?_, fun hn hheld => ?_⟩,
    fun s => ⟨selectRef_forced, fun hm hst hlock hq => selectRef_manual hm ⟨hst, hlock, hq⟩, fun h => selectRef_auto ?_⟩, fun s => ?auto⟩
  · rw [exec_refActivityLoss hc, if_pos (by simp [hrun, hen])]
  · rw [exec_refActivityLoss hc, if_neg (by simp [hen])]
  · rw [exec_dpllSwitchTimeout ht hrun, if_pos hend]
  · rw [exec_dpllSwitchTimeout ht hrun, if_neg (Nat.not_le.mpr hearly)]
  · rw [evaluate_eq, if_pos (by simpa [switchHolds_iff] using h)]
  · rw [evaluate_eq, if_neg (by simpa [switchHolds_iff] using not_or.mpr ⟨hn, hheld⟩)]
  · refine h.imp_right (And.imp_right fun hno hfit => ?_)
    obtain ⟨hst, hlock, hq⟩ := hfit
    simp [hst, hlock, hq] at hno
  case auto =>
    intro q may first best kept
    have hmay (c : Nat) : may c ↔ c < 25 ∧ pickable s c = true := and_congr_right' pickable_iff.symm
    have hbest (b : Nat) : best b ↔ FirstBelow s 25 (some b) :=
      and_congr (hmay b) (forall_congr' fun c => by rw [hmay c, and_imp]; rfl)
    refine ⟨fun hnone => pickAuto_none ?_, fun c hc => ?_, fun b hb => ⟨fun x hk => ?_, fun hno => ?_⟩⟩
    · cases ho : autoBest s with
      | none => rfl
      | some b => exact absurd ((hmay b).mpr (ho ▸ autoBest_first s).1) (hnone b)
    · obtain ⟨hlt, hpick⟩ := (hmay c).mp hc
      cases ho : autoBest s with
      | none =>
        have hnone : FirstBelow s 25 none := ho ▸ autoBest_first s
        simp [hnone c hlt] at hpick
      | some b => exact ⟨b, (hbest b).mpr (ho ▸ autoBest_first s)⟩
    · exact pickAuto_kept (autoBest_eq ((hbest b).mp hb)) hk
    · exact pickAuto_best (autoBest_eq ((hbest b).mp hb)) hno

end Sys2Proof.Machine


/-! PROOFS. The DPLL: its loop, lock, drydown, learning and failures (10_timing_and_references.md R266 to R273, R284). -/

namespace Sys2Proof.Machine

/-! ## Phase (10 R266) -/

section Phase
variable {r : RefC} {c : Nat} {x : Int}

/-- A phase is reduced by whole spans into the interval from minus half a span to just under plus half. -/
theorem reducePhase_span (x : Int) {num : Nat} (h : 0 < num) :
    (∃ k : Int, reducePhase x num 1 = x - num * k) ∧ -(num : Int) ≤ 2 * reducePhase x num 1 ∧ 2 * reducePhase x num 1 < num := by
  have hspan : (0 : Int) < 2 * num := by omega
  obtain ⟨k, hk⟩ : ∃ k : Int, (2 * x + num) / (2 * num) = k := ⟨_, rfl⟩
  have hred : reducePhase x num 1 = x - num * k := by
    simp only [reducePhase, Nat.cast_one, mul_one, Int.fdiv_one, Int.fdiv_eq_ediv_of_nonneg _ hspan.le, hk]
    rw [mul_comm]
  have hlow : 2 * num * k ≤ 2 * x + num := hk ▸ Int.mul_ediv_self_le hspan.ne'
  have hhigh : 2 * x + num < 2 * num * k + 2 * num := hk ▸ Int.lt_mul_ediv_self_add hspan
  rw [mul_assoc] at hlow hhigh
  exact ⟨⟨k, hred⟩, by omega, by omega⟩

theorem candPhase_lane (h : isLref c = true) : candPhase r c x = reducePhase (x - r.adj) 15625000 1 := if_pos h

theorem candPhase_slow (h : isLref c = false) (hc : c = 24 ∨ r.freq ≤ 8000) : candPhase r c x = reducePhase (x - r.adj) 125000000 1 :=
  (if_neg (ne_true_of_eq_false h)).trans (if_pos (by simpa using hc))

end Phase

/-! ## DPLL_UPDATE (10 R266 to R270) -/

section Update
variable {s : State} {raw freqErr : Int} {n : Nat}

/-- The loop's integrator before the update: at a new bandwidth it starts from the word in force (log 64). -/
def integStart (s : State) : Int :=
  if bwIndex s = s.time.dpll.bw then s.time.dpll.integ
  else s.time.dpll.word * integUnit - loopProp (bwIndex s) s.time.dpll.perr

/-- The integrator after the update of a closed loop. -/
def integTotal (phase : Int) (s : State) : Int :=
  integUnit * pullClamp s ((integStart s).fdiv integUnit) + integStart s % integUnit + loopInteg (bwIndex s) phase

/-- The integrator after the update: the loop is closed in ACQUIRE and LOCKED only. -/
def integNext (phase : Int) (s : State) : Int :=
  if s.time.dpll.st = .acquire ∨ s.time.dpll.st = .locked then integTotal phase s else s.time.dpll.integ

/-- The word after the update (10 R267, R268, R273). -/
def wordNext (phase : Int) (s : State) : Int :=
  if s.time.dpll.st = .acquire ∨ s.time.dpll.st = .locked then
    pullClamp s ((integNext phase s + loopProp (bwIndex s) phase).fdiv integUnit)
  else if s.time.dpll.st = .steered then s.time.dpll.steer.getD s.time.dpll.word
  else s.time.dpll.word

theorem loopNext_eq (phase : Int) (s : State) : loopNext phase s = (integNext phase s, wordNext phase s) := by
  cases hst : s.time.dpll.st <;> simp [loopNext, wordNext, integNext, integTotal, integStart, hst]

/-- Updates in a row with an error beyond 100 ns, this one included. -/
def farRun (phase : Int) (s : State) : Nat :=
  if s.time.dpll.sel.isSome = true ∧ 100000 < phase.natAbs then s.time.dpll.far + 1 else 0

theorem farRun_eq (phase : Int) (s : State) : farRun phase s =
    if s.time.dpll.sel.isSome && decide (100000 < phase.natAbs) then s.time.dpll.far + 1 else 0 := if_congr (by simp) rfl rfl

/-- The time since which the errors of phase and frequency have been small enough for LOCKED (10 R270). -/
def nearSince (phase freqErr : Int) (s : State) : Option Nat :=
  if s.time.dpll.sel.isSome = true ∧ phase.natAbs < 10000 ∧ freqErr.natAbs < 10000 then some (s.time.dpll.okAt.getD s.clk.now) else none

theorem nearSince_eq (phase freqErr : Int) (s : State) : nearSince phase freqErr s =
    if s.time.dpll.sel.isSome && decide (phase.natAbs < 10000) && decide (freqErr.natAbs < 10000) then
      some (s.time.dpll.okAt.getD s.clk.now)
    else none := if_congr (by simp [and_assoc]) rfl rfl

/-- The update of the loop itself. -/
def loopUpdated (phase freqErr : Int) (s : State) : State :=
  modDpll (fun d => { d with
    word := wordNext phase s, integ := integNext phase s, steer := none, bw := bwIndex s
    perr := if s.time.dpll.sel.isSome then phase else d.perr, far := min (farRun phase s) 3, okAt := nearSince phase freqErr s
    words := if d.st = .locked then ((s.clk.now, wordNext phase s) :: d.words).take 62000 else d.words }) s

/-- A LOCKED update is the last one so far (10 R271). -/
def lockedAt (s : State) : State := { s with time := { s.time with tA := s.clk.now, thA := theta s } }

theorem dpllUpdate_eq (raw freqErr : Int) (s : State) : dpllUpdate raw freqErr s =
    if s.time.dpll.st = .locked then
      if 3 ≤ farRun (loopPhase s raw) s then dpllEnter .acquire (lockedAt (loopUpdated (loopPhase s raw) freqErr s))
      else lockedAt (loopUpdated (loopPhase s raw) freqErr s)
    else loopUpdated (loopPhase s raw) freqErr s := by
  unfold dpllUpdate loopUpdated
  rw [farRun_eq, nearSince_eq]
  simp only [loopNext_eq]
  rfl

theorem exec_dpllUpdate_standby (hn : n < 2) (h : n ≠ s.time.dpll.active) : exec (.dpllUpdate raw freqErr n) s = .next s :=
  (if_neg (Nat.not_le.mpr hn)).trans (if_neg (by simp [h]))

theorem exec_dpllUpdate_active (hn : s.time.dpll.active < 2) (hrun : running s = true) :
    exec (.dpllUpdate raw freqErr s.time.dpll.active) s = .next (dpllUpdate raw freqErr s) :=
  (if_neg (Nat.not_le.mpr hn)).trans (if_pos (by simp [hrun]))

end Update

/-! ## DPLL_LOCK (10 R265, R270) -/

section Lock
variable {s : State} {t : Nat}

/-- The errors have been small for LOCK_TIME since `t`, and the DPLL acquires a candidate. -/
def LockDue (s : State) (t : Nat) : Prop :=
  s.time.dpll.st = .acquire ∧ s.time.dpll.sel.isSome = true ∧ t + lockTime s ≤ s.clk.now

theorem exec_dpllLock_due (hok : s.time.dpll.okAt = some t) (hrun : running s = true) (h : LockDue s t) :
    exec .dpllLock s = .next (dpllLock s) := by
  obtain ⟨hst, hsel, hdue⟩ := h
  change execDpllLock s = _
  simp [execDpllLock, hok, hrun, hst, hsel, hdue]

theorem exec_dpllLock_early (hok : s.time.dpll.okAt = some t) (h : ¬LockDue s t) : exec .dpllLock s = .next s := by
  change execDpllLock s = _
  simp only [execDpllLock, hok]
  refine if_neg fun hdue => h ?_
  simp only [Bool.and_eq_true, decide_eq_true_eq] at hdue
  obtain ⟨⟨⟨-, hst⟩, hsel⟩, hdue⟩ := hdue
  exact ⟨hst, hsel, hdue⟩

theorem exec_dpllLock_far (hok : s.time.dpll.okAt = none) : exec .dpllLock s = .next s := by
  change execDpllLock s = _
  simp only [execDpllLock, hok]

theorem exec_dpllLock_notDue (h : s.time.dpll.okAt = none ∨ s.time.dpll.st ≠ .acquire ∨ s.time.dpll.sel = none ∨
    ∃ t, s.time.dpll.okAt = some t ∧ s.clk.now < t + lockTime s) : exec .dpllLock s = .next s := by
  cases hok : s.time.dpll.okAt with
  | none => exact exec_dpllLock_far hok
  | some t =>
    refine exec_dpllLock_early hok ?_
    rintro ⟨hst, hsel, hdue⟩
    rcases h with hnone | hother | hnosel | ⟨u, hu, hearly⟩
    · simp [hok] at hnone
    · exact hother hst
    · simp [hnosel] at hsel
    · cases hok.symm.trans hu
      omega

end Lock

/-! ## Drydown, learning and failures (10 R271, R272, R284) -/

section Temperature
variable {s : State} {temp : Int}

/-- The die temperature is read. -/
def dieRead (temp : Int) (s : State) : State := { s with time := { s.time with die := temp } }

theorem exec_drydownUpdate (hrun : running s = true) : exec (.drydownUpdate temp) s =
    if s.time.dpll.st = .drydown then .next (modDpll (fun d => { d with
      word := if modelValid (dieRead temp s) then predict (dieRead temp s) else d.hold }) (dieRead temp s))
    else .next (dieRead temp s) := if_pos hrun

theorem exec_modelLearnUpdate (hrun : running s = true) : exec (.modelLearnUpdate temp) s =
    if s.time.dpll.st = .locked then .next (learn (dieRead temp s)) else .next (dieRead temp s) := if_pos hrun

end Temperature

section Failure
variable {s : State}

theorem exec_dpllFailure (hrun : running s = true) : exec .dpllFailure s = .next (dpllFailure s) := if_pos hrun

theorem exec_xoFail (hrun : running s = true) : exec .xoFail s = .next (askFence [0, 1, 2, 3] 6 (pulse 0x07 0x13 0 0 false s)) :=
  if_pos hrun

theorem dpllFailure_standby (hd : s.time.dpll.failed = 0) (hs : s.cp.svaOk = true) :
    dpllFailure s = modDpll (fun d => { d with active := 1 - d.active, failed := 1 }) s := if_pos (by simp [hd, hs])

/-- No standby is left, or the SVA cannot select it. -/
theorem dpllFailure_fences (hd : s.time.dpll.failed < 2) (hno : ¬(s.time.dpll.failed = 0 ∧ s.cp.svaOk = true)) :
    dpllFailure s = askFence [0, 1, 2, 3] 5 (modDpll (fun d => { d with failed := 2 }) s) :=
  (if_neg (by simpa using hno)).trans (if_neg (Nat.not_le.mpr hd))

end Failure

/-- Settles O43: the phase by `reducePhase_span`, the update by `loopNext_eq`, the other rows by their guards. -/
theorem loopRows : Obligations.LoopRows := by
  refine ⟨fun raw freqErr n s hn hrun h => exec_dpllUpdate_standby hn h,
    fun r c x => ⟨fun hlane => ?_, fun hpin hslow => ?_⟩, fun raw freqErr s hrun hact => ⟨fun hst => ?_, fun hst => ?_⟩,
    fun s hrun => ⟨fun t hok hst hsel hdue => exec_dpllLock_due hok hrun ⟨hst, hsel, hdue⟩, exec_dpllLock_notDue⟩,
    fun temp s hrun => ⟨fun hst => ?_, fun hst => ?_, fun hst => ?_, fun hst => ?_⟩,
    fun s hrun => ⟨fun hd hs => ?_, fun hd hno => ?_, exec_xoFail hrun⟩⟩
  · obtain ⟨hspan, hlow, hhigh⟩ := reducePhase_span (x - r.adj) (num := 15625000) (by decide)
    rw [← candPhase_lane hlane] at hspan hlow hhigh
    exact ⟨hspan, by omega, by omega⟩
  · obtain ⟨hspan, hlow, hhigh⟩ := reducePhase_span (x - r.adj) (num := 125000000) (by decide)
    rw [← candPhase_slow hpin hslow] at hspan hlow hhigh
    exact ⟨hspan, by omega, by omega⟩
  · rw [exec_dpllUpdate_active hact hrun, dpllUpdate_eq, if_neg hst]
    rfl
  · rw [exec_dpllUpdate_active hact hrun, dpllUpdate_eq, if_pos hst]
    rfl
  · exact (exec_drydownUpdate hrun).trans (if_pos hst)
  · exact (exec_drydownUpdate hrun).trans (if_neg hst)
  · exact (exec_modelLearnUpdate hrun).trans (if_pos hst)
  · exact (exec_modelLearnUpdate hrun).trans (if_neg hst)
  · rw [exec_dpllFailure hrun, dpllFailure_standby hd hs]
  · rw [exec_dpllFailure hrun, dpllFailure_fences hd hno]

end Sys2Proof.Machine


/-! PROOFS. The time input and the time output (10_timing_and_references.md R275 to R280). -/

namespace Sys2Proof.Machine

/-! ## PPS_IN_EDGE and PPS_IN_EDGE_MISSING (10 R277) -/

section Edge
variable {s : State} {phase : Int} {e : Nat}

/-- An edge that arrives now lies within 20 µs of 1 s after the last one, if there was one. -/
def edgeOnTime (s : State) : Bool :=
  match s.time.tin.edge with
  | some e => decide (e + 1000000000 ≤ s.clk.now + 20000) && decide (s.clk.now ≤ e + 1000020000)
  | none => true

theorem edgeOnTime_iff : edgeOnTime s = true ↔
    ∀ e, s.time.tin.edge = some e → e + 1000000000 ≤ s.clk.now + 20000 ∧ s.clk.now ≤ e + 1000020000 := by
  cases hedge : s.time.tin.edge <;> simp [edgeOnTime, hedge]

/-- Seconds in a row without a valid message, with the one that ends now. -/
def quietSeconds (t : Tin) : Nat := if t.edge = none ∨ t.got = true then 0 else min (t.quiet + 1) 3

theorem quietSeconds_eq (t : Tin) : quietSeconds t = if t.edge.isNone || t.got then 0 else min (t.quiet + 1) 3 :=
  if_congr (by simp) rfl rfl

/-- The edge is recorded with its frame and its phase; `run` edges in a row have had their messages. -/
def edgeSeen (phase : Int) (run : Nat) (s : State) : State :=
  modRef 24 (fun r => { r with phase }) (modTin (fun t => { t with
    edge := some s.clk.now, edgeFrame := edgeFrameNo phase s, got := false, run, quiet := quietSeconds s.time.tin }) s)

theorem ppsInEdge_eq (phase : Int) (s : State) : ppsInEdge phase s =
    if !edgeOnTime s || decide (3 ≤ quietSeconds s.time.tin) then
      setCause 24 3 true (edgeSeen phase (if edgeOnTime s && s.time.tin.got then s.time.tin.run else 0) s)
    else edgeSeen phase (if edgeOnTime s && s.time.tin.got then s.time.tin.run else 0) s := by
  unfold edgeSeen
  rw [quietSeconds_eq]
  rfl

theorem ppsInEdge_onTime (ht : edgeOnTime s = true) (hq : quietSeconds s.time.tin < 3) :
    ppsInEdge phase s = edgeSeen phase (if s.time.tin.got then s.time.tin.run else 0) s := by
  rw [ppsInEdge_eq, ht, if_neg (by simpa using hq), Bool.true_and]

theorem ppsInEdge_quiet (ht : edgeOnTime s = true) (hq : quietSeconds s.time.tin = 3) :
    ppsInEdge phase s = setCause 24 3 true (edgeSeen phase (if s.time.tin.got then s.time.tin.run else 0) s) := by
  rw [ppsInEdge_eq, ht, if_pos (by simp [hq]), Bool.true_and]

theorem ppsInEdge_offTime (ht : edgeOnTime s = false) : ppsInEdge phase s = setCause 24 3 true (edgeSeen phase 0 s) := by
  rw [ppsInEdge_eq, ht]
  rfl

theorem exec_ppsInEdge (h : running s = true) : exec (.ppsInEdge phase) s = .next (ppsInEdge phase s) := if_pos h

theorem exec_ppsInEdgeMissing (he : s.time.tin.edge = some e) (h : running s = true) : exec .ppsInEdgeMissing s =
    if e + 1000020000 < s.clk.now then
      .next (setCause 24 3 true (modTin (fun t => { t with edge := none, got := false, run := 0 }) s))
    else .next s := by
  change execPpsInEdgeMissing s = _
  simp [execPpsInEdgeMissing, he, h]

theorem exec_ppsInEdgeMissing_none (he : s.time.tin.edge = none) : exec .ppsInEdgeMissing s = .next s := by
  change execPpsInEdgeMissing s = _
  simp [execPpsInEdgeMissing, he]

end Edge

/-! ## TOD_IN_MESSAGE (10 R276, R277) -/

section Message
variable {s : State} {bs : List Byte}

/-- `SECONDS` of a message. -/
def messageSeconds (bs : List Byte) : Nat := beNat ((bs.drop 4).take 6)

/-- The seconds follow on those of the last valid message, if there was one. -/
def secondsFollow (bs : List Byte) (t : Tin) : Bool :=
  match t.sec with
  | some p => decide (messageSeconds bs = (p + 1) % 2 ^ 48)
  | none => true

theorem secondsFollow_iff {t : Tin} : secondsFollow bs t = true ↔ ∀ p, t.sec = some p → messageSeconds bs = (p + 1) % 2 ^ 48 := by
  cases hsec : t.sec <;> simp [secondsFollow, hsec]

/-- The message's seconds are kept for the last edge, with `run` edges in a row that have had theirs. -/
def messageSeen (bs : List Byte) (run : Nat) (s : State) : State :=
  modTin (fun t => { t with got := true, quiet := 0, run, sec := some (messageSeconds bs), secFrame := t.edgeFrame }) s

/-- The message gives its level, and the counter is compared with it (10 R257, R277). -/
def messageTaken (bs : List Byte) (s : State) : State := todCheck (qlSeen 24 3 ((bs.getD 3 0).toNat % 16) s)

theorem exec_todInMessage (h : running s = true) : exec (.todInMessage bs) s = .next (todIn bs s) := if_pos h

theorem todIn_invalid (h : todValid bs s = false) : todIn bs s = s := if_pos (by simp [h])

/-- A valid message has its length, its head and its checksum (10 Table 10.9). -/
theorem todValid_form (h : todValid bs s = true) :
    bs.length = 16 ∧ bs.take 3 = [0xC7, 0x3E, 0x01] ∧ (hcrc (bs.take 14)).toNat = beNat (bs.drop 14) := by
  simp only [todValid, Bool.and_eq_true, beq_iff_eq] at h
  obtain ⟨⟨⟨hlen, hhead⟩, hcrc⟩, -⟩ := h
  exact ⟨hlen, hhead, hcrc⟩

/-- Edges in a row with consecutive messages, this one included. -/
def runAfter (bs : List Byte) (t : Tin) : Nat := if secondsFollow bs t && t.run ≠ 0 then min (t.run + 1) 3 else 1

theorem todIn_valid (h : todValid bs s = true) : todIn bs s = messageTaken bs
    (if !secondsFollow bs s.time.tin then setCause 24 3 true (messageSeen bs (runAfter bs s.time.tin) s)
     else if 3 ≤ runAfter bs s.time.tin then setCause 24 3 false (messageSeen bs (runAfter bs s.time.tin) s)
     else messageSeen bs (runAfter bs s.time.tin) s) := if_neg (by simp [h])

theorem todIn_breaks (h : todValid bs s = true) (hno : secondsFollow bs s.time.tin = false) :
    todIn bs s = messageTaken bs (setCause 24 3 true (messageSeen bs 1 s)) := by
  have hrun : runAfter bs s.time.tin = 1 := if_neg (by simp [hno])
  rw [todIn_valid h, hno, hrun]
  rfl

theorem todIn_third (h : todValid bs s = true) (hf : secondsFollow bs s.time.tin = true) (hr : 2 ≤ s.time.tin.run) :
    todIn bs s = messageTaken bs (setCause 24 3 false (messageSeen bs 3 s)) := by
  have hrun : runAfter bs s.time.tin = 3 := by
    rw [runAfter, if_pos (by simp [hf]; omega)]
    omega
  rw [todIn_valid h, hf, hrun]
  rfl

theorem todIn_follows (h : todValid bs s = true) (hf : secondsFollow bs s.time.tin = true) (hr : s.time.tin.run < 2) :
    todIn bs s = messageTaken bs (messageSeen bs (s.time.tin.run + 1) s) := by
  have hrun : runAfter bs s.time.tin = s.time.tin.run + 1 := by
    rw [runAfter, hf]
    split
    case isTrue => omega
    case isFalse hz => simpa using hz
  rw [todIn_valid h, hf, hrun, Bool.not_true, if_neg Bool.false_ne_true, if_neg (by omega)]

end Message

/-! ## TOD_OUT_MESSAGE (10 R275) -/

section Output
variable {s : State} {t : Nat}

/-- The message of the last second boundary is due: 10 ms after its `PPS_OUT` edge. -/
def MessageDue (s : State) (t : Nat) : Prop := s.time.tod.sent = false ∧ t + 10000000 ≤ s.clk.now + s.time.ppsAdv / 1000

theorem exec_todOutMessage_due (hb : s.time.tod.bndAt = some t) (hrun : running s = true) (h : MessageDue s t) :
    exec .todOutMessage s = .next (modTod (fun x => if outLow s 5 then { x with sent := true } else
      { x with sent := true, out := todMessage s, outAt := some s.clk.now }) s) := by
  obtain ⟨hsent, hdue⟩ := h
  change execTodOutMessage s = _
  simp [execTodOutMessage, hb, hrun, hsent, hdue]

theorem exec_todOutMessage_early (hb : s.time.tod.bndAt = some t) (h : ¬MessageDue s t) : exec .todOutMessage s = .next s := by
  change execTodOutMessage s = _
  simp only [execTodOutMessage, hb]
  refine if_neg fun hdue => h ?_
  simp only [Bool.and_eq_true, Bool.not_eq_true', decide_eq_true_eq] at hdue
  obtain ⟨⟨-, hsent⟩, hdue⟩ := hdue
  exact ⟨hsent, hdue⟩

theorem exec_todOutMessage_noEdge (hb : s.time.tod.bndAt = none) : exec .todOutMessage s = .next s := by
  change execTodOutMessage s = _
  simp [execTodOutMessage, hb]

end Output

/-- Settles O44: an edge by its time and by the seconds without a message, a message by its form and its seconds, the output by its
moment. -/
theorem timeOfDayRows : Obligations.TimeOfDayRows := by
  refine ⟨fun phase s hrun => ⟨fun ht hq => ?_, fun ht hq => ?_, fun ht => ?_⟩,
    fun s hrun => ⟨fun e he => ⟨fun hlate => ?_, fun hsoon => ?_⟩, exec_ppsInEdgeMissing_none⟩,
    fun bs s hrun => ⟨fun hno => ?_, fun hv => ?message⟩, fun s hrun => ⟨fun t hb hsent hdue => ⟨fun hlow => ?_, fun hhigh => ?_⟩, ?_⟩⟩
  · exact (exec_ppsInEdge hrun).trans (congrArg _ (ppsInEdge_onTime (edgeOnTime_iff.mpr ht) hq))
  · exact (exec_ppsInEdge hrun).trans (congrArg _ (ppsInEdge_quiet (edgeOnTime_iff.mpr ht) hq))
  · exact (exec_ppsInEdge hrun).trans (congrArg _ (ppsInEdge_offTime (eq_false_of_ne_true (mt edgeOnTime_iff.mp ht))))
  · rw [exec_ppsInEdgeMissing he hrun, if_pos hlate]
  · rw [exec_ppsInEdgeMissing he hrun, if_neg (Nat.not_lt.mpr hsoon)]
  · rw [exec_todInMessage hrun, todIn_invalid hno]
  case message =>
    obtain ⟨hlen, hhead, hcrc⟩ := todValid_form hv
    refine ⟨hlen, hhead, hcrc, fun p hp hne => ?_, fun hf hr => ?_, fun hf hr => ?_⟩
    · exact (exec_todInMessage hrun).trans (congrArg _ (todIn_breaks hv (eq_false_of_ne_true fun hf => hne (secondsFollow_iff.mp hf p hp))))
    · exact (exec_todInMessage hrun).trans (congrArg _ (todIn_third hv (secondsFollow_iff.mpr hf) hr))
    · exact (exec_todInMessage hrun).trans (congrArg _ (todIn_follows hv (secondsFollow_iff.mpr hf) hr))
  · simp [exec_todOutMessage_due hb hrun ⟨hsent, hdue⟩, hlow]
  · simp [exec_todOutMessage_due hb hrun ⟨hsent, hdue⟩, hhigh]
  · rintro (hsent | hnone | ⟨t, hb, hearly⟩)
    · cases hb : s.time.tod.bndAt with
      | none => exact exec_todOutMessage_noEdge hb
      | some t => exact exec_todOutMessage_early hb fun hdue => by simp [MessageDue, hsent] at hdue
    · exact exec_todOutMessage_noEdge hnone
    · exact exec_todOutMessage_early hb fun hdue => Nat.not_le.mpr hearly hdue.2

end Sys2Proof.Machine

/-! PROOFS. The step, the invariant and the checks of a packet (12 R328, R334, R338, R339). -/

namespace Sys2Proof.Machine

/-! ## One step -/

section Steps
variable {c : Instr} {rest : List Instr} {s t : State}

theorem step_of_cons (h : s.pending = c :: rest) : step s = exec c { s with pending := rest } := by simp [step, h]

/-- Settles O1: `step` runs the front command on the rest of the queue. -/
theorem stepRunsFront : Obligations.StepRunsFront := fun _ _ _ h => step_of_cons h

theorem KeepsInv.of_next (hk : KeepsInvOut s (exec c s)) (h : exec c s = .next t) : KeepsInv s t := by rwa [h] at hk

/-- Taking the front command off the queue touches nothing that the invariant speaks of. -/
theorem inv_dequeued (h : Inv s) : Inv { s with pending := rest } := ⟨h.wm, h.rings, h.evt, h.keys, h.cyc⟩

/-- What every step gives: the queue's tail, the fused ordering code, and a safe state from a safe one. -/
theorem step_keeps (h : step s = .next t) : t.pending = s.pending.tail ∧ t.dev.ne = s.dev.ne ∧ (Inv s → Inv t) := by
  cases hq : s.pending with
  | nil =>
    obtain rfl : idle s = t := Host.Outcome.next.inj ((step_of_empty hq).symm.trans h)
    have hk := keepsInv_idle s
    exact ⟨hk.queue.trans hq, hk.ne, hk.inv⟩
  | cons c rest =>
    have hk := KeepsInv.of_next (keepsInv_exec c _) ((step_of_cons hq).symm.trans h)
    exact ⟨hk.queue, hk.ne, fun hi => hk.inv (inv_dequeued hi)⟩

/-- Settles O3: `step_keeps`, for the queue. -/
theorem queueFirstInFirstOut : Obligations.QueueFirstInFirstOut := fun _ _ h => (step_keeps h).1

theorem regRead_hid0 (s : State) : regRead 0x0 s = 0x455A3F10 := rfl

theorem regRead_hid1 (s : State) : regRead 0x4 s = hid1 s.dev := rfl

theorem hid1_congr {d e : Dev} (h : d.ne = e.ne) : hid1 d = hid1 e := by simp only [hid1, h]

/-- Settles O4: HID0 is a constant, HID1 depends on the fused ordering code alone. -/
theorem identificationIsReadOnly : Obligations.IdentificationIsReadOnly := by
  intro s t h
  obtain ⟨-, hne, -⟩ := step_keeps h
  exact ⟨(regRead_hid0 t).trans (regRead_hid0 s).symm, hid1_congr hne⟩

/-- Settles O5: the reset tables are empty. -/
theorem invariantAtReset : Obligations.InvariantAtReset where
  wm    := reset_wm_wf
  rings := by rintro x ⟨⟩
  evt   := ⟨Nat.zero_le _, Nat.zero_le _, Nat.zero_le _⟩
  keys  := ⟨by rintro x ⟨⟩, by rintro x ⟨⟩⟩
  cyc   := by decide

/-- Settles O6: `step_keeps`, for the invariant. -/
theorem invariantKeptByEveryStep : Obligations.InvariantKeptByEveryStep := by
  intro s t hi h
  obtain ⟨-, -, hinv⟩ := step_keeps h
  exact hinv hi

end Steps

/-! ## The checks of a packet -/

section Checks
variable {i : Instr} {o : Op} {p : Packet} {s s1 : State} {st : Status} {n : Nat} {tag : List Byte}

theorem packetChecks_absent (h : present_ o.cls s = false) : packetChecks o p s = (some .badOpcode, s) := by
  simp [packetChecks, h]

theorem packetChecks_unauthenticated (h : present_ o.cls s = true) (ha : authStage o p s = (some st, s1)) :
    packetChecks o p s = (some st, s1) := by simp [packetChecks, h, ha]

theorem packetChecks_misformed (h : present_ o.cls s = true) (ha : authStage o p s = (none, s1)) (hf : formStage o p s1 = false) :
    packetChecks o p s = (some .badParam, s1) := by simp [packetChecks, h, ha, hf]

theorem present_jrnl (c k r : Nat) (t : Word) (s : State) : present_ c (jrnl k r t s) = present_ c s := rfl

/-- A host command that its authentication refuses. -/
theorem exec_unauthenticated (hi : hostOp i = some (o, p)) (hd : canDecode o p s = true) (hp : present_ o.cls s = true)
    (ha : authStage o p (jrnl 0 p.ring p.tag s) = (some st, s1)) : exec i s = answered o p st [] s1 := by
  rw [exec_of_hostOp hi, runCommand_refused hd (packetChecks_unauthenticated hp ha), answered]

/-- Settles O8: `runCommand` decodes, and `packetChecks` takes the checks in their order. -/
theorem packetCheckOrder : Obligations.PacketCheckOrder := by
  intro i o p s hi
  refine ⟨fun hd => ?_, fun hd hp => ?_, fun hd hp st s1 ha => exec_unauthenticated hi hd hp ha, fun hd hp s1 ha hf => ?_⟩
  · rw [exec_of_hostOp hi, runCommand_waits hd]
  · rw [exec_of_hostOp hi, runCommand_refused hd (packetChecks_absent hp), answered]
  · rw [exec_of_hostOp hi, runCommand_refused hd (packetChecks_misformed hp ha hf), answered]

theorem authVerify_usable (hl : (cmdSlot s n).loaded = true) (hu : (cmdSlot s n).use = 1) (hc : slotLeft (cmdSlot s n) 1 = true)
    (head : List Byte) : authVerify n head tag s = (if authTag (cmdSlot s n) head = tag then none else some .authFail,
      setCmdSlot n { cmdSlot s n with count := (cmdSlot s n).count + 1 } s) := by
  simp [authVerify, hl, hu, hc]

theorem authVerify_unusable (h : (cmdSlot s n).loaded = false ∨ (cmdSlot s n).use ≠ 1 ∨ slotLeft (cmdSlot s n) 1 = false)
    (head : List Byte) : authVerify n head tag s = (some .authFail, s) := by
  refine if_pos ?_
  rcases h with h | h | h <;> simp [h]

/-- Settles O10: one `if` of `authVerify` on the slot, one on the tag. -/
theorem authenticatorCountsOnce : Obligations.AuthenticatorCountsOnce := fun _ head _ _ =>
  ⟨fun hl hu hc => authVerify_usable hl hu hc head, fun h => authVerify_unusable h head⟩

/-- The command is `SYS_AUTH_SET`. -/
def setsAuth (o : Op) : Prop := o.cls = 1 ∧ o.act = 0x30

theorem authStage_ne_refused (hne : s.dev.ne = true) (h : p.auth.isSome ∨ setsAuth o) : authStage o p s = (some .notInMode, s) := by
  have hb : (p.auth.isSome || (o.cls == 1 && o.act == 0x30)) = true := by simpa [setsAuth] using h
  simp [authStage, hne, hb]

theorem authStage_free (hne : s.dev.ne = false) (hset : ¬setsAuth o) (ha : p.auth = none) (hg : o.get = true) :
    authStage o p s = (none, s) := by
  have hb : (o.cls == 1 && o.act == 0x30) = false := by simpa [setsAuth] using hset
  simp [authStage, hne, hb, ha, hg]

theorem authStage_missing (hne : s.dev.ne = false) (hr : s.io.require = true) (ha : p.auth = none) (hg : o.get = false) :
    authStage o p s = (some .authFail, s) := by
  unfold authStage
  simp [hne, hr, ha, hg]

/-- An authenticator is checked under the slot in force, but for a `SYS_AUTH_SET` that sets `REQUIRE` (12 R338, R346). -/
theorem authStage_checked (hne : s.dev.ne = false) (ha : p.auth = some tag) (hn : s.io.authSlot = some n)
    (hset : setsAuth o → pb p.params 0 0 = false) : authStage o p s = authVerify n (packetHead o p) tag s := by
  have hb : (o.cls == 1 && o.act == 0x30 && pb p.params 0 0) = false := by
    rw [Bool.and_eq_false_iff]
    by_cases h : setsAuth o
    · exact .inr (hset h)
    · exact .inl (by simpa [setsAuth] using h)
  simp [authStage, hne, hb, ha, hn]

/-- No command that only reads sets the authentication. -/
theorem not_setsAuth_of_get (hi : hostOp i = some (o, p)) (hg : o.get = true) : ¬setsAuth o := by
  have hno : (o.get && (o.cls == 1 && o.act == 0x30)) = false := by cases i <;> cases hi <;> rfl
  rw [hg, Bool.true_and] at hno
  simpa [setsAuth] using hno

/-- Settles O9: `authStage` in the cases of R338, for the opcodes that `hostOp` names. -/
theorem authenticatorRequired : Obligations.AuthenticatorRequired := by
  unfold Obligations.AuthenticatorRequired
  intro free
  refine ⟨fun p s s1 h => runCommand_reply h rfl, fun i o p s hi hd hp => ⟨fun hne hr ha => ?_, fun hne tag n s1 ha hn hset hv => ?_, fun hne h => ?_⟩⟩
  · have hget : o.get = free i := by cases i <;> cases hi <;> rfl
    split
    case isTrue hf => exact authStage_free hne (not_setsAuth_of_get hi (hget.trans hf)) ha (hget.trans hf)
    case isFalse hf => exact exec_unauthenticated hi hd hp (authStage_missing hne hr ha (hget.trans (eq_false_of_ne_true hf)))
  · exact exec_unauthenticated hi hd hp ((authStage_checked (s := jrnl 0 p.ring p.tag s) hne ha hn hset).trans hv)
  · exact exec_unauthenticated hi hd hp (authStage_ne_refused hne h)

end Checks

end Sys2Proof.Machine

/-! PROOFS. Rings and the host register page (12 R320 to R332, R342, R348). -/

namespace Sys2Proof.Machine

variable {r n : Nat} {v : Word} {s t : State}

/-! ## Interrupt bits: what raising one leaves -/

@[simp] theorem msixSend_irq (k : Nat) (io : Io) : (msixSend k io).irq = io.irq := by
  unfold msixSend
  dsimp only
  split <;> rfl

@[simp] theorem msixSend_mask (k : Nat) (io : Io) : (msixSend k io).mask = io.mask := by
  unfold msixSend
  dsimp only
  split <;> rfl

@[simp] theorem irqEdge_irq (b : Nat) (s : State) : (irqEdge b s).io.irq = s.io.irq := by
  unfold irqEdge
  split <;> [rfl; (split <;> [exact msixSend_irq _ _; rfl])]

@[simp] theorem irqEdge_mask (b : Nat) (s : State) : (irqEdge b s).io.mask = s.io.mask := by
  unfold irqEdge
  split <;> [rfl; (split <;> [exact msixSend_mask _ _; rfl])]

@[simp] theorem irqEdge_rings (b : Nat) (s : State) : (irqEdge b s).io.rings = s.io.rings := by
  unfold irqEdge
  split <;> [rfl; (split <;> [exact msixSend_rings _ _; rfl])]

@[simp] theorem irqRaise_mask (b : Nat) (s : State) : (irqRaise b s).io.mask = s.io.mask := by
  unfold irqRaise
  split <;> [rfl; exact irqEdge_mask _ _]

@[simp] theorem irqRaise_rings (b : Nat) (s : State) : (irqRaise b s).io.rings = s.io.rings := by
  unfold irqRaise
  split <;> [rfl; exact irqEdge_rings _ _]

/-- Raising bit `b` sets it and keeps the others. -/
theorem irqRaise_bit {b : Nat} (hb : b < 5) (s : State) (k : Nat) :
    (irqRaise b s).io.irq.getLsbD k = (s.io.irq.getLsbD k || decide (k = b)) := by
  unfold irqRaise
  split
  case isTrue h =>
    by_cases hk : k = b
    · simp [hk, h]
    · simp [hk]
  case isFalse h =>
    rw [irqEdge_irq, BitVec.getLsbD_or, BitVec.getLsbD_shiftLeft, BitVec.getLsbD_one]
    congr 1
    by_cases hk : k = b
    · simp [hk, hb]
    · have : ¬(k < 5 ∧ b ≤ k ∧ k - b = 0) := by omega
      simp only [hk, decide_false]
      simpa [and_assoc] using fun h5 hle => by omega

/-! ## Ring registers (12 R323, R330) -/

theorem fld_low (v : Word) : fld v 4 0 = v.toNat % 32 := by simp [fld]

theorem ringCheck_iff {g : Ring} : ringCheck r g s = true ↔ 2 ≤ g.size ∧ g.size ≤ sizeMax r ∧ g.base % slotBytes r = 0 ∧
    ringEnd r g ≤ hostEnd ∧ ∀ q, q < 6 → q ≠ r → (ring s q).en = true →
      ringEnd q (ring s q) ≤ g.base ∨ ringEnd r g ≤ (ring s q).base := by
  simp only [ringCheck, inR, Bool.and_eq_true, decide_eq_true_eq, beq_iff_eq, List.all_eq_true, List.mem_range, Bool.or_eq_true,
    Bool.not_eq_true', and_assoc]
  refine and_congr_right' (and_congr_right' (and_congr_right' (and_congr_right' (forall_congr' fun q => imp_congr_right fun _ => ?_))))
  cases (ring s q).en
  · simp
  · by_cases hq : q = r <;> simp [hq]

theorem exec_ringEnable (hr : r < 6) (hv : v.getLsbD 8 = true) : exec (.ringEnable r v) s = .next (ringCfgWrite r v s) :=
  if_pos (by simp [hr, show bit v 8 = true from hv])

theorem exec_ringDisable (hr : r < 6) (hv : v.getLsbD 8 = false) : exec (.ringDisable r v) s = .next (ringCfgWrite r v s) :=
  if_pos (by simp [hr, show bit v 8 = false from hv])

theorem ringCfgWrite_early (h : s.dev.ready = false) : ringCfgWrite r v s = s := by simp [ringCfgWrite, ringsOpen, h]

theorem ringCfgWrite_enable (h : s.dev.ready = true) (hv : v.getLsbD 8 = true) :
    ringCfgWrite r v s = if (ring s r).en then s else ringEnable r v s := by
  simp [ringCfgWrite, ringsOpen, h, show bit v 8 = true from hv]

theorem ringCfgWrite_disable (h : s.dev.ready = true) (hv : v.getLsbD 8 = false) : ringCfgWrite r v s = ringDisable r v s := by
  simp [ringCfgWrite, ringsOpen, h, show bit v 8 = false from hv]

/-- What a restarted ring 4 or 5 begins with: no slot offered, no record unread. -/
def ringFresh (r : Nat) (t : State) : State :=
  if r = 4 then { t with io := { t.io with offered := 0 } }
  else if r = 5 then { t with evt := { t.evt with unread := [] } } else t

theorem ringEnable_accepted (h : ringCheck r { ring s r with size := fld v 4 0 } s = true) : ringEnable r v s =
    ringFresh r (setRing r { ring s r with size := fld v 4 0, en := true, cfgErr := false, index := 0, fault := false, db := if r < 4 then 0 else (ring s r).db } s) := by
  simp only [ringEnable, h, if_true]
  rfl

theorem ringEnable_rejected (h : ringCheck r { ring s r with size := fld v 4 0 } s = false) : ringEnable r v s =
    setRing r { ring s r with size := fld v 4 0, cfgErr := true, fault := false } s := by
  simp only [ringEnable, h, Bool.false_eq_true, if_false]

/-- Settles O13: `ringCfgWrite` by `READY` and `EN`; the checks of an enable are `ringCheck_iff`. -/
theorem ringRegisterWrites : Obligations.RingRegisterWrites := by
  intro r v s hr g size unit fits noOffer fresh
  have hsize : fld v 4 0 = size := fld_low v
  have hfits : ringCheck r { ring s r with size := fld v 4 0 } s = true ↔ fits := by rw [ringCheck_iff, hsize]; exact Iff.rfl
  refine ⟨fun hv => ⟨fun h => ?_, fun hready hen hf => ?_, fun hready hen hf => ?_⟩,
    fun hv => ⟨fun h => ?_, fun hready hen => ?_, fun hready hen => ?_⟩⟩
  · rw [exec_ringEnable hr hv]
    cases hready : s.dev.ready with
    | false => rw [ringCfgWrite_early hready]
    | true =>
      have hen : (ring s r).en = true := h.resolve_left (by simp [hready])
      rw [ringCfgWrite_enable hready hv, if_pos hen]
  · rw [exec_ringEnable hr hv, ringCfgWrite_enable hready hv, if_neg (by simp [show (ring s r).en = false from hen]),
      ringEnable_accepted (hfits.mpr hf), hsize]
    congr 1
    by_cases h4 : r = 4 <;> by_cases h5 : r = 5 <;> simp [fresh, noOffer, ringFresh, h4, h5, g]
  · rw [exec_ringEnable hr hv, ringCfgWrite_enable hready hv, if_neg (by simp [show (ring s r).en = false from hen]),
      ringEnable_rejected (eq_false_of_ne_true (mt hfits.mp hf)), hsize]
  · rw [exec_ringDisable hr hv, ringCfgWrite_early h]
  · rw [exec_ringDisable hr hv, ringCfgWrite_disable hready hv, ringDisable, if_pos hen]
  · rw [exec_ringDisable hr hv, ringCfgWrite_disable hready hv, ringDisable, if_neg (ne_true_of_eq_false hen), hsize]

/-! ## Doorbells (12 R327, R330, R332, R342) -/

theorem fld_half (v : Word) : fld v 15 0 = v.toNat % 65536 := by simp [fld]

theorem exec_commandDoorbell (hr : r < 4) : exec (.commandDoorbell r v) s = .next (commandDoorbell r (v.toNat % 65536) s) :=
  (if_pos hr).trans (by rw [fld_half])

/-- What a doorbell does to its ring's registers. -/
def doorbellTaken (r n : Nat) (s : State) : State :=
  if (ring s r).fault then s else if slots (ring s r) ≤ n then ringFault r s else setRing r { ring s r with db := n } s

/-- The descriptors that the commands and operations of ring `r` wait for are looked at again. -/
def doorbellLooks (r : Nat) (t : State) : State :=
  if running t = true ∧ t.dev.failover = false then
    (if r = 3 then (List.range 16).foldl (fun s c => opRecheck c s) (jobRecheck r t) else jobRecheck r t) else t

theorem commandDoorbell_open (hready : s.dev.ready = true) (hen : (ring s r).en = true) :
    commandDoorbell r n s = doorbellLooks r (doorbellTaken r n s) := by
  have hplane : ∀ t : State, planeRuns t = true ↔ running t = true ∧ t.dev.failover = false := fun t => by simp [planeRuns]
  exact (if_neg (by simp [ringsOpen, hready, hen])).trans (if_congr (hplane _) rfl rfl)

theorem commandDoorbell_shut (h : s.dev.ready = false ∨ (ring s r).en = false) : commandDoorbell r n s = s :=
  if_pos (by rcases h with h | h <;> simp [ringsOpen, h])

theorem opRecheck_idle (c : Nat) (h : s.keys.ops = []) : opRecheck c s = s := by
  simp [opRecheck, h]

theorem exec_replyRingDoorbell_shut (h : s.dev.ready = false ∨ (ring s 4).en = false) : exec (.replyRingDoorbell v) s = .next s :=
  congrArg _ (if_neg (by rcases h with h | h <;> simp [ringsOpen, h]))

theorem exec_replyRingDoorbell_open (hready : s.dev.ready = true) (hen : (ring s 4).en = true) : exec (.replyRingDoorbell v) s =
    .next (sendLate s.io.late.length { s with io := { s.io with offered := countOffered s (ring s 4) (ring s 4).index (slots (ring s 4)) } }) :=
  congrArg _ (if_pos (by simp [ringsOpen, hready, hen]))

theorem sendLate_blocked (h : s.io.late = [] ∨ answers s = false ∨ replySlotOpen s = false) : ∀ n, sendLate n s = s
  | 0 => rfl
  | n + 1 => by
    unfold sendLate
    split
    case h_1 => rfl
    case h_2 x l hl => exact if_neg (by rcases h with h | h | h <;> simp_all)

theorem sendLate_next {x : LateReply} {l : List LateReply} (hl : s.io.late = x :: l) (ha : answers s = true) (ho : replySlotOpen s = true)
    (n : Nat) : sendLate (n + 1) s = sendLate n (putReply x.echo x.st x.words { s with io := { s.io with late := l } }) := by
  rw [sendLate, hl]
  exact if_pos (by simp [ha, ho])

theorem exec_eventConsumerIndexWrite : exec (.eventConsumerIndexWrite v) s = .next (consumerWrite (v.toNat % 65536) s) :=
  congrArg (fun n => Host.Outcome.next (consumerWrite n s)) (fld_half v)

theorem consumerWrite_early (h : s.dev.ready = false) : consumerWrite n s = s := if_pos (by simp [ringsOpen, h])

theorem consumerWrite_beyond (h : s.dev.ready = true) (hn : slots (ring s 5) ≤ n) :
    consumerWrite n s = raise 0x01 0x01 5 (wd n) false (irqRaise 3 s) :=
  (if_neg (by simp [ringsOpen, h])).trans (if_pos hn)

theorem consumerWrite_within (h : s.dev.ready = true) (hn : n < slots (ring s 5)) :
    consumerWrite n s = { setRing 5 { ring s 5 with db := n } s with evt := { s.evt with
      unread := s.evt.unread.drop (s.evt.unread.length - ((ring s 5).index + slots (ring s 5) - n) % slots (ring s 5)) } } :=
  (if_neg (by simp [ringsOpen, h])).trans (if_neg (by omega))

/-- Settles O14: each doorbell by `READY`, `EN`, `FAULT` and its value. -/
theorem doorbellWrites : Obligations.DoorbellWrites := by
  refine ⟨fun r v s hr hready => ⟨fun hen => ?_, fun hen hf => ?_, fun hen hf hn => ?_, fun hen hf hn => ?_⟩,
    fun r s h => jobRecheck_idle h, fun c s h => opRecheck_idle c h, fun v s hen => exec_replyRingDoorbell_shut (.inr hen),
    fun v s hready hen => exec_replyRingDoorbell_open hready hen, fun n s h => sendLate_blocked h n,
    fun n s x l hl ha ho => sendLate_next hl ha ho n, fun v s hready => ⟨fun hn => ?_, fun hn => ?_⟩,
    fun r v s hr hready => ⟨?_, exec_replyRingDoorbell_shut (.inl hready), ?_⟩⟩
  · rw [exec_commandDoorbell hr, commandDoorbell_shut (.inr hen)]
  · rw [exec_commandDoorbell hr, commandDoorbell_open hready hen, doorbellTaken, if_pos hf]
    rfl
  · rw [exec_commandDoorbell hr, commandDoorbell_open hready hen, doorbellTaken, if_neg (by simp [hf]), if_neg (Nat.not_le.mpr hn)]
    rfl
  · rw [exec_commandDoorbell hr, commandDoorbell_open hready hen, doorbellTaken, if_neg (by simp [hf]), if_pos hn]
    rfl
  · rw [exec_eventConsumerIndexWrite, consumerWrite_within hready hn]
  · rw [exec_eventConsumerIndexWrite, consumerWrite_beyond hready hn]
  · rw [exec_commandDoorbell hr, commandDoorbell_shut (.inl hready)]
  · rw [exec_eventConsumerIndexWrite, consumerWrite_early hready]

/-! ## IRQ_STATUS and the plain registers (12 R320, R324) -/

theorem evtRefresh_rings (s : State) : (evtRefresh s).io.rings = s.io.rings := by
  unfold evtRefresh
  split <;> [exact irqRaise_rings _ _; rfl]

theorem evtRefresh_mask (s : State) : (evtRefresh s).io.mask = s.io.mask := by
  unfold evtRefresh
  split <;> [exact irqRaise_mask _ _; rfl]

theorem evtRefresh_bit (s : State) (k : Nat) :
    (evtRefresh s).io.irq.getLsbD k = (s.io.irq.getLsbD k || (decide (k = 1) && evtReady s)) := by
  unfold evtRefresh
  split
  case isTrue h => rw [irqRaise_bit (by decide), h, Bool.and_true]
  case isFalse h => rw [eq_false_of_ne_true h, Bool.and_false, Bool.or_false]

theorem ring_congr (h : t.io.rings = s.io.rings) (r : Nat) : ring t r = ring s r := by rw [ring, ring, h]

/-- A command ring is faulted, which keeps the cause of bit 3 (log 24). -/
def anyFault (s : State) : Bool := (List.range 4).any (fun r => (ring s r).fault)

theorem anyFault_congr (h : t.io.rings = s.io.rings) : anyFault t = anyFault s := by simp only [anyFault, ring_congr h]

theorem irqCauses_rings (s : State) : (irqCauses s).io.rings = s.io.rings := by
  unfold irqCauses
  dsimp only
  split <;> [exact (irqRaise_rings _ _).trans (evtRefresh_rings s); exact evtRefresh_rings s]

theorem irqCauses_mask (s : State) : (irqCauses s).io.mask = s.io.mask := by
  unfold irqCauses
  dsimp only
  split <;> [exact (irqRaise_mask _ _).trans (evtRefresh_mask s); exact evtRefresh_mask s]

/-- The causes that still hold set their bits again. -/
theorem irqCauses_bit (s : State) (k : Nat) : (irqCauses s).io.irq.getLsbD k =
    (s.io.irq.getLsbD k || (decide (k = 1) && evtReady s) || (decide (k = 3) && anyFault s)) := by
  rw [← anyFault_congr (evtRefresh_rings s), ← evtRefresh_bit]
  unfold irqCauses
  dsimp only
  change (if anyFault (evtRefresh s) = true then _ else _ : State).io.irq.getLsbD k = _
  split
  case isTrue h => rw [irqRaise_bit (by decide), h, Bool.and_true]
  case isFalse h => rw [eq_false_of_ne_true h, Bool.and_false, Bool.or_false]

/-- `IRQ_STATUS` as the written ones leave it, before the causes. -/
theorem irqCleared_bit (v : Word) (q : BitVec 5) {k : Nat} (hk : k < 5) :
    (q &&& ~~~(v.setWidth 5)).getLsbD k = (q.getLsbD k && !v.getLsbD k) := by
  simp [hk]

theorem exec_registerWrite {off : Nat} (h4 : off % 4 = 0) (hlt : off < 0x10000) :
    exec (.registerWrite off 4 v) s = .next (regWrite off v s) := if_pos (by simp [h4, hlt])

theorem exec_registerWrite_ignored {off size : Nat} (h : size ≠ 4 ∨ off % 4 ≠ 0) : exec (.registerWrite off size v) s = .next s :=
  if_neg (by rcases h with h | h <;> simp [h])

theorem regWrite_base (hr : r < 6) : regWrite (0x40 + 16 * r) v s =
    if ringsOpen s && !(ring s r).en then setRing r { ring s r with base := fld v 22 0 } s else s := by
  have hdiv : (0x40 + 16 * r - 0x40) / 16 = r := by omega
  have hlt : 0x40 + 16 * r < 0xA0 := by omega
  have hmod : (0x40 + 16 * r) % 16 = 0 := by omega
  unfold regWrite
  rw [if_neg (by omega), if_neg (by omega), if_pos (by simp [hlt, hmod])]
  simp only [hdiv]

/-- A register without behaviour of its own ignores the write. -/
theorem regWrite_plain {off : Nat} (h1 : off ≠ 0x104) (h2 : off ≠ 0x108) (h3 : off < 0x2000 ∨ 0x2040 ≤ off)
    (h4 : ∀ r, r < 6 → off = 0x40 + 16 * r → (ring s r).en = true ∨ s.dev.ready = false) : regWrite off v s = s := by
  by_cases hbase : ∃ r, r < 6 ∧ off = 0x40 + 16 * r
  · obtain ⟨r, hr, rfl⟩ := hbase
    rw [regWrite_base hr, if_neg]
    rcases h4 r hr rfl with h | h <;> simp [ringsOpen, h]
  · have hring : ¬(0x40 ≤ off ∧ off < 0xA0 ∧ off % 16 = 0) := fun ⟨hlo, hhi, hmod⟩ => hbase ⟨(off - 0x40) / 16, by omega, by omega⟩
    unfold regWrite
    rw [if_neg h1, if_neg h2, if_neg (by simpa [and_assoc] using hring), if_neg (by simpa using fun h => h3.resolve_left (by omega))]

theorem regWrite_msix {k j : Nat} (hk : k < 4) (hj : j < 16) : regWrite (0x2000 + 16 * k + j) v s = msixWrite (16 * k + j) v s := by
  have hsub : 0x2000 + 16 * k + j - 0x2000 = 16 * k + j := by omega
  have hlt : 0x2000 + 16 * k + j < 0x2040 := by omega
  unfold regWrite
  rw [if_neg (by omega), if_neg (by omega), if_neg (by simp; omega), if_pos (by simp [hlt]; omega), hsub]

theorem exec_msix {k j : Nat} (hk : k < 4) (hj : j < 16) (h4 : j % 4 = 0) :
    exec (.registerWrite (0x2000 + 16 * k + j) 4 v) s = .next (msixWrite (16 * k + j) v s) := by
  rw [exec_registerWrite (by omega) (by omega), regWrite_msix hk hj]

theorem msixWrite_entry {k j : Nat} (hj : j < 16) :
    (16 * k + j) / 16 = k ∧ (16 * k + j) % 16 = j := by omega

/-- The entry after a write of its mask bit: a pending message that the write unmasks is sent (log 5). -/
def msixMasked (v : Word) (m : Msix) (s : State) : Msix :=
  if v.getLsbD 0 = false ∧ m.pend = true ∧ s.io.pcie.msixOn = true ∧ s.io.pcie.msixMask = false ∧ irqSilent s.dev.mode = false then
    { m with masked := false, pend := false, sent := m.sent + 1 }
  else { m with masked := v.getLsbD 0 }

theorem msixWrite_mask {k : Nat} (v : Word) (s : State) : msixWrite (16 * k + 12) v s =
    { s with io := { s.io with msix := tset msixReset k (msixMasked v (tget msixReset s.io.msix k) s) s.io.msix } } := by
  simp only [msixWrite, msixWrite_entry (k := k) (j := 12) (by decide), msixMasked]
  split
  case isTrue h => rw [if_pos (by simpa [bit, and_assoc] using h)]
  case isFalse h => rw [if_neg (by simpa [bit, and_assoc] using h)]; rfl

/-- Settles O15: `irqCauses_bit` for the status, `regWrite` in its ranges for the page. -/
theorem interruptRegisters : Obligations.InterruptRegisters := by
  refine ⟨fun v s => ⟨irqClear v s, rfl, irqCauses_mask _, irqCauses_rings _, fun b hb => ?_, ?_, ?_⟩, fun s => rfl,
    fun v s => ?_, fun r v s hr hready hen => ?_, fun off size v s h => ?_, fun v s => ?_, fun k v s hk => ?_⟩
  · rw [irqClear, irqCauses_bit, irqCleared_bit v _ (by omega)]
    rcases hb with rfl | rfl | rfl <;> simp
  · rw [irqClear, irqCauses_bit, irqCleared_bit v _ (by decide)]
    simp [evtReady]
  · rw [irqClear, irqCauses_bit, irqCleared_bit v _ (by decide)]
    simp [anyFault, ring]
  · exact exec_registerWrite (by decide) (by decide)
  · rw [exec_registerWrite (by omega) (by omega), regWrite_base hr, if_pos (by simp [ringsOpen, hready, hen])]
    simp [fld]
  · by_cases hplain : size ≠ 4 ∨ off % 4 ≠ 0
    · exact exec_registerWrite_ignored hplain
    · obtain ⟨hsize, hmod⟩ : size = 4 ∧ off % 4 = 0 := by omega
      obtain ⟨h1, h2, h3, h4⟩ := (h.resolve_left (by omega)).resolve_left (by omega)
      subst hsize
      by_cases hlt : off < 0x10000
      · rw [exec_registerWrite hmod hlt, regWrite_plain h1 h2 h3 h4]
      · exact if_neg (by simp [hlt])
  · rw [exec_registerWrite (by decide) (by decide)]
    have hlo : fld v 15 0 = v.toNat % 65536 := fld_half v
    have hhi : fld v 31 16 = v.toNat / 65536 := by simp [fld]; omega
    exact congrArg Host.Outcome.next (by simp [regWrite, evtRefresh, hlo, hhi])
  · refine ⟨?_, ?_, ?_, fun hs => ?_, fun hs => ?_⟩
    · exact (exec_msix (j := 0) hk (by decide) (by decide)).trans (by simp [msixWrite])
    · rw [show 0x2004 + 16 * k = 0x2000 + 16 * k + 4 by omega, exec_msix hk (by decide) (by decide)]
      simp [msixWrite, msixWrite_entry]
    · rw [show 0x2008 + 16 * k = 0x2000 + 16 * k + 8 by omega, exec_msix hk (by decide) (by decide)]
      simp [msixWrite, msixWrite_entry]
    · rw [show 0x200C + 16 * k = 0x2000 + 16 * k + 12 by omega, exec_msix hk (by decide) (by decide), msixWrite_mask, msixMasked, if_pos hs]
    · rw [show 0x200C + 16 * k = 0x2000 + 16 * k + 12 by omega, exec_msix hk (by decide) (by decide), msixWrite_mask, msixMasked, if_neg hs]

end Sys2Proof.Machine

/-! PROOFS. A command comes out of its slot and its reply goes into one (12 R328 to R334). -/

namespace Sys2Proof.Machine

variable {s t : State} {e : Echo} {st : Status} {ws : List Word} {r : Nat}

/-! ## A reply in its slot -/

theorem readBytes_eq {m : List Host.Cell} : ∀ (bs : List Byte) {a : Nat},
    (∀ i (hi : i < bs.length), memRead m (a + i) = bs[i]) → readBytes m a bs.length = bs
  | [], _, _ => rfl
  | b :: bs, a, h => by
    have htail : readBytes m (a + 1) bs.length = bs := readBytes_eq bs fun i hi => by
      rw [Nat.add_assoc, Nat.add_comm 1]
      exact h (i + 1) (Nat.succ_lt_succ hi)
    exact congrArg₂ List.cons (h 0 (Nat.zero_lt_succ _)) htail

/-- A reply is written in two parts, its first eight bytes last (12 R332). -/
theorem readBytes_writeBytes_split {m : List Host.Cell} (hm : Memory.wf m = true) (a k : Nat) (bs : List Byte) (hk : k ≤ bs.length) :
    readBytes (writeBytes (writeBytes m (a + k) (bs.drop k)) a (bs.take k)) a bs.length = bs := by
  have hlen : (bs.take k).length = k := List.length_take_of_le hk
  refine readBytes_eq bs fun i hi => ?_
  by_cases h : i < k
  · rw [memRead_writeBytes_inside _ a i (by omega) (writeBytes_wf _ _ hm)]
    exact List.getElem_take
  · rw [memRead_writeBytes_outside _ a _ (writeBytes_wf _ _ hm) (by omega)]
    obtain ⟨d, rfl⟩ := Nat.exists_eq_add_of_le (Nat.not_lt.mp h)
    rw [← Nat.add_assoc, memRead_writeBytes_inside _ (a + k) d (by simp; omega) hm]
    exact List.getElem_drop

theorem replyBytes_length (e : Echo) (st : Status) (ws : List Word) : (replyBytes e st ws).length = 64 := by
  simp [replyBytes, replyHead_length, leBytes_length]

/-- Address of the reply slot at `DEV_INDEX` of ring 4. -/
def replyAddr (s : State) : Nat := (ring s 4).base + 64 * (ring s 4).index

theorem writeReply_now (ha : answers s = true) (ho : replySlotOpen s = true) (hl : s.io.late = []) :
    writeReply e st ws s = putReply e st ws s := if_pos (by simp [ha, ho, hl])

theorem writeReply_held (h : ¬(answers s = true ∧ replySlotOpen s = true ∧ s.io.late = [])) :
    writeReply e st ws s = { s with io := { s.io with late := s.io.late ++ [{ echo := e, st, words := ws }] } } :=
  if_neg (by simpa [and_assoc] using h)

/-- The Window Memory that a reply leaves. -/
theorem putReply_wm (e : Echo) (st : Status) (ws : List Word) (s : State) : (putReply e st ws s).wm =
    putBytes s.mem.testing s.clk.free (putBytes s.mem.testing s.clk.free s.wm (replyAddr s + 8) ((replyBytes e st ws).drop 8))
      (replyAddr s) ((replyBytes e st ws).take 8) := by
  unfold putReply
  dsimp only
  exact irqRaise_wm _ _

theorem readBytes_putReply (hm : Memory.wf s.wm = true) (ht : ∀ i, i < 64 → testedAt s.mem.testing (replyAddr s + i) = false) :
    readBytes (putReply e st ws s).wm (replyAddr s) 64 = replyBytes e st ws := by
  have hlen := replyBytes_length e st ws
  have htail : ∀ i, i < ((replyBytes e st ws).drop 8).length → testedAt s.mem.testing (replyAddr s + 8 + i) = false := fun i hi => by
    rw [Nat.add_assoc]
    exact ht _ (by simp at hi; omega)
  rw [putReply_wm, putBytes_untested _ _ htail, putBytes_untested _ _ fun i hi => ht i (by simp at hi; omega)]
  conv_lhs => rw [← hlen]
  exact readBytes_writeBytes_split hm _ 8 _ (by omega)

theorem memRead_putReply_outside (hm : Memory.wf s.wm = true) {b : Nat} (hb : b < replyAddr s ∨ replyAddr s + 64 ≤ b) :
    memRead (putReply e st ws s).wm b = memRead s.wm b := by
  have hlen := replyBytes_length e st ws
  rw [putReply_wm, memRead_putBytes_outside _ _ _ _ _ (putBytes_wf _ _ _ _ hm) (by simp; omega),
    memRead_putBytes_outside _ _ _ _ _ hm (by simp; omega)]

theorem ring_putReply (hr : tblWf ringReset 0 s.io.rings = true) (q : Nat) : ring (putReply e st ws s) q =
    if q = 4 then { ring s 4 with index := ((ring s 4).index + 1) % slots (ring s 4) } else ring s q := by
  rw [ring, show (putReply e st ws s).io.rings = _ from irqRaise_rings _ _]
  exact tget_tset hr q

@[simp] theorem irqRaise_offered (b : Nat) (s : State) : (irqRaise b s).io.offered = s.io.offered := by
  unfold irqRaise irqEdge msixSend
  dsimp only
  repeat' split
  all_goals rfl

theorem putReply_offered : (putReply e st ws s).io.offered = s.io.offered - 1 := irqRaise_offered _ _

theorem irqRaise_zero_irq (s : State) : (irqRaise 0 s).io.irq = s.io.irq ||| 1#5 := by
  refine BitVec.eq_of_getLsbD_eq fun k hk => ?_
  rw [irqRaise_bit (by decide), BitVec.getLsbD_or, BitVec.getLsbD_one]
  simp

theorem putReply_irq : (putReply e st ws s).io.irq = s.io.irq ||| 1#5 := irqRaise_zero_irq _

/-- Settles O11: a reply held, or written by `putReply`, field by field. -/
theorem replyWrittenWhole : Obligations.ReplyWrittenWhole := by
  intro o p st ws t u hm hr hlen h
  obtain rfl : writeReply (packetEcho o p) st ws t = u := Host.Outcome.next.inj h
  refine ⟨writeReply_held, fun ha ho hl => ?_⟩
  rw [writeReply_now ha ho hl]
  intro a head ht
  exact ⟨readBytes_putReply hm ht, fun b hb => memRead_putReply_outside hm hb, fun q => ring_putReply hr q, putReply_irq, putReply_offered⟩

/-! ## COMMAND_DECODE -/

/-- Ring `r` decodes its next slot now. -/
def decodes (r : Nat) (s : State) : Prop :=
  s.dev.ready = true ∧ running s = true ∧ s.dev.failover = false ∧ s.save.haltAt = none ∧ outstanding s < s.io.offered ∧
    (ring s r).en = true ∧ (ring s r).fault = false ∧ job s r = none ∧ (ring s r).index ≠ (ring s r).db

theorem exec_commandDecode (hr : r < 4) (h : decodes r s) : exec (.commandDecode r) s = .next (slotDecode r s) := by
  obtain ⟨hready, hrun, hgap, hhalt, hout, hen, hfault, hjob, hidx⟩ := h
  refine (if_neg (by simp [hr])).trans (if_pos ?_)
  simp [plansOpen, ringOpen, hready, hrun, hgap, hhalt, hout, hr, hen, hfault, hjob, hidx]

theorem exec_commandDecode_waits (hr : r < 4) (h : ¬decodes r s) : exec (.commandDecode r) s = .next s := by
  refine (if_neg (by simp [hr])).trans (if_neg fun hopen => h ?_)
  simp only [plansOpen, ringOpen, Bool.and_eq_true, Bool.not_eq_true', Option.isNone_iff_eq_none, decide_eq_true_eq, bne_iff_ne] at hopen
  obtain ⟨⟨⟨⟨⟨⟨hready, hrun⟩, hgap⟩, hhalt⟩, hout⟩, ⟨⟨-, hen⟩, hfault⟩, hjob⟩, hidx⟩ := hopen
  exact ⟨hready, hrun, hgap, hhalt, hout, hen, hfault, hjob, hidx⟩

theorem slotDecode_unowned (h : ((wmGet s (slotAddr r s) 64).getD 2 0).getLsbD 7 = false) : slotDecode r s = ringFault r s :=
  if_pos (by simp only [h, Bool.not_false])

theorem slotDecode_owned (h : ((wmGet s (slotAddr r s) 64).getD 2 0).getLsbD 7 = true) (hw : slotWaits r (wmGet s (slotAddr r s) 64) s = false) :
    slotDecode r s = slotRun r (wmGet s (slotAddr r s) 64) (slotDone r s) :=
  (if_neg (by simp only [h]; decide)).trans (if_neg (by simp only [hw]; decide))

theorem slotRun_badCrc {bs : List Byte} (h : packetCrcOk bs = false) : slotRun r bs s = writeReply (slotEcho r bs) .badCrc [] s := by
  simp only [slotRun, h, Bool.not_false, if_true]

theorem slotRun_unknown {bs : List Byte} (h : packetCrcOk bs = true) (ho : opOf (bs.getD 0 0).toNat (bs.getD 1 0).toNat = none) :
    slotRun r bs s = writeReply (slotEcho r bs) .badOpcode [] s := by
  simp only [slotRun, h, Bool.not_true, Bool.false_eq_true, if_false, ho]

theorem slotRun_known {bs : List Byte} {o : Op} (h : packetCrcOk bs = true) (ho : opOf (bs.getD 0 0).toNat (bs.getD 1 0).toNat = some o) :
    slotRun r bs s = decodeRun o (packetOf r bs) s := by
  simp only [slotRun, h, Bool.not_true, Bool.false_eq_true, if_false, ho]

/-- Settles O16: `slotDecode` by `OWN`, then `slotRun` by the CRC and the opcode. -/
theorem slotDecode_holds : Obligations.SlotDecode := by
  intro r s hr open_ a bs t p
  refine ⟨fun h => exec_commandDecode_waits hr h, fun h hown => ?_, fun h hown hw => ?_⟩
  · rw [exec_commandDecode hr h, slotDecode_unowned hown]
    rfl
  · rw [exec_commandDecode hr h, slotDecode_owned hown hw]
    exact ⟨fun hc => congrArg _ (slotRun_badCrc hc), fun hc ho => congrArg _ (slotRun_unknown hc ho), fun hc o ho => congrArg _ (slotRun_known hc ho)⟩

end Sys2Proof.Machine

/-! PROOFS. The system commands (12 R345, R346; 15 R410, R411, R420; 16 R446 to R448). -/

namespace Sys2Proof.Machine

variable {p : Packet} {s s0 s1 t : State} {j : Job} {n k : Nat}

/-- A field of a word as a bit vector. -/
theorem ofNat_fld (w : Word) {n hi lo : Nat} (h : hi + 1 = lo + n) : BitVec.ofNat n (fld w hi lo) = (w >>> lo).setWidth n := by
  apply BitVec.eq_of_toNat_eq
  rw [fld, show hi + 1 - lo = n by omega]
  simp [Nat.shiftRight_eq_div_pow]

/-! ## Settings and reports -/

theorem bodySysModeGet_eq (p : Packet) (s : State) : bodySysModeGet p s = .reply .ok
    [wd (modeCode s.dev.mode + 2 ^ 4 * s.dev.prevMode
      + 2 ^ 8 * (b2n (fenceCause s 0 != 0) + 2 * b2n (fenceCause s 1 != 0) + 4 * b2n (fenceCause s 2 != 0) + 8 * b2n (fenceCause s 3 != 0))
      + 2 ^ 12 * (b2n (failFence s 0) + 2 * b2n (failFence s 1) + 4 * b2n (failFence s 2) + 8 * b2n (failFence s 3))
      + 2 ^ 16 * s.dev.bootErr + 2 ^ 24 * b2n s.dev.woke + 2 ^ 25 * b2n s.dev.restored + 2 ^ 26 * s.dev.bootSrc), s.dev.fcMode, wd s.dev.cycMode] s := by
  simp [bodySysModeGet, List.range_succ]

theorem bodySysIoSet_eq (p : Packet) (s : State) : bodySysIoSet p s =
    done ((List.range 16).foldl (fun s n => driverGuard n s) { s with fio := { s.fio with
      dir := ((wAt p.params 1).setWidth 16 &&& (wAt p.params 0).setWidth 16) ||| (s.fio.dir &&& ~~~((wAt p.params 0).setWidth 16))
      level := ((wAt p.params 1 >>> 16).setWidth 16 &&& (wAt p.params 0).setWidth 16) ||| (s.fio.level &&& ~~~((wAt p.params 0).setWidth 16))
      alm := if (wAt p.params 0).getLsbD 16 then (wAt p.params 0).getLsbD 17 else s.fio.alm
      gpioEvt := if (wAt p.params 0).getLsbD 18 then (wAt p.params 2).setWidth 16 else s.fio.gpioEvt
      almEvt := if (wAt p.params 0).getLsbD 18 then (wAt p.params 2 >>> 16).setWidth 4 else s.fio.almEvt } }) := by
  have hlow : ∀ w : Word, BitVec.ofNat 16 (fld w 15 0) = w.setWidth 16 := fun w => ofNat_fld w rfl
  have hhigh : ∀ w : Word, BitVec.ofNat 16 (fld w 31 16) = (w >>> 16).setWidth 16 := fun w => ofNat_fld w rfl
  have halm : ∀ w : Word, BitVec.ofNat 4 (fld w 19 16) = (w >>> 16).setWidth 4 := fun w => ofNat_fld w rfl
  simp only [bodySysIoSet, pf, hlow, hhigh, halm]
  rfl

/-- What the guard makes of an output: off from now while it is on with a fault, else as it was. -/
theorem driverGuard_output (h : s.fio.dir.getLsbD n = true) : driverGuard n s = driverOff n
    (if tget noTime s.fio.offAt n = none ∧ (guardPin s (n + 10)).kind ≠ 0 then some s.clk.now else tget noTime s.fio.offAt n) s := by
  by_cases hon : tget noTime s.fio.offAt n = none
  · by_cases hf : (guardPin s (n + 10)).kind = 0
    · simp [driverGuard, driverOff, h, hon, hf]
    · rw [driverGuard_faulty h hon hf, if_pos ⟨hon, hf⟩]
  · simp [driverGuard, driverOff, h, hon]

/-- Settles O17: each body is its table's words and effect; the guard by the pin's direction. -/
theorem systemCommandReplies : Obligations.SystemCommandReplies := by
  refine ⟨fun p s s1 h => runCommand_reply h rfl, fun p s s1 h => runCommand_reply h (bodySysModeGet_eq p s1),
    fun p s s1 h => runCommand_reply h (bodySysIoSet_eq p s1), fun n s => ?_, fun p s s1 h => runCommand_reply h rfl,
    fun p s s1 h => runCommand_reply h rfl, fun p s s1 h => runCommand_reply h rfl⟩
  cases h : s.fio.dir.getLsbD n with
  | false => exact ⟨none, driverGuard_input h, fun _ => rfl, nofun⟩
  | true => exact ⟨_, driverGuard_output h, nofun, fun _ => rfl⟩

/-! ## Modes and fences (16 R426, R438, R439, R446, R448) -/

theorem bodySysModeSet_stays (h : pf p.params 0 3 0 = modeCode s.dev.mode) :
    bodySysModeSet p s = .reply .ok [s.dev.fcMode, wd s.dev.cycMode] s := if_pos h.symm

theorem bodySysModeSet_halt (h : pf p.params 0 3 0 ≠ modeCode s.dev.mode) (h8 : pf p.params 0 3 0 = 8) :
    bodySysModeSet p s = .reply .ok (nowWords s) (haltIn .halt s) := (if_neg h.symm).trans (if_pos h8)

theorem bodySysModeSet_fenced (h : pf p.params 0 3 0 ≠ modeCode s.dev.mode) (h8 : pf p.params 0 3 0 ≠ 8) (hf : failFences s = true) :
    bodySysModeSet p s = .reply .notInMode [] s := (if_neg h.symm).trans ((if_neg h8).trans (if_pos hf))

/-- What RETENTION needs (16 R439). -/
def retainable (r : Nat) (s : State) : Prop :=
  (s.dev.mode = .commissioning ∨ s.dev.mode = .maintenance) ∧ committedMode s = s.dev.mode ∧ allSquelched s = true ∧ s.keys.ops = [] ∧
    onRequest s = false ∧ otherRingsIdle r s = true

theorem retainable_iff (r : Nat) (s : State) :
    ((s.dev.mode == .commissioning || s.dev.mode == .maintenance) && committedMode s == s.dev.mode && allSquelched s && !cipherBusy s &&
      !onRequest s && otherRingsIdle r s) = true ↔ retainable r s := by
  simp only [retainable, cipherBusy, Bool.and_eq_true, Bool.or_eq_true, beq_iff_eq, Bool.not_eq_true', Bool.not_eq_false', List.isEmpty_iff, and_assoc]

theorem bodySysModeSet_retention (h : pf p.params 0 3 0 ≠ modeCode s.dev.mode) (h2 : pf p.params 0 3 0 = 2) (hf : failFences s = false)
    (hr : retainable p.ring s) : bodySysModeSet p s = .reply .ok (nowWords s) (haltIn .retention (retain s)) := by
  rw [bodySysModeSet, if_neg h.symm, if_neg (by omega), if_neg (ne_true_of_eq_false hf), if_pos h2]
  exact if_pos ((retainable_iff _ _).mpr hr)

theorem bodySysModeSet_unfit (h : pf p.params 0 3 0 ≠ modeCode s.dev.mode) (h2 : pf p.params 0 3 0 = 2) (hf : failFences s = false)
    (hr : ¬retainable p.ring s) : bodySysModeSet p s = .reply .notInMode [] s := by
  rw [bodySysModeSet, if_neg h.symm, if_neg (by omega), if_neg (ne_true_of_eq_false hf), if_pos h2]
  exact if_neg (mt (retainable_iff _ _).mp hr)

theorem bodySysModeSet_port (h : pf p.params 0 3 0 ≠ modeCode s.dev.mode) (h2 : pf p.params 0 3 0 ≠ 2) (h8 : pf p.params 0 3 0 ≠ 8)
    (hf : failFences s = false) : bodySysModeSet p s = .wait .port [] [] s := by
  rw [bodySysModeSet, if_neg h.symm, if_neg h8, if_neg (ne_true_of_eq_false hf), if_neg h2]
  rfl

theorem bodySysFenceSet_port (h : releasesFailed p.params s = false) : bodySysFenceSet p s = .wait .port [] [] s := by
  rw [bodySysFenceSet, if_neg (ne_true_of_eq_false h), toPort]

theorem bodySysFenceSet_refused (h : releasesFailed p.params s = true) : bodySysFenceSet p s = .reply .notInMode [] s := by
  rw [bodySysFenceSet, if_pos h, refuse]

/-- HALT or RETENTION is reached within 1 ms (log 2). -/
theorem haltIn_eq (m : Mode) (s : State) : ∃ n, n ≤ 1000000 ∧ haltIn m s =
    { s with clk := { s.clk with free := s.clk.free + 1 }, save := { s.save with haltAt := some (s.clk.now + n, m) } } :=
  ⟨(draw 0x1638 s).1 % 1000001, Nat.lt_succ_iff.mp (Nat.mod_lt _ (by decide)), rfl⟩

/-- What a change to SERVICE or MAINTENANCE needs at the port (16 Table 16.2). -/
def modeFits (ws : List Word) (s : State) : Prop :=
  failFences s = false ∧
    ((pf ws 0 3 0 = 4 ∧ (committedMode s = .commissioning ∨ committedMode s = .maintenance) ∧ loopGenActive s = false ∧ alignPending s = false) ∨
      (pf ws 0 3 0 = 5 ∧ committedMode s = .service))

theorem modeCommitOk_iff (ws : List Word) (s : State) : modeCommitOk ws s = true ↔ modeFits ws s := by
  unfold modeCommitOk modeFits
  rw [Bool.and_eq_true, Bool.not_eq_true']
  refine and_congr_right' ?_
  split
  case h_1 h4 hm => simp [h4, hm]
  case h_2 h4 hm => simp [h4, hm]
  case h_3 h5 hm => simp [h5, hm]
  case h_4 hno1 hno2 hno3 =>
    refine iff_of_false Bool.false_ne_true ?_
    rintro (⟨h4, hm | hm, -⟩ | ⟨h5, hm⟩)
    · exact hno1 h4 hm
    · exact hno2 h4 hm
    · exact hno3 h5 hm

/-- What class SYS at the port needs: for a mode what Table 16.2 asks, for a fence that it releases no failed die. -/
def sysFits (j : Job) (s : State) : Prop := if j.act = 0x20 then modeFits j.params s else releasesFailed j.params s = false

theorem cmdCommit_sys_ok (hc : j.cls = 1) (h : sysFits j s) : cmdCommit j k s = .ok [] (stage k false j s) := by
  rw [cmdCommit_sys hc]
  unfold sysFits at h
  by_cases ha : j.act = 0x20
  · rw [if_pos ha, if_pos ((modeCommitOk_iff _ _).mpr (by rwa [if_pos ha] at h))]
  · rw [if_neg ha, if_neg (ne_true_of_eq_false (by rwa [if_neg ha] at h))]

theorem cmdCommit_sys_refuse (hc : j.cls = 1) (h : ¬sysFits j s) : cmdCommit j k s = .refuse .notInMode [] := by
  rw [cmdCommit_sys hc]
  unfold sysFits at h
  by_cases ha : j.act = 0x20
  · rw [if_pos ha, if_neg fun hok => h (by rw [if_pos ha]; exact (modeCommitOk_iff _ _).mp hok)]
  · rw [if_neg ha, if_pos (by rwa [if_neg ha, Bool.not_eq_false] at h)]

/-- Settles O18: the body decides in the order of its checks, `cmdCommit` at the port. -/
theorem modeAndFenceCommands : Obligations.ModeAndFenceCommands := by
  refine ⟨fun p s s1 h => ⟨fun hm => ?_, fun hm h8 => ?_, fun hm h8 hf => ?_, fun hm h2 hf => ⟨fun hr => ?_, fun hr => ?_⟩, fun hm h2 h8 hf => ?_⟩,
    fun p s s1 h => ⟨fun hr => ?_, fun hr => ?_⟩, fun j s0 s1 h hw hc => ⟨fun hfit => ?_, fun hfit => ?_⟩⟩
  · exact runCommand_reply h (bodySysModeSet_stays hm)
  · obtain ⟨n, hn, heq⟩ := haltIn_eq .halt s1
    exact ⟨n, hn, runCommand_reply h ((bodySysModeSet_halt hm h8).trans (congrArg _ heq))⟩
  · exact runCommand_reply h (bodySysModeSet_fenced hm h8 hf)
  · obtain ⟨n, hn, heq⟩ := haltIn_eq .retention (retain s1)
    exact ⟨n, hn, runCommand_reply h ((bodySysModeSet_retention hm h2 hf hr).trans (congrArg _ heq))⟩
  · exact runCommand_reply h (bodySysModeSet_unfit hm h2 hf hr)
  · exact runCommand_wait h (bodySysModeSet_port hm h2 h8 hf)
  · exact runCommand_wait h (bodySysFenceSet_port hr)
  · exact runCommand_reply h (bodySysFenceSet_refused hr)
  · have hok := cmdCommit_sys_ok (k := effTick (jrnl 2 j.ring j.tag s1)) hc hfit
    rw [exec_updatePortCommit_ok h hw (by omega) rfl hok]
    rfl
  · exact exec_updatePortCommit_refuse h hw (by omega) rfl (cmdCommit_sys_refuse hc hfit)

end Sys2Proof.Machine

/-! PROOFS. SYS_ABORT (12 R337, Table 12.8; 11 R312; 13 R369; 14 R388). -/

namespace Sys2Proof.Machine

variable {p : Packet} {s s1 t : State} {j : Job} {o : CceOp} {r n k : Nat} {b : Bool}

/-! ## What an abort does to its target -/

theorem abortOp_ends (h : o.st = 0 ∨ o.begun = false ∨ o.job.abortable = true) : abortOp o s = .reply .ok [] (endOp .aborted [] o s) :=
  if_pos (by rcases h with h | h | h <;> simp [h])

theorem abortOp_waits (h : o.st ≠ 0 ∧ o.begun = true ∧ o.job.abortable = false) : abortOp o s = .wait (.abort true o.id) [] [] s := by
  obtain ⟨hst, hbegun, hab⟩ := h
  exact if_neg (by simp [hst, hbegun, hab])

theorem abortJob_desc (h : j.work = .desc n) : abortJob j s = .reply .ok [] (endJob j.ring .aborted [] (masterReset 3 s)) := by
  simp only [abortJob, h]
  rfl

theorem abortJob_dumpWait_zero (h : j.work = .dumpWait 0 n) : abortJob j s = .reply .ok [] (endJob j.ring .aborted [] (masterReset 3 s)) := by
  simp only [abortJob, h]
  rfl

/-- A command that is not marked, or did not set `ABORTABLE`, runs on. -/
theorem abortJob_runs_on (hd : ∀ n, j.work ≠ .desc n) (hw : ∀ a, j.work ≠ .dumpWait 0 a) (h : (j.abortable && abortMarked j.cls j.act) = false) :
    abortJob j s = .wait (.abort false j.ring) [] [] s := by
  unfold abortJob
  dsimp only
  split
  case h_1 n heq => exact absurd heq (hd n)
  case h_2 a heq => exact absurd heq (hw a)
  case h_3 => exact if_pos (by rw [h]; rfl)

section Marked
variable (ha : j.abortable = true) (hm : abortMarked j.cls j.act = true)
include ha hm

theorem abortJob_conn {f l : Word × Nat} {g : List Nat} (h : j.work = .conn n f l g) :
    abortJob j s = .reply .ok [] (endJob j.ring .aborted (connWords j n f l g false 0) (masterReset 3 s)) := by
  simp [abortJob, h, ha, hm, done]

theorem abortJob_dumpWait {a : Nat} (hn : n ≠ 0) (h : j.work = .dumpWait n a) :
    abortJob j s = .reply .ok [] (endJob j.ring .aborted [wd n] (masterReset 3 s)) := by
  obtain ⟨n, rfl⟩ := Nat.exists_eq_succ_of_ne_zero hn
  simp [abortJob, h, ha, hm, done]

theorem abortJob_dump {a c f : Nat} (h : j.work = .dump n a c f) : abortJob j s =
    .reply .ok [] (endJob j.ring .aborted [wd n] (setJob j.ring (some { j with taken := [] }) (handBackOut a f (masterReset 3 s)))) := by
  simp [abortJob, h, ha, hm, done]

theorem abortJob_eye {l : Nat} (h : j.work = .eye l) : abortJob j s = .reply .ok [] (endJob j.ring .aborted [] (eyeAbort l j s)) := by
  simp [abortJob, h, ha, hm, done]

theorem abortJob_memTest {a l c d e f : Nat} (h : j.work = .memTest a l c d e f) :
    abortJob j s = .reply .ok [] (memTestAbort j (pf j.params 1 16 0) c d e f s) := by
  simp [abortJob, h, ha, hm, done]

end Marked

/-! ## The target -/

/-- The cipher operations that `SYS_ABORT` can mean, in their order. -/
def abortOps (p : Packet) (s : State) : List CceOp :=
  if pf p.params 0 1 0 = 3 then s.keys.ops.filter (fun o => o.job.tag == wAt p.params 1) else []

theorem head_abortOps (p : Packet) (s : State) : (abortOps p s).head? =
    if pf p.params 0 1 0 = 3 then s.keys.ops.find? (fun o => o.job.tag == wAt p.params 1) else none := by
  unfold abortOps
  split <;> [exact List.head?_filter; rfl]

theorem bodySysAbort_op {rest : List CceOp} (h : abortOps p s = o :: rest) : bodySysAbort p s = abortOp o s := by
  have hhead := head_abortOps p s
  rw [h, List.head?_cons] at hhead
  simp only [bodySysAbort, ← hhead]

theorem bodySysAbort_job (h : abortOps p s = []) (hj : job s (pf p.params 0 1 0) = some j) (ht : j.tag = wAt p.params 1) :
    bodySysAbort p s = abortJob j s := by
  have hhead := head_abortOps p s
  rw [h, List.head?_nil] at hhead
  simp only [bodySysAbort, ← hhead, hj, Option.filter_some, ht, beq_self_eq_true, if_true]

theorem bodySysAbort_none (h : abortOps p s = []) (hj : ∀ j, job s (pf p.params 0 1 0) = some j → j.tag ≠ wAt p.params 1) :
    bodySysAbort p s = .reply (if wAt p.params 1 ∈ tget noTags s.io.done (pf p.params 0 1 0) then .alreadyDone else .noSuchTag) [] s := by
  have hhead := head_abortOps p s
  rw [h, List.head?_nil] at hhead
  have hnone : (job s (pf p.params 0 1 0)).filter (fun j => j.tag == wAt p.params 1) = none := by
    cases hq : job s (pf p.params 0 1 0) with
    | none => rfl
    | some j => simp [Option.filter_some, hj j hq]
  simp only [bodySysAbort, ← hhead, hnone, List.contains_iff_mem, refuse]
  split <;> rfl

/-! ## Aborts that wait for their target -/

theorem endJob_answered (h : answers s = true) (st : Status) (ws : List Word) :
    endJob r st ws s = answerAborts 4 false r (endJobOne r st ws s) := if_pos h

theorem foldl_unchanged {α β : Type} {f : α → β → α} {a : α} : ∀ {l : List β}, (∀ x ∈ l, f a x = a) → l.foldl f a = a
  | [], _ => rfl
  | x :: l, h => by
    rw [List.foldl_cons, h x List.mem_cons_self]
    exact foldl_unchanged fun y hy => h y (List.mem_cons_of_mem _ hy)

/-- A fold that changes the state at one element of its list only. -/
theorem foldl_once {α β : Type} [DecidableEq β] {f : α → β → α} {q : β} {a : α} : ∀ {l : List β}, l.Nodup → q ∈ l → (∀ x ∈ l, x ≠ q → f a x = a) →
    (∀ x ∈ l, x ≠ q → f (f a q) x = f a q) → l.foldl f a = f a q
  | x :: l, hnd, hq, hb, ha => by
    obtain ⟨hx, hnd⟩ := List.nodup_cons.mp hnd
    rw [List.foldl_cons]
    by_cases hxq : x = q
    · subst hxq
      exact foldl_unchanged fun y hy => ha y (List.mem_cons_of_mem _ hy) fun h => hx (h ▸ hy)
    · rw [hb x List.mem_cons_self hxq]
      exact foldl_once hnd ((List.mem_cons.mp hq).resolve_left (Ne.symm hxq)) (fun y hy => hb y (List.mem_cons_of_mem _ hy))
        fun y hy => ha y (List.mem_cons_of_mem _ hy)

/-- Ring `q` answers an abort that waits for `n`, and what waits for that one. -/
def answerAbort (k : Nat) (b : Bool) (n : Nat) (s : State) (q : Nat) : State :=
  match job s q with
  | some j => if j.work = .abort b n then answerAborts k false q (endJobOne q .notInMode [] s) else s
  | none => s

theorem answerAborts_succ : answerAborts (k + 1) b n s = [0, 1, 2, 3].foldl (answerAbort k b n) s := rfl

theorem answerAbort_other {q : Nat} (h : ∀ a, job s q = some a → a.work ≠ .abort b n) : answerAbort k b n s q = s := by
  unfold answerAbort
  split
  case h_1 a ha => exact if_neg (h a ha)
  case h_2 => rfl

theorem answerAborts_none (h : ∀ q a, q < 4 → job s q = some a → a.work ≠ .abort b n) : ∀ k, answerAborts k b n s = s
  | 0 => rfl
  | k + 1 => foldl_unchanged fun q hq => answerAbort_other fun a => h q a (by simp at hq; omega)

@[simp] theorem irqRaise_jobs (b : Nat) (s : State) : (irqRaise b s).io.jobs = s.io.jobs := by
  unfold irqRaise irqEdge msixSend
  dsimp only
  repeat' split
  all_goals rfl

theorem writeReply_jobs (e : Echo) (st : Status) (ws : List Word) (s : State) : (writeReply e st ws s).io.jobs = s.io.jobs := by
  unfold writeReply
  split <;> [exact irqRaise_jobs _ _; rfl]

/-- The jobs once ring `q`'s has replied. -/
theorem job_replied (h : tblWf noJob 0 s.io.jobs = true) (e : Echo) (st : Status) (ws : List Word) (q q' : Nat) :
    job (writeReply e st ws (setJob q none s)) q' = if q' = q then none else job s q' := by
  rw [job, writeReply_jobs]
  exact tget_tset (v := none) h q'

theorem endJobOne_plain {q : Nat} {a : Job} (hj : job s q = some a) (ht : a.taken = []) (st : Status) (ws : List Word) :
    endJobOne q st ws s = writeReply (jobEcho a) st ws (setJob q none s) := by
  simp only [endJobOne, hj, ht, List.foldl_nil]

/-- The one abort that waits for a target is answered when the target has replied. -/
theorem answerAborts_one {q : Nat} {a : Job} (hq : q < 4) (hwf : tblWf noJob 0 s.io.jobs = true) (hj : job s q = some a)
    (hw : a.work = .abort b n) (ht : a.taken = [])
    (hno : ∀ q' a', q' < 4 → q' ≠ q → job s q' = some a' → a'.work ≠ .abort b n ∧ a'.work ≠ .abort false q) :
    answerAborts (k + 1) b n s = writeReply (jobEcho a) .notInMode [] (setJob q none s) := by
  have hother : ∀ q' a', job (writeReply (jobEcho a) .notInMode [] (setJob q none s)) q' = some a' → q' ≠ q ∧ job s q' = some a' :=
    fun q' a' h => by
      rw [job_replied hwf] at h
      split at h
      · cases h
      · exact ⟨by assumption, h⟩
  have hat : answerAbort k b n s q = writeReply (jobEcho a) .notInMode [] (setJob q none s) := by
    simp only [answerAbort, hj]
    rw [if_pos hw, endJobOne_plain hj ht]
    exact answerAborts_none (fun q' a' hq' h => (hno q' a' hq' (hother q' a' h).1 (hother q' a' h).2).2) k
  rw [answerAborts_succ, foldl_once (q := q) (by decide) (by simp; omega), hat]
  · exact fun q' hq' hne => answerAbort_other fun a' h => (hno q' a' (by simp at hq'; omega) hne h).1
  · intro q' hq' hne
    rw [hat]
    exact answerAbort_other fun a' h => (hno q' a' (by simp at hq'; omega) hne (hother q' a' h).2).1

/-- An operation's reply is followed by the answers to the aborts that wait for it. -/
theorem endOp_answers (st : Status) (ws : List Word) (o : CceOp) (s : State) :
    ∃ t, endOp st ws o s = answerAborts 4 true o.id (writeReply (jobEcho o.job) st ws t) := ⟨_, rfl⟩

/-! ## Memory tests -/

/-- The march engine leaves its stripe (13 R369). -/
def stripeLeft (s : State) : State := fenceDone (borrowDrop (masterReset 5 { s with mem := { s.mem with testing := none } }))

theorem memTestAbort_counts {first dn rep unrep skip : Nat} (h : pf j.params 0 5 4 ≠ 1) : memTestAbort j first dn rep unrep skip s =
    endJob j.ring .aborted [wd dn, wd (rep % 65536 + 65536 * (unrep % 65536)), wd skip] (stripeLeft s) := if_neg h

/-- A destructive test ends at a free count of its stripes, which then read 0 (log 2). -/
theorem memTestAbort_destructive {first dn rep unrep skip : Nat} (h : pf j.params 0 5 4 = 1) : ∃ n c u, n ≤ pf j.params 2 16 0 ∧
    memTestAbort j first dn rep unrep skip s = endJob j.ring .aborted [wd n, wd c, 0] u ∧
    u.wm = if pf j.params 0 3 0 = 0 then (stripeLeft s).wm.filter (fun x => !(decide (first ≤ x.1 / 4096) && decide (x.1 / 4096 < first + n)))
      else (stripeLeft s).wm := by
  refine ⟨_, _, _, Nat.lt_succ_iff.mp (Nat.mod_lt _ (Nat.succ_pos _)), if_pos h, ?_⟩
  exact apply_ite State.wm _ _ _

/-- Settles O19: `bodySysAbort` finds its target, `abortOp` and `abortJob` act on it by what it waits for. -/
theorem abortOutcomes : Obligations.AbortOutcomes := by
  refine ⟨fun p s s1 h => ?_, fun r st ws s h => endJob_answered h st ws, endOp_answers,
    fun b n q a s hq hwf hj hw ht hno => answerAborts_one hq hwf hj hw ht hno,
    fun j first dn rep unrep skip s => ⟨memTestAbort_counts, memTestAbort_destructive⟩⟩
  intro r tag ops
  refine ⟨fun o rest hops => ⟨fun hend => ?_, fun hrun => ?_⟩, fun hops j hj htag hring => ?_, fun hops hj => ?_⟩
  · exact runCommand_reply h ((bodySysAbort_op hops).trans (abortOp_ends hend))
  · exact runCommand_wait h ((bodySysAbort_op hops).trans (abortOp_waits hrun))
  · have hbody := bodySysAbort_job hops hj htag
    rw [← hring]
    refine ⟨fun ⟨n, hw⟩ => ?_, fun n f l g hw ha hm => ?_, fun a hw => ?_, fun n a hn hw ha hm => ?_, fun n a c fill hw ha hm => ?_,
      fun a b c d e f hw ha hm => ?_, fun l hw ha hm => ?_, fun hd hw hm => ?_⟩
    · exact runCommand_reply h (hbody.trans (abortJob_desc hw))
    · exact runCommand_reply h (hbody.trans (abortJob_conn ha hm hw))
    · exact runCommand_reply h (hbody.trans (abortJob_dumpWait_zero hw))
    · exact runCommand_reply h (hbody.trans (abortJob_dumpWait ha hm hn hw))
    · exact runCommand_reply h (hbody.trans (abortJob_dump ha hm hw))
    · exact runCommand_reply h (hbody.trans (abortJob_memTest ha hm hw))
    · exact runCommand_reply h (hbody.trans (abortJob_eye ha hm hw))
    · exact runCommand_wait h (hbody.trans (abortJob_runs_on hd hw hm))
  · exact runCommand_reply h (bodySysAbort_none hops hj)

end Sys2Proof.Machine

/-! PROOFS. The seal commands (11 R289, R298, R304, R313). -/

namespace Sys2Proof.Machine

variable {p : Packet} {s s1 t : State} {ws : List Word} {ta : Nat}

/-! ## The settings of a binding -/

theorem sealTxApply_ends (h : pb ws 0 18 = false) : sealTxApply ws s = setTx (pf ws 0 17 0) none s := if_pos (by rw [h]; rfl)

theorem sealTxApply_enables (h : pb ws 0 18 = true) : sealTxApply ws s =
    if (txSeal s (pf ws 0 17 0)).any (fun b => txSame b ws) then s else setTx (pf ws 0 17 0) (some (txNew ws)) s :=
  if_neg (by rw [h]; decide)

theorem txSame_iff (b : TxSeal) (ws : List Word) : txSame b ws = true ↔ b.pair = pf ws 1 11 0 ∧ b.salt = wAt ws 2 := by simp [txSame]

theorem rxSame_iff (b : RxSeal) (ws : List Word) :
    rxSame b ws = true ↔ b.pair = pf ws 1 11 0 ∧ b.salt = wAt ws 2 ∧ b.fast = pb ws 0 19 := by simp [rxSame, and_assoc]

theorem any_eq_false_of {α : Type} {x : Option α} {f : α → Bool} (h : ∀ b, x = some b → f b = false) : x.any f = false := by
  cases x with
  | none => rfl
  | some b => exact h b rfl

theorem sealTxApply_new (h : pb ws 0 18 = true)
    (hno : ∀ b, txSeal s (pf ws 0 17 0) = some b → ¬(b.pair = pf ws 1 11 0 ∧ b.salt = wAt ws 2)) :
    sealTxApply ws s = setTx (pf ws 0 17 0) (some (txNew ws)) s := by
  rw [sealTxApply_enables h, any_eq_false_of fun b hb => eq_false_of_ne_true (mt (txSame_iff b ws).mp (hno b hb))]
  rfl

theorem sealTxApply_same {b : TxSeal} (h : pb ws 0 18 = true) (hb : txSeal s (pf ws 0 17 0) = some b) (hs : txSame b ws = true) :
    sealTxApply ws s = s := by
  rw [sealTxApply_enables h, hb, Option.any_some, if_pos hs]

theorem sealRxApply_ends (h : pb ws 0 18 = false) : sealRxApply ws s = holdDrop (pf ws 0 17 0) (setRx (pf ws 0 17 0) none s) :=
  if_pos (by rw [h]; rfl)

theorem sealRxApply_same {b : RxSeal} (h : pb ws 0 18 = true) (hb : rxSeal s (pf ws 0 17 0) = some b) (hs : rxSame b ws = true) :
    sealRxApply ws s = s := by
  refine (if_neg (by rw [h]; decide)).trans (if_pos ?_)
  rw [hb, Option.any_some, hs]

/-- The opener's binding that the words give, in the phase that its pair is in. -/
def rxBound (ws : List Word) (s : State) : State := setRx (pf ws 0 17 0) (some (rxNew ws (pair s (pf ws 1 11 0)).cur)) s

theorem sealRxApply_new (h : pb ws 0 18 = true)
    (hno : ∀ b, rxSeal s (pf ws 0 17 0) = some b → ¬(b.pair = pf ws 1 11 0 ∧ b.salt = wAt ws 2 ∧ b.fast = pb ws 0 19)) :
    sealRxApply ws s = if pb ws 0 19 then holdDrop (pf ws 0 17 0) (rxBound ws s)
      else storeFrom (pf ws 0 17 0) (curCycle s) (putC (pf ws 0 17 0) (curCycle s) 16 (rxBound ws s)) := by
  refine (if_neg (by rw [h]; decide)).trans (if_neg ?_)
  rw [any_eq_false_of fun b hb => eq_false_of_ne_true (mt (rxSame_iff b ws).mp (hno b hb))]
  exact Bool.false_ne_true

/-! ## SEAL_FLIP and SEAL_GET -/

/-- A pair flips when a sealing tributary uses it and its other slot is loaded (11 R298). -/
def flips (n : Nat) (s : State) : Prop := pairTx s n ≠ [] ∧ (sealSlot s (2 * n + b2n (!(pair s n).cur))).loaded = true

/-- The FC of a flip: the one named, or the next when that is not later. -/
def flipFc (ws : List Word) (s : State) : Word := if fcLater (wAt ws 1) (s.clk.fc + 1) then wAt ws 1 else s.clk.fc + 1

theorem bodySealFlip_flips (h : flips (pf p.params 0 11 0) s) : bodySealFlip p s = .reply .ok [flipFc p.params s]
    (setPair (pf p.params 0 11 0) { pair s (pf p.params 0 11 0) with flip := some (flipFc p.params s) } s) :=
  if_neg (by simp [h.1, h.2])

theorem bodySealFlip_refused (h : ¬flips (pf p.params 0 11 0) s) : bodySealFlip p s = .reply .notInMode [] s := by
  refine if_pos ?_
  rw [flips, not_and_or, ne_eq, not_not, Bool.not_eq_true] at h
  rcases h with h | h <;> simp [h]

theorem bodySealGet_egress (h : pb p.params 0 18 = true) : bodySealGet p s = .reply .ok
    (padTo 4 0 (((txSeal s (pf p.params 0 17 0)).map (·.samp)).getD []) ++ [wd (2 * b2n (egTa s (pf p.params 0 17 0)).splitS)])
    (if pb p.params 0 19 = true ∧ (egTa s (pf p.params 0 17 0)).splitS = true
      then modEg (pf p.params 0 17 0) (fun x => { x with splitH := false, splitS := false }) s else s) := by
  simp only [bodySealGet, h, if_true, Bool.and_eq_true]

theorem bodySealGet_ingress {b : RxSeal} (h : pb p.params 0 18 = false) (hb : rxSeal s (pf p.params 0 17 0) = some b) :
    bodySealGet p s = .reply .ok (padTo 5 0 b.samp) (if pb p.params 0 19 = true ∧ bit (wAt b.samp 4) 0 = true
      then setRx (pf p.params 0 17 0) (some { b with hist := false, samp := b.samp.take 4 }) s else s) := by
  simp only [bodySealGet, h, Bool.false_eq_true, if_false, hb, Bool.and_eq_true]

theorem bodySealGet_unbound (h : pb p.params 0 18 = false) (hb : rxSeal s (pf p.params 0 17 0) = none) :
    bodySealGet p s = .reply .ok [0, 0, 0, 0, 0] s := by
  simp only [bodySealGet, h, Bool.false_eq_true, if_false, hb]

/-! ## The sample of every frame tick -/

theorem mem_keys_of_tget_ne {α : Type} {d : Nat → α} {k : Nat} : ∀ {t : Tbl α}, tget d t k ≠ d k → k ∈ t.map Prod.fst
  | [], h => absurd rfl h
  | (j, v) :: t, h => by
    unfold tget at h
    split at h
    case isTrue hk => exact hk ▸ List.mem_cons_self
    case isFalse hk =>
      split at h
      · exact absurd rfl h
      · exact List.mem_cons_of_mem _ (mem_keys_of_tget_ne h)

/-- The entries of the keys `l` are mapped, one after the other. -/
def mapKeys {α : Type} [DecidableEq α] (f : α → α) (l : List Nat) (t : Tbl (Option α)) : Tbl (Option α) :=
  l.foldl (fun t k => tset (fun _ => none) k ((tget (fun _ => none) t k).map f) t) t

theorem tget_mapKeys {α : Type} [DecidableEq α] {f : α → α} (hf : ∀ b, f (f b) = f b) (k : Nat) : ∀ (l : List Nat) {t : Tbl (Option α)},
    tblWf (fun _ => none) 0 t = true →
    tget (fun _ => none) (mapKeys f l t) k = if k ∈ l then (tget (fun _ => none) t k).map f else tget (fun _ => none) t k
  | [], _, _ => by simp [mapKeys]
  | a :: l, t, ht => by
    have ih := tget_mapKeys hf k l (tset_wf (v := (tget (fun _ => none) t a).map f) (Nat.zero_le a) ht)
    rw [tget_tset ht] at ih
    refine ih.trans ?_
    by_cases hk : k = a
    · subst hk
      cases tget (fun _ => none) t k <;> simp [hf]
    · simp [hk]

/-- A listed entry that is mapped with every other. -/
theorem tget_mapKeys_listed {α : Type} [DecidableEq α] {f : α → α} (hf : ∀ b, f (f b) = f b) {t : Tbl (Option α)}
    (ht : tblWf (fun _ => none) 0 t = true) {k : Nat} {b : α} (hb : tget (fun _ => none) t k = some b) :
    tget (fun _ => none) (mapKeys f (t.map (·.1)) t) k = some (f b) := by
  rw [tget_mapKeys hf k _ ht, if_pos (mem_keys_of_tget_ne (by rw [hb]; exact Option.some_ne_none b)), hb, Option.map_some]

/-- The words that a sealing and an opening binding report from this frame tick on (11 Table 11.9). -/
def txSampled (s : State) (b : TxSeal) : TxSeal := { b with samp := txWords s b }
def rxSampled (b : RxSeal) : RxSeal := { b with samp := rxWords b }

theorem sampleTxs_eq {s0 : State} : ∀ (l : List Nat) (s : State), s.keys.pairs = s0.keys.pairs →
    l.foldl (fun s ta => setTx ta ((txSeal s ta).map (fun b => { b with samp := txWords s b })) s) s =
      { s with keys := { s.keys with tx := mapKeys (txSampled s0) l s.keys.tx } }
  | [], _, _ => rfl
  | ta :: l, s, h => by
    have hf : (fun b => { b with samp := txWords s b }) = txSampled s0 := funext fun b => by simp only [txSampled, txWords, pair, h]
    rw [List.foldl_cons, sampleTxs_eq l _ (by exact h), hf]
    rfl

theorem sampleRxs_eq : ∀ (l : List Nat) (s : State),
    l.foldl (fun s ta => setRx ta ((rxSeal s ta).map (fun b => { b with samp := rxWords b })) s) s =
      { s with keys := { s.keys with rx := mapKeys rxSampled l s.keys.rx } }
  | [], _ => rfl
  | ta :: l, s => by
    rw [List.foldl_cons, sampleRxs_eq l]
    rfl

/-- What the sample of a frame tick makes of the seal bindings. -/
theorem sealSample_keys (s : State) : (sealSample s).keys = { s.keys with
    tx := mapKeys (txSampled s) (s.keys.tx.map (·.1)) s.keys.tx
    rx := mapKeys rxSampled (s.keys.rx.map (·.1)) s.keys.rx } := by
  have hsplit : ∀ (l : List Nat) (u : State), (l.foldl (fun s ta => modEg ta (fun x => { x with splitS := x.splitH }) s) u).keys = u.keys := by
    intro l
    induction l with
    | nil => exact fun _ => rfl
    | cons a l ih => exact fun u => ih _
  unfold sealSample
  dsimp only
  rw [hsplit, sampleTxs_eq (s0 := s) _ s rfl, sampleRxs_eq]

/-- Settles O48: the settings by `ENABLE` and what the binding has, the commands' bodies, and the sample of each table entry by entry. -/
theorem sealCommands : Obligations.SealCommands := by
  refine ⟨fun p s s1 h => runCommand_wait h rfl, fun p s s1 h => runCommand_wait h rfl,
    fun ws s => ⟨sealTxApply_ends, sealTxApply_new, fun b hen hb hp hs => sealTxApply_same hen hb ((txSame_iff b ws).mpr ⟨hp, hs⟩)⟩,
    fun ws s => ⟨sealRxApply_ends, fun b hen hb hp hs hq => sealRxApply_same hen hb ((rxSame_iff b ws).mpr ⟨hp, hs, hq⟩),
      fun hen hno => ⟨fun hq => ?_, fun hq => ?_⟩⟩,
    fun p s s1 h => ⟨fun hm => runCommand_reply h (bodySealFlip_flips hm), fun hm => runCommand_reply h (bodySealFlip_refused hm)⟩,
    fun p s s1 h => ⟨fun hd => ⟨fun b hb => ?_, fun hb => ?_⟩, fun hd => ⟨fun b hb => runCommand_reply h (bodySealGet_ingress hd hb),
      fun hb => runCommand_reply h (bodySealGet_unbound hd hb)⟩⟩,
    fun s ta htx hrx => ⟨fun b hb => ?_, fun b hb => ?_⟩⟩
  · rw [sealRxApply_new hen hno, if_pos hq]
    rfl
  · rw [sealRxApply_new hen hno, if_neg (ne_true_of_eq_false hq)]
    rfl
  · have hbody := bodySealGet_egress (s := s1) hd
    rw [hb] at hbody
    exact runCommand_reply h hbody
  · have hbody := bodySealGet_egress (s := s1) hd
    rw [hb] at hbody
    exact runCommand_reply h hbody
  · rw [txSeal, sealSample_keys]
    exact tget_mapKeys_listed (f := txSampled s) (fun _ => rfl) htx hb
  · rw [rxSeal, sealSample_keys]
    exact tget_mapKeys_listed (f := rxSampled) (fun _ => rfl) hrx hb

end Sys2Proof.Machine

/-! PROOFS. The key commands (11 R299 to R306, R309, R313; 12 R329). -/

namespace Sys2Proof.Machine

variable {p : Packet} {s s1 : State}

/-! ## CIPH_KEY_LOAD -/

section Load

/-- The command slot whose key unwraps the blob. -/
def wrapSlot (p : Packet) (s : State) : KeySlot := cmdSlot s (pf p.params 0 21 15)

/-- The slot named may unwrap for this target (11 R300). -/
def unwraps (p : Packet) (s : State) : Prop :=
  (wrapSlot p s).use = 2 ∧ (wrapSlot p s).mask.testBit (pf p.params 0 14 14) = true

/-- The blob can be unwrapped: by the device's own key, or by a slot that may and is loaded. -/
def wrapReady (p : Packet) (s : State) : Prop := pf p.params 0 21 15 = 0x7F ∨ (unwraps p s ∧ (wrapSlot p s).loaded = true)

/-- The slot to be loaded is in use, or unwraps its own key. -/
def loadInUse (p : Packet) (s : State) : Bool :=
  if pb p.params 0 0 then cmdInUse s (pf p.params 0 13 1) || pf p.params 0 21 15 == pf p.params 0 13 1 else sealInUse s (pf p.params 0 13 1)

/-- The blob's text, if it unwraps. -/
def loadText (p : Packet) (s : State) : Option (List Byte) :=
  unwrapAt s (if pf p.params 0 21 15 = 0x7F then beBytes 32 Config.dik else (wrapSlot p s).key) (pf p.params 1 22 0)

/-- The slot that text `t` loads. -/
def loadedSlot (p : Packet) (s : State) (t : List Byte) : KeySlot :=
  slotLoaded (if pb p.params 0 0 then cmdSlot s (pf p.params 0 13 1) else sealSlot s (pf p.params 0 13 1)) t
    (if pb p.params 0 0 then pf p.params 3 15 0 else 0) (wAt p.params 2).toNat

theorem bodyCiphKeyLoad_alarm (h : s.keys.alarm ≠ 0) : bodyCiphKeyLoad p s = .reply .notInMode [] s := if_pos h

variable (ha : s.keys.alarm = 0)
include ha

theorem bodyCiphKeyLoad_wrongSlot (hu : pf p.params 0 21 15 ≠ 0x7F) (h : ¬unwraps p s) : bodyCiphKeyLoad p s = .reply .badParam [] s := by
  refine (if_neg (not_not_intro ha)).trans (if_pos ?_)
  by_cases huse : (wrapSlot p s).use = 2
  · have hmask : (wrapSlot p s).mask.testBit (pf p.params 0 14 14) = false := eq_false_of_ne_true fun hm => h ⟨huse, hm⟩
    simpa [hu] using .inr hmask
  · simpa [hu] using .inl huse

theorem bodyCiphKeyLoad_empty (hu : pf p.params 0 21 15 ≠ 0x7F) (h : unwraps p s) (hl : (wrapSlot p s).loaded = false) :
    bodyCiphKeyLoad p s = .reply .keyErased [] s := by
  obtain ⟨huse, hmask⟩ := h
  refine (if_neg (not_not_intro ha)).trans ((if_neg ?_).trans (if_pos ?_))
  · simpa [hu] using ⟨huse, hmask⟩
  · rw [wrapSlot] at hl
    simp [hu, hl]

/-- With a key to unwrap by, the target slot and the blob decide. -/
theorem bodyCiphKeyLoad_ready (h : wrapReady p s) : bodyCiphKeyLoad p s =
    if loadInUse p s then .reply .slotInUse [] s
    else match loadText p s with
      | none => .reply .authFail [] s
      | some t => if !headerOk (pb p.params 0 0) t then .reply .badParam [] s
        else .reply .ok [wd (loadedSlot p s t).gen]
          (if pb p.params 0 0 then setCmdSlot (pf p.params 0 13 1) (loadedSlot p s t) s else setSealSlot (pf p.params 0 13 1) (loadedSlot p s t) s) := by
  refine (if_neg (not_not_intro ha)).trans ((if_neg ?_).trans ((if_neg ?_).trans rfl))
  · rcases h with hu | ⟨⟨huse, hmask⟩, -⟩
    · simp [hu]
    · simpa using fun _ => ⟨huse, hmask⟩
  · rcases h with hu | ⟨-, hl⟩
    · simp [hu]
    · rw [wrapSlot] at hl
      simp [hl]

end Load

/-! ## The other key commands -/

theorem bodyCiphOp_refused {st : Status} (h : ciphOpCheck p.ring p.params s = some st) : bodyCiphOp p s = .reply st [] s := by
  simp only [bodyCiphOp, h, refuse]

/-- The operation that `CIPH_OP` queues. -/
def queuedOp (p : Packet) (s : State) : CceOp where
  id := s.keys.nextId
  job := { ring := p.ring, cls := 0x09, act := 0x14, tag := p.tag, abortable := p.abortable, authed := p.auth.isSome, params := p.params
           image := [], taken := [], accepted := 0, work := .port }
  chan := pf p.params 0 3 0
  prio := if pf p.params 0 3 0 < 2 then pf p.params 0 6 5 else 0
  st := 0
  begun := false
  sAt := 0
  gen := 0
  iv := []
  inv := 0
  aad := []
  src := pf p.params 1 22 0
  inp := []
  dst := pf p.params 2 22 0
  held := false
  fill := 0
  wrote := 0
  ctx := none

theorem bodyCiphOp_queued (h : ciphOpCheck p.ring p.params s = none) : bodyCiphOp p s =
    .queued { s with keys := { s.keys with ops := s.keys.ops ++ [queuedOp p s], nextId := s.keys.nextId + 1 } } := by
  simp only [bodyCiphOp, h, queueOp, queuedOp, privileged, decide_eq_true_eq]

/-- The slot named ciphers for the channel (11 R305). -/
def ciphers (ws : List Word) (s : State) : Prop :=
  (cmdSlot s (pf ws 0 12 7)).use = 1 ∧ (cmdSlot s (pf ws 0 12 7)).mask.testBit (pf ws 0 3 0) = true

/-- More bytes than the engine, or an ordinary channel, takes (11 R309). -/
def tooLong (ws : List Word) (s : State) : Prop :=
  16777216 < pf ws 3 24 0 ∨ (2 ≤ pf ws 0 3 0 ∧ (chan s (pf ws 0 3 0)).maxLen < pf ws 3 24 0)

theorem ciphOpCheck_eq (r : Nat) (ws : List Word) (s : State) [Decidable (ciphers ws s)] [Decidable (tooLong ws s)] : ciphOpCheck r ws s =
    if r ≠ 3 then some .notInMode else if ¬ciphers ws s then some .badParam else if tooLong ws s then some .lenLimit else none := by
  have hkey : ((cmdSlot s (pf ws 0 12 7)).use != 1 || !(cmdSlot s (pf ws 0 12 7)).mask.testBit (pf ws 0 3 0)) = true ↔ ¬ciphers ws s := by
    simp [ciphers, imp_iff_not_or]
  have hlen : (decide (16777216 < pf ws 3 24 0) || (!privileged (pf ws 0 3 0) && decide ((chan s (pf ws 0 3 0)).maxLen < pf ws 3 24 0))) = true ↔
      tooLong ws s := by simp [tooLong, privileged, Nat.succ_le_iff]
  unfold ciphOpCheck
  dsimp only
  refine if_congr Iff.rfl rfl (if_congr hkey rfl (if_congr ?_ rfl rfl))
  simpa using hlen

open Classical in
/-- Settles O49: the load in the order of its checks, the other bodies by their one condition each. -/
theorem keyCommands : Obligations.KeyCommands := by
  refine ⟨fun p s s1 h => ?load, fun p s s1 h => ?erase, fun p s s1 h => runCommand_reply h rfl, fun p s s1 h => ⟨fun hb => ?_, fun hb => ?_⟩,
    fun p s s1 h => ?op⟩
  case load =>
    refine ⟨fun ha => runCommand_reply h (bodyCiphKeyLoad_alarm ha), fun ha => ⟨fun hu hno => runCommand_reply h (bodyCiphKeyLoad_wrongSlot ha hu hno),
      fun hu hok hl => runCommand_reply h (bodyCiphKeyLoad_empty ha hu hok hl), fun hr => ?_⟩⟩
    have hbody := bodyCiphKeyLoad_ready ha hr
    refine ⟨fun huse => runCommand_reply h (hbody.trans (if_pos huse)), fun huse => ?_⟩
    have hfree := hbody.trans (if_neg (ne_true_of_eq_false huse))
    refine ⟨fun ht => ?_, fun t ht => ⟨fun hh => ?_, fun hh => ?_⟩⟩
    all_goals
      rw [show loadText p s1 = _ from ht] at hfree
    · exact runCommand_reply h hfree
    · exact runCommand_reply h (hfree.trans (if_pos (by rw [hh]; rfl)))
    · exact runCommand_reply h (hfree.trans (if_neg (by rw [hh]; decide)))
  case erase =>
    refine ⟨fun ht hc => ?_, fun ht hc => ?_, fun ht => ?_, fun ht => ?_⟩
    all_goals refine runCommand_reply h ?_
    · simp [opCiphKeyErase, bodyCiphKeyErase, ht, hc, done]
    · simp [opCiphKeyErase, bodyCiphKeyErase, ht, hc, done]
    · simp [opCiphKeyErase, bodyCiphKeyErase, ht, done]
    · simp [opCiphKeyErase, bodyCiphKeyErase, ht, done]
  · exact runCommand_reply h (if_pos hb)
  · exact runCommand_reply h (if_neg (by rw [hb]; decide))
  case op =>
    have hcheck := ciphOpCheck_eq p.ring p.params s1
    refine ⟨fun hr => ?_, fun hr hu => ?_, fun hr hu hl => ?_, fun hr hu hl => ?_⟩
    · exact runCommand_reply h (bodyCiphOp_refused (hcheck.trans (if_pos hr)))
    · exact runCommand_reply h (bodyCiphOp_refused (hcheck.trans ((if_neg (not_not_intro hr)).trans (if_pos hu))))
    · exact runCommand_reply h (bodyCiphOp_refused (hcheck.trans ((if_neg (not_not_intro hr)).trans ((if_neg (not_not_intro hu)).trans (if_pos hl)))))
    · have hqueued := bodyCiphOp_queued (hcheck.trans ((if_neg (not_not_intro hr)).trans ((if_neg (not_not_intro hu)).trans (if_neg hl))))
      exact ⟨queuedOp p s1, rfl, rfl, rfl, rfl, rfl, rfl, rfl, rfl, rfl, congrArg _ (runCommand_queued h hqueued)⟩

end Sys2Proof.Machine

/-! PROOFS. The Command Cipher Engine's rows and the Key Store's alarm (11 R303 to R311, R316; 16 R450). -/

namespace Sys2Proof.Machine

variable {s t : State} {o r : CceOp} {c : BitVec 5}

/-! ## Starting and resuming -/

theorem cceRun_open (h : running s = true) (f : State → State) : cceRun f s = f s := if_pos h

theorem cceRun_shut (h : running s = false) (f : State → State) : cceRun f s = s := if_neg (by simp [cceOpen, h])

theorem cceStart_ordinary (hp : privNext s = none) (hr : privRunning s = none) (hs : suspended s = []) (ho : ordNext s = some o) :
    cceStart s = runOp o s := by simp [cceStart, hp, hr, hs, ho]

theorem cceStart_busy (hp : privNext s = none) (h : (privRunning s).isSome = true ∨ suspended s ≠ [] ∨ ordNext s = none) :
    cceStart s = s := by
  cases hr : privRunning s with
  | some r => simp [cceStart, hp, hr]
  | none =>
    rw [hr] at h
    rcases h with h | h | h
    · cases h
    · simp [cceStart, hp, hr, h]
    · simp [cceStart, hp, hr, h]

theorem cceStart_privileged (hp : privNext s = some o) (hr : privRunning s = none) (h : ∀ x ∈ suspended s, x.prio < o.prio) :
    cceStart s = runOp o s := by
  simp only [cceStart, hp, hr]
  refine if_neg ?_
  simpa using h

theorem cceStart_below {x : CceOp} (hp : privNext s = some o) (hr : privRunning s = none) (hx : x ∈ suspended s) (hle : o.prio ≤ x.prio) :
    cceStart s = s := by
  simp only [cceStart, hp, hr]
  exact if_pos (List.any_eq_true.mpr ⟨x, hx, decide_eq_true hle⟩)

theorem cceStart_keeps_running (hp : privNext s = some o) (hr : privRunning s = some r) (h : o.prio ≤ r.prio ∨ suspendOp r s = none) :
    cceStart s = s := by
  simp only [cceStart, hp, hr]
  rcases h with h | h
  · exact if_pos h
  · simp [h]

theorem cceStart_suspends (hp : privNext s = some o) (hr : privRunning s = some r) (h : r.prio < o.prio) (hs : suspendOp r s = some t) :
    cceStart s = runOp o t := by
  simp only [cceStart, hp, hr, hs]
  exact if_neg (Nat.not_le.mpr h)

/-- The operation suspended last goes on when no waiting one is above it (11 R310). -/
theorem cceResume_goes_on {l : List CceOp} (hr : privRunning s = none) (hs : suspended s = o :: l)
    (h : ∀ n, privNext s = some n → n.prio ≤ o.prio) : cceResume s =
      if o.st = 3 then restoreOp o s else advanceOp { o with st := 1 } (putOp { o with st := 1 } s) := by
  simp only [cceResume, hr, hs]
  refine if_neg ?_
  split
  case h_1 n hn => simpa using h n hn
  case h_2 => exact Bool.false_ne_true

theorem cceResume_stays (h : (privRunning s).isSome = true ∨ suspended s = [] ∨
    (∃ o l n, suspended s = o :: l ∧ privNext s = some n ∧ o.prio < n.prio)) : cceResume s = s := by
  cases hr : privRunning s with
  | some r => simp only [cceResume, hr]
  | none =>
    rw [hr] at h
    rcases h with h | h | ⟨o, l, n, hs, hn, hlt⟩
    · cases h
    · simp only [cceResume, hr, h]
    · simp [cceResume, hr, hs, hn, hlt]

theorem cceComplete_some (h : opDone s = some o) : cceComplete s = completeOp o s := by simp only [cceComplete, h]

theorem cceComplete_none (h : opDone s = none) : cceComplete s = s := by simp only [cceComplete, h]

/-! ## Suspending: two contexts inside, a third spills the oldest (11 R310, R311) -/

/-- The contexts that the engine holds. -/
def innerContexts (s : State) : List CceOp := (suspended s).filter (fun o => o.st == 2)

/-- Operation `r` is suspended with its context inside. -/
def suspendedInside (r : CceOp) (s : State) : State :=
  putOp { r with st := 2, sAt := s.keys.nextS } { s with keys := { s.keys with nextS := s.keys.nextS + 1 } }

theorem suspendOp_inside (h : (innerContexts s).length < 2) : suspendOp r s = some (suspendedInside r s) := if_pos h

theorem suspendOp_spills (h : 2 ≤ (innerContexts s).length) (hl : (innerContexts s).getLast? = some o) : suspendOp r s =
    if (chan s o.chan).ctx = 0 then none
    else some (suspendedInside r (putOp { o with st := 3 } (wmPut (spillAddr s o) (spillRecord s o) s))) := by
  refine (if_neg (Nat.not_lt.mpr h)).trans ?_
  rw [show ((suspended s).filter (fun o => o.st == 2)).getLast? = some o from hl]
  rfl

/-! ## The first buffer (11 R303, R304, R308) -/

/-- The operation has no input, or its input descriptor is handed over. -/
def inputHere (o : CceOp) (s : State) : Prop := opLen o = 0 ∨ (readDesc s o.src).own = true

/-- The input descriptor found is handed back. -/
def inputBack (o : CceOp) (s : State) : State := if opLen o = 0 then s else handBack o.src s

/-- A decryption's output chain has no room for the whole text. -/
def outputTight (o : CceOp) (s : State) : Prop := (chan s o.chan).mode = 3 ∧ opDec o = true ∧ ownedRoom s o.dst chainMax < opLen o

/-- The operation with its use of the key counted: generation, IV and additional data. -/
def begunOp (o : CceOp) (s : State) : CceOp :=
  { o with begun := true, gen := (cmdSlot s (opSlot o)).gen, iv := (opIv s o).1, inv := (opIv s o).2
           aad := if (chan s o.chan).mode = 3 then wmGet s (pf o.job.params 4 22 0) (pf o.job.params 5 16 0) else [] }

theorem beginOp_waits (h : ¬inputHere o s) : beginOp o s = putOp o s := by
  rw [inputHere, not_or, Bool.not_eq_true] at h
  exact if_pos (by simp [h])

theorem beginOp_here (h : inputHere o s) : beginOp o s =
    if !(cmdSlot s (opSlot o)).loaded then refuseOp .keyErased o s
    else if !slotLeft (cmdSlot s (opSlot o)) 1 then refuseOp .keyExhausted o s
    else if (chan s o.chan).mode == 3 && opDec o && decide (ownedRoom s o.dst chainMax < opLen o) then refuseOp .lenLimit o s
    else pumpOp chainMax { o with begun := true, gen := (cmdSlot s (opSlot o)).gen, iv := (opIv s o).1, inv := (opIv s o).2
                                  aad := if (chan s o.chan).mode == 3 then wmGet s (pf o.job.params 4 22 0) (pf o.job.params 5 16 0) else [] }
      (setCmdSlot (opSlot o) { cmdSlot s (opSlot o) with count := (cmdSlot s (opSlot o)).count + 1 } s) :=
  if_neg (by rcases h with h | h <;> simp [h])

theorem refuseOp_eq {st : Status} (h : st ≠ .lenLimit) : refuseOp st o s = endOp st [] o (inputBack o s) := by
  simp only [refuseOp, h, if_false, inputBack]

theorem slotLeft_one_iff (k : KeySlot) : slotLeft k 1 = true ↔ k.count ≤ k.limM1 := by simp [slotLeft]

section Here
variable (h : inputHere o s)
include h

theorem beginOp_erased (hl : (cmdSlot s (opSlot o)).loaded = false) : beginOp o s = endOp .keyErased [] o (inputBack o s) := by
  rw [beginOp_here h, if_pos (by rw [hl]; rfl), refuseOp_eq (by decide)]

variable (hl : (cmdSlot s (opSlot o)).loaded = true)
include hl

theorem beginOp_exhausted (hc : (cmdSlot s (opSlot o)).limM1 < (cmdSlot s (opSlot o)).count) :
    beginOp o s = endOp .keyExhausted [] o (inputBack o s) := by
  have hleft : slotLeft (cmdSlot s (opSlot o)) 1 = false := eq_false_of_ne_true fun hk => by
    have := (slotLeft_one_iff _).mp hk
    omega
  rw [beginOp_here h, if_neg (by rw [hl]; decide), if_pos (by rw [hleft]; rfl), refuseOp_eq (by decide)]

variable (hc : (cmdSlot s (opSlot o)).count ≤ (cmdSlot s (opSlot o)).limM1)
include hc

theorem beginOp_tight (ht : outputTight o s) :
    beginOp o s = endOp .lenLimit [] o (handBackChain chainMax o.dst (inputBack o s)) := by
  obtain ⟨hm, hd, hroom⟩ := ht
  rw [beginOp_here h, if_neg (by rw [hl]; decide), if_neg (by rw [(slotLeft_one_iff _).mpr hc]; decide), if_pos (by simp [hm, hd, hroom])]
  rfl

theorem beginOp_counts (ht : ¬outputTight o s) : beginOp o s = pumpOp chainMax (begunOp o s)
    (setCmdSlot (opSlot o) { cmdSlot s (opSlot o) with count := (cmdSlot s (opSlot o)).count + 1 } s) := by
  rw [beginOp_here h, if_neg (by rw [hl]; decide), if_neg (by rw [(slotLeft_one_iff _).mpr hc]; decide),
    if_neg (by simpa [outputTight, and_assoc] using ht)]
  simp only [begunOp, beq_iff_eq]

end Here

/-! ## Faults and alarms -/

theorem exec_cceFault_running (h : running s = true) : exec .cceFault s =
    .next (masterReset 4 ((s.keys.ops.filter (fun o => o.st == 1 && o.begun)).foldl (fun s o => endOp .hwFault [] o s) s)) :=
  congrArg _ (if_pos h)

theorem exec_cceFault_stopped (h : running s = false) : exec .cceFault s = .next s := congrArg _ (if_neg (by simp [cceOpen, h]))

/-- What an alarm does once the slots are erased: another key-encryption key, and `KEY_ALARM` (11 R316). -/
def alarmRaised (c : BitVec 5) (kek : Nat) (t : State) : State := raise 0x09 0x01 0 (wd c.toNat) false
  { t with clk := { t.clk with free := t.clk.free + 1 }, keys := { t.keys with kek := kek % 2 ^ 256, alarm := t.keys.alarm ||| c } }

theorem alarmErase_eq (c : BitVec 5) (s : State) : alarmErase c s = alarmRaised c (draw 0x0B0305 (eraseAll s)).1 (eraseAll s) := by
  have hdraw (t : State) : (match draw 0x0B0305 t with
    | (k, s) => raise 0x09 0x01 0 (wd c.toNat) false { s with keys := { s.keys with kek := k % 2 ^ 256, alarm := s.keys.alarm ||| c } }) =
      alarmRaised c (draw 0x0B0305 t).1 t := rfl
  exact hdraw (eraseAll s)

theorem exec_keyStoreAlarm (h : c ≠ 0) : exec (.keyStoreAlarm c) s = if s.dev.powered then .next (alarmErase c s) else .next s := if_neg h

/-- Settles O50: each row by what the engine runs and holds, the first buffer by its checks in their order. -/
theorem cipherRows : Obligations.CipherRows := by
  refine ⟨fun s hrun => ?engine, fun r s => ⟨suspendOp_inside, fun o h hl => ?_⟩, fun s hrun => ?stopped, fun o s => ?begin,
    fun s => exec_cceFault_stopped, fun s => exec_cceFault_running, fun c s hc => ⟨fun hp => ?_, fun hp => ?_⟩, fun c s => rfl⟩
  case engine =>
    have hopen (f : State → State) : (.next (cceRun f s) : Host.Outcome State Fault Refusal) = .next (f s) := congrArg _ (cceRun_open hrun f)
    refine ⟨fun o hp hr hs ho => (hopen cceStart).trans (congrArg _ (cceStart_ordinary hp hr hs ho)),
      fun hp h => (hopen cceStart).trans (congrArg _ (cceStart_busy hp h)),
      fun o hp hr h => (hopen cceStart).trans (congrArg _ (cceStart_privileged hp hr h)),
      fun o x hp hr hx hle => (hopen cceStart).trans (congrArg _ (cceStart_below hp hr hx hle)),
      fun o r hp hr h => (hopen cceStart).trans (congrArg _ (cceStart_keeps_running hp hr h)),
      fun o r t hp hr h hs => (hopen cceStart).trans (congrArg _ (cceStart_suspends hp hr h hs)),
      fun o l hr hs h => ⟨fun h3 => ?_, fun h3 => ?_⟩,
      fun h => (hopen cceResume).trans (congrArg _ (cceResume_stays h)),
      fun o h => (hopen cceComplete).trans (congrArg _ (cceComplete_some h)),
      fun h => (hopen cceComplete).trans (congrArg _ (cceComplete_none h))⟩
    · exact (hopen cceResume).trans (congrArg _ ((cceResume_goes_on hr hs h).trans (if_pos h3)))
    · exact (hopen cceResume).trans (congrArg _ ((cceResume_goes_on hr hs h).trans (if_neg h3)))
  case stopped =>
    exact ⟨congrArg _ (cceRun_shut hrun cceStart), congrArg _ (cceRun_shut hrun cceResume), congrArg _ (cceRun_shut hrun cceComplete)⟩
  case begin =>
    exact ⟨beginOp_waits, beginOp_erased, beginOp_exhausted, fun h hl hc => ⟨beginOp_tight h hl hc, beginOp_counts h hl hc⟩⟩
  · have hspill := suspendOp_spills (r := r) h hl
    exact ⟨fun hz => hspill.trans (if_pos hz), fun hz => hspill.trans (if_neg hz)⟩
  · exact ⟨_, (exec_keyStoreAlarm hc).trans ((if_pos hp).trans (congrArg _ (alarmErase_eq c s)))⟩
  · exact (exec_keyStoreAlarm hc).trans (if_neg (ne_true_of_eq_false hp))

end Sys2Proof.Machine

/-! PROOFS. Event records: the queue, the synchronisers and ring 5 (12 R324, R342, R343; 14 R378 to R380, R390). -/

namespace Sys2Proof.Machine

variable {s : State} {r : Rec} {k : EventKey} {y : Sync} {t n : Nat}

/-! ## The queue -/

/-- The fault history with a record. -/
def faultLog (r : Rec) (s : State) : List Rec := if isFaultRec r then pushLast 256 s.evt.log r else s.evt.log

/-- The record that `EVT_OVERFLOW` will report, and how many were discarded. -/
def overflowed (r : Rec) : Option (Rec × Nat) → Rec × Nat
  | none => (r, 1)
  | some (f, n) => (f, satInc32 n)

theorem evt_faultLog (r : Rec) (s : State) :
    (if isFaultRec r then { s.evt with log := pushLast 256 s.evt.log r } else s.evt) = { s.evt with log := faultLog r s } := by
  unfold faultLog
  split <;> rfl

theorem enqueue_room (h : s.evt.queue.length < 4096) : enqueue r s =
    { s with evt := { s.evt with log := faultLog r s, queue := s.evt.queue ++ [r], tail := pushLast 4096 s.evt.tail r } } := by
  simp only [enqueue, evt_faultLog, h, if_true, evtAccept]

theorem enqueue_overflows (h : 4096 ≤ s.evt.queue.length) : enqueue r s = irqRaise 2 { s with
    evt := { s.evt with log := faultLog r s, ovf := some (overflowed r s.evt.ovf) }, io := { s.io with lost := satInc32 s.io.lost } } := by
  simp only [enqueue, evt_faultLog, Nat.not_lt.mpr h, if_false, overflowed] <;> rfl

/-- A record that finds the queue full is counted, and the first of them is kept for `EVT_OVERFLOW` (12 R343). -/
theorem enqueue_full (h : 4096 ≤ s.evt.queue.length) : ∃ f n, enqueue r s =
      irqRaise 2 { s with evt := { s.evt with log := faultLog r s, ovf := some (f, n) }, io := { s.io with lost := satInc32 s.io.lost } } ∧
    (s.evt.ovf = none → f = r ∧ n = 1) ∧ (∀ g m, s.evt.ovf = some (g, m) → f = g ∧ n = satInc32 m) := by
  refine ⟨(overflowed r s.evt.ovf).1, (overflowed r s.evt.ovf).2, enqueue_overflows h, fun hn => ?_, fun g m hs => ?_⟩
  · rw [hn]
    exact ⟨rfl, rfl⟩
  · rw [hs]
    exact ⟨rfl, rfl⟩

theorem dequeue_plain {e : Evt} (h : e.ovf = none) : dequeue e = { e with queue := e.queue.drop 1 } := by simp only [dequeue, h]

theorem dequeue_owed {e : Evt} {f : Rec} (h : e.ovf = some (f, n)) :
    (dequeue e).queue = e.queue.drop 1 ++ [{ f with cls := 0x0C, code := 0x01, idx := 0, data := wd n, set := false }] ∧
      (dequeue e).ovf = none := by
  simp only [dequeue, h, evtAccept, and_self]

/-! ## Ring 5 -/

theorem recBytes_length (r : Rec) : (recBytes r).length = 16 := by simp [recBytes, leBytes_length]

/-- Ring 5 takes records: the control plane runs, or has run before HALT (log 48). -/
def ringTakes (s : State) : Prop := running s = true ∨ (s.dev.mode = .halt ∧ s.dev.prevMode ∈ [3, 4, 5, 6])

theorem eventRoom_iff : eventRoom s = true ↔
    ringTakes s ∧ (ring s 5).en = true ∧ ((ring s 5).index + 1) % slots (ring s 5) ≠ (ring s 5).db := by
  simp only [eventRoom, ringTakes, Bool.and_eq_true, Bool.or_eq_true, beq_iff_eq, List.contains_iff_mem, decide_eq_true_eq, and_assoc]

theorem exec_eventRingWrite_none (h : s.evt.queue = [] ∨ eventRoom s = false) : exec .eventRingWrite s = .next s := by
  change execEventRingWrite s = _
  unfold execEventRingWrite
  split
  case h_1 => rfl
  case h_2 r q hq => exact if_neg (ne_true_of_eq_false (h.resolve_left (by simp [hq])))

theorem exec_eventRingWrite {q : List Rec} (hq : s.evt.queue = r :: q) (h : eventRoom s = true) :
    exec .eventRingWrite s = .next (eventWrite r s) := by
  change execEventRingWrite s = _
  simp only [execEventRingWrite, hq, h, if_true]

theorem evtReady_iff : evtReady s = true ↔ max s.io.thresh 1 ≤ s.evt.unread.length ∨
    (s.io.holdoff ≠ 0 ∧ ∃ t l, s.evt.unread = t :: l ∧ t + 1000 * s.io.holdoff ≤ s.clk.now) := by
  cases hu : s.evt.unread <;> simp [evtReady, hu]

/-! ## Synchronisers -/

theorem exec_eventAckPhaseEnd (h : findSync k s.evt.syncs = some y) : exec (.eventAckPhaseEnd k) s = .next (ackEnd k y s) := by
  change execEventAckPhaseEnd k s = _
  simp only [execEventAckPhaseEnd, h]

theorem exec_eventAckPhaseEnd_idle (h : findSync k s.evt.syncs = none) : exec (.eventAckPhaseEnd k) s = .next s := by
  change execEventAckPhaseEnd k s = _
  simp only [execEventAckPhaseEnd, h]

theorem ackEnd_idle (h : y.pend = none) : ackEnd k y s = setSync k none s := by simp only [ackEnd, h]

theorem ackEnd_launch (h : y.pend = some r) :
    ackEnd k y s = enqueue r (setSync k (some { y with pend := none, at_ := 1000 * s.clk.now }) s) := by simp only [ackEnd, h]

theorem syncSettle_absent (h : findSync k s.evt.syncs = none) : ∀ n, syncSettle k t n s = s
  | 0 => rfl
  | n + 1 => by simp only [syncSettle, h]

theorem syncSettle_lasts (h : findSync k s.evt.syncs = some y) (ht : t ≤ y.at_ + ackPhase k) : ∀ n, syncSettle k t n s = s
  | 0 => rfl
  | n + 1 => by simp only [syncSettle, h, if_pos ht]

theorem syncSettle_ended (h : findSync k s.evt.syncs = some y) (ht : y.at_ + ackPhase k < t) (n : Nat) :
    syncSettle k t (n + 1) s = match y.pend with
      | none => setSync k none s
      | some r => syncSettle k t n (enqueue r (setSync k (some { y with pend := none, at_ := y.at_ + ackPhase k }) s)) := by
  simp only [syncSettle, h, if_neg (Nat.not_le.mpr ht)] <;> rfl

/-- The synchroniser of a record's event. -/
def recKey (r : Rec) : EventKey := { cls := r.cls, code := r.code, index := r.idx }

/-- A boot or a wake merges nothing (14 R390). -/
theorem mergesNot_iff : mergesNot s = true ↔ s.dev.mode = .boot ∨ s.dev.mode = .retention := by simp [mergesNot]

theorem mergesNot_settled (k : EventKey) (t n : Nat) (s : State) : mergesNot (syncSettle k t n s) = mergesNot s := by
  rw [mergesNot, syncSettle_dev, mergesNot]

theorem pulseRec_boot (h : mergesNot s = true) : pulseRec t r s = enqueue r (syncSettle (recKey r) t 2 s) := by
  have hm : mergesNot (syncSettle (recKey r) t 2 s) = true := (mergesNot_settled _ _ _ s).trans h
  unfold pulseRec
  dsimp only
  rw [recKey] at hm ⊢
  simp only [hm, if_true]

/-- The record that waits in a phase: an event that merges gives the waiting one its data (14 R379). -/
def mergedRec (r : Rec) : Option Rec → Rec
  | none => r
  | some q => { q with data := r.data, set := r.set }

/-- Outside a boot and a wake the synchroniser decides. -/
theorem pulseRec_running (h : mergesNot s = false) : pulseRec t r s =
    match findSync (recKey r) (syncSettle (recKey r) t 2 s).evt.syncs with
    | none => enqueue r (setSync (recKey r) (some { key := recKey r, at_ := t, pend := none }) (syncSettle (recKey r) t 2 s))
    | some y => setSync (recKey r) (some { y with pend := some (mergedRec r y.pend) }) (syncSettle (recKey r) t 2 s) := by
  have hm : mergesNot (syncSettle (recKey r) t 2 s) = false := (mergesNot_settled _ _ _ s).trans h
  unfold pulseRec
  dsimp only
  rw [recKey] at hm ⊢
  simp only [hm, Bool.false_eq_true, if_false]
  rfl

/-- An event whose synchroniser idles is launched (14 R379). -/
theorem pulseRec_launch (h : mergesNot s = false) (hk : findSync (recKey r) (syncSettle (recKey r) t 2 s).evt.syncs = none) :
    pulseRec t r s = enqueue r (setSync (recKey r) (some { key := recKey r, at_ := t, pend := none }) (syncSettle (recKey r) t 2 s)) := by
  rw [pulseRec_running h, hk]

/-- An event raised in a phase waits for its end (14 R379). -/
theorem pulseRec_waits (h : mergesNot s = false) (hk : findSync (recKey r) (syncSettle (recKey r) t 2 s).evt.syncs = some y) :
    pulseRec t r s = setSync (recKey r) (some { y with pend := some (mergedRec r y.pend) }) (syncSettle (recKey r) t 2 s) := by
  rw [pulseRec_running h, hk]

/-- Settles O55: the queue by its room, ring 5 by `eventRoom_iff`, a synchroniser by what it has waiting. -/
theorem eventRows : Obligations.EventRows := by
  refine ⟨fun r s => ⟨enqueue_room, enqueue_full⟩, fun e => ⟨dequeue_plain, fun f n => dequeue_owed⟩,
    fun s => ⟨fun h => exec_eventRingWrite_none ?_, fun r q hq hlive hen hroom => exec_eventRingWrite hq (eventRoom_iff.mpr ⟨hlive, hen, hroom⟩)⟩,
    recBytes_length, fun s => rfl, fun s => evtReady_iff,
    fun k s => exec_eventAckPhaseEnd_idle,
    fun k y s h => ⟨fun hy => ?_, fun r hy => ?_⟩, fun t r s => ⟨fun h => pulseRec_boot (mergesNot_iff.mpr h), fun hb hr => ?running⟩,
    fun k t n s => ⟨fun h => syncSettle_absent h n, fun y h ht => syncSettle_lasts h ht n, fun y h ht => ⟨fun hy => ?_, fun r hy => ?_⟩⟩,
    fun k => ⟨fun h => ?_, fun h => ?_, fun h => ?_, fun h => ?_, fun h => ?_, fun h => ?_⟩⟩
  · refine h.imp_right fun h => eq_false_of_ne_true fun hroom => ?_
    obtain ⟨hlive, hen, hne⟩ := eventRoom_iff.mp hroom
    rcases h with h | h | h
    · exact h hlive
    · rw [h] at hen
      cases hen
    · exact hne h
  · rw [exec_eventAckPhaseEnd h, ackEnd_idle hy]
    rfl
  · rw [exec_eventAckPhaseEnd h, ackEnd_launch hy]
    rfl
  case running =>
    have hrun : mergesNot s = false := eq_false_of_ne_true fun h => (mergesNot_iff.mp h).elim hb hr
    refine ⟨pulseRec_launch hrun, fun y h => ⟨mergedRec r y.pend, pulseRec_waits hrun h, fun hy => ?_, fun o hy => ?_⟩⟩
    · rw [hy]
      rfl
    · rw [hy]
      rfl
  · rw [syncSettle_ended h ht, hy]
    rfl
  · rw [syncSettle_ended h ht, hy]
    rfl
  · rcases List.mem_pair.mp h with h | h <;> simp [ackPhase, h]
  · have h : k.cls = 3 ∨ k.cls = 4 ∨ k.cls = 8 := by simpa using h
    rcases h with h | h | h <;> simp [ackPhase, h]
  all_goals simp [ackPhase, h]

end Sys2Proof.Machine

/-! PROOFS. Accesses of the Window Memory (13 R352 to R356, R360; 12 R319, R320, R325). -/

namespace Sys2Proof.Machine

variable {s t : State} {e : PortEAccess} {i : PortIAccess} {h : EccHit} {a : Nat}

/-! ## The bytes that a port writes -/

/-- A byte that a port writes at `a` is stored: the memory is open, to the host in its part only, and no destructive test loses the write. -/
def Lands (host : Bool) (s : State) (a : Nat) : Prop :=
  wmOpen s = true ∧ (host = true → a < hostEnd) ∧ (underTest s a = true → Config.freeAt s.clk.free (0x1310000000 + a) % 2 ≠ 1)

theorem portWrite_lands {host : Bool} (hl : Lands host s a) (b : Byte) : portWrite host a b s = { s with wm := memWrite s.wm a b } := by
  obtain ⟨hopen, hhost, htest⟩ := hl
  refine (if_neg ?_).trans (if_neg ?_)
  · simpa [hopen] using hhost
  · simpa using htest

theorem portWrite_lost {host : Bool} (hl : ¬Lands host s a) (b : Byte) : portWrite host a b s = s := by
  unfold portWrite
  split
  case isTrue => rfl
  case isFalse hin =>
    refine if_pos ?_
    by_contra hout
    refine hl ⟨?_, ?_, ?_⟩
    · simp at hin
      exact hin.1
    · simp at hin
      exact hin.2
    · simpa using hout

/-- Bytes written one after the other. -/
def portWriteAll (host : Bool) (l : List (Nat × Byte)) (s : State) : State := l.foldl (fun s x => portWrite host x.1 x.2 s) s

/-- A port's writes change the Window Memory alone. -/
theorem portWriteAll_wm (host : Bool) : ∀ (l : List (Nat × Byte)) (s : State), ∃ m, portWriteAll host l s = { s with wm := m }
  | [], s => ⟨s.wm, rfl⟩
  | x :: l, s => by
    have hstep : ∃ m, portWrite host x.1 x.2 s = { s with wm := m } := by
      by_cases hl : Lands host s x.1
      · exact ⟨_, portWrite_lands hl x.2⟩
      · exact ⟨s.wm, portWrite_lost hl x.2⟩
    obtain ⟨m, hm⟩ := hstep
    obtain ⟨m', hm'⟩ := portWriteAll_wm host l { s with wm := m }
    exact ⟨m', (congrArg (portWriteAll host l) hm).trans hm'⟩

/-- Of bytes for distinct addresses, those that land are stored, and every other byte stands. -/
theorem portWriteAll_bytes (host : Bool) : ∀ (l : List (Nat × Byte)) {s : State}, Memory.wf s.wm = true → (l.map Prod.fst).Nodup →
    ∃ m, portWriteAll host l s = { s with wm := m } ∧ (∀ x ∈ l, Lands host s x.1 → memRead m x.1 = x.2) ∧
      (∀ a, (∀ x ∈ l, Lands host s x.1 → a ≠ x.1) → memRead m a = memRead s.wm a)
  | [], s, _, _ => ⟨s.wm, rfl, by simp, fun _ _ => rfl⟩
  | x :: l, s, hwf, hnd => by
    obtain ⟨hx, hnd⟩ := List.nodup_cons.mp hnd
    by_cases hl : Lands host s x.1
    · obtain ⟨m, hm, hin, hout⟩ := portWriteAll_bytes host l (s := { s with wm := memWrite s.wm x.1 x.2 }) (memWrite_wf hwf _ _) hnd
      refine ⟨m, (congrArg (portWriteAll host l) (portWrite_lands hl x.2)).trans hm, fun y hy hly => ?_, fun a ha => ?_⟩
      · rcases List.mem_cons.mp hy with rfl | hy
        · rw [hout y.1 fun z hz _ heq => hx (heq ▸ List.mem_map_of_mem hz), memRead_memWrite hwf, if_pos rfl]
        · exact hin y hy hly
      · rw [hout a fun y hy => ha y (List.mem_cons_of_mem _ hy), memRead_memWrite hwf, if_neg (ha x List.mem_cons_self hl)]
    · obtain ⟨m, hm, hin, hout⟩ := portWriteAll_bytes host l hwf hnd
      refine ⟨m, (congrArg (portWriteAll host l) (portWrite_lost hl x.2)).trans hm, fun y hy hly => ?_,
        fun a ha => hout a fun y hy => ha y (List.mem_cons_of_mem _ hy)⟩
      rcases List.mem_cons.mp hy with rfl | hy
      · exact absurd hly hl
      · exact hin y hy hly

/-- The enabled bytes of a port E write, with their addresses. -/
def portEBytes (e : PortEAccess) : List (Nat × Byte) :=
  ((List.range 4).filter (fun i => e.be.getLsbD i)).map (fun i => (e.addr + i, BitVec.ofNat 8 (e.data.toNat / 256 ^ i)))

/-- The bytes of a port I write, with their addresses. -/
def portIBytes (a : Nat) (bs : List Byte) : List (Nat × Byte) := (List.range bs.length).map (fun k => (a + k, bs.getD k 0))

theorem nodup_shifted (a : Nat) {l : List Nat} (hl : l.Nodup) : (l.map (a + ·)).Nodup := hl.map fun _ _ => Nat.add_left_cancel

theorem portEBytes_nodup (e : PortEAccess) : ((portEBytes e).map Prod.fst).Nodup := by
  rw [portEBytes, List.map_map]
  exact nodup_shifted e.addr (List.nodup_range.filter _)

theorem portIBytes_nodup (a : Nat) (bs : List Byte) : ((portIBytes a bs).map Prod.fst).Nodup := by
  rw [portIBytes, List.map_map]
  exact nodup_shifted a List.nodup_range

theorem mem_portEBytes {x : Nat × Byte} : x ∈ portEBytes e ↔
    ∃ i < 4, e.be.getLsbD i = true ∧ (e.addr + i, BitVec.ofNat 8 (e.data.toNat / 256 ^ i)) = x := by
  simp [portEBytes, and_assoc]

theorem mem_portIBytes {bs : List Byte} {x : Nat × Byte} : x ∈ portIBytes a bs ↔ ∃ k < bs.length, (a + k, bs.getD k 0) = x := by
  simp [portIBytes]

theorem doWriteE_eq (hw : e.write = true) (s : State) : doWriteE e s = portWriteAll true (portEBytes e) s := by
  rw [doWriteE, if_pos hw, portWriteAll, portEBytes, List.foldl_map, List.foldl_filter]

theorem portWrites_eq (host : Bool) : ∀ (bs : List Byte) (a : Nat) (s : State), portWrites host a bs s = portWriteAll host (portIBytes a bs) s
  | [], _, _ => rfl
  | b :: bs, a, s => by
    have hbytes : portIBytes a (b :: bs) = (a, b) :: portIBytes (a + 1) bs := by
      simp [portIBytes, List.range_succ_eq_map, Nat.add_assoc, Nat.add_comm 1]
    rw [portWrites, portWrites_eq host bs, hbytes]
    rfl

theorem doWriteI_eq (hw : i.write = true) (hr : reachesT0 i.master = true) (s : State) :
    doWriteI i s = portWriteAll (i.master == 2) (portIBytes i.addr i.data) s :=
  (if_pos (by simp [hw, hr])).trans (portWrites_eq _ _ _ _)

/-! ## A bank cycle -/

/-- A bank cycle that breaks no obligation is served. -/
theorem exec_windowAccess {e : Option PortEAccess} {i : Option PortIAccess} {x : Option EccHit} (hup : portsUp s.dev = true)
    (hwf : Machine.accessWf e i x = true) (hl : ∀ y ∈ i, lockAllows s 0 y.master = true) (hb : hostBreaks e i s = false) :
    exec (.windowMemoryAccess e i x) s = .next (windowAccess e i x s) := by
  have hi : i.filter (fun y => lockAllows s 0 y.master) = i := by
    cases i with
    | none => rfl
    | some y => exact Option.filter_some_pos (hl y rfl)
  have hserve := windowServe_serves hwf hb
  obtain ⟨he, -, -⟩ := accessWf_iff.mp hwf
  change execWindowMemoryAccess e i x s = _
  unfold execWindowMemoryAccess
  simp only [hup, Bool.not_true, Bool.false_eq_true, if_false, hi]
  cases e with
  | none => exact hserve
  | some y =>
    have hlow : ¬0x800000 ≤ y.addr := Nat.not_le.mpr (he y rfl).2
    simp only [hlow, decide_false, Bool.false_and, Bool.false_eq_true, if_false, hserve]

theorem exec_windowAccess_unsupplied {e : Option PortEAccess} {i : Option PortIAccess} {x : Option EccHit} (hup : portsUp s.dev = false) :
    exec (.windowMemoryAccess e i x) s = .next s := execWindowMemoryAccess_unsupplied hup

/-- An access that a lock of T0 holds off is not part of the cycle (13 R366). -/
theorem exec_windowAccess_heldOff {e : Option PortEAccess} {x : Option EccHit} (hl : lockAllows s 0 i.master = false) :
    exec (.windowMemoryAccess e (some i) x) s = exec (.windowMemoryAccess e none x) s := by
  have hi : (some i).filter (fun y => lockAllows s 0 y.master) = none := Option.filter_some_neg (by simp [hl])
  change execWindowMemoryAccess e (some i) x s = execWindowMemoryAccess e none x s
  unfold execWindowMemoryAccess
  rw [hi]
  rfl

theorem doReadE_write (hw : e.write = true) (i : Option PortIAccess) (x : Option EccHit) (s : State) :
    doReadE e i x s = { s with mem := { s.mem with warned := false } } := if_pos hw

theorem doReadE_plain (hw : e.write = false) (s : State) :
    doReadE e none none s = { s with mem := { s.mem with readE := wd (leNat (portReads true e.addr 4 s)), warned := false } } :=
  if_neg (by simp [hw])

/-- A read that meets a write in its word on the fall-back path is warned (13 R355). -/
theorem doReadE_fallBack (hw : e.write = false) (hi : i.write = true) (hs : sameWord e i = true) (hf : fallBack s e.addr = true) :
    doReadE e (some i) none s = { (draw 0x1355 s).2 with mem := { s.mem with readE := wd (draw 0x1355 s).1, warned := true } } := by
  simp [doReadE, hw, hi, hs, hf]

theorem doReadE_meets (hw : e.write = false) (hf : fallBack s e.addr = false) :
    doReadE e (some i) none s = { s with mem := { s.mem with readE := wd (leNat (portReads true e.addr 4 s)), warned := false } } := by
  simp [doReadE, hw, hf]

theorem doReadI_write (hw : i.write = true) (hr : reachesT0 i.master = true) (s : State) :
    doReadI i none s = { s with mem := { s.mem with errI := false } } := by
  simp [doReadI, hw, hr]

theorem fallBack_wm (s : State) (m : List Host.Cell) (a : Nat) : fallBack { s with wm := m } a = fallBack s a := rfl

theorem fallBack_doWriteI (hw : i.write = true) (hr : reachesT0 i.master = true) (s : State) (a : Nat) :
    fallBack (doWriteI i s) a = fallBack s a := by
  obtain ⟨m, hm⟩ := portWriteAll_wm (i.master == 2) (portIBytes i.addr i.data) s
  rw [doWriteI_eq hw hr, hm, fallBack_wm]

theorem hostBreaks_read (hw : e.write = false) (s : State) : hostBreaks (some e) none s = false := by simp [hostBreaks, hw]

/-- What a read on port E gives of one byte (12 R325; 13 R360). -/
theorem portRead_eq (s : State) (a : Nat) (host : Bool) : portRead host a s =
    if wmOpen s = false ∨ (host = true ∧ hostEnd ≤ a) then 0 else if underTest s a = true then freeByte a s else memRead s.wm a := by
  unfold portRead
  exact if_congr (by simp) rfl rfl

/-! ## Check-bit errors (13 R356) -/

theorem exec_eccHit (ha : h.addr < 0x800000) (hup : portsUp s.dev = true) :
    exec (.windowMemoryAccess none none (some h)) s = .next (eccWm h s) :=
  exec_windowAccess hup (by simp [accessWf, ha]) (by simp) rfl

theorem eccWm_correctable (hu : h.uncorrectable = false) : eccWm h s = tapInc 0x20 0 1 s := if_neg (by simp [hu])

/-- An uncorrectable error zeroes its word, is counted, made sticky and reported, and its row's repair starts. -/
theorem eccWm_uncorrectable (hu : h.uncorrectable = true) {m : List Host.Cell} (hm : m = writeBytes s.wm (8 * (h.addr / 8)) (List.replicate 8 0)) :
    eccWm h s = (startRepair 0 0 (Config.wmRow (h.addr / 8)) (enqueue (mkRec s 0x0A 0x01 0 (wd h.addr))
      { tapInc 0x21 0 1 { s with wm := m } with mem := { s.mem with hist := s.mem.hist ||| 1 } })).2 := by
  subst hm
  exact if_pos hu

theorem memRead_zeroedWord {m : List Host.Cell} (hwf : Memory.wf m = true) (w a : Nat) :
    memRead (writeBytes m (8 * w) (List.replicate 8 0)) a = if a / 8 = w then 0 else memRead m a := by
  split
  case isTrue hw =>
    obtain ⟨k, hk, rfl⟩ : ∃ k, k < 8 ∧ a = 8 * w + k := ⟨a % 8, Nat.mod_lt _ (by decide), by omega⟩
    rw [memRead_writeBytes_inside _ _ k (by simpa using hk) hwf, List.getElem_replicate]
  case isFalse hw => exact memRead_writeBytes_outside _ _ _ hwf (by simp; omega)

/-! ## The host register page at port E (12 R319, R320) -/

theorem exec_doorbellPage (hlo : 0x800000 ≤ e.addr) (hhi : e.addr < 0x1000000) (h4 : e.addr % 4 = 0) (hup : portsUp s.dev = true) :
    exec (.windowMemoryAccess (some e) none none) s = .next (doorbellPage e s) := by
  change execWindowMemoryAccess (some e) none none s = _
  have hserve : windowServe none none none s = .next s := rfl
  unfold execWindowMemoryAccess
  simp [hup, hlo, hhi, h4, hserve]

theorem doorbellPage_write (hw : e.write = true) :
    doorbellPage e s = if e.be = 15 then pageWrite (e.addr % 4096) e.data s else s := if_pos hw

/-- A 32-bit read returns its register, and a read of `EVT_LOST` clears it; another size reads 0. -/
theorem doorbellPage_read (hw : e.write = false) (hb : e.be = 15) : doorbellPage e s =
    { (if e.addr % 4096 = 0x10C then { s with io := { s.io with lost := 0 } } else s) with
      mem := { (if e.addr % 4096 = 0x10C then { s with io := { s.io with lost := 0 } } else s).mem with readE := regRead (e.addr % 4096) s, warned := false } } := by
  simp only [doorbellPage, hw, Bool.false_eq_true, if_false]
  rw [if_pos hb, pageRead]

theorem doorbellPage_readPart (hw : e.write = false) (hb : e.be ≠ 15) :
    doorbellPage e s = { s with mem := { s.mem with readE := 0, warned := false } } := by
  simp only [doorbellPage, hw, Bool.false_eq_true, if_false]
  rw [if_neg hb]

/-- Settles O52: a write by the bytes that land, a read by the cycle it meets, an error by its word, the page by its offset. -/
theorem windowAccesses : Obligations.WindowAccesses := by
  refine ⟨fun e s hw hform hup hb hwf => ?portE, fun i s hw hr hl hform hup hb hwf => ?portI, fun e s hw hform hup => ?_,
    fun s a host => portRead_eq s a host, fun e i s hw hi hr hs hl hform hup hb => ?meet, fun h s ha hup => ⟨fun hu => ?_, fun hu hwf => ?_⟩,
    fun e i h s => ⟨exec_windowAccess_unsupplied, fun x hx hl => hx ▸ exec_windowAccess_heldOff hl⟩, fun e s hlo hhi h4 hup => ?page⟩
  case portE =>
    obtain ⟨m, hm, hin, hout⟩ := portWriteAll_bytes true (portEBytes e) hwf (portEBytes_nodup e)
    refine ⟨m, ?_, fun k hk hbe hland => hin _ (mem_portEBytes.mpr ⟨k, hk, hbe, rfl⟩) hland, fun a ha => hout a fun x hx hland => ?_⟩
    · rw [exec_windowAccess hup hform (by simp) hb]
      simp only [windowAccess, doWriteE_eq hw, hm, doReadE_write hw]
    · obtain ⟨k, hk, hbe, rfl⟩ := mem_portEBytes.mp hx
      exact ha k hk hbe hland
  case portI =>
    obtain ⟨-, hi, -⟩ := accessWf_iff.mp hform
    obtain ⟨-, -, -, -, hdata⟩ := hi i rfl
    have hlen : i.data.length = i.len := hdata hw
    obtain ⟨m, hm, hin, hout⟩ := portWriteAll_bytes (i.master == 2) (portIBytes i.addr i.data) hwf (portIBytes_nodup _ _)
    refine ⟨m, ?_, fun k hk hland => hin _ (mem_portIBytes.mpr ⟨k, hlen ▸ hk, rfl⟩) hland, fun a ha => hout a fun x hx hland => ?_⟩
    · rw [exec_windowAccess hup hform (by simpa using hl) hb]
      simp only [windowAccess, doWriteI_eq hw hr, hm, doReadI_write hw hr]
    · obtain ⟨k, hk, rfl⟩ := mem_portIBytes.mp hx
      exact ha k (hlen ▸ hk) hland
  · rw [exec_windowAccess hup hform (by simp) (hostBreaks_read hw s)]
    have hno : doWriteE e s = s := if_neg (by simp [hw])
    simp only [windowAccess, hno, doReadE_plain hw]
  case meet =>
    have hexec := exec_windowAccess hup hform (by simpa using hl) hb
    have hno : doWriteE e s = s := if_neg (by simp [hw])
    have hsame := fallBack_doWriteI hi hr s e.addr
    simp only [windowAccess, hno, doReadI_write hi hr] at hexec
    refine ⟨fun hf => ⟨_, hexec, ?_⟩, fun hf => ⟨_, hexec, ?_⟩⟩
    · rw [doReadE_fallBack hw hi hs (hsame.trans hf)]
      exact ⟨rfl, rfl⟩
    · rw [doReadE_meets hw (hsame.trans hf)]
      exact ⟨rfl, rfl, rfl⟩
  · rw [exec_eccHit ha hup, eccWm_correctable hu]
  · exact ⟨_, _, _, rfl, rfl, (exec_eccHit ha hup).trans (congrArg _ (eccWm_uncorrectable hu rfl)), memRead_zeroedWord hwf _⟩
  case page =>
    have hexec := exec_doorbellPage hlo hhi h4 hup
    refine ⟨fun hw hb => hexec.trans ?_, fun hw hb => hexec.trans ?_, fun hw hb => hexec.trans ?_, fun hw hb => hexec.trans ?_⟩
    · rw [doorbellPage_write hw, if_pos hb]
    · rw [doorbellPage_write hw, if_neg hb]
    · rw [doorbellPage_read hw hb]
    · rw [doorbellPage_readPart hw hb]

end Sys2Proof.Machine

/-! PROOFS. Counters (14 R376, R381 to R389). -/

namespace Sys2Proof.Machine

variable {s s1 : State} {p : Packet} {j : Job} {clear : Bool} {n k r a b cap fill : Nat}

/-! ## Reads of consecutive counters -/

/-- Clears the value and SAT of counter `n`. -/
def clearCounter (s : State) (n : Nat) : State := setCounter n { counter s n with value := 0, sat := false } s

theorem readCounters_length (clear : Bool) : ∀ (k n : Nat) (s : State), (readCounters clear n k s).1.length = 8 * k
  | 0, _, _ => rfl
  | k + 1, n, s => by
    show (counterBytes (counter s n) ++ (readCounters clear (n + 1) k (readCounter clear n s).2).1).length = 8 * (k + 1)
    rw [List.length_append, readCounters_length clear k, counterBytes, leBytes_length]
    omega

theorem readCounters_keep : ∀ (k n : Nat) (s : State),
    readCounters false n k s = ((List.range' n k).flatMap (fun m => counterBytes (counter s m)), s)
  | 0, _, _ => rfl
  | k + 1, n, s => by simp [readCounters, readCounter, readCounters_keep k (n + 1) s, List.range'_succ]

theorem readCounters_clear : ∀ (k n : Nat) (s : State), (readCounters true n k s).2 = (List.range' n k).foldl clearCounter s
  | 0, _, _ => rfl
  | k + 1, n, s => readCounters_clear k (n + 1) (clearCounter s n)

/-- A read of counters touches the counter bank only. -/
theorem readCounters_bank (clear : Bool) : ∀ (k n : Nat) (s : State), ∃ c, (readCounters clear n k s).2 = { s with cnt := c }
  | 0, _, s => ⟨s.cnt, rfl⟩
  | k + 1, n, s => by
    have hone : ∃ c, (readCounter clear n s).2 = { s with cnt := c } := by
      cases clear
      · exact ⟨s.cnt, rfl⟩
      · exact ⟨_, rfl⟩
    obtain ⟨c, hc⟩ := hone
    obtain ⟨c', hc'⟩ := readCounters_bank clear k (n + 1) (readCounter clear n s).2
    exact ⟨c', hc'.trans (by rw [hc])⟩

theorem skew_le (k : Nat) (s : State) : (skew k s).1 ≤ 1000 := by
  unfold skew
  split
  · exact Nat.zero_le _
  · exact Nat.le_of_lt_succ (Nat.mod_lt _ (by decide))

/-- A skew is drawn of the free values, if at all. -/
theorem skew_draws (k : Nat) (s : State) : (skew k s).2 = s ∨ (skew k s).2 = (draw 0x1401 s).2 := by
  unfold skew
  split
  · exact .inl rfl
  · exact .inr rfl

@[simp] theorem skew_wm (k : Nat) (s : State) : (skew k s).2.wm = s.wm := by rcases skew_draws k s with h | h <;> simp [h]
@[simp] theorem skew_mem (k : Nat) (s : State) : (skew k s).2.mem = s.mem := by rcases skew_draws k s with h | h <;> simp [h]
@[simp] theorem skew_cnt (k : Nat) (s : State) : (skew k s).2.cnt = s.cnt := by rcases skew_draws k s with h | h <;> simp [h]

theorem blockRecord_length (b : Nat) (clear : Bool) (s : State) : (blockRecord b clear s).1.length = 528 := by
  simp only [blockRecord, List.length_append, leBytes_length, readCounters_length, List.length_singleton]

/-! ## CNT_READ -/

theorem wmPut_read {bs : List Byte} (hwf : Memory.wf s.wm = true) (hu : ∀ i < bs.length, underTest s (a + i) = false) :
    readBytes (wmPut a bs s).wm a bs.length = bs :=
  (congrArg (readBytes · a bs.length) (putBytes_untested bs a hu)).trans (readBytes_writeBytes bs a hwf)

theorem wmPut_outside {bs : List Byte} (hwf : Memory.wf s.wm = true) {x : Nat} (hx : x < a ∨ a + bs.length ≤ x) :
    memRead (wmPut a bs s).wm x = memRead s.wm x := memRead_putBytes_outside _ _ bs a x hwf hx

theorem exec_cntRead (h : Accepted opCntRead p s s1) (hwf : Memory.wf s1.wm = true) :
    let n := pf p.params 0 26 20
    let c0 := pf p.params 0 19 0
    let a := pf p.params 1 22 0
    ∃ t k, exec (.cntRead p) s = answered opCntRead p .ok [s1.clk.fc, wd (s1.clk.cyc + 8 * nsOf s1.clk), wd k] t ∧ k ≤ 1000 ∧
      ((∀ i < 8 * n, underTest s1 (a + i) = false) → pb p.params 0 27 = false →
        readBytes t.wm a (8 * n) = (List.range' c0 n).flatMap (fun m => counterBytes (counter s1 m))) ∧
      (pb p.params 0 27 = false → t.cnt = s1.cnt) ∧
      (pb p.params 0 27 = true → t.cnt = ((List.range' c0 n).foldl clearCounter s1).cnt) ∧
      (∀ x, (x < a ∨ a + 8 * n ≤ x) → memRead t.wm x = memRead s1.wm x) := by
  intro n c0 a
  set rd := readCounters (pb p.params 0 27) c0 n s1 with hrd
  have hlen : rd.1.length = 8 * n := readCounters_length _ _ _ _
  obtain ⟨c, hc⟩ : ∃ c, rd.2 = { s1 with cnt := c } := readCounters_bank _ _ _ _
  have hwm : (skew n rd.2).2.wm = s1.wm := by rw [skew_wm, hc]
  have hmem : (skew n rd.2).2.mem = s1.mem := by rw [skew_mem, hc]
  refine ⟨wmPut a rd.1 (skew n rd.2).2, (skew n rd.2).1, runCommand_reply h rfl, skew_le _ _, fun hu hcl => ?_, fun hcl => ?_,
    fun hcl => ?_, fun x hx => ?_⟩
  · rw [← hlen, wmPut_read (by rw [hwm]; exact hwf) (by rw [hlen]; simpa only [underTest, hmem] using hu), hrd, hcl, readCounters_keep]
  · rw [wmPut_cnt, skew_cnt, hrd, hcl, readCounters_keep]
  · rw [wmPut_cnt, skew_cnt, hrd, hcl, readCounters_clear]
  · rw [wmPut_outside (by rw [hwm]; exact hwf) (by rw [hlen]; exact hx), hwm]

/-! ## Dumps -/

theorem dumpReach_wait (ho : (readDesc s a).own = false) : dumpReach a s = .wait := if_pos (by simp [ho])

theorem dumpReach_bad (ho : (readDesc s a).own = true)
    (hb : (readDesc s a).bad = true ∨ (readDesc s a).len = 0 ∨ (readDesc s a).len % 528 ≠ 0) : dumpReach a s = .bad :=
  (if_neg (by simp [ho])).trans (if_pos (by simpa [or_assoc] using hb))

theorem dumpReach_buffer (ho : (readDesc s a).own = true)
    (hb : ¬((readDesc s a).bad = true ∨ (readDesc s a).len = 0 ∨ (readDesc s a).len % 528 ≠ 0)) :
    dumpReach a s = .buffer (readDesc s a).len :=
  (if_neg (by simp [ho])).trans (if_neg (by simpa [or_assoc] using hb))

theorem bodyCntDump_eq : ∀ x, dumpReach (pf p.params 1 22 0) s = x → bodyCntDump p s = match x with
    | .wait => .wait (.dumpWait 0 (pf p.params 1 22 0)) [] [] s
    | .bad => .reply .badParam [] (handBack (pf p.params 1 22 0) s)
    | .buffer cap => .wait (.dump 0 (pf p.params 1 22 0) cap 0) [] [pf p.params 1 22 0] s := by
  rintro _ rfl
  rfl

theorem dumpRecheck_wait (ho : (readDesc s a).own = false) : dumpRecheck r j n a s = s := by
  rw [dumpRecheck, dumpReach_wait ho]

theorem exec_cntDumpBlock_dump (hj : job s r = some j) (hw : j.work = .dump b a cap fill) :
    exec (.cntDumpBlock r) s = .next (if running s && !s.dev.failover then dumpBlock r j b a cap fill s else s) := by
  show execCntDumpBlock r s = _
  simp only [execCntDumpBlock, hj, hw]

theorem exec_cntDumpBlock_other (h : ∀ j, job s r = some j → ∀ b a cap fill, j.work ≠ .dump b a cap fill) :
    exec (.cntDumpBlock r) s = .next s := by
  show execCntDumpBlock r s = _
  unfold execCntDumpBlock
  split
  case h_1 j hj =>
    split
    case h_1 b a cap fill hw => exact absurd hw (h j hj b a cap fill)
    case h_2 => rfl
  case h_2 => rfl

/-- The state after a block's record is written. -/
def blockWritten (j : Job) (b a fill : Nat) (s : State) : State :=
  let blk := blockRecord (pf j.params 0 27 14 + b) (pb j.params 1 23) s
  wmPut ((readDesc s a).addr + fill) blk.1 blk.2

theorem dumpBlock_last (h : b + 1 = pf j.params 0 13 0 + 1) : dumpBlock r j b a cap fill s =
    endJob r .ok [wd (b + 1)] (setJob r (some { j with taken := [] }) (handBackOut a (fill + 528) (blockWritten j b a fill s))) := if_pos h

theorem dumpBlock_room (h : b + 1 ≠ pf j.params 0 13 0 + 1) (hf : fill + 528 ≠ cap) : dumpBlock r j b a cap fill s =
    setJob r (some { j with work := .dump (b + 1) a cap (fill + 528) }) (blockWritten j b a fill s) := (if_neg h).trans (if_neg hf)

/-- A dump's job once it has handed back a full buffer: it waits for the next descriptor. -/
def dumpNext (j : Job) (b a : Nat) (s : State) : Job := { j with taken := [], work := .dumpWait (b + 1) (readDesc s a).next }

theorem dumpBlock_full (h : b + 1 ≠ pf j.params 0 13 0 + 1) (hf : fill + 528 = cap) : dumpBlock r j b a cap fill s =
    let s3 := setJob r (some (dumpNext j b a s)) (handBackOut a (fill + 528) (blockWritten j b a fill s))
    if (readDesc s a).last then endJob r .badParam [] s3 else dumpRecheck r (dumpNext j b a s) (b + 1) (readDesc s a).next s3 :=
  (if_neg h).trans (if_pos hf)

/-! ## The taps' sample -/

theorem sampleTaps_eq (s : State) : sampleTaps s = { s with cnt := { s.cnt with last := s.cnt.acc, bank := s.cnt.bank.map (fun x => (x.1,
    if x.2.bound = true ∧ x.2.since ≤ s.clk.ticks - 1 then counterAdd (tapDiff s (x.2.tap * 2 ^ 24 + x.2.obj)) x.2 else x.2)) } } := by
  simp [sampleTaps, tapKey]

theorem counterAdd_saturates {d : Nat} {c : Counter} (hd : d ≠ 0) (h : cntMax ≤ c.value + d) :
    counterAdd d c = { c with value := cntMax, sat := true } := (if_neg hd).trans (if_neg (Nat.not_lt.mpr h))

theorem counterAdd_room {d : Nat} {c : Counter} (h : c.value + d < cntMax) : counterAdd d c = { c with value := c.value + d } := by
  by_cases hd : d = 0
  · subst hd
    rfl
  · exact (if_neg hd).trans (if_pos h)

/-- Settles O54: reads by `readCounters` and the bytes written, a dump by what it reaches and how its buffer stands, the sample tap by tap. -/
theorem counterCommands : Obligations.CounterCommands := by
  refine ⟨fun p s s1 h => runCommand_wait h rfl, fun ws s => ⟨fun hb => ?_, fun hb => ?_⟩, fun p s s1 h hwf => exec_cntRead h hwf,
    fun p s s1 h => ⟨fun ho => ?_, fun ho hbad => ?_, fun ho hbad => ?_⟩, fun r j s b a cap fill hj hw hstop => ?_,
    fun r j s b a cap fill hj hw hrun hgap => ⟨fun hlast => ?_, fun hlast hcap => ?_, fun hlast hcap => ?_⟩, blockRecord_length,
    fun r s h => exec_cntDumpBlock_other h, fun l s hl => ?_, sampleTaps_eq,
    fun d c => ⟨fun hd h => ?_, counterAdd_room⟩, fun n s => rfl⟩
  · simp only [bindAtTick, hb, if_true]
  · simp only [bindAtTick, hb, Bool.false_eq_true, if_false, counterReset]
  · exact runCommand_wait h (bodyCntDump_eq _ (dumpReach_wait ho))
  · exact runCommand_reply h (bodyCntDump_eq _ (dumpReach_bad ho hbad))
  · exact runCommand_wait h (bodyCntDump_eq _ (dumpReach_buffer ho hbad))
  · rw [exec_cntDumpBlock_dump hj hw, if_neg]
    rcases hstop with h | h <;> simp [h]
  · rw [exec_cntDumpBlock_dump hj hw, if_pos (by simp [hrun, hgap]), dumpBlock_last hlast]
    rfl
  · rw [exec_cntDumpBlock_dump hj hw, if_pos (by simp [hrun, hgap]), dumpBlock_room hlast hcap]
    rfl
  · refine ⟨_, exec_cntDumpBlock_dump hj hw, fun hl => ?_, fun hl hown => ?_⟩
    · rw [if_pos (by simp [hrun, hgap]), dumpBlock_full hlast hcap, hl]
      rfl
    · rw [if_pos (by simp [hrun, hgap]), dumpBlock_full hlast hcap, hl]
      exact dumpRecheck_wait hown
  · exact if_pos (by simpa using hl)
  · simp [counterAdd_saturates hd h]

end Sys2Proof.Machine

/-! PROOFS. The brown-out save (15 R414 to R419; 16 R430, R438). -/

namespace Sys2Proof.Machine

variable {s s1 : State} {p : Packet} {v : Save} {f g : Flacon} {j : Job} {k : Nat}

/-! ## Arming -/

theorem armRule_iff : armRule v = true ↔ v.en = true ∧ v.holdFault = 0 ∧ v.storeOk = true ∧ v.measured = true ∧
    24000000000 ≤ v.cUf * (v.vhold * v.vhold - 64000000) := by
  show armRule v = true ↔ v.en = true ∧ v.holdFault = 0 ∧ v.storeOk = true ∧ v.measured = true ∧ 24000000000 ≤ eScaled v
  generalize he : eScaled v = e
  simp only [armRule, he, Bool.and_eq_true, beq_iff_eq, decide_eq_true_eq, and_assoc]

theorem rearm_same (h : armRule s.save = s.save.armed) : rearm s = s := if_pos h

theorem rearm_changes (h : armRule s.save ≠ s.save.armed) :
    rearm s = raise 0x0D 0x01 0 (wd (eAvail s.save)) (armRule s.save) { s with save := { s.save with armed := armRule s.save } } := if_neg h

/-- A measurement is due: while the planes run, once after the start and then every 24 h. -/
theorem capDue_iff : capDue s = true ↔ running s = true ∧ ∀ t, s.save.capAt = some t → t + 86400000000000 ≤ s.clk.now := by
  unfold capDue
  cases s.save.capAt
  case none => simp
  case some t =>
    refine Bool.and_eq_true _ _ ▸ and_congr_right fun _ => ⟨fun h x hx => ?_, fun h => decide_eq_true (h t rfl)⟩
    obtain rfl := Option.some.inj hx
    exact of_decide_eq_true h

theorem capMeasure_alone (d e h : Nat) :
    let c := if d = 0 then 65535 else min (200000 / d) 65535
    let s1 := rearm { s with save := { s.save with
      measured := true, cUf := c, esr := min (2 * e) 65535, vhold := min h 65535, capAt := if capDue s then some s.clk.now else s.save.capAt } }
    findJob s1 (fun j => j.work = .saveTest 0) = none → capMeasure d e h s = s1 := by
  intro c s1 hj
  simp only [capMeasure]
  split
  case h_1 j hj' => exact absurd (hj.symm.trans hj') nofun
  case h_2 => rfl

theorem capMeasure_answers (d e h : Nat) (j : Job) :
    let c := if d = 0 then 65535 else min (200000 / d) 65535
    let r := min (2 * e) 65535
    let s1 := rearm { s with save := { s.save with
      measured := true, cUf := c, esr := r, vhold := min h 65535, capAt := if capDue s then some s.clk.now else s.save.capAt } }
    findJob s1 (fun j => j.work = .saveTest 0) = some j → capMeasure d e h s = endJob j.ring .ok [wd (c + 65536 * r), 0, 0] s1 := by
  intro c r s1 hj
  simp only [capMeasure]
  split
  case h_1 j' hj' =>
    obtain rfl : j = j' := Option.some.inj (hj.symm.trans hj')
    rfl
  case h_2 hj' => exact absurd (hj'.symm.trans hj) nofun

/-! ## SAVE_GET and SAVE_TEST -/

/-- Slot, generation and cycle that `SAVE_GET` reports of the newest flacon. -/
def newestReport (v : Save) : Nat × Nat × Word := ((newestFlacon v).map (fun x => (x.1, x.2.gen, x.2.fc))).getD (0, 0, 0)

theorem bodySaveGet_eq (p : Packet) (s : State) : bodySaveGet p s = .reply .ok [wd (b2n s.save.armed + 2 * b2n s.save.en + 4 * b2n s.save.storeOk +
      8 * s.save.holdFault.toNat + 64 * b2n s.save.measured + 128 * b2n s.dev.restored + 256 * (newestReport s.save).1),
    wd (s.save.vhold + 65536 * s.save.cUf), wd (s.save.esr + 65536 * eAvail s.save), wd (newestReport s.save).2.1, (newestReport s.save).2.2,
    wd s.save.storeKb] s := by
  simp only [bodySaveGet, newestReport]
  cases newestFlacon s.save <;> rfl

theorem bodySaveTest_unable (ho : pf p.params 0 1 0 ≠ 2) (h : s.save.holdFault ≠ 0 ∨ s.save.storeOk = false) :
    bodySaveTest p s = .reply .notInMode [] s := (if_neg ho).trans (if_pos (by simpa using h))

theorem bodySaveTest_able (ho : pf p.params 0 1 0 ≠ 2) (hf : s.save.holdFault = 0) (hs : s.save.storeOk = true) :
    bodySaveTest p s = if saveTestRuns s then refuse .busy s else .wait (.saveTest (pf p.params 0 1 0)) [] [] s :=
  (if_neg ho).trans (if_neg (by simp [hf, hs]))

/-! ## Flacons -/

theorem flaconBody_fcrc (f : Flacon) (c : Word) : flaconBody { f with fcrc := c } = flaconBody f := rfl

theorem flaconSeal_fcrc (f : Flacon) : (flaconSeal f).fcrc = crc32c (flaconBody (flaconSeal f)) :=
  congrArg crc32c (flaconBody_fcrc _ _).symm

theorem flaconValid_iff : flaconValid f = true ↔
    f.magic = flaconMagic ∧ f.gen % 2 ^ 32 ≠ 0 ∧ 64 ≤ f.len ∧ f.len ≤ 94788 ∧ f.fcrc = crc32c (flaconBody f) := by
  simp only [flaconValid, Bool.and_eq_true, beq_iff_eq, bne_iff_ne, decide_eq_true_eq, and_assoc]

theorem slotFlacon_some {o : Option Flacon} : slotFlacon o = some f ↔ o = some f ∧ flaconValid f = true := Option.filter_eq_some_iff

/-- The newest flacon is a valid one of its slot, and no valid one of either slot is later. -/
theorem newestFlacon_spec (h : newestFlacon v = some (k, f)) : flaconValid f = true ∧ (k = 0 ∧ v.slot0 = some f ∨ k = 1 ∧ v.slot1 = some f) ∧
    ∀ g, (v.slot0 = some g ∨ v.slot1 = some g) → flaconValid g = true →
      g = f ∨ ¬(fcLater (wd g.gen) (wd f.gen) = true ∧ fcLater (wd f.gen) (wd g.gen) = false) := by
  have hslots : ∀ g, (v.slot0 = some g ∨ v.slot1 = some g) → flaconValid g = true → slotFlacon v.slot0 = some g ∨ slotFlacon v.slot1 = some g :=
    fun g hg hv => hg.imp (fun h => slotFlacon_some.mpr ⟨h, hv⟩) (fun h => slotFlacon_some.mpr ⟨h, hv⟩)
  unfold newestFlacon at h
  split at h
  case h_1 => cases h
  case h_2 a h0 h1 =>
    cases h
    refine ⟨(slotFlacon_some.mp h0).2, .inl ⟨rfl, (slotFlacon_some.mp h0).1⟩, fun g hg hv => .inl ?_⟩
    simpa [h0, h1, eq_comm] using hslots g hg hv
  case h_3 b h0 h1 =>
    cases h
    refine ⟨(slotFlacon_some.mp h1).2, .inr ⟨rfl, (slotFlacon_some.mp h1).1⟩, fun g hg hv => .inl ?_⟩
    simpa [h0, h1, eq_comm] using hslots g hg hv
  case h_4 a b h0 h1 =>
    have hab : ∀ g, (v.slot0 = some g ∨ v.slot1 = some g) → flaconValid g = true → g = a ∨ g = b := fun g hg hv => by
      simpa [h0, h1, eq_comm] using hslots g hg hv
    split at h
    case isTrue hlater =>
      cases h
      refine ⟨(slotFlacon_some.mp h1).2, .inr ⟨rfl, (slotFlacon_some.mp h1).1⟩, fun g hg hv => ?_⟩
      rcases hab g hg hv with rfl | rfl
      · exact .inr fun h => absurd hlater (by simp [h.2])
      · exact .inl rfl
    case isFalse hlater =>
      cases h
      refine ⟨(slotFlacon_some.mp h0).2, .inl ⟨rfl, (slotFlacon_some.mp h0).1⟩, fun g hg hv => ?_⟩
      rcases hab g hg hv with rfl | rfl
      · exact .inl rfl
      · exact .inr fun h => hlater h.1

theorem writeFlacon_other (h : ∀ g, newestFlacon s.save ≠ some (0, g)) :
    writeFlacon f s = { s with save := { s.save with slot0 := some f } } := by
  unfold writeFlacon
  split
  case h_1 g hg => exact absurd hg (h g)
  case h_2 => rfl

theorem writeFlacon_zero (h : newestFlacon s.save = some (0, g)) :
    writeFlacon f s = { s with save := { s.save with slot1 := some f } } := by simp only [writeFlacon, h]

/-- The state after a free value is drawn. -/
def afterDraw (s : State) : State := { s with clk := { s.clk with free := s.clk.free + 1 } }

theorem tornWrite_even (h : (draw 0x154180 s).1 % 2 = 0) : tornWrite s = afterDraw s := if_pos h

theorem tornWrite_zero (h : (draw 0x154180 s).1 % 2 ≠ 0) (hn : newestFlacon s.save = some (0, f)) :
    tornWrite s = { afterDraw s with save := { s.save with slot1 := none } } := by
  refine (if_neg h).trans ?_
  split
  case h_1 => rfl
  case h_2 hx => exact absurd hn (hx f)

theorem tornWrite_other (h : (draw 0x154180 s).1 % 2 ≠ 0) (hn : ∀ f, newestFlacon s.save ≠ some (0, f)) :
    tornWrite s = { afterDraw s with save := { s.save with slot0 := none } } := by
  refine (if_neg h).trans ?_
  split
  case h_1 f hf => exact absurd hf (hn f)
  case h_2 => rfl

theorem mkFlacon_tail (c : Nat) (fc : Word) (cy : Nat) (s : State) : (mkFlacon c fc cy s).tail.length ≤ s.save.tailN := by
  show (s.evt.tail.drop (s.evt.tail.length - s.save.tailN)).length ≤ _
  rw [List.length_drop]
  omega

theorem saveImage_live (ha : (activeCp s).isSome = true) (hn : s.cp.none_ = false) (c : Nat) (fc : Word) (cy : Nat) :
    saveImage c fc cy s = some (mkFlacon c fc cy s) := if_pos (by simp [ha, hn])

theorem saveImage_staged (h : activeCp s = none ∨ s.cp.none_ = true) (c : Nat) (fc : Word) (cy : Nat) : saveImage c fc cy s =
    s.save.stagedF.map (fun f => flaconSeal { f with cause := c + 8, gen := nextGen s.save, fc, cyc := cy }) :=
  if_neg (by rcases h with h | h <;> simp [h])

/-! ## The rows -/

theorem exec_checkpointComplete_none (h : findJob s (fun j => j.work = .saveTest 1) = none ∨ running s = false) :
    exec .checkpointComplete s = .next s := by
  show execCheckpointComplete s = _
  unfold execCheckpointComplete
  split
  case h_1 j hj => exact if_neg (by simpa [hj] using h)
  case h_2 => rfl

theorem exec_checkpointComplete (hr : running s = true) (hj : findJob s (fun j => j.work = .saveTest 1) = some j) :
    exec .checkpointComplete s = .next (checkpointComplete j s) := by
  show execCheckpointComplete s = _
  simp only [execCheckpointComplete, hj, hr, if_true]

theorem triggerActs_iff {p v : Bool} : triggerActs p v s = true ↔ ((p = true ∧ s.save.pfnEn = true) ∨ (v = true ∧ s.save.vinEn = true)) ∧
    (running s = true ∨ (s.dev.mode = .boot ∧ s.dev.bootPhase = 2)) := by
  simp [triggerActs]

theorem exec_saveComplete_idle (h : s.save.saving = none) : exec .saveComplete s = .next s := by
  show execSaveComplete s = _
  simp only [execSaveComplete, h]

theorem exec_saveComplete {t c : Nat} {a : Bool} {fc : Word} {cy : Nat} (h : s.save.saving = some (t, c, a, fc, cy)) :
    exec .saveComplete s = .next (saveComplete c a fc cy s) := by
  show execSaveComplete s = _
  simp only [execSaveComplete, h]

theorem changeMode_mode (m : Mode) (s : State) : (changeMode m s).dev.mode = m := by simp [changeMode, stateChange]

theorem changeMode_wm (m : Mode) (s : State) : (changeMode m s).wm = s.wm := by simp [changeMode, stateChange]

theorem enterHalt_rest (s : State) : (enterHalt s).dev.mode = .halt ∧ (enterHalt s).dev.ready = false ∧ (enterHalt s).io.irqHeld = none ∧
    (enterHalt s).wm = s.wm := by
  refine ⟨?_, rfl, rfl, ?_⟩
  · by_cases h : s.dev.mode = .save <;> simp [enterHalt, h, changeMode_mode, stateChange]
  · by_cases h : s.dev.mode = .save <;> simp [enterHalt, h, changeMode_wm, stateChange]

/-- Settles O56: arming and triggers by their rules, each command by its checks in order, flacons by `newestFlacon_spec` and `flaconSeal_fcrc`. -/
theorem saveCommands : Obligations.SaveCommands := by
  refine ⟨fun v => armRule_iff, fun s => ⟨rearm_same, rearm_changes⟩, fun p s s1 h => runCommand_reply h rfl, fun p s s1 h => ?_,
    fun p s s1 h => ⟨fun ho => ?_, fun ho hv => ?_, fun ho hf hs hr => ?_, fun ho hf hs hr => ?_⟩, fun d e h s => ?_,
    fun s => ⟨fun hr ha ht => ?_, fun hn => ?_⟩, fun s => ⟨exec_checkpointComplete_none, fun j hr hj => exec_checkpointComplete hr hj⟩,
    fun f s => ⟨fun g => writeFlacon_zero, fun g hg => ?_, fun hn => ?_⟩, fun s => ⟨fun g hg => ?_, fun hg => ?_⟩,
    fun c fc cy s => ⟨rfl, rfl, rfl, mkFlacon_tail c fc cy s, rfl, rfl, rfl, rfl, rfl, rfl, rfl, rfl, rfl, flaconSeal_fcrc _⟩,
    fun f => flaconValid_iff, fun v k f => newestFlacon_spec, fun p v s => triggerActs_iff, fun p v s h => ?_, fun p v s h => ?_,
    fun s => exec_saveComplete_idle, fun s t c a fc cy h => exec_saveComplete h,
    fun c fc cy s => ⟨fun ha hn => saveImage_live ha hn c fc cy, fun h => saveImage_staged h c fc cy⟩, enterHalt_rest⟩
  · refine ⟨(newestReport s1.save).1, (newestReport s1.save).2.1, (newestReport s1.save).2.2, fun hn => ?_, fun k f hn => ?_,
      runCommand_reply h (bodySaveGet_eq p s1)⟩
    · simp [newestReport, hn]
    · simp [newestReport, hn]
  · exact runCommand_reply h (if_pos ho)
  · exact runCommand_reply h (bodySaveTest_unable ho hv)
  · exact runCommand_reply h ((bodySaveTest_able ho hf hs).trans (if_pos hr))
  · exact runCommand_wait h ((bodySaveTest_able ho hf hs).trans (if_neg (by simp [hr])))
  · intro c r due asked
    refine ⟨if capDue s then some s.clk.now else s.save.capAt, fun hd => if_pos (capDue_iff.mpr hd), fun hd => if_neg (mt capDue_iff.mp hd),
      fun hd ha => if_neg ?_, fun hda => ?_⟩
    · rw [Bool.or_eq_true, capDue_iff]
      exact not_or_intro hd ha
    · have hrun : exec (.capacitorMeasurement d e h) s = .next (capMeasure d e h s) := by
        refine if_pos ?_
        rw [Bool.or_eq_true, capDue_iff]
        exact hda
      exact ⟨fun hj => hrun.trans (congrArg _ (capMeasure_alone d e h hj)), fun j hj => hrun.trans (congrArg _ (capMeasure_answers d e h j hj))⟩
  · exact if_pos (by simp [hr, ha, ht])
  · exact if_neg (by rcases hn with h | h | h <;> simp [h, Nat.not_le.mpr])
  · exact writeFlacon_other (by simp [hg])
  · exact writeFlacon_other (by simp [hn])
  · by_cases hv : (draw 0x154180 s).1 % 2 = 0
    · exact .inl (tornWrite_even hv)
    · exact .inr (tornWrite_zero hv hg)
  · by_cases hv : (draw 0x154180 s).1 % 2 = 0
    · exact .inl (tornWrite_even hv)
    · exact .inr (tornWrite_other hv hg)
  · exact if_neg (by simp [h])
  · refine (if_pos h).trans ?_
    rfl

end Sys2Proof.Machine

/-! PROOFS. The SVA's judgements, the gap, the journal, fitness, restarts and the revert (15 R393 to R401, R421). -/

namespace Sys2Proof.Machine

variable {s : State} {a c n : Nat}

/-! ## The rows, by the state's roles -/

theorem exec_cpHeartbeatTimeout (h : svaJudges s = true) : exec .cpHeartbeatTimeout s = .next (cpFails 1 s) := if_pos h

theorem svaJudges_iff : svaJudges s = true ↔ s.cp.svaOk = true ∧ s.cp.gap = none := by simp [svaJudges]

theorem cpFails_without_active (h : activeCp s = none) : cpFails c s = s := by simp only [cpFails, h]

/-- The state after `HEALTH_CP_FAULT` of processor `a` is raised for cause `c`. -/
def cpFaulted (a c : Nat) (s : State) : State := pulse 0x0F 0x03 a (wd c) false s

theorem cpFault_eq (a c : Nat) (s : State) : cpFault a c false s = cpFaulted a c s := rfl

theorem cpFails_handsOver (ha : activeCp s = some a) (hn : successor a (cpFaulted a c s) = some n) : cpFails c s =
    cpReset a c (if n = 2 then powerSpare a (gapStart a n c (cpFaulted a c s)) else gapStart a n c (cpFaulted a c s)) := by
  simp only [cpFails, ha, cpFault_eq, hn]

theorem cpFails_alone (ha : activeCp s = some a) (hn : successor a (cpFaulted a c s) = none) : cpFails c s =
    let t := markFailed a c (masterReset (cpPort a (cpFaulted a c s)) (cpFaulted a c s))
    stateChange { t with dev := { t.dev with ready := false }, cp := { t.cp with none_ := true } } := by
  simp only [cpFails, ha, cpFault_eq, hn]

theorem exec_failoverGapEnd_closed (h : s.cp.gap = none) : exec .failoverGapEnd s = .next s := by
  show execFailoverGapEnd s = _
  simp only [execFailoverGapEnd, h]

theorem exec_failoverGapEnd {t c o n : Nat} (h : s.cp.gap = some (t, c, o, n)) :
    exec .failoverGapEnd s = .next (protSync (repliesDue (handoverReply n (gapEnd t c o n s)))) := by
  show execFailoverGapEnd s = _
  simp only [execFailoverGapEnd, h]

/-! ## CP_MEMORY_ERROR -/

/-- The corrected errors of the last second, with one now. -/
def correctedErrors (s : State) : List Nat := s.clk.now :: s.cp.corr.filter (fun t => decide (s.clk.now < t + 1000000000))

theorem cpMemoryError_corrected (s : State) : cpMemoryError false s =
    if 100 < (correctedErrors s).length && svaJudges s then cpFails 3 { s with cp := { s.cp with corr := [] } }
    else { s with cp := { s.cp with corr := correctedErrors s } } := rfl

theorem exec_cpMemoryError_many (hl : 100 < (correctedErrors s).length) (hj : svaJudges s = true) :
    exec (.cpMemoryError false) s = .next (cpFails 3 { s with cp := { s.cp with corr := [] } }) :=
  congrArg _ ((cpMemoryError_corrected s).trans (if_pos (by simp [hl, hj])))

theorem exec_cpMemoryError_few (h : (correctedErrors s).length ≤ 100 ∨ svaJudges s = false) :
    exec (.cpMemoryError false) s = .next { s with cp := { s.cp with corr := correctedErrors s } } :=
  congrArg _ ((cpMemoryError_corrected s).trans (if_neg (by rcases h with h | h <;> simp [h])))

/-! ## The journal and the standby's fitness -/

theorem lagWithin_empty (h : s.cp.journal = []) : lagWithin s = true := by simp only [lagWithin, h]

theorem lagWithin_cons {x} {l} (h : s.cp.journal = x :: l) : lagWithin s = true ↔ s.clk.now ≤ x.at_ + 20000 := by
  simp only [lagWithin, h, decide_eq_true_eq]

theorem standbyFit_iff : standbyFit s = true ↔
    (standby s).isSome = true ∧ s.cp.passOk = true ∧ s.cp.lagOk = true ∧ lagWithin s = true ∧ s.cp.digestOk = true := by
  simp only [standbyFit, Bool.and_eq_true, and_assoc]

theorem standby_lt (h : standby s = some c) : c < 3 := by
  have hc : c ∈ [0, 1, 2] := List.mem_of_find?_eq_some h
  simp only [List.mem_cons, List.not_mem_nil, or_false] at hc
  omega

theorem exec_journalLag_other (hc : c < 3) (h : standby s ≠ some c) : exec (.journalLag c) s = .next s :=
  (if_neg (Nat.not_le.mpr hc)).trans (congrArg _ (if_neg h))

theorem exec_journalLag (h : standby s = some c) : exec (.journalLag c) s = .next (journalLag s) :=
  (if_neg (Nat.not_le.mpr (standby_lt h))).trans (congrArg _ (if_pos h))

theorem journalLag_eq (h : standby s = some c) : journalLag s =
    let s1 := fitUpdate { s with cp := { s.cp with lagOk := lagWithin s } }
    if (!lagWithin s && s.cp.lagOk) = true then cpFault c 5 false s1 else s1 := by
  simp only [journalLag, h]

theorem journalLag_quiet (h : standby s = some c) (hq : lagWithin s = true ∨ s.cp.lagOk = false) :
    journalLag s = fitUpdate { s with cp := { s.cp with lagOk := lagWithin s } } :=
  (journalLag_eq h).trans (if_neg (by rcases hq with h | h <;> simp [h]))

theorem journalLag_raises (h : standby s = some c) (hw : lagWithin s = false) (hl : s.cp.lagOk = true) :
    journalLag s = pulse 0x0F 0x03 c (wd 5) false (fitUpdate { s with cp := { s.cp with lagOk := false } }) := by
  rw [journalLag_eq h, if_pos (by simp [hw, hl]), hw]
  rfl

/-- The state once the standby has applied the oldest record. -/
def journalDropped (s : State) : State := { s with cp := { s.cp with journal := s.cp.journal.drop 1 } }

theorem exec_journalApply_standby (h : standby s = some c) : exec .journalApply s =
    .next (if lagWithin (journalDropped s) then journalLag (journalDropped s) else journalDropped s) := if_neg (by simp [h])

theorem selftestPass_none (b : Bool) (h : standby s = none) : selftestPass b s = s := by simp only [selftestPass, h]

theorem selftestPass_passed (h : standby s = some c) :
    selftestPass true s = fitUpdate { s with cp := { s.cp with passOk := true, passes := (s.cp.passes + 1) % 2 ^ 32 } } := by
  simp only [selftestPass, h, if_true]

theorem selftestPass_failed (h : standby s = some c) : selftestPass false s =
    let t := cpFaulted c 4 (if s.cp.svaOk then setRole c .restarting (masterReset (cpPort c s) s) else s)
    fitUpdate { t with cp := { t.cp with passOk := false } } := by
  simp only [selftestPass, h, Bool.false_eq_true, if_false, cpFault_eq]

/-! ## The revert -/

theorem revertDue_of {t : Nat} (hj : svaJudges s = true) (hh : s.cp.holdoff ≠ 0) (hm : role s s.cp.m0 = .standby) (hf : standbyFit s = true)
    (ht : s.cp.fitSince = some t) (hle : t + s.cp.holdoff * 1000000000 ≤ s.clk.now) : revertDue s = true := by
  simp [revertDue, hj, hh, hm, hf, ht, hle]

theorem revertDue_not (h : s.cp.holdoff = 0 ∨ svaJudges s = false ∨ standbyFit s = false ∨ role s s.cp.m0 ≠ .standby) :
    revertDue s = false := by
  rcases h with h | h | h | h <;> simp [revertDue, h]

theorem exec_cpRevertHoldoffExpiry_active (ha : activeCp s = some a) :
    exec .cpRevertHoldoffExpiry s = if revertDue s then .next (gapStart a s.cp.m0 7 s) else .next s := by
  show execCpRevertHoldoffExpiry s = _
  simp only [execCpRevertHoldoffExpiry, ha]

theorem exec_cpRevertHoldoffExpiry_stays (h : revertDue s = false ∨ activeCp s = none) : exec .cpRevertHoldoffExpiry s = .next s := by
  show execCpRevertHoldoffExpiry s = _
  unfold execCpRevertHoldoffExpiry
  split
  case h_1 a ha => exact if_neg (by simpa [ha] using h)
  case h_2 => rfl

/-- Settles O58: each row by the roles it finds, the standby's by `standbyFit` and the journal's lag. -/
theorem processorRows : Obligations.ProcessorRows := by
  refine ⟨fun s => ⟨fun h => if_neg (by simp [h]), exec_cpHeartbeatTimeout, svaJudges_iff⟩,
    fun c s => ⟨cpFails_without_active, fun a ha => ⟨fun n hn hne => ?_, fun hn => ?_, fun hn => ⟨_, cpFails_alone ha hn, rfl⟩⟩⟩,
    fun c s => ⟨fun h => if_neg h, fun h => if_pos h⟩, fun a n c s => rfl, fun c k s => ⟨fun h => if_pos h, fun h => if_neg (Nat.not_lt.mpr h)⟩,
    fun s => ⟨fun h => congrArg _ ((if_pos rfl).trans (if_pos h)), fun h => congrArg _ ((if_pos rfl).trans (if_neg (by simp [h])))⟩,
    fun s => ⟨exec_cpMemoryError_many, exec_cpMemoryError_few⟩,
    fun s => ⟨exec_failoverGapEnd_closed, fun t c o n => exec_failoverGapEnd⟩, fun s => rfl, fun t c o n s => rfl,
    fun s => ⟨fun h => if_pos (by simp [h]), fun c h hw => ?_, fun c h hw => ?_⟩, fun s => ⟨lagWithin_empty, fun x l => lagWithin_cons⟩,
    fun s => standbyFit_iff, fun s => rfl, fun b s h => ⟨congrArg _ (selftestPass_none b h), congrArg _ (if_neg (by simp [h])), fun c hc => ?_⟩,
    fun c s h => ⟨congrArg _ (selftestPass_passed h), congrArg _ (selftestPass_failed h), fun b => congrArg _ (if_pos (by simp [h])),
      fun hq => ?_, fun hw hl => ?_⟩,
    fun c s hc => ⟨fun hr hs ha hj => ?_, fun h => ?_⟩, fun s => ⟨fun a t ha hj hh hm hf ht hle => ?_, fun h => ?_⟩,
    fun s => ⟨fun h => if_pos h, fun h => if_neg (by simp [h])⟩⟩
  · rw [cpFails_handsOver ha hn, if_neg hne]
    rfl
  · rw [cpFails_handsOver ha hn, if_pos rfl]
    rfl
  · exact (exec_journalApply_standby h).trans (congrArg _ (if_neg (by simpa [journalDropped] using hw)))
  · exact ((exec_journalApply_standby h).trans (congrArg _ (if_pos hw))).trans (exec_journalLag (s := journalDropped s) h).symm
  · exact exec_journalLag_other hc (by simp [h])
  · exact (exec_journalLag h).trans (congrArg _ (journalLag_quiet h hq))
  · exact (exec_journalLag h).trans (congrArg _ (journalLag_raises h hw hl))
  · exact (if_pos hc).trans (congrArg _ (if_pos (by simp [hr, hs, ha, hj])))
  · refine (if_pos hc).trans (congrArg _ (if_neg ?_))
    rcases h with h | h | h | h <;> simp [h]
    exact fun _ hs => absurd hs (by simpa [Option.isSome_iff_ne_none] using h)
  · exact (exec_cpRevertHoldoffExpiry_active ha).trans (if_pos (revertDue_of hj hh hm hf ht hle))
  · refine exec_cpRevertHoldoffExpiry_stays ?_
    rcases h with h | h | h | h | h
    · exact .inl (revertDue_not (.inl h))
    · exact .inl (revertDue_not (.inr (.inl h)))
    · exact .inl (revertDue_not (.inr (.inr (.inl h))))
    · exact .inl (revertDue_not (.inr (.inr (.inr h))))
    · exact .inr h

end Sys2Proof.Machine

/-! PROOFS. Reset, rail loss, boot and wake (16 R425 to R442). -/

namespace Sys2Proof.Machine

variable {s t u : State} {i : BootInputs} {r : Rail} {f : Flacon}

/-! ## A save that a reset cuts short -/

theorem storeTorn_idle (hj : findJob s (fun j => j.work = .saveTest 1) = none) (hs : s.save.saving = none) : storeTorn s = s :=
  if_neg (by simp [hj, hs])

theorem storeTorn_checkpoint (hj : findJob s (fun j => j.work = .saveTest 1) ≠ none) : storeTorn s = tornWrite s :=
  if_pos (by rw [Option.isSome_iff_ne_none.mpr hj, Bool.or_true])

theorem storeTorn_armed {l c n : Nat} {fc : Word} (hs : s.save.saving = some (l, c, true, fc, n)) : storeTorn s = tornWrite s :=
  if_pos (by simp [hs])

/-! ## The reset of every plane -/

theorem resetAll_retained (h : s.dev.retFlag = true) : (resetAll s).conn.com = s.conn.com ∧ (resetAll s).conn.blocks = s.conn.blocks ∧
    (resetAll s).conn.spares = s.conn.spares ∧ (resetAll s).conn.bad = s.conn.bad ∧ (resetAll s).mem.repairs = s.mem.repairs := by
  have hconn : (resetAll s).conn = connRetained s.conn := if_pos h
  have hmem : (resetAll s).mem = { Mem.reset with repairs := s.mem.repairs } := if_pos h
  rw [hconn, hmem]
  exact ⟨rfl, rfl, rfl, rfl, rfl⟩

theorem resetAll_wm (h : s.dev.retFlag = true) : (resetAll s).wm = s.wm := if_pos h

theorem resetAll_retention (h : s.dev.retFlag = true) (hm : s.dev.mode = .retention) : (resetAll s).dev.mode = .retention :=
  if_pos (by simp [h, hm])

theorem resetAll_boot (h : s.dev.retFlag = false ∨ s.dev.mode ≠ .retention) : (resetAll s).dev.mode = .boot :=
  if_neg (by rcases h with h | h <;> simp [h])

/-! ## RAIL_LOSS -/

theorem railLoss_retention (hm : s.dev.mode = .retention) (hr : r ∈ [Rail.vddCore, .vddEdge, .vddaLn, .vddhLn]) :
    railLoss r s = dataRailsOff s := by
  simp only [List.mem_cons, List.not_mem_nil, or_false] at hr
  rcases hr with rfl | rfl | rfl | rfl <;> simp only [railLoss, hm]

theorem railLoss_save (hm : s.dev.mode = .save) : railLoss r s = s := by simp only [railLoss, hm]

theorem railLoss_vddRet (hm : s.dev.mode ≠ .save) : railLoss .vddRet s = powerOff false s := by
  cases h : s.dev.mode <;> simp only [railLoss, h]
  exact absurd h hm

theorem railLoss_off (hret : s.dev.mode ≠ .retention) (hsave : s.dev.mode ≠ .save) (hr : r ≠ .vddRet) : railLoss r s = powerOff true s := by
  unfold railLoss
  split
  case h_6 => exact absurd rfl hr
  case h_7 => rfl
  case h_5 h => exact absurd h hsave
  all_goals exact absurd ‹_› hret

/-! ## The steps of BOOT -/

/-- BOOT's tests of steps 1 to 4, in order (16 Table 16.5). -/
theorem bootSteps_cp (ha : (i.cpAOk || i.cpBOk || i.cpSOk) = true) : bootSteps i s =
    if !i.fuseOk then bootFail 0x01 s else if !i.xoOk then bootFail 0x02 s else if !i.coreOk then bootFail 0x03 s
    else bootImage i ((List.range 4).foldl (fun s e => if i.badDies.getLsbD e then fenceDie e 7 s else s) (bootRepairs i s)) :=
  if_neg (by simpa [imp_iff_not_or, or_assoc] using ha)

theorem bootSteps_noCp (ha : (i.cpAOk || i.cpBOk || i.cpSOk) = false) : bootSteps i s = bootFail 0x20 s :=
  if_pos (by simpa [and_assoc] using ha)

theorem bootRepairs_store (hw : s.dev.woke = false) (ho : i.storeOk = true) (hf : (newestFlacon s.save).map (·.2) = some f) :
    bootRepairs i s = { s with mem := { s.mem with repairs := f.repairs } } := by
  have hsel : (if s.dev.woke then none else storeFlacon i s) = some f := (if_neg (by simp [hw])).trans ((if_pos ho).trans hf)
  simp only [bootRepairs, hsel]

theorem bootRepairs_none (h : s.dev.woke = true ∨ i.storeOk = false ∨ newestFlacon s.save = none) : bootRepairs i s = s := by
  have hsel : (if s.dev.woke then none else storeFlacon i s) = none := by
    rcases h with h | h | h <;> simp [storeFlacon, h]
  simp only [bootRepairs, hsel]

theorem bootImage_poll (h : i.bootMode.toNat % 4 = 1) : bootImage i s = bootPoll 0 s := by
  have hodd : ¬(i.spiOk && decide (i.bootMode.toNat % 2 = 0)) = true := by
    simp
    omega
  simp only [bootImage, h, if_neg hodd]

theorem bootImage_reserved (h : i.bootMode.toNat % 4 = 3) : bootImage i s = bootFail 0x04 s := by
  have hodd : ¬(i.spiOk && decide (i.bootMode.toNat % 2 = 0)) = true := by
    simp
    omega
  simp only [bootImage, h, if_neg hodd]

theorem spiImage_silent (h : i.spiOk = false) : spiImage i = .inr 0x10 := if_pos (by simp [h])

theorem bootImage_noSpi_fails (hs : i.spiOk = false) (h : i.bootMode.toNat % 4 = 0) : bootImage i s = bootFail 0x10 s := by
  simp [bootImage, h, spiImage_silent hs, hs]

theorem bootImage_noSpi_polls (hs : i.spiOk = false) (h : i.bootMode.toNat % 4 = 2) : bootImage i s = bootPoll 0x10 s := by
  simp [bootImage, h, spiImage_silent hs, hs]

theorem bootImage_accepted {src v : Nat} (he : i.bootMode.toNat % 2 = 0) (h : spiImage i = .inl (src, v)) :
    bootImage i s = bootRun i src v (recordRefusals i s) := by
  have hs : i.spiOk = true := by
    by_contra hs
    exact absurd ((spiImage_silent (Bool.eq_false_iff.mpr hs)).symm.trans h) nofun
  rcases (by omega : i.bootMode.toNat % 4 = 0 ∨ i.bootMode.toNat % 4 = 2) with hm | hm <;> simp [bootImage, hm, h, hs, he]

theorem bootFail_dev (c : Nat) (s : State) :
    (bootFail c s).dev.mode = .halt ∧ (bootFail c s).dev.bootErr = c ∧ (bootFail c s).dev.ready = false := by
  obtain ⟨hmode, hready, -, -⟩ := enterHalt_rest { s with dev := { s.dev with bootErr := c, bootPhase := 0 } }
  refine ⟨hmode, ?_, hready⟩
  by_cases h : s.dev.mode = .save <;> simp [bootFail, enterHalt, h, changeMode, stateChange]

/-! ## BOOT_IMAGE_POLL -/

theorem exec_bootImagePoll_waits (h : s.dev.bootInp = none ∨ s.dev.bootPhase ≠ 1 ∨ s.clk.now < s.dev.pollAt + 10000) :
    exec .bootImagePoll s = .next s := by
  show execBootImagePoll s = _
  unfold execBootImagePoll
  split
  case h_1 i hi => exact if_neg (by simpa [hi, imp_iff_not_or] using h)
  case h_2 => rfl

theorem exec_bootImagePoll (hi : s.dev.bootInp = some i) (hp : s.dev.bootPhase = 1) (ht : s.dev.pollAt + 10000 ≤ s.clk.now) :
    exec .bootImagePoll s = .next (pollImage i s) := by
  show execBootImagePoll s = _
  simp only [execBootImagePoll, hi]
  exact if_pos (by simp [hp, ht])

/-- The state once the ROM has looked for an image. -/
def polled (s : State) : State := { s with dev := { s.dev with pollAt := s.clk.now } }

/-- What the ROM makes of the image offered. -/
def offerCode (s : State) : Nat :=
  let d := readDesc s 0x6FFFF0
  let img := wmGet (polled s) d.addr d.len
  if d.bad = false ∧ d.last = true ∧ (crc32c img).toNat = d.dcrc then imageStatus img else 0x11

theorem pollImage_none (ho : (readDesc s 0x6FFFF0).own = false) : pollImage i s = polled s := if_pos (by simp [ho])

theorem pollImage_offered (ho : (readDesc s 0x6FFFF0).own = true) : pollImage i s =
    if offerCode s = 0 then bootRun i 2 (imageVersion (wmGet (polled s) (readDesc s 0x6FFFF0).addr (readDesc s 0x6FFFF0).len)) (handBack 0x6FFFF0 (polled s))
    else { handBack 0x6FFFF0 (polled s) with dev := { (handBack 0x6FFFF0 (polled s)).dev with bootErr := offerCode s } } := by
  have hcode : offerCode s = if (!(readDesc s 0x6FFFF0).bad && (readDesc s 0x6FFFF0).last &&
      (crc32c (wmGet (polled s) (readDesc s 0x6FFFF0).addr (readDesc s 0x6FFFF0).len)).toNat == (readDesc s 0x6FFFF0).dcrc) = true
      then imageStatus (wmGet (polled s) (readDesc s 0x6FFFF0).addr (readDesc s 0x6FFFF0).len) else 0x11 := by
    simp [offerCode, and_assoc]
  rw [hcode]
  exact if_neg (by simp [ho])

/-! ## BOOT_COMPLETE -/

/-- The Window Memory, the Bus Matrix, the keys, the device record and the synchronisers of `t` are those of `s`. -/
structure StartKept (s t : State) : Prop where
  wm : t.wm = s.wm
  mem : t.mem = s.mem
  keys : t.keys = s.keys
  dev : t.dev = s.dev
  syncs : t.evt.syncs = s.evt.syncs

theorem StartKept.trans (h1 : StartKept s t) (h2 : StartKept t u) : StartKept s u :=
  ⟨h2.wm.trans h1.wm, h2.mem.trans h1.mem, h2.keys.trans h1.keys, h2.dev.trans h1.dev, h2.syncs.trans h1.syncs⟩

theorem StartKept.foldl {β : Type} {f : State → β → State} (h : ∀ s x, StartKept s (f s x)) : ∀ (l : List β) (s : State), StartKept s (l.foldl f s)
  | [], _ => ⟨rfl, rfl, rfl, rfl, rfl⟩
  | x :: l, s => (h s x).trans (StartKept.foldl h l (f s x))

theorem enqueue_syncs (r : Rec) (s : State) : (enqueue r s).evt.syncs = s.evt.syncs := by
  unfold enqueue
  dsimp only
  by_cases hf : isFaultRec r = true
  · simp only [hf, if_true]
    split
    · rfl
    · simp
  · simp only [if_neg hf]
    split
    · rfl
    · simp

theorem startKept_raise (c k x : Nat) (d : Word) (b : Bool) (s : State) : StartKept s (raise c k x d b s) :=
  ⟨raise_wm .., raise_mem .., raise_keys .., raise_dev .., enqueue_syncs _ _⟩

theorem startKept_requeue (s : State) (r : Rec) : StartKept s (requeue r s) :=
  ⟨enqueue_wm .., enqueue_mem .., enqueue_keys .., enqueue_dev .., enqueue_syncs _ _⟩

theorem startKept_stateChange (s : State) : StartKept s (stateChange s) :=
  ⟨irqRaise_wm .., irqRaise_mem .., irqRaise_keys .., irqRaise_dev .., congrArg Evt.syncs (irqRaise_evt ..)⟩

theorem startKept_huntSync (s : State) (l : Nat) : StartKept s (huntSync l s) := by
  unfold huntSync
  dsimp only
  split
  · exact ⟨rfl, rfl, rfl, rfl, rfl⟩
  · exact ⟨rfl, rfl, rfl, rfl, rfl⟩

/-- The state with mode `m` entered, before its events. -/
def inMode (m : Mode) (s : State) : State :=
  { s with dev := { s.dev with mode := m, prevMode := modeCode s.dev.mode, fcMode := s.clk.fc, cycMode := s.clk.cyc } }

theorem startKept_changeRunning (m : Mode) (s : State) : StartKept (inMode m s) (changeRunning m s) :=
  ((startKept_raise ..).trans (startKept_stateChange _)).trans (StartKept.foldl startKept_huntSync _ _)

/-- The mode that BOOT or the wake ends in. -/
def startMode (s : State) : Mode :=
  if s.dev.woke then .maintenance else if (List.range 4).any (fun e => fenceCause s e != 0) then .contained else .commissioning

theorem startMode_woke (h : s.dev.woke = true) : startMode s = .maintenance := if_pos h

theorem startMode_fenced (h : s.dev.woke = false) (hf : ∃ e < 4, fenceCause s e ≠ 0) : startMode s = .contained :=
  (if_neg (by simp [h])).trans (if_pos (by simpa using hf))

theorem startMode_sound (h : s.dev.woke = false) (hf : ∀ e < 4, fenceCause s e = 0) : startMode s = .commissioning :=
  (if_neg (by simp [h])).trans (if_neg (by simpa using hf))

/-- The device when BOOT or the wake ends, before the mode is entered (16 R437, R441). -/
def started (s : State) : State :=
  { s with
    wm := []
    keys := { Keys.reset with kek := s.keys.kek, alarm := s.keys.alarm }
    io := { Io.reset with msix := s.io.msix, pcie := s.io.pcie }
    mem := { Mem.reset with repairs := s.mem.repairs, passAt := s.clk.now, bgAt := s.clk.now }
    evt := { s.evt with syncs := [] }
    conn := if s.dev.woke then retainedConn s.conn else s.conn
    clk := { s.clk with tickAt := s.clk.now + 125000 - cycleNs }
    dev := { s.dev with
      ready := true, bootPhase := 4, cameFrom := .commissioning, retFlag := false, retRecord := none, upAt := s.clk.now } }

theorem startKept_sampleTaps (s : State) : StartKept s (sampleTaps s) := ⟨rfl, rfl, rfl, rfl, rfl⟩

theorem StartKept.raised (h : StartKept u t) (c k x : Nat) (d : Word) (b : Bool) : StartKept u (raise c k x d b t) :=
  h.trans (startKept_raise c k x d b t)

/-- The events of the end leave what the device starts with. -/
theorem StartKept.events {m : Mode} (h : StartKept u (inMode m t)) (c k x : Nat) (d : Word) (b : Bool) :
    StartKept u (raise c k x d b (sampleTaps (changeRunning m t))) :=
  ((h.trans (startKept_changeRunning m t)).trans (startKept_sampleTaps _)).raised c k x d b

theorem StartKept.requeues (h : StartKept u t) (l : List Rec) : StartKept u (l.foldl (fun s r => requeue r s) t) :=
  h.trans (StartKept.foldl startKept_requeue l t)

theorem startKept_bootEnd (s : State) : StartKept (inMode (startMode s) (started s)) (bootEnd s) := by
  have hmode : StartKept (inMode (startMode s) (started s)) (inMode (startMode s) (started s)) := ⟨rfl, rfl, rfl, rfl, rfl⟩
  unfold bootEnd
  dsimp only
  split
  · exact ((hmode.events _ _ _ _ _).raised _ _ _ _ _).requeues _
  · exact hmode.events _ _ _ _ _

/-- Settles O60: reset and rail loss by mode and flag, the steps of BOOT in order, its end by what `bootEnd` keeps (`startKept_bootEnd`). -/
theorem bootRows : Obligations.BootRows := by
  refine ⟨fun s hm => if_pos hm, fun s hm => if_neg hm, fun s => ?_, fun s => ?_, fun r s => ⟨fun hm hr => ?_, fun hm => congrArg _ (railLoss_save hm),
      fun hm hr => ?_, fun hret hsave hr => congrArg _ (railLoss_off hret hsave hr), rfl, rfl, rfl⟩,
    fun i s => ⟨fun h => ?_, fun hl h => ?_, fun h => ?_, fun hl hf => ?_⟩, fun w i s => rfl, fun i s => ?_, bootFail_dev,
    fun s => exec_bootImagePoll_waits, fun s i hi hp ht => ⟨fun ho => ?_, fun ho hc => ?_, fun ho hc => ⟨_, ?_, rfl⟩⟩,
    fun s => ⟨fun h => ?_, fun hp hm => ?_⟩⟩
  · refine ⟨rfl, rfl, rfl, rfl, rfl, rfl, rfl, rfl, rfl, rfl, rfl, rfl, rfl, rfl, fun hf => ?_, resetAll_retention, resetAll_boot⟩
    obtain ⟨hcom, hblocks, hspares, hbad, hrepairs⟩ := resetAll_retained hf
    exact ⟨hcom, hblocks, hspares, hbad, hrepairs, resetAll_wm hf⟩
  · refine ⟨storeTorn_idle, storeTorn_checkpoint, fun l c f n => storeTorn_armed, tornWrite_even, fun hk ⟨f, hf⟩ => tornWrite_zero hk hf,
      fun hk hf => tornWrite_other hk (not_exists.mp hf)⟩
  · refine ⟨dataRailsOff s, congrArg _ (railLoss_retention hm hr), rfl, rfl, rfl, fun hf => ?_, rfl⟩
    obtain ⟨hcom, hblocks, -, -, hrepairs⟩ := resetAll_retained hf
    exact ⟨resetAll_retention hf hm, resetAll_wm hf, hcom, hblocks, hrepairs⟩
  · rw [hr]
    exact congrArg _ (railLoss_vddRet hm)
  · refine if_neg ?_
    rw [Bool.and_eq_true, Bool.or_eq_true]
    rintro ⟨hlow, hflag⟩
    rcases h with h | ⟨h, hmode⟩
    · exact absurd (h.symm.trans hlow) nofun
    · rcases hflag with hflag | hflag
      · simp [h] at hflag
      · exact absurd (hmode.symm.trans hflag) nofun
  · refine if_pos ?_
    rw [Bool.and_eq_true, Bool.or_eq_true]
    exact ⟨hl, h.imp_left fun h => by simp [h]⟩
  · exact if_neg (by rcases h with h | h <;> simp [h])
  · exact if_pos (by simp [hl, hf])
  · refine ⟨bootSteps_noCp, fun ha hf => ?_, fun ha hf hx => ?_, fun ha hf hx hc => ?_, fun ha hf hx hc => ?_, fun f => bootRepairs_store,
      bootRepairs_none, bootImage_poll, bootImage_reserved, bootImage_noSpi_fails, bootImage_noSpi_polls, fun src v => bootImage_accepted⟩
    · simp only [bootSteps_cp ha, hf, Bool.not_false, if_true]
    · simp only [bootSteps_cp ha, hf, hx, Bool.not_false, Bool.not_true, Bool.false_eq_true, if_true, if_false]
    · simp only [bootSteps_cp ha, hf, hx, hc, Bool.not_false, Bool.not_true, Bool.false_eq_true, if_true, if_false]
    · simp only [bootSteps_cp ha, hf, hx, hc, Bool.not_true, Bool.false_eq_true, if_false]
  · rw [exec_bootImagePoll hi hp ht, pollImage_none ho]
    rfl
  · rw [exec_bootImagePoll hi hp ht, pollImage_offered ho]
    exact congrArg _ (if_pos hc)
  · rw [exec_bootImagePoll hi hp ht, pollImage_offered ho]
    exact congrArg _ (if_neg hc)
  · exact if_neg (by rcases h with h | h <;> simp [h])
  · have hend : exec .bootComplete s = .next (bootEnd s) := if_pos (by simpa using ⟨hp, hm⟩)
    obtain ⟨hwm, hmem, hkeys, hdev, hsyncs⟩ := startKept_bootEnd s
    have hmode : (bootEnd s).dev.mode = startMode s := congrArg Dev.mode hdev
    exact ⟨bootEnd s, hend, hwm, hmem, hsyncs, congrArg Dev.ready hdev, congrArg Dev.bootPhase hdev, hkeys,
      fun h => hmode.trans (startMode_woke h), fun h hf => hmode.trans (startMode_fenced h hf), fun h hf => hmode.trans (startMode_sound h hf)⟩

end Sys2Proof.Machine
